-- ==== Sys2Proof/Word.lean ====
section
/-! DEFINITION. The words, bytes and part numbers of the W2 (00 R5, 01 R10, Table 18-2). -/
namespace Sys2Proof

/-- A byte is 8 bits (00 R5). -/
abbrev Byte := BitVec 8
/-- A register word, and a slot word, is 64 bits (18 R478, 05 R139). -/
abbrev Word := BitVec 64

/-- A physical core, 0 to 271 (01 R10). -/
abbrev CoreId := Fin 272
/-- A bay, which is a quad, 0 to 63 (01 R10). -/
abbrev BayId := Fin 64
/-- A bent, 0 to 15; a Windway segment bears its bent's number (01 R10, Table 01-6). -/
abbrev BentId := Fin 16
/-- A context, 0 to 4,095 (14 R382). -/
abbrev CtxId := Fin 4096
/-- A Windway queue of a context (08 R217). -/
abbrev QueueId := Fin 256
/-- A peg of the package (07 R196). -/
abbrev PegId := Fin 65536
/-- A Truss port (10 R271). -/
abbrev PortId := Fin 16
/-- A Truss lane of a port (10 R271). -/
abbrev LaneId := Fin 8
/-- A CXL port and its function (18 R475). -/
abbrev CxlId := Fin 2
/-- A DRAM stack (13 R356). -/
abbrev StackId := Fin 8
/-- A teacher slot of the NVW (13 R364). -/
abbrev SlotId := Fin 8
/-- A checkpoint store (13 R375). -/
abbrev StoreId := Fin 16
/-- An HDM window (13 R377). -/
abbrev HdmId := Fin 64
/-- A ring (18 Table 18-2). -/
abbrev RingId := Fin 512
/-- A logical core within a context: 4 × context bay + core (01 R10, 05 Table 05-2). -/
abbrev LogicalId := Fin 256

end Sys2Proof
end

