-- ==== Sys2Proof/Syntax.lean ====
section
/-! DEFINITION. The commands of the block, as data: one constructor per row of spec/opcode_table.json, and the operand
types they carry. -/
namespace Sys2Proof

/-- The slots of a bundle (05 R139), coded as the trap record codes them (05 Table 05-12). -/
inductive Slot where | S | M | V | D
deriving DecidableEq, Repr

/-- The bits of a slot word besides its opcode (05 Table 05-6). -/
structure SlotArgs where
  pred : BitVec 4
  pneg : Bool
  operands : BitVec 51
deriving DecidableEq, Repr

/-- The operand bits [20:6] of a legacy operation, the position it holds in its word, and the word's WAIT bit
(07 Tables 07-4 and 07-5). -/
structure LegacyArgs where
  operands : BitVec 15
  pos : Fin 3
  wait : Bool
deriving DecidableEq, Repr

/-- The units of 06 Table 06-1. -/
inductive ExecUnit where | scalar | array | writeOut | vector | row | gather | bellows
deriving DecidableEq, Repr

/-- A command entry without its opcode, which the row gives (18 Table 18-9); args are the words at 0x08 to 0x38. -/
structure Entry where
  ring : RingId
  cmdId : BitVec 32
  waitPrior : Bool
  reportStart : Bool
  noSignal : Bool
  flags : BitVec 5
  ctx : CtxId
  reserved : BitVec 4
  args : List Word
deriving DecidableEq, Repr

/-- A stream command record without its opcode (12 Table 12-3). -/
structure StreamRec where
  flags : BitVec 8
  stream : BitVec 16
  count : BitVec 32
  arg1 : Word
  arg2 : Word
deriving DecidableEq, Repr

/-- The host command a stream command came in by (12 R327, 18 Table 18-10 STREAM). -/
structure HostRef where
  ring : RingId
  cmdId : BitVec 32
  noSignal : Bool
deriving DecidableEq, Repr

/-- What supplies a checkpoint to a restore (09 Table 09-9), as its source answers. -/
inductive RestoreSource where
  | buddy   -- the buddy's store
  | drain   -- the tier-3 drain
  | none_   -- neither can
  | badDigest
deriving DecidableEq, Repr

/-- What happens on the replay bays during a replay (09 R269), in order: the steps of their cores and of their pegs, and the
increments that reach a peg from outside the bays. -/
inductive ReplayEvent where
  | issue (c : CoreId)
  | word (c : CoreId)
  | complete (c : CoreId) (u : ExecUnit) (k : Fin 4)
  | retry (c : CoreId)
  | post (c : CoreId)
  | apply (p : PegId)
  | arrive (p : PegId) (inc : BitVec 32)
  | release (c : CoreId)
  | fence (c : CoreId)
  | halted (c : CoreId)
deriving DecidableEq, Repr

/-- One entry of a replay trace (09 R268): core, BUNDLE_SEQ, slot and digest. -/
structure TraceEntry where
  core : LogicalId
  seq : Word
  slot : Slot
  digest : BitVec 32
deriving DecidableEq, Repr

/-- What a discovery flit carries (10 R283). -/
structure Discovery where
  identity : BitVec 64
  address : BitVec 16
  addrValid : Bool
  port : PortId
deriving DecidableEq, Repr

/-- A discovery flit as it comes (10 R277, R283): its FLIT_SEQ, its ACK_SEQ and what it carries. -/
structure DiscoveryFlit where
  seq : BitVec 16
  ack : BitVec 16
  peer : Discovery
deriving DecidableEq, Repr

/-- A flit (10 Table 10-4); the tag is not carried, its verdict is the command's. -/
structure Flit where
  type : BitVec 4
  cls : BitVec 2
  seq : BitVec 16
  ack : BitVec 16
  nak : Bool
  epoch : BitVec 8
  credits : BitVec 8
  payload : List Byte
deriving DecidableEq, Repr

/-- Why a link retrains (10 R280, R296). -/
inductive RetrainCause where | resends | uncorrectable | lostLock
deriving DecidableEq, Repr

/-- The five values that identify a channel (10 R290). -/
structure ChannelKey where
  src : BitVec 16
  srcCtx : BitVec 12
  dest : BitVec 16
  ctx : BitVec 12
  channel : BitVec 12
deriving DecidableEq, Repr

/-- A packet (10 Table 10-6). -/
structure Packet where
  key : ChannelKey
  ordered : Bool
  type : BitVec 4
  seq : BitVec 32
  body : List Byte
deriving DecidableEq, Repr

/-- A B8 block (11 Table 11-3). -/
structure Block where
  codes : List (BitVec 8)
  exp : BitVec 8
  maxExp : BitVec 8
  sumCheck : BitVec 16
  crc : BitVec 32
deriving DecidableEq, Repr

/-- A reduce packet: the header of 11 Table 11-4 and its blocks. -/
structure ReducePacket where
  attempt : BitVec 8
  lsExp : BitVec 8
  nonfinite : Bool
  step : BitVec 32
  bucket : BitVec 32
  segment : BitVec 14
  hop : BitVec 14
  firstBlock : BitVec 32
  contrib : BitVec 15
  risk : BitVec 16
  satCount : BitVec 16
  blocks : List Block
deriving DecidableEq, Repr

/-- A summary record (11 Table 11-5) with the ATTEMPT of its header. -/
structure Summary where
  attempt : BitVec 8
  step : Word
  lsExp : BitVec 8
  nonfinite : Bool
  broadcast : Bool
  risk : BitVec 16
  q : BitVec 64
  late : BitVec 32
  buckets : BitVec 32
  maxs : List (BitVec 32)
  sums : List (BitVec 64)
deriving DecidableEq, Repr

/-- A working-copy or wire-scale chunk (11 R311). -/
structure Chunk where
  scales : Bool
  attempt : BitVec 8
  lsExp : BitVec 8
  step : BitVec 32
  owner : BitVec 14
  hop : BitVec 14
  offset : BitVec 32
  data : List Byte
  checks : List (BitVec 32)
deriving DecidableEq, Repr

/-- What ECC and the check value said of a granule read (13 R357). -/
inductive EccOutcome where | clean | corrected | uncorrectable
deriving DecidableEq, Repr

/-- What became of a shard that arrived (13 R367 to R368). -/
inductive ShardOutcome where | programmed | badDigest | readFailed
deriving DecidableEq, Repr

/-- An incoming checkpoint capture (13 R376): what it is, and the PKT_SEQ of the packet that brings its first granule. -/
structure Capture where
  device : BitVec 16
  ctx : BitVec 12
  step : Word
  bytes : BitVec 48
  first : BitVec 32
deriving DecidableEq, Repr

/-- A host CXL.mem access (13 R378): a read of n bytes or a write. -/
inductive HostAccess where
  | read (n : Fin 4097)
  | write (bs : List Byte)
deriving DecidableEq, Repr

/-- What a host commits an HDM decoder to (18 R486): the host physical address of the window and its size. -/
structure DecoderRange where
  base : BitVec 52
  size : BitVec 48
deriving DecidableEq, Repr

/-- A Windway record on its way into a scratchpad (08 R228): its queue, and whether its check value held. -/
structure DeliveredRecord where
  q : QueueId
  good : Bool
deriving DecidableEq, Repr

/-- A commit gate that looks (09 R257): its context, and whether every island has reported its checks drained (16 R439). -/
structure GateLook where
  x : CtxId
  drained : Bool
deriving DecidableEq, Repr

/-- A capture that starts (09 R263): its context, and whether the check values of what it reads held. -/
structure CaptureRead where
  x : CtxId
  good : Bool
deriving DecidableEq, Repr

/-- A span neighbour's report as the Joiner sees it (15 R417), and whether that neighbour has accepted this package's (10
R294). -/
structure SpanReport where
  chainOk : Bool
  manifestId : BitVec 64
  debugScope : BitVec 8
  accepted : Bool
deriving DecidableEq, Repr

/-- What was detected (16 Tables 16-3 and 16-11). -/
inductive FaultKind where
  | granuleCompare   -- two destination check values differ at a unit's own write
  | residue          -- matrix row or column residue
  | shadow           -- vector, row, gather or write-out shadow
  | tier0Ecc         -- uncorrectable tier-0 ECC
  | control          -- instruction parity or sequence watchdog
  | checkOnRead
  | egress
  | poison
  | partialPoison
  | sealedTag
  | sharedIsland
  | exchangeAdder
  | tier0Corrected
deriving DecidableEq, Repr

/-- A detected fault: what, where, and whose data (16 Table 16-8); others are the further contexts with data in flight through a
shared island (Table 16-3). -/
structure FaultEvent where
  kind : FaultKind
  island : BitVec 16
  core : CoreId
  ctx : CtxId
  others : List CtxId
  row : BitVec 8
  col : BitVec 8
  addr : Word
deriving DecidableEq, Repr

/-- What a calibration worked on (17 R469). -/
inductive CalTarget where
  | dram (ch : Fin 128)
  | nvw (st : Fin 4)
deriving DecidableEq, Repr

/-- A Ledger record's content (17 Table 17-5). -/
inductive LedgerRec where
  | fence (core : CoreId)
  | spare (bent : BentId) (map : List (Option (Fin 17))) (free : Option (Fin 17))
  | wear (slot : SlotId) (block : Fin 4096) (count : Nat)
  | keyGen (gen : BitVec 32) (sweeping : Bool) (bytes : Nat)
  | manifest (head : SlotId) (bs : List Byte)
  | slotState (slot : SlotId) (state : BitVec 4) (first : SlotId) (count : Nat)
  | firmware (active : Bool) (validA validB : Bool)
  | minVersion (kind : Fin 2) (v : Nat)
  | calibration (kind : Fin 3) (target : Nat)
  | ckptIndex (ctx : CtxId) (step : Word)
  | tenantNonce (ctx : CtxId) (nonce : Word)
  | counter (which : Fin 8) (value : Nat)
  | unknown (type : BitVec 16)
deriving DecidableEq, Repr

/-- Which register space a write goes to: BAR0 through a function, BAR2, or the management space (18 R477, 20 R525). -/
inductive RegSpace where
  | bar0 (f : CxlId)
  | bar2
  | mgmt
  | config (f : CxlId)
deriving DecidableEq, Repr

/-- A register write: the space, the byte offset, the access size in bytes and the value (18 R478). -/
structure RegWrite where
  space : RegSpace
  off : BitVec 30
  size : Fin 17
  value : Word
deriving DecidableEq, Repr

/-- The rails of 19 Table 19-1, in the order of Table 19-2; the last four rise in any order. -/
inductive Rail where
  | aux | mgmt | sram | logic | vppDram | vddqDram | vddNvw | vppNvw | serdes | serdesH
deriving DecidableEq, Repr

/-- What a rail did (19 R501): began to rise, reached tolerance, failed to reach it within 10 ms, or was lowered. -/
inductive RailStep where | rises | good | late | falls
deriving DecidableEq, Repr

/-- The reference clocks of 19 Table 19-3. -/
inductive RefClock where
  | hif (p : CxlId)
  | trs
  | jnr
deriving DecidableEq, Repr

/-- The widths a CXL port trains at or takes under L0p (18 Table 18-1, 19 R514). -/
inductive CxlWidth where | x16 | x8 | x4
deriving DecidableEq, Repr

/-- How a CXL port came up (18 R475, Table 18-3). -/
structure CxlLink where
  cxl : Bool
  width : CxlWidth
  rate64 : Bool
  latencyOpt : Bool
deriving DecidableEq, Repr

/-- The TAP instructions (20 R526). -/
inductive TapInstr where
  | bypass | idcode | samplePreload | extest | clamp | highz | extestPulse | extestTrain | private_ (ir : BitVec 8)
deriving DecidableEq, Repr

/-- What cooled (13 R362, 19 R509). -/
inductive TripTarget where
  | stack (g : StackId)
  | core (c : CoreId)
deriving DecidableEq, Repr

/-- A request over DOE (18 Table 18-1). -/
inductive DoeRequest where
  | certificates
  | measurements
  | ideKeysIo
  | ideKeysCachemem
deriving DecidableEq, Repr


/-- The commands: one constructor for each row of spec/opcode_table.json, in its order. -/
inductive Instr where
  /-- BUNDLE_ISSUE (R163): A core issues its next bundle once every executing slot can issue, reading sources and resolving predicates. -/
  | bundleIssue (c : CoreId)
  /-- UNIT_COMPLETE (R165): An instruction completes on its unit, writes its register results and sets its flags and TILE_STATUS. -/
  | unitComplete (c : CoreId) (u : ExecUnit) (k : Fin 4)
  /-- DEFERRED_TRAP_POST (R155): A deferred trap is posted at the first bundle boundary after its instruction completes or is withdrawn. -/
  | deferredTrapPost (c : CoreId)
  /-- NOOP (R139): Slot opcode 0x00 does nothing. -/
  | noop (c : CoreId) (sl : Slot) (a : SlotArgs)
  /-- ADD (R177): Scalar add modulo 2^64. -/
  | add (c : CoreId) (a : SlotArgs)
  /-- SUB (R177): Scalar subtract modulo 2^64. -/
  | sub (c : CoreId) (a : SlotArgs)
  /-- MUL (R177): Scalar multiply modulo 2^64. -/
  | mul (c : CoreId) (a : SlotArgs)
  /-- MULH (R177): High 64 bits of the signed scalar product. -/
  | mulh (c : CoreId) (a : SlotArgs)
  /-- AND (R177): Scalar bitwise AND. -/
  | and_ (c : CoreId) (a : SlotArgs)
  /-- OR (R177): Scalar bitwise OR. -/
  | or_ (c : CoreId) (a : SlotArgs)
  /-- XOR (R177): Scalar bitwise XOR. -/
  | xor (c : CoreId) (a : SlotArgs)
  /-- SHL (R177): Scalar shift left by SB[5:0]. -/
  | shl (c : CoreId) (a : SlotArgs)
  /-- SHR (R177): Scalar logical shift right. -/
  | shr (c : CoreId) (a : SlotArgs)
  /-- SAR (R177): Scalar arithmetic shift right. -/
  | sar (c : CoreId) (a : SlotArgs)
  /-- MIN (R177): Signed scalar minimum. -/
  | min_ (c : CoreId) (a : SlotArgs)
  /-- MAX (R177): Signed scalar maximum. -/
  | max_ (c : CoreId) (a : SlotArgs)
  /-- MINU (R177): Unsigned scalar minimum. -/
  | minu (c : CoreId) (a : SlotArgs)
  /-- MAXU (R177): Unsigned scalar maximum. -/
  | maxu (c : CoreId) (a : SlotArgs)
  /-- LDI (R177): Load the sign-extended immediate into SD. -/
  | ldi (c : CoreId) (a : SlotArgs)
  /-- LDIH (R177): Load the immediate into SD[63:32], keeping the low half. -/
  | ldih (c : CoreId) (a : SlotArgs)
  /-- FADD (R178): Floating scalar add of width W in mode RM. -/
  | fadd (c : CoreId) (a : SlotArgs)
  /-- FSUB (R178): Floating scalar subtract. -/
  | fsub (c : CoreId) (a : SlotArgs)
  /-- FMUL (R178): Floating scalar multiply. -/
  | fmul (c : CoreId) (a : SlotArgs)
  /-- FDIV (R178): Floating scalar divide, holding the scalar unit for 8 cycles. -/
  | fdiv (c : CoreId) (a : SlotArgs)
  /-- FMAX (R58): Floating scalar maximum. -/
  | fmax (c : CoreId) (a : SlotArgs)
  /-- FMIN (R58): Floating scalar minimum. -/
  | fmin (c : CoreId) (a : SlotArgs)
  /-- FCVT (R178): Scalar conversion between int64, binary32 and binary64, as CONV selects. -/
  | fcvt (c : CoreId) (a : SlotArgs)
  /-- SLD (R179): Load 8 bytes from the scratchpad into SD. -/
  | sld (c : CoreId) (a : SlotArgs)
  /-- SST (R179): Store 8 bytes from SB to the scratchpad. -/
  | sst (c : CoreId) (a : SlotArgs)
  /-- TDLD (R179): Load a 32-byte tensor descriptor into a td register. -/
  | tdld (c : CoreId) (a : SlotArgs)
  /-- TDST (R179): Store a td register to the scratchpad. -/
  | tdst (c : CoreId) (a : SlotArgs)
  /-- TDFLD (R177): Set a descriptor field, or add to it. -/
  | tdfld (c : CoreId) (a : SlotArgs)
  /-- SMOVS (R170): Read a status register into SD. -/
  | smovs (c : CoreId) (a : SlotArgs)
  /-- SMOVT (R170): Write SA to a status register. -/
  | smovt (c : CoreId) (a : SlotArgs)
  /-- CMP (R177): Integer compare into a predicate register. -/
  | cmp (c : CoreId) (cond : BitVec 3) (a : SlotArgs)
  /-- FCMP (R178): Quiet floating compare into a predicate register. -/
  | fcmp (c : CoreId) (cond : BitVec 3) (a : SlotArgs)
  /-- BRA (R180): Branch relative to the bundle address. -/
  | bra (c : CoreId) (a : SlotArgs)
  /-- BRR (R180): Branch to SA plus IMM. -/
  | brr (c : CoreId) (a : SlotArgs)
  /-- CALL (R177): Save the return address in SD, then branch as BRA. -/
  | call (c : CoreId) (a : SlotArgs)
  /-- PEGS (R198): Signal a peg with an increment. -/
  | pegs (c : CoreId) (a : SlotArgs)
  /-- PEG_APPLY (R198): The peg's slice applies an increment indivisibly and releases any satisfied waiters. -/
  | pegApply (p : PegId)
  /-- PEGW (R199): Wait until a peg's count reaches a threshold under the modular test. -/
  | pegw (c : CoreId) (a : SlotArgs)
  /-- PEGW_RELEASE (R199): A waiting PEGW is released at the first increment that satisfies it. -/
  | pegwRelease (c : CoreId)
  /-- FENCE (R201): Place a barrier until earlier accesses in the scope mask complete. -/
  | fence (c : CoreId) (a : SlotArgs)
  /-- FENCE_CLEAR (R201): The FENCE barrier clears when every covered access has completed, and issue resumes. -/
  | fenceClear (c : CoreId)
  /-- TRAPNAN (R182): Write NAN_MODE and optionally clear NAN_SEEN. -/
  | trapnan (c : CoreId) (a : SlotArgs)
  /-- HALT (R183): Stop issue after this bundle. -/
  | halt (c : CoreId) (a : SlotArgs)
  /-- CORE_HALTED (R183): A halted core reports halted once all issued instructions complete, and the program ends when all its cores have halted. -/
  | coreHalted (c : CoreId)
  /-- MMA (R86): Matrix product accumulated into a tile with the fixed group alignment. -/
  | mma (c : CoreId) (a : SlotArgs)
  /-- INTEGER_RETRY_PASS (R92): An integer MMA pass ends out of range and a retry pass or the fallback follows. -/
  | integerRetryPass (c : CoreId)
  /-- MMX (R95): Split-precision binary32 product through bfloat16 passes. -/
  | mmx (c : CoreId) (a : SlotArgs)
  /-- WRITE_OUT (R185): Convert an accumulator tile to a destination, with optional row statistics. -/
  | writeOut (c : CoreId) (a : SlotArgs)
  /-- VADD (R186): Vector add. -/
  | vadd (c : CoreId) (a : SlotArgs)
  /-- VSUB (R186): Vector subtract. -/
  | vsub (c : CoreId) (a : SlotArgs)
  /-- VMUL (R186): Vector multiply. -/
  | vmul (c : CoreId) (a : SlotArgs)
  /-- VFMA (R186): Vector fused multiply-add. -/
  | vfma (c : CoreId) (a : SlotArgs)
  /-- VMAX (R186): Vector maximum. -/
  | vmax (c : CoreId) (a : SlotArgs)
  /-- VMIN (R186): Vector minimum. -/
  | vmin (c : CoreId) (a : SlotArgs)
  /-- VCMP (R186): Vector compare into a predicate. -/
  | vcmp (c : CoreId) (a : SlotArgs)
  /-- VIADD (R186): INT32 vector add. -/
  | viadd (c : CoreId) (a : SlotArgs)
  /-- VISUB (R186): INT32 vector subtract. -/
  | visub (c : CoreId) (a : SlotArgs)
  /-- VSHL (R186): INT32 vector shift left. -/
  | vshl (c : CoreId) (a : SlotArgs)
  /-- VSHR (R186): INT32 vector logical shift right. -/
  | vshr (c : CoreId) (a : SlotArgs)
  /-- VSAR (R186): INT32 vector arithmetic shift right. -/
  | vsar (c : CoreId) (a : SlotArgs)
  /-- VAND (R186): INT32 vector AND. -/
  | vand (c : CoreId) (a : SlotArgs)
  /-- VOR (R186): INT32 vector OR. -/
  | vor (c : CoreId) (a : SlotArgs)
  /-- VXOR (R186): INT32 vector XOR. -/
  | vxor (c : CoreId) (a : SlotArgs)
  /-- VDIV (R103): Vector divide. -/
  | vdiv (c : CoreId) (a : SlotArgs)
  /-- VSQRT (R103): Vector square root. -/
  | vsqrt (c : CoreId) (a : SlotArgs)
  /-- VEXP (R104): Correctly rounded vector exponential. -/
  | vexp (c : CoreId) (a : SlotArgs)
  /-- VLOG (R104): Correctly rounded vector logarithm. -/
  | vlog (c : CoreId) (a : SlotArgs)
  /-- VSIG (R105): Vector sigmoid. -/
  | vsig (c : CoreId) (a : SlotArgs)
  /-- VTANH (R105): Vector tanh. -/
  | vtanh (c : CoreId) (a : SlotArgs)
  /-- VSILU (R105): Vector SiLU. -/
  | vsilu (c : CoreId) (a : SlotArgs)
  /-- VGELU (R105): Vector GELU. -/
  | vgelu (c : CoreId) (a : SlotArgs)
  /-- VSIGD (R105): Vector sigmoid derivative. -/
  | vsigd (c : CoreId) (a : SlotArgs)
  /-- VTANHD (R105): Vector tanh derivative. -/
  | vtanhd (c : CoreId) (a : SlotArgs)
  /-- VSILUD (R105): Vector SiLU derivative. -/
  | vsilud (c : CoreId) (a : SlotArgs)
  /-- VGELUD (R105): Vector GELU derivative. -/
  | vgelud (c : CoreId) (a : SlotArgs)
  /-- VLD (R187): Vector load with decode. -/
  | vld (c : CoreId) (a : SlotArgs)
  /-- VST (R187): Vector store with encode. -/
  | vst (c : CoreId) (a : SlotArgs)
  /-- VMPACK (R188): Store a predicate as a packed mask. -/
  | vmpack (c : CoreId) (a : SlotArgs)
  /-- VMLOAD (R188): Load a packed mask into a predicate. -/
  | vmload (c : CoreId) (a : SlotArgs)
  /-- VMSEL (R188): Select elements by a predicate mask. -/
  | vmsel (c : CoreId) (a : SlotArgs)
  /-- CVT (R189): Convert a tensor, with given or automatic fine scales and a running maximum. -/
  | cvt (c : CoreId) (a : SlotArgs)
  /-- NORM_ACC (R118): Accumulate normalisation sums per row. -/
  | normAcc (c : CoreId) (a : SlotArgs)
  /-- NORM_FIN (R118): Finalise the mean and reciprocal standard deviation. -/
  | normFin (c : CoreId) (a : SlotArgs)
  /-- NORM_APPLY (R118): Apply the normalisation with gain and bias. -/
  | normApply (c : CoreId) (a : SlotArgs)
  /-- NORM_BACC (R118): Accumulate the backward normalisation sums. -/
  | normBacc (c : CoreId) (a : SlotArgs)
  /-- NORM_BFIN (R118): Finalise the backward normalisation means. -/
  | normBfin (c : CoreId) (a : SlotArgs)
  /-- NORM_BAPPLY (R118): Write the normalisation input gradient. -/
  | normBapply (c : CoreId) (a : SlotArgs)
  /-- SMAX_ACC (R119): Accumulate the softmax running maximum and sum. -/
  | smaxAcc (c : CoreId) (a : SlotArgs)
  /-- SMAX_FIN (R119): Finalise the softmax LSE. -/
  | smaxFin (c : CoreId) (a : SlotArgs)
  /-- SMAX_APPLY (R119): Write softmax probabilities. -/
  | smaxApply (c : CoreId) (a : SlotArgs)
  /-- SMAX_BACC (R119): Accumulate dy times p for the softmax backward pass. -/
  | smaxBacc (c : CoreId) (a : SlotArgs)
  /-- SMAX_BFIN (R119): Finalise the softmax backward mean. -/
  | smaxBfin (c : CoreId) (a : SlotArgs)
  /-- SMAX_BAPPLY (R119): Write the softmax input gradient. -/
  | smaxBapply (c : CoreId) (a : SlotArgs)
  /-- TOPK_INIT (R120): Initialise a top-k header and its empty entries. -/
  | topkInit (c : CoreId) (a : SlotArgs)
  /-- TOPK_MERGE (R120): Merge a tile's scaled candidates into the top-k list. -/
  | topkMerge (c : CoreId) (a : SlotArgs)
  /-- TOPK_EMIT (R121): Write top-k indices, log-probabilities, TAIL and LSE, and free the records. -/
  | topkEmit (c : CoreId) (a : SlotArgs)
  /-- CLEAR (R116): Clear one side-memory record to KIND 0. -/
  | clear (c : CoreId) (a : SlotArgs)
  /-- STATSAVE (R117): Copy side-memory records to the scratchpad. -/
  | statsave (c : CoreId) (a : SlotArgs)
  /-- STATLOAD (R117): Copy side-memory records from the scratchpad, checking KIND and PHASE. -/
  | statload (c : CoreId) (a : SlotArgs)
  /-- GATH (R125): Gather table rows by index. -/
  | gath (c : CoreId) (a : SlotArgs)
  /-- SCAT (R126): Scatter rows into a table with a combine mode, in list order. -/
  | scat (c : CoreId) (a : SlotArgs)
  /-- SEGR (R127): Reduce source rows into segments. -/
  | segr (c : CoreId) (a : SlotArgs)
  /-- VOPT (R109): Optimiser step on a shard, with working copy and norms. -/
  | vopt (c : CoreId) (a : SlotArgs)
  /-- VNRM (R113): Reduce 64 partial norms by a fixed pairwise tree. -/
  | vnrm (c : CoreId) (a : SlotArgs)
  /-- SEED (R64): Seed the selected lane generators and zero their counters. -/
  | seed (c : CoreId) (a : SlotArgs)
  /-- RWND (R69): Step the selected lane generators back n draws. -/
  | rwnd (c : CoreId) (a : SlotArgs)
  /-- XFER (R194): Bellows move between spaces. -/
  | xfer (c : CoreId) (a : SlotArgs)
  /-- XFERT (R194): Transposing Bellows move into the scratchpad. -/
  | xfert (c : CoreId) (a : SlotArgs)
  /-- TIER3_READ_ABANDON (R161): Tier-3 reads still outstanding 10 µs after a drain request are abandoned. -/
  | tier3ReadAbandon (c : CoreId)
  /-- WWPUT (R228): A Windway put joins the queue's put order. -/
  | wwput (c : CoreId) (a : SlotArgs)
  /-- WWPUT_TAKE_CREDITS (R228): The head WWPUT takes n credits and sequence numbers once they are free, and places its records. -/
  | wwputTakeCredits (x : CtxId) (q : QueueId)
  /-- WWGET (R228): A Windway get joins the queue's get order. -/
  | wwget (c : CoreId) (a : SlotArgs)
  /-- WWGET_TAKE_RECORDS (R228): The head WWGET takes n records once they are placed. -/
  | wwgetTakeRecords (x : CtxId) (q : QueueId)
  /-- RECORD_DELIVERED (R228): A record is written into the getter's scratchpad and its credit is freed. -/
  | recordDelivered (x : CtxId) (d : DeliveredRecord)
  /-- REMOTE_RECORD_ARRIVE (R233): A record from a remote putter is placed in the partner's ring in sequence order. -/
  | remoteRecordArrive (x : CtxId) (q : QueueId) (bs : List Byte)
  /-- REMOTE_CREDIT_ARRIVE (R233): A returning credit reaches the remote putter's REMOTE_GET queue. -/
  | remoteCreditArrive (x : CtxId) (q : QueueId)
  /-- LEGACY_WORD_ISSUE (R209): A core in legacy mode issues one legacy word. -/
  | legacyWordIssue (c : CoreId)
  /-- LNOP (R208): Legacy no operation. -/
  | lnop (c : CoreId) (a : LegacyArgs)
  /-- LADD (R208): Legacy add. -/
  | ladd (c : CoreId) (a : LegacyArgs)
  /-- LSUB (R208): Legacy subtract. -/
  | lsub (c : CoreId) (a : LegacyArgs)
  /-- LMUL (R208): Legacy multiply. -/
  | lmul (c : CoreId) (a : LegacyArgs)
  /-- LAND (R208): Legacy AND. -/
  | land (c : CoreId) (a : LegacyArgs)
  /-- LOR (R208): Legacy OR. -/
  | lor (c : CoreId) (a : LegacyArgs)
  /-- LXOR (R208): Legacy XOR. -/
  | lxor (c : CoreId) (a : LegacyArgs)
  /-- LSHL (R208): Legacy shift left. -/
  | lshl (c : CoreId) (a : LegacyArgs)
  /-- LADDI (R208): Legacy add of a 10-bit immediate. -/
  | laddi (c : CoreId) (a : LegacyArgs)
  /-- LLDI (R208): Legacy load of an immediate. -/
  | lldi (c : CoreId) (a : LegacyArgs)
  /-- LORSH (R208): Legacy shift by 10 and OR of an immediate. -/
  | lorsh (c : CoreId) (a : LegacyArgs)
  /-- LLD (R208): Legacy scalar load. -/
  | lld (c : CoreId) (a : LegacyArgs)
  /-- LST (R208): Legacy scalar store. -/
  | lst (c : CoreId) (a : LegacyArgs)
  /-- LTDLD (R208): Legacy descriptor load. -/
  | ltdld (c : CoreId) (a : LegacyArgs)
  /-- LBR (R210): Legacy unconditional branch. -/
  | lbr (c : CoreId) (a : LegacyArgs)
  /-- LBNZ (R210): Legacy branch if nonzero. -/
  | lbnz (c : CoreId) (a : LegacyArgs)
  /-- LBZ (R210): Legacy branch if zero. -/
  | lbz (c : CoreId) (a : LegacyArgs)
  /-- LBX (R210): Branch to a bundle and leave legacy mode. -/
  | lbx (c : CoreId) (a : LegacyArgs)
  /-- LMMA (R211): Legacy quarter-array matrix product. -/
  | lmma (c : CoreId) (a : LegacyArgs)
  /-- LWO (R212): Legacy write-out in the W1 24-bit layout. -/
  | lwo (c : CoreId) (a : LegacyArgs)
  /-- LVADD (R208): Legacy vector add. -/
  | lvadd (c : CoreId) (a : LegacyArgs)
  /-- LVSUB (R208): Legacy vector subtract. -/
  | lvsub (c : CoreId) (a : LegacyArgs)
  /-- LVMUL (R208): Legacy vector multiply. -/
  | lvmul (c : CoreId) (a : LegacyArgs)
  /-- LVMAX (R208): Legacy vector maximum. -/
  | lvmax (c : CoreId) (a : LegacyArgs)
  /-- LVMIN (R208): Legacy vector minimum. -/
  | lvmin (c : CoreId) (a : LegacyArgs)
  /-- LVLD (R208): Legacy vector load. -/
  | lvld (c : CoreId) (a : LegacyArgs)
  /-- LVST (R208): Legacy vector store. -/
  | lvst (c : CoreId) (a : LegacyArgs)
  /-- LXFER (R208): Legacy Bellows move. -/
  | lxfer (c : CoreId) (a : LegacyArgs)
  /-- LPEGS (R208): Legacy peg signal of increment 1. -/
  | lpegs (c : CoreId) (a : LegacyArgs)
  /-- LPEGW (R208): Legacy peg wait. -/
  | lpegw (c : CoreId) (a : LegacyArgs)
  /-- LFENCE (R208): Legacy FENCE of full scope. -/
  | lfence (c : CoreId) (a : LegacyArgs)
  /-- LHALT (R208): Legacy HALT. -/
  | lhalt (c : CoreId) (a : LegacyArgs)
  /-- DRAIN_REQUEST (R161): A drain request stops issue and ends each slot by completing, withdrawing or abandoning its instruction. -/
  | drainRequest (c : CoreId)
  /-- CORE_DRAINED (R162): A core reaches a bundle boundary with its whole state architectural. -/
  | coreDrained (c : CoreId)
  /-- COUNTER_CLEAR (R101): Writing 1 zeroes a core's array counters. -/
  | counterClear (x : CtxId) (k : LogicalId) (v : Word)
  /-- QUEUE_ENABLE (R219): Setting a Windway queue's ENABLE runs its check and starts the queue. -/
  | queueEnable (x : CtxId) (q : QueueId)
  /-- QUEUE_DISABLE (R220): Clearing ENABLE discards records, withdraws waiters and clears any remote partner. -/
  | queueDisable (x : CtxId) (q : QueueId)
  /-- QUEUE_CLEAR_DONE (R220): The ring and spill area finish clearing to zero. -/
  | queueClearDone (x : CtxId) (q : QueueId)
  /-- STEP_OPEN (R249): Open a training step and write the step record's header. -/
  | stepOpen (e : Entry)
  /-- STEP_COMMIT (R251): Close a step after the gate decision and advance the loss scale. -/
  | stepCommit (e : Entry)
  /-- GATE_DECIDE (R257): The commit gate decides HALT, REPEAT, SKIP or COMMIT once its inputs are ready. -/
  | gateDecide (g : GateLook)
  /-- RISK_SAMPLE (R261): Every 100 ms the package computes its risk value. -/
  | riskSample (margin : Int)
  /-- CHECKPOINT_CAPTURE_START (R263): A checkpoint capture starts once every core has written its marks or halted. -/
  | checkpointCaptureStart (c : CaptureRead)
  /-- CHECKPOINT_SECURED (R264): The buddy acknowledges every byte and digest, and the checkpoint index is updated. -/
  | checkpointSecured (x : CtxId)
  /-- RESTORE (R266): Restore a context to a secured checkpoint step, rewinding lanes. -/
  | restore (e : Entry) (src : RestoreSource)
  /-- REPLAY_ARM (R268): Arm trace recording of step n. -/
  | replayArm (e : Entry)
  /-- REPLAY (R269): Re-run a recorded step on replay bays and find the first mismatch. -/
  | replay (e : Entry) (run : List ReplayEvent)
  /-- PORT_ENABLE (R276): Setting a Truss port's ENABLE runs its check, then training. -/
  | portEnable (p : PortId)
  /-- PORT_DISABLE (R280): Clearing a port's ENABLE takes it down. -/
  | portDisable (p : PortId)
  /-- LINK_TRAINED (R273): Link training ends with the port up at eight or four lanes, or failed. -/
  | linkTrained (p : PortId) (lanes : BitVec 8)
  /-- TRS_ADDRESS_ENABLE (R282): Setting TRS_ADDRESS ENABLE assigns the package's device address. -/
  | trsAddressEnable (addr : BitVec 16)
  /-- DISCOVERY_FLIT_SEND (R283): Every 100 ms an up port sends a discovery flit. -/
  | discoveryFlitSend (p : PortId)
  /-- DISCOVERY_FLIT_RECEIVE (R283): A received discovery flit sets the peer fields or takes the port down. -/
  | discoveryFlitReceive (p : PortId) (f : DiscoveryFlit)
  /-- LINK_KEY_EXCHANGE (R412): The two ends of a port exchange certificates and derive link keys. -/
  | linkKeyExchange (p : PortId) (ok : Bool)
  /-- FLIT_RECEIVE (R279): A received flit is checked by FEC and tag and delivered, or discarded with a NAK. -/
  | flitReceive (p : PortId) (f : Flit) (fec : EccOutcome) (tagOk : Bool)
  /-- NAK_RESEND (R279): A NAK makes the sender resend from ACK_SEQ + 1. -/
  | nakResend (p : PortId) (ack : BitVec 16)
  /-- KEY_CHANGE_FLIT (R278): A key change flit switches the sender to the next link key generation. -/
  | keyChangeFlit (p : PortId)
  /-- RETRAIN (R280): A retrain cause starts a link retrain that keeps the retry buffer. -/
  | retrain (p : PortId) (cause : RetrainCause)
  /-- RETRAIN_DONE (R280): A retrain ends and the link resends, or the port fails. -/
  | retrainDone (p : PortId) (low : BitVec 4) (high : BitVec 4)
  /-- ROUTE_TABLE_WRITE (R286): A 32-bit route entry write takes effect for later packets. -/
  | routeTableWrite (dest : BitVec 16) (v : BitVec 32)
  /-- CHANNEL_OPEN (R284): Opening an ordered channel exchanges the fused identities of both ends. -/
  | channelOpen (k : ChannelKey) (peer : BitVec 64)
  /-- PACKET_SEND (R287): A source sends a packet by its route, or refuses it without a route. -/
  | packetSend (pk : Packet)
  /-- PACKET_RECEIVE (R289): A destination delivers, forwards or discards a packet and acknowledges it end to end. -/
  | packetReceive (pk : Packet)
  /-- PACKET_RESEND_TIMEOUT (R291): An unacknowledged packet is resent after 500 µs, or the channel is declared down. -/
  | packetResendTimeout (k : ChannelKey) (n : BitVec 32)
  /-- FRAME_ENTRY_UPDATE (R23): The Joiners update a frame member entry by exchange over the Truss. -/
  | frameEntryUpdate (level : Fin 11) (ws : List Word)
  /-- BUCKET_CLOSE (R302): A PEGS on CTX_FILL_PEG closes the next bucket for the exchange engine. -/
  | bucketClose (x : CtxId)
  /-- REDUCE_PACKET_RECEIVE (R306): A reduce packet is checked, combined with the own block and forwarded, or decoded at the owner. -/
  | reducePacketReceive (x : CtxId) (r : ReducePacket)
  /-- BUCKET_DEADLINE_EXPIRE (R315): A bucket not closed at its deadline has its contribution excluded. -/
  | bucketDeadlineExpire (x : CtxId) (b : BitVec 16)
  /-- CUTOFF_EXPIRE (R317): A shard still incomplete at the hard cut-off aborts the attempt. -/
  | cutoffExpire (x : CtxId)
  /-- ABORT_PACKET_RECEIVE (R317): An abort packet for the open attempt makes the gate decide REPEAT. -/
  | abortPacketReceive (x : CtxId) (step : Word) (attempt : BitVec 8) (code : BitVec 16)
  /-- SUMMARY_MERGE (R312): A rank merges its values into the step summary once its shard and forwards are complete. -/
  | summaryMerge (x : CtxId)
  /-- SUMMARY_RECEIVE (R312): A received summary is merged and forwarded, or its broadcast totals are taken. -/
  | summaryReceive (x : CtxId) (r : Summary)
  /-- GATHER_START (R311): A CTX_GATHER_PEG signal starts the all-gather of the working-copy piece and scale entries. -/
  | gatherStart (x : CtxId)
  /-- GATHER_CHUNK_RECEIVE (R311): A working-copy or wire-scale chunk is written locally and forwarded. -/
  | gatherChunkReceive (x : CtxId) (r : Chunk)
  /-- STREAM_TABLE_ENABLE (R325): Setting the stream table ENABLE runs its check. -/
  | streamTableEnable (x : CtxId)
  /-- STREAM_COMMAND_SUBMIT (R327): The CMD_PEG count passes a command index and the engine executes that command. -/
  | streamCommandSubmit (x : CtxId)
  /-- OPEN (R333): Open a stream, copy its prompt and match registered prefixes. -/
  | streamOpen (x : CtxId) (r : StreamRec) (h : Option HostRef)
  /-- APPEND (R337): Allocate cache positions on one side. -/
  | streamAppend (x : CtxId) (r : StreamRec) (h : Option HostRef)
  /-- COMMIT (R338): Commit tokens, advance the grammar and roll back beyond VALID_TO. -/
  | streamCommit (x : CtxId) (r : StreamRec) (h : Option HostRef)
  /-- MASK (R344): Write allowed-token mask rows. -/
  | streamMask (x : CtxId) (r : StreamRec) (h : Option HostRef)
  /-- NEXT (R345): List token steps and prompt chunks within a budget. -/
  | streamNext (x : CtxId) (r : StreamRec) (h : Option HostRef)
  /-- PAUSE (R347): Copy Chanter blocks to the pause area and start the time to live. -/
  | streamPause (x : CtxId) (r : StreamRec) (h : Option HostRef)
  /-- STREAM_EXPIRE (R347): A paused stream's time to live reaches 0 and it expires. -/
  | streamExpire (x : CtxId) (st : BitVec 16)
  /-- RESUME (R348): Bring a paused stream back unless it has expired. -/
  | streamResume (x : CtxId) (r : StreamRec) (h : Option HostRef)
  /-- CLOSE (R328): Release a stream's blocks, adapter and pause space. -/
  | streamClose (x : CtxId) (r : StreamRec) (h : Option HostRef)
  /-- EXPORT (R349): Send a stream to a receiving stream on another package. -/
  | streamExport (x : CtxId) (r : StreamRec) (partnerReady : Bool) (h : Option HostRef)
  /-- EXPORT_ACK (R349): The partner acknowledges the export and the source frees the stream. -/
  | exportAck (x : CtxId) (st : BitVec 16)
  /-- RECEIVE (R349): Prepare a stream to receive an export. -/
  | streamReceive (x : CtxId) (r : StreamRec) (h : Option HostRef)
  /-- ADAPTER_LOAD (R351): Make a new adapter version current. -/
  | streamAdapterLoad (x : CtxId) (r : StreamRec) (h : Option HostRef)
  /-- GRAMMAR_LOAD (R341): Check a grammar table and make it read-only. -/
  | streamGrammarLoad (x : CtxId) (r : StreamRec) (h : Option HostRef)
  /-- GRAMMAR_DROP (R328): Free a grammar handle. -/
  | streamGrammarDrop (x : CtxId) (r : StreamRec) (h : Option HostRef)
  /-- DCHAIN_TRAINING_ACCESS (R357): A DRAM read applies ECC and the check value, correcting or poisoning the granule. -/
  | dchainTrainingAccess (a : BitVec 39) (o : EccOutcome)
  /-- PATROL_READ (R359): The patrol reads a granule, writing back corrections or poisoning it. -/
  | patrolRead (a : BitVec 39) (o : EccOutcome) (raced : Bool)
  /-- DRAM_TEMP_BAND_CHANGE (R360): A stack's refresh band changes with its temperature. -/
  | dramTempBandChange (g : StackId) (t : Nat)
  /-- THROTTLE_STEP (R361): Every 1 ms or 10 ms the thermal ceilings move by 25 MHz. islands: the core islands' sensors in
whole °C (19 R509); an island that is not listed is cool. -/
  | throttleStep (islands : List (CoreId × Nat))
  /-- STACK_TRIP (R362): A stack at 108 °C drains its half and halts its contexts. -/
  | stackTrip (g : StackId) (t : Nat)
  /-- TRIPPED_CLEAR (R362): The host clears TRIPPED, letting the half's cores run once cool. -/
  | trippedClear (g : StackId)
  /-- NVW_SLOT_ENABLE (R366): Setting a head's ENABLE binds the teacher and starts staging. -/
  | nvwSlotEnable (n : SlotId)
  /-- STAGING_DONE (R366): The last staged shard is written and ENABLE reads 1. -/
  | stagingDone (n : SlotId) (ok : Bool)
  /-- NVW_SLOT_DISABLE (R367): Clearing a head's ENABLE unbinds the teacher or is refused. -/
  | nvwSlotDisable (n : SlotId)
  /-- TEACHER_INSTALL (R368): Check a manifest and begin installing a teacher into slots. -/
  | teacherInstall (e : Entry)
  /-- SHARD_PROGRAMMED (R367): A shard arrives from tier 3, is checked and programmed into its block. -/
  | shardProgrammed (n : SlotId) (k : BitVec 32) (o : ShardOutcome) (bs : List (Nat × Byte))
  /-- INSTALL_READBACK_DONE (R368): The read-back compares every digest and the slots enter state 3. -/
  | installReadbackDone (n : SlotId) (ok : Bool)
  /-- TEACHER_ERASE (R369): Erase a teacher's blocks. -/
  | teacherErase (e : Entry)
  /-- ERASE_DONE (R369): Erasure ends and the slots return to state 0. -/
  | eraseDone (n : SlotId)
  /-- VERIFY_PASS (R372): At each interval a verify pass checks every shard against its digest. -/
  | verifyPass (n : SlotId) (stage : Bool) (ok : Bool)
  /-- CKPT_STORE_ENABLE (R375): Setting a checkpoint store's ENABLE runs its check. -/
  | ckptStoreEnable (n : StoreId)
  /-- CKPT_STORE_DISABLE (R376): Clearing a store's ENABLE discards both checkpoints. -/
  | ckptStoreDisable (n : StoreId)
  /-- CAPTURE_RECEIVE (R376): The buddy accepts or refuses an incoming capture. -/
  | captureReceive (n : StoreId) (r : Capture)
  /-- HDM_ENABLE (R377): Setting an HDM window's ENABLE runs its check. -/
  | hdmEnable (w : HdmId)
  /-- HDM_DISABLE (R379): Disabling an HDM window back-invalidates host lines. -/
  | hdmDisable (w : HdmId)
  /-- HDM_HOST_ACCESS (R378): A host CXL.mem access is served, poisoned or discarded. -/
  | hdmHostAccess (p : CxlId) (a : BitVec 52) (h : HostAccess)
  /-- HDM_DECODER_COMMIT (R486): An HDM decoder commit succeeds only at the window's size. -/
  | hdmDecoderCommit (w : HdmId) (r : DecoderRange)
  /-- CTX_ENABLE (R383): Setting a context's ENABLE runs the descriptor, training and exchange checks. -/
  | ctxEnable (x : CtxId)
  /-- CTX_DISABLE (R399): Writing 0 to ENABLE starts teardown of the context. -/
  | ctxDisable (x : CtxId)
  /-- TEARDOWN_DONE (R399): Zeroing finishes and the context becomes Disabled. -/
  | teardownDone (x : CtxId)
  /-- LOAD (R149): Load a program image onto context bays after the fit check. -/
  | load (e : Entry)
  /-- PLACEMENT (R388): The scheduler places a Waiting context on candidate bays. -/
  | placement
  /-- PREEMPTION (R389): The scheduler preempts BE contexts to place an LC context. -/
  | preemption
  /-- SLICE_EXPIRE (R390): A BE context's time slice runs out while another waits. -/
  | sliceExpire (x : CtxId)
  /-- SWITCH_SAVE_DONE (R391): A bay's save record has been written to the save window. -/
  | switchSaveDone (x : CtxId) (ok : Bool)
  /-- SWITCH_SCRUB_DONE (R395): A bay has been scrubbed at a change of tenant. -/
  | switchScrubDone (x : CtxId)
  /-- SWITCH_RESTORE_DONE (R394): The incoming record is restored and the restore checks run before issue. -/
  | switchRestoreDone (x : CtxId) (ok : Bool)
  /-- CTX_STOP (R398): Stop a context, saving its bays. -/
  | ctxStop (e : Entry)
  /-- CTX_RESUME (R386): Return a Stopped context to Waiting, reissuing at saved addresses. -/
  | ctxResume (e : Entry)
  /-- CTX_UNLOAD (R386): Discard a Stopped context's saved core state. -/
  | ctxUnload (e : Entry)
  /-- BW_REGULATOR_WINDOW (R396): A 10 µs regulator window ends and held requests may proceed. -/
  | bwRegulatorWindow (b : BayId)
  /-- ROTATE (R409): Advance KEY_GEN and start a sweep. -/
  | rotate
  /-- SWEEP_END (R411): The sweep ends and the previous generation retires. -/
  | sweepEnd
  /-- LINK_REKEY (R413): A sender moves to the next link key generation. -/
  | linkRekey (p : PortId)
  /-- ATTEST (R416): Write an attestation report for a nonce. -/
  | attest (e : Entry)
  /-- ATTEST_REPORT_RECEIVE (R417): A span neighbour's report is accepted or rejected. -/
  | attestReportReceive (p : PortId) (r : SpanReport)
  /-- ATTEST_REPORT_LAPSE (R417): No accepted report for 120 s clears SPAN_OK. -/
  | attestReportLapse (p : PortId)
  /-- DEBUG_UNLOCK (R427): Unlock debug scope with a signed token. -/
  | debugUnlock (e : Entry)
  /-- VENDOR_SIGNED (R415): Apply a vendor-signed revocation or minimum-version raise. -/
  | vendorSigned (e : Entry)
  /-- FAULT_DETECT (R440): A detected fault leads to its context and core response. -/
  | faultDetect (f : FaultEvent)
  /-- RETEST_DONE (R442): A suspected core's retest ends in release or fence. -/
  | retestDone (c : CoreId) (passed : Bool)
  /-- SLOT_END (R445): A self-test slot ends and the free core takes the next position. -/
  | slotEnd (b : BentId) (passed : Bool)
  /-- UNCOVERED_TEST (R449): An uncovered bent tests an idle core in place. -/
  | uncoveredTest (b : BentId) (passed : Bool)
  /-- TEST_REQUEST_GO (R451): Request a test of one core by a deadline. -/
  | testRequestGo
  /-- FENCE_GO (R454): The host fences a core. -/
  | fenceGo
  /-- FW_STAGE (R467): Stage a Joiner firmware image into the idle slot. -/
  | fwStage (e : Entry)
  /-- FW_ACTIVATE (R467): Hand over the Joiner to the staged image. -/
  | fwActivate (e : Entry)
  /-- UCODE_STAGE (R468): Stage core microcode for take-up at each core's slot. -/
  | ucodeStage (e : Entry)
  /-- CALIBRATE_TRUSS_LANE (R296): Narrow a port and recalibrate one lane. -/
  | calibrateTrussLane (e : Entry)
  /-- LANE_CAL_DONE (R296): A lane recalibration ends and the port widens. -/
  | laneCalDone (p : PortId) (l : LaneId)
  /-- CALIBRATE_DRAM_CHANNEL (R469): Recalibrate one DRAM channel. -/
  | calibrateDramChannel (e : Entry)
  /-- CALIBRATE_NVW_STACK (R469): Recalibrate one NVW stack. -/
  | calibrateNvwStack (e : Entry)
  /-- CALIBRATION_DONE (R469): A calibration ends and held requests complete in order. -/
  | calibrationDone (t : CalTarget)
  /-- JOINER_WATCHDOG (R466): A missed heartbeat resets the Joiner into a firmware slot. -/
  | joinerWatchdog
  /-- COMMAND_BUSY_TIMEOUT (R465): A class 4 command not started within 2 ms completes with 0xA001. -/
  | commandBusyTimeout (e : Entry) (op : BitVec 8)
  /-- TELEMETRY_SAMPLE (R465): A telemetry sample falls due and is taken or counted as lost. -/
  | telemetrySample (busy : Bool)
  /-- LEDGER_APPEND (R470): A group of Ledger records is appended and committed. -/
  | ledgerAppend (rs : List LedgerRec)
  /-- LEDGER_COMPACTION (R472): At 75 % fill the Joiner compacts into the other half. -/
  | ledgerCompaction
  /-- COMPACTION_DONE (R472): The switch marker is written and the new half becomes active. -/
  | compactionDone
  /-- OBJECT_CHECK_END (R482): An enable check waiting its turn runs and ends. -/
  | objectCheckEnd
  /-- RING_ENABLE (R489): Setting a ring's ENABLE zeroes its counters and runs its check. -/
  | ringEnable (r : RingId)
  /-- RING_DISABLE (R492): Clearing a ring's ENABLE stops fetching. -/
  | ringDisable (r : RingId)
  /-- CONTROL_LINE_SNOOP (R490): A snoop of the control line wakes the fetch engine to fetch entries. -/
  | controlLineSnoop (r : RingId) (st : List (Nat × Byte)) (readOk : Bool)
  /-- RING_POLL (R490): Every POLL_US a ring without a copy reads its control line. -/
  | ringPoll (r : RingId) (st : List (Nat × Byte)) (readOk : Bool)
  /-- NOP (R493): Host no-op command. -/
  | hostNop (e : Entry)
  /-- COMPLETION_RECORD_WRITE (R495): A completion record is written once there is room. -/
  | completionRecordWrite (r : RingId)
  /-- MSIX_COALESCE_EXPIRE (R498): The coalescing wait expires and a message is sent. -/
  | msixCoalesceExpire (r : RingId)
  /-- T3W_ENABLE (R487): Setting a tier-3 window's ENABLE runs its check. -/
  | t3wEnable (x : CtxId)
  /-- T3W_DISABLE (R488): Clearing a tier-3 window's ENABLE, refused while needed. -/
  | t3wDisable (x : CtxId)
  /-- EVENT_MSIX_SET (R479): Setting EVENT_MSIX with an EV bit pending sends an event message. -/
  | eventMsixSet
  /-- REGISTER_WRITE (R478): A write to a register that has no row of its own. -/
  | registerWrite (w : RegWrite)
  /-- RAIL_EVENT (R501): A rail rises out of order or out of tolerance. -/
  | railEvent (r : Rail) (k : RailStep)
  /-- RAIL_OUT_OF_TOLERANCE (R503): A fixed rail out of tolerance for 10 µs drains the cores. -/
  | railOutOfTolerance (r : Rail) (still : Bool)
  /-- DROOP_EVENT (R504): An island supply droop stretches its clock. -/
  | droopEvent
  /-- REFCLK_LOSS (R505): A reference clock is declared lost. -/
  | refclkLoss (k : RefClock)
  /-- FREQUENCY_STEP (R507): A core island moves one 25 MHz step. -/
  | frequencyStep (b : BayId)
  /-- POWER_CAP_TEST (R508): Every 1 ms or 10 ms the power limits lower or raise ceilings. -/
  | powerCapTest (p10 : Nat) (p1 : Nat) (raise : Bool)
  /-- CORE_THERMAL_TRIP (R509): A core island at 115 °C drains its bay. -/
  | coreThermalTrip (c : CoreId)
  /-- POWER_LIMIT_UNREACHABLE (R510): Limits exceeded at 300 MHz for 100 ms halt every context. -/
  | powerLimitUnreachable
  /-- THERMTRIP (R521): PWR_THERMTRIP_N is asserted at 115 °C stack or 125 °C island. -/
  | thermtrip
  /-- BAY_SLEEP (R511): An unheld bay enters sleep after SLEEP_AFTER_MS. -/
  | baySleep (b : BayId)
  /-- BAY_WAKE (R511): A sleeping bay wakes when placed or BAY_SLEEP clears. -/
  | bayWake (b : BayId)
  /-- FUNCTION_D3HOT (R512): One function enters D3hot while the other stays in D0. -/
  | functionD3hot (p : CxlId)
  /-- D3HOT_ENTRY (R512): The device enters D3hot, saving contexts and powering down NVW and Truss. -/
  | d3hotEntry
  /-- D0_RETURN (R513): The device returns to D0 and resumes rings and links. -/
  | d0Return
  /-- D3COLD_ENTRY (R513): The platform removes every rail but VDD_AUX. -/
  | d3coldEntry
  /-- L0P_WIDTH_CHANGE (R514): A CXL port narrows or widens under L0p. -/
  | l0pWidthChange (p : CxlId) (w : CxlWidth)
  /-- COLD_RESET (R516): Cold reset of the whole package with Ledger replay. recover: JNR_RECOVERY_N is asserted (20 R527). -/
  | coldReset (recover : Bool)
  /-- WARM_RESET (R515): Warm reset, keeping tier 1 under PRESERVE. -/
  | warmReset
  /-- PORT_RESET (R515): HIF_PERSTp_N resets one CXL link and its function. -/
  | portReset (p : CxlId)
  /-- CXL_RESET (R515): CXL Reset tears down every context and zeroes tier 1. -/
  | cxlReset
  /-- FLR (R515): Function level reset of one function. -/
  | flr (p : CxlId)
  /-- TAP_INSTRUCTION (R526): A boundary-scan instruction takes effect or acts as BYPASS. -/
  | tapInstruction (t : TapInstr)
  /-- RECOVERY_IMAGE_GO (R527): Writing 1 to 0x3010 checks a recovery image and writes it to slot A. -/
  | recoveryImageGo (v : Word)
  /-- REFCLK_RETURN (R505): A lost reference clock returns, so placement resumes after JNR_REFCLK or the port can train again after HIF_REFCLK. -/
  | refclkReturn (k : RefClock)
  /-- CXL_LINK_TRAINED (R475): A CXL port finishes link training and MODE reads 2, or 1 in the PCIe-only fallback. -/
  | cxlLinkTrained (p : CxlId) (l : CxlLink)
  /-- CXL_LINK_DOWN (R505): A CXL port's link goes down and MODE reads 0. -/
  | cxlLinkDown (p : CxlId)
  /-- PERST_DEASSERT (R501): HIF_PERSTp_N is deasserted, starting CXL link training, configuration space and tier-1 zeroing. -/
  | perstDeassert (p : CxlId)
  /-- MEMORY_ACTIVE_SET (R501): Tier-1 zeroing finishes and Memory_Active is set, after which BAR0 and BAR2 respond. -/
  | memoryActiveSet
  /-- FUNCTION_D0_RETURN (R512): One function is written back to D0 while the device is in D0, and its rings resume fetching. -/
  | functionD0Return (p : CxlId)
  /-- SPAN_REPORT_SEND (R417): Every 60 s a Joiner sends its attestation report to each span neighbour. -/
  | spanReportSend
  /-- THERMAL_TRIP_RELEASE (R362): A tripped DRAM stack cools below 95 °C, or a tripped core island below 100 °C, ending the hold on its cores or bay. -/
  | thermalTripRelease (t : TripTarget)
  /-- ASPM_L1 (R514): A CXL port enters or exits ASPM L1 by link power management. -/
  | aspmL1 (p : CxlId) (enter : Bool)
  /-- DOE_REQUEST (R475): A CMA/SPDM request over DOE returns certificates or measurements, or sets IDE keys. -/
  | doeRequest (p : CxlId) (k : DoeRequest)
  /-- DYNAMIC_ADDRESS_ASSIGNMENT (R525): An I3C controller assigns the Joiner a dynamic address with SETDASA or ENTDAA. -/
  | dynamicAddressAssignment (a : BitVec 7)
  /-- PWR_STATUS_READ (R525): A management read that returns a nonzero PWR_ STATUS code deasserts JNR_SMB_ALERT_N. -/
  | pwrStatusRead
  /-- TIER3_LINE_SNOOP (R30): A host snoop under CXL.cache reaches a tier-3 line held in the shared cache. -/
  | tier3LineSnoop (a : BitVec 52)
deriving DecidableEq, Repr

end Sys2Proof
end

