-- ==== Sys2Proof/Decode.lean ====
section
/-! DEFINITION. The decoder over the rows of spec/opcode_table.json that give bits. No row does (every row's fields are
empty), so no word spells a command (log entry 1). The slot words and legacy words of a program are decoded where they
issue: Sys2Proof/Machine/Operands.lean and the files of the instruction families. -/
namespace Sys2Proof

/-- The command a table word spells: none, since the table gives no row any bits. -/
def decodeTableWord (nbits w : Nat) : Option Instr :=
  match nbits, w with
  | _, _ => none

end Sys2Proof
end

