-- ==== Sys2Proof/Machine/Bits.lean ====
section
/-! DEFINITION. Fields of words, and words as little-endian bytes (00 notation: multi-byte fields are
little-endian). -/
namespace Sys2Proof.Machine

/-- Bits [lo + len - 1 : lo] of a number. -/
def bitsAt (n lo len : Nat) : Nat := (n >>> lo) % 2 ^ len

/-- One bit of a number. -/
def bitAt (n i : Nat) : Bool := n.testBit i

/-- Bits [lo + len - 1 : lo] replaced by v. -/
def bitsPut (n lo len v : Nat) : Nat := n - bitsAt n lo len * 2 ^ lo + (v % 2 ^ len) * 2 ^ lo

/-- A field of a word. -/
def fld {w : Nat} (x : BitVec w) (lo len : Nat) : Nat := bitsAt x.toNat lo len

/-- n bytes of v, least significant first. -/
def leBytes : Nat → Nat → List (BitVec 8)
  | 0, _ => []
  | n + 1, v => BitVec.ofNat 8 v :: leBytes n (v / 256)

/-- The number that bytes spell, least significant first. -/
def leNat : List (BitVec 8) → Nat
  | [] => 0
  | b :: bs => b.toNat + 256 * leNat bs

/-- Read a signed number of w bits. -/
def signed (w n : Nat) : Int := if n % 2 ^ w < 2 ^ (w - 1) then (n % 2 ^ w : Nat) else ((n % 2 ^ w : Nat) : Int) - (2 ^ w : Nat)

/-- The low w bits of an integer, in two's complement. -/
def unsignedOf (w : Nat) (i : Int) : Nat := (i % ((2 ^ w : Nat) : Int)).toNat

/-- Quotient rounded up. -/
def ceilDiv (a b : Nat) : Nat := (a + b - 1) / b

/-- 0, 1, …, n − 1. -/
def upto (n : Nat) : List Nat := List.range n

/-- The positions of a list that satisfy a test, lowest first: the first one. -/
def firstIdx {α : Type} (p : α → Bool) : List α → Nat → Option Nat
  | [], _ => none
  | x :: xs, i => if p x then some i else firstIdx p xs (i + 1)

/-- The set bits of a mask below n, ascending. -/
def maskList (n : Nat) (m : Nat) : List Nat := (upto n).filter (fun i => m.testBit i)

/-- The number of set bits below n. -/
def popCount (n m : Nat) : Nat := (maskList n m).length

/-- Ranges [a, a + la) and [b, b + lb) share a byte. -/
def overlap (a la b lb : Nat) : Bool := decide (a < b + lb) && decide (b < a + la) && decide (0 < la) && decide (0 < lb)

/-- A number stopping at its width's end (counters that stop at 2^w − 1). -/
def satInc (w n : Nat) : Nat := if n + 1 < 2 ^ w then n + 1 else 2 ^ w - 1

/-- Put an element into a list ordered by a comparison, behind its equals. -/
def insertBy {α : Type} (before : α → α → Bool) (a : α) : List α → List α
  | [] => [a]
  | b :: l => if before a b then a :: b :: l else b :: insertBy before a l
/-- A list in the order of a comparison; equals keep their order. -/
def sortBy {α : Type} (before : α → α → Bool) (l : List α) : List α := l.foldl (fun acc a => insertBy before a acc) []
/-- A sum and a greatest element of a list of numbers. -/
def sumOf (l : List Nat) : Nat := l.foldl (· + ·) 0
def maxOf (l : List Nat) : Nat := l.foldl max 0

end Sys2Proof.Machine
end

