-- ==== Sys2Proof/Machine/Float.lean ====
section
/-! DEFINITION. The number formats and their arithmetic (02 R37 to R61): exact values, one rounding, the flags.
A value is held exactly as a quotient times a power of two; every operation computes exactly and rounds once. -/
namespace Sys2Proof.Machine

/-- The element formats of 02 Table 02-1, in the order of their FMT codes. -/
inductive Fmt where
  | b64 | b32 | b16 | bf16 | e4m3 | e5m2 | e3m2 | e2m1 | i8 | i4
deriving DecidableEq, Repr

/-- The format of an FMT code; none for a reserved code (R38). -/
def Fmt.ofCode : Nat → Option Fmt
  | 0 => some .b64 | 1 => some .b32 | 2 => some .b16 | 3 => some .bf16 | 4 => some .e4m3
  | 5 => some .e5m2 | 6 => some .e3m2 | 7 => some .e2m1 | 8 => some .i8 | 9 => some .i4 | _ => none

/-- The FMT code of a format (Table 02-1). -/
def Fmt.code : Fmt → Nat
  | .b64 => 0 | .b32 => 1 | .b16 => 2 | .bf16 => 3 | .e4m3 => 4 | .e5m2 => 5 | .e3m2 => 6 | .e2m1 => 7 | .i8 => 8 | .i4 => 9

/-- Width in bits (Table 02-1). -/
def Fmt.width : Fmt → Nat
  | .b64 => 64 | .b32 => 32 | .b16 => 16 | .bf16 => 16 | .e4m3 => 8 | .e5m2 => 8 | .e3m2 => 6 | .e2m1 => 4 | .i8 => 8 | .i4 => 4

/-- Fraction bits (Tables 02-2 and 02-3); 0 for the integers. -/
def Fmt.frac : Fmt → Nat
  | .b64 => 52 | .b32 => 23 | .b16 => 10 | .bf16 => 7 | .e4m3 => 3 | .e5m2 => 2 | .e3m2 => 2 | .e2m1 => 1 | .i8 => 0 | .i4 => 0

/-- Exponent bias (Tables 02-2 and 02-3). -/
def Fmt.bias : Fmt → Nat
  | .b64 => 1023 | .b32 => 127 | .b16 => 15 | .bf16 => 127 | .e4m3 => 7 | .e5m2 => 15 | .e3m2 => 3 | .e2m1 => 1 | .i8 => 0 | .i4 => 0

def Fmt.isInt : Fmt → Bool | .i8 => true | .i4 => true | _ => false
def Fmt.isLong : Fmt → Bool | .b64 => true | .b32 => true | .b16 => true | .bf16 => true | _ => false
/-- The formats with infinities (Tables 02-2 and 02-3). -/
def Fmt.hasInf : Fmt → Bool | .b64 => true | .b32 => true | .b16 => true | .bf16 => true | .e5m2 => true | _ => false
/-- The formats with NaNs. -/
def Fmt.hasNan : Fmt → Bool | .e4m3 => true | f => f.hasInf
/-- Exponent of the largest finite value. -/
def Fmt.emax : Fmt → Int
  | .b64 => 1023 | .b32 => 127 | .b16 => 15 | .bf16 => 127 | .e4m3 => 8 | .e5m2 => 15 | .e3m2 => 4 | .e2m1 => 2 | .i8 => 0 | .i4 => 0
/-- Significand of the largest finite value, as an integer of frac + 1 bits: 448 is 14 × 2^5 in E4M3. -/
def Fmt.maxSig : Fmt → Nat | .e4m3 => 14 | f => 2 ^ (f.frac + 1) - 1
/-- Exponent of the smallest normal. -/
def Fmt.emin (f : Fmt) : Int := 1 - (f.bias : Int)

/-- An exact value: (−1)^neg × (n / d) × 2^e, with d above zero; zero keeps its sign. -/
structure Q where
  neg : Bool
  n : Nat
  d : Nat
  e : Int
deriving DecidableEq, Repr

def Q.zero (neg : Bool) : Q := ⟨neg, 0, 1, 0⟩
def Q.ofInt (i : Int) : Q := ⟨decide (i < 0), i.natAbs, 1, 0⟩
def Q.mul (a b : Q) : Q := ⟨a.neg != b.neg, a.n * b.n, a.d * b.d, a.e + b.e⟩
def Q.div (a b : Q) : Q := ⟨a.neg != b.neg, a.n * b.d, a.d * b.n, a.e - b.e⟩
def Q.abs (a : Q) : Q := { a with neg := false }
def Q.flip (a : Q) : Q := { a with neg := !a.neg }
/-- The integer numerator of a over denominator a.d × other and exponent e0. -/
def Q.scaled (a : Q) (e0 : Int) (other : Nat) : Int :=
  let m : Nat := a.n * other * 2 ^ (a.e - e0).toNat
  if a.neg then -(m : Int) else (m : Int)
/-- Exact sum; an exact zero sum of nonzero or unlike terms takes the sign zneg (IEEE 754: −0 only when rounding down). -/
def Q.add (zneg : Bool) (a b : Q) : Q :=
  if a.n = 0 ∧ b.n = 0 then (if a.neg = b.neg then Q.zero a.neg else Q.zero zneg)
  else
    let e0 := min a.e b.e
    let s := a.scaled e0 b.d + b.scaled e0 a.d
    if s = 0 then Q.zero zneg else ⟨decide (s < 0), s.natAbs, a.d * b.d, e0⟩
/-- Comparison of exact values, zeros equal. -/
def Q.cmp (a b : Q) : Ordering :=
  let e0 := min a.e b.e
  compare (a.scaled e0 b.d) (b.scaled e0 a.d)
/-- floor(log2 |a|) for a nonzero. -/
def Q.log2 (a : Q) : Int :=
  let k : Int := (Nat.log2 a.n : Int) - (Nat.log2 a.d : Int)
  let ge : Bool := if 0 ≤ k then decide (a.d * 2 ^ k.toNat ≤ a.n) else decide (a.d ≤ a.n * 2 ^ (-k).toNat)
  (if ge then k else k - 1) + a.e
/-- Numerator and denominator of |a| / 2^u. -/
def Q.over (a : Q) (u : Int) : Nat × Nat :=
  let s := a.e - u
  if 0 ≤ s then (a.n * 2 ^ s.toNat, a.d) else (a.n, a.d * 2 ^ (-s).toNat)

/-- The rounding modes of 02 Table 02-5, resolved. -/
inductive RM where | rne | rtz | rup | rdn | rna | sr
deriving DecidableEq, Repr

def RM.ofCode : Nat → Option RM
  | 0 => some .rne | 1 => some .rtz | 2 => some .rup | 3 => some .rdn | 4 => some .rna | 5 => some .sr | _ => none

/-- num / den rounded to an integer of the given sign (Table 02-5, R61), and whether it moved. -/
def roundNat (rm : RM) (neg : Bool) (num den : Nat) (rnd : Nat) : Nat × Bool :=
  let q := num / den
  let r := num % den
  let up : Bool := match rm with
    | .rne => decide (den < 2 * r) || (decide (2 * r = den) && decide (q % 2 = 1))
    | .rtz => false
    | .rup => !neg && decide (r ≠ 0)
    | .rdn => neg && decide (r ≠ 0)
    | .rna => decide (den ≤ 2 * r)
    | .sr => decide (rnd < r * 4096 / den)
  (if up then q + 1 else q, decide (r ≠ 0))

/-- The flags a result sets: bits 0 to 6 of NUMERIC_STATUS (02 Table 02-8). -/
abbrev Flags := BitVec 7
def fNone : Flags := 0
def fInvalid : Flags := 1
def fDivZero : Flags := 2
def fOverflow : Flags := 4
def fUnderflow : Flags := 8
def fInexact : Flags := 16
def fSaturated : Flags := 32
def fClamped : Flags := 64
def fIf (c : Bool) (f : Flags) : Flags := if c then f else 0

/-- A number: NaN with its fraction left-justified to 52 bits (bit 51 set is quiet), an infinity, or a finite value. -/
inductive Num where
  | nan (neg : Bool) (frac : Nat)
  | inf (neg : Bool)
  | fin (q : Q)
deriving DecidableEq, Repr

def quietBit : Nat := 2 ^ 51
/-- The canonical NaN of Table 02-2. -/
def Num.canon : Num := .nan false quietBit
def Num.isNan : Num → Bool | .nan _ _ => true | _ => false
def Num.isInf : Num → Bool | .inf _ => true | _ => false
/-- A signalling NaN (its quiet bit clear). -/
def Num.isSnan : Num → Bool | .nan _ f => !f.testBit 51 | _ => false
def Num.quiet : Num → Num | .nan s f => .nan s (f ||| quietBit) | x => x
def Num.isZero : Num → Bool | .fin q => decide (q.n = 0) | _ => false
def Num.neg : Num → Bool | .nan s _ => s | .inf s => s | .fin q => q.neg
def Num.flip : Num → Num | .nan s f => .nan s f | .inf s => .inf (!s) | .fin q => .fin q.flip
def Num.abs : Num → Num | .nan _ f => .nan false f | .inf _ => .inf false | .fin q => .fin q.abs
/-- A finite value times a scale; NaN and infinity pass (R76). -/
def Num.scale (x : Num) (k : Q) : Num := match x with | .fin q => .fin (q.mul k) | y => y
def Num.unscale (x : Num) (k : Q) : Num := match x with | .fin q => .fin (q.div k) | y => y

/-- Decode the bits of a floating element (R42, R49). A short NaN decodes quiet and without payload (R50). -/
def decodeFloat (f : Fmt) (bits : Nat) : Num :=
  let m := f.frac
  let neg := bits.testBit (f.width - 1)
  let e := bitsAt bits m (f.width - 1 - m)
  let fr := bits % 2 ^ m
  let top := 2 ^ (f.width - 1 - m) - 1
  if f.hasInf && e == top then
    (if fr = 0 then .inf neg else .nan neg (if f.isLong then fr * 2 ^ (52 - m) else quietBit))
  else if f == .e4m3 && e == top && fr == 7 then .nan neg quietBit
  else if e = 0 then .fin ⟨neg, fr, 1, f.emin - m⟩
  else .fin ⟨neg, 2 ^ m + fr, 1, (e : Int) - f.bias - m⟩

/-- Decode an element of any format (R40 for the integers). -/
def decodeElem (f : Fmt) (sgn : Bool) (bits : Nat) : Num :=
  if f.isInt then
    .fin (Q.ofInt (if sgn then signed f.width bits else (bits % 2 ^ f.width : Nat)))
  else decodeFloat f bits

/-- A rounded result: its bits, its flags, whether it counts as a NaN produced (R48), whether it posts 0x7005 (R54),
and whether it counts as overflowed or vanished (03 R101). -/
structure Rounded where
  bits : Nat
  flags : Flags := 0
  produced : Bool := false
  strict : Bool := false
  ovf : Bool := false
  van : Bool := false
deriving DecidableEq, Repr

def signBit (f : Fmt) (neg : Bool) : Nat := if neg then 2 ^ (f.width - 1) else 0
def infBits (f : Fmt) (neg : Bool) : Nat :=
  signBit f neg + (2 ^ (f.width - 1 - f.frac) - 1) * 2 ^ f.frac
/-- NaN bits: the payload's high bits in a long format (R43), all ones in a short one (R50). -/
def nanBits (f : Fmt) (neg : Bool) (frac : Nat) : Nat :=
  if f.isLong then infBits f neg + (frac ||| quietBit) / 2 ^ (52 - f.frac)
  else signBit f neg + (2 ^ (f.width - 1) - 1)
def maxBits (f : Fmt) (neg : Bool) : Nat :=
  signBit f neg + (f.maxSig + ((f.emax - f.emin).toNat) * 2 ^ f.frac)

/-- What rounding a nonzero value onto a format's grid gives, with the exponent range unbounded above (R53):
significand, exponent of its unit, inexact, tiny (R45). -/
structure Grid where
  sig : Nat
  u : Int
  inexact : Bool
  tiny : Bool

def roundGrid (f : Fmt) (rm : RM) (rnd : Nat) (x : Q) : Grid :=
  let L := x.log2
  let u1 := L - f.frac
  let u := max u1 (f.emin - f.frac)
  let (num, den) := x.over u
  let (q, inex) := roundNat rm x.neg num den rnd
  let (num1, den1) := x.over u1
  let q1 := (roundNat rm x.neg num1 den1 rnd).1
  let tiny := if q1 = 2 ^ (f.frac + 1) then decide (L + 1 < f.emin) else decide (L < f.emin)
  ⟨q, u, inex, tiny⟩

/-- A rounded significand lies beyond the largest finite value. -/
def Grid.beyond (g : Grid) (f : Fmt) : Bool :=
  let (s, u) := if g.sig = 2 ^ (f.frac + 1) then (2 ^ f.frac, g.u + 1) else (g.sig, g.u)
  let top := f.emax - f.frac
  decide (top < u) || (decide (u = top) && decide (f.maxSig < s))

def Grid.bits (g : Grid) (f : Fmt) (neg : Bool) : Nat :=
  signBit f neg + (g.u - (f.emin - f.frac)).toNat * 2 ^ f.frac + g.sig

/-- The mode makes IEEE 754 deliver the largest finite value of this sign (R54). -/
def RM.towardZero (rm : RM) (neg : Bool) : Bool :=
  match rm with | .rtz => true | .rup => neg | .rdn => !neg | _ => false

/-- Round a finite value into a floating format (R53, R54, Table 02-4; R41 and R61 for the long formats). -/
def roundFin (f : Fmt) (rm : RM) (strict : Bool) (rnd : Nat) (x : Q) : Rounded :=
  if x.n = 0 then { bits := signBit f x.neg }
  else
    let g := roundGrid f rm rnd x
    if g.beyond f then
      if rm.towardZero x.neg then { bits := maxBits f x.neg, flags := fOverflow ||| fInexact }
      else if f.isLong then { bits := infBits f x.neg, flags := fOverflow ||| fInexact, ovf := true }
      else if strict then
        match f with
        | .e5m2 => { bits := infBits f x.neg, flags := fOverflow ||| fInexact, ovf := true }
        | .e4m3 => { bits := nanBits f x.neg 0, flags := fOverflow ||| fInexact, produced := true, ovf := true }
        | _ => { bits := maxBits f x.neg, flags := fOverflow ||| fInexact, strict := true, ovf := true }
      else { bits := maxBits f x.neg, flags := fOverflow ||| fInexact ||| fSaturated, ovf := true }
    else
      { bits := g.bits f x.neg,
        flags := fIf g.inexact fInexact ||| fIf (g.tiny && g.inexact) fUnderflow,
        van := decide (g.sig = 0) }

/-- The range of an integer format under its SIGNED bit (R40). -/
def intRange (f : Fmt) (sgn : Bool) : Int × Int :=
  if sgn then (-(2 ^ (f.width - 1) : Nat), (2 ^ (f.width - 1) - 1 : Nat)) else (0, (2 ^ f.width - 1 : Nat))

/-- Round a finite value into an integer format (Table 02-4, R61 with u = 1). -/
def roundIntFmt (f : Fmt) (sgn : Bool) (rm : RM) (strict : Bool) (rnd : Nat) (x : Q) : Rounded :=
  let (num, den) := x.over 0
  let (q, inex) := roundNat rm x.neg num den rnd
  let v : Int := if x.neg then -(q : Int) else q
  let (lo, hi) := intRange f sgn
  if v < lo ∨ hi < v then
    { bits := unsignedOf f.width (if v < lo then lo else hi),
      flags := fInvalid ||| fInexact ||| fIf (!strict) fSaturated, strict := strict, ovf := true }
  else { bits := unsignedOf f.width v, flags := fIf inex fInexact, van := decide (q = 0) && decide (x.n ≠ 0) }

/-- Conversion of a number into any format (R53 to R57, Table 02-4). -/
def convert (f : Fmt) (sgn : Bool) (rm : RM) (strict : Bool) (rnd : Nat) (x : Num) : Rounded :=
  match x with
  | .nan s fr =>
    if f.isLong then { bits := nanBits f s fr, flags := fIf x.isSnan fInvalid }
    else if f.isInt then { bits := 0, flags := fInvalid, strict := strict }
    else if f.hasNan then { bits := nanBits f s fr, flags := fIf x.isSnan fInvalid }
    else { bits := signBit f s, flags := fInvalid, strict := strict }
  | .inf s =>
    if f.hasInf then { bits := infBits f s }
    else if f.isInt then
      let (lo, hi) := intRange f sgn
      { bits := unsignedOf f.width (if s then lo else hi), flags := if strict then fInvalid else fSaturated,
        strict := strict, ovf := true }
    else if strict then
      match f with
      | .e4m3 => { bits := nanBits f s 0, flags := fInvalid, produced := true, ovf := true }
      | _ => { bits := maxBits f s, flags := fInvalid, strict := true, ovf := true }
    else { bits := maxBits f s, flags := fSaturated, ovf := true }
  | .fin q => if f.isInt then roundIntFmt f sgn rm strict rnd q else roundFin f rm strict rnd q

/-- The exact result of an operation before its rounding. -/
structure Exact where
  v : Num
  flags : Flags := 0
  produced : Bool := false

/-- The first NaN in operand order, quieted, with INVALID where any operand signals (R43, R44). -/
def nanOf (xs : List Num) : Option Exact :=
  match xs.find? Num.isNan with
  | some x => some { v := x.quiet, flags := fIf (xs.any Num.isSnan) fInvalid }
  | none => none

def invalidNan : Exact := { v := .canon, flags := fInvalid, produced := true }

def numAdd (rm : RM) (a b : Num) : Exact :=
  match nanOf [a, b] with
  | some r => r
  | none =>
    match a, b with
    | .inf s, .inf t => if s = t then { v := .inf s } else invalidNan
    | .inf s, _ => { v := .inf s }
    | _, .inf t => { v := .inf t }
    | .fin p, .fin q => { v := .fin (Q.add (rm == .rdn) p q) }
    | _, _ => invalidNan

def numMul (a b : Num) : Exact :=
  match nanOf [a, b] with
  | some r => r
  | none =>
    let s := a.neg != b.neg
    match a, b with
    | .fin p, .fin q => { v := .fin (p.mul q) }
    | .inf _, y => if y.isZero then invalidNan else { v := .inf s }
    | x, .inf _ => if x.isZero then invalidNan else { v := .inf s }
    | _, _ => invalidNan

/-- a × b + c with one rounding to follow. The first NaN in the order a, b, c is the result (R43). DESIGN CHOICE (log entry
16): 0 × infinity with a quiet NaN addend sets no INVALID. -/
def numFma (rm : RM) (a b c : Num) : Exact :=
  match nanOf [a, b, c] with
  | some r => r
  | none =>
    let p := numMul a b
    if p.v.isNan then p else numAdd rm p.v c

def numDiv (a b : Num) : Exact :=
  match nanOf [a, b] with
  | some r => r
  | none =>
    let s := a.neg != b.neg
    match a, b with
    | .inf _, .inf _ => invalidNan
    | .inf _, _ => { v := .inf s }
    | _, .inf _ => { v := .fin (Q.zero s) }
    | .fin p, .fin q =>
      if q.n = 0 then (if p.n = 0 then invalidNan else { v := .inf s, flags := fDivZero })
      else { v := .fin (if p.n = 0 then Q.zero s else p.div q) }
    | _, _ => invalidNan

/-- floor(√m) of a number of at most 2 × fuel bits. -/
def isqrt : Nat → Nat → Nat
  | 0, _ => 0
  | k + 1, m =>
    let r := 2 * isqrt k (m / 4)
    if (r + 1) * (r + 1) ≤ m then r + 1 else r

/-- √ of a positive value, exact to 160 bits with a sticky last bit, which rounds as the exact root does. -/
def Q.sqrt (x : Q) : Q :=
  let k0 : Int := 322 - (Nat.log2 x.n : Int) + (Nat.log2 x.d : Int)
  let k : Int := if (x.e - k0) % 2 = 0 then k0 else k0 + 1
  let num := if 0 ≤ k then x.n * 2 ^ k.toNat else x.n
  let den := if 0 ≤ k then x.d else x.d * 2 ^ (-k).toNat
  let m := num / den
  let r := isqrt 164 m
  let sticky := if num % den = 0 ∧ r * r = m then 0 else 1
  ⟨false, 2 * r + sticky, 1, (x.e - k) / 2 - 1⟩

def numSqrt (a : Num) : Exact :=
  match nanOf [a] with
  | some r => r
  | none =>
    match a with
    | .inf s => if s then invalidNan else { v := .inf false }
    | .fin q => if q.n = 0 then { v := .fin q } else if q.neg then invalidNan else { v := .fin q.sqrt }
    | _ => invalidNan

/-- Maximum and minimum (R58): a lone NaN gives the other operand, two NaNs the canonical NaN; −0 below +0. -/
def numMaxMin (max : Bool) (a b : Num) : Exact :=
  let fl := fIf (a.isSnan || b.isSnan) fInvalid
  if a.isNan && b.isNan then { v := .canon, flags := fl }
  else if a.isNan then { v := b, flags := fl }
  else if b.isNan then { v := a, flags := fl }
  else
    let lt : Bool := match a, b with
      | .inf s, .inf t => s && !t
      | .inf s, _ => s
      | _, .inf t => !t
      | .fin p, .fin q => (match p.cmp q with | .lt => true | .gt => false | .eq => p.neg && !q.neg)
      | _, _ => false
    { v := if lt = max then b else a, flags := fl }

/-- How two numbers compare; none when either is NaN. -/
def numCmp (a b : Num) : Option Ordering :=
  match a, b with
  | .nan _ _, _ => none
  | _, .nan _ _ => none
  | .inf s, .inf t => some (if s = t then .eq else if s then .lt else .gt)
  | .inf s, _ => some (if s then .lt else .gt)
  | _, .inf t => some (if t then .gt else .lt)
  | .fin p, .fin q => some (p.cmp q)

/-- The exact result rounded into a long format. -/
def finish (f : Fmt) (rm : RM) (rnd : Nat) (x : Exact) : Rounded :=
  let r := convert f true rm false rnd x.v
  { r with flags := r.flags ||| x.flags, produced := r.produced || x.produced }

/-- A value in bits with the flags and the NaN production met on the way to it. -/
structure FV where
  bits : Nat
  flags : Flags := 0
  produced : Bool := false
deriving DecidableEq, Repr

def FV.num (f : Fmt) (x : FV) : Num := decodeFloat f x.bits
def FV.of (f : Fmt) (rm : RM) (rnd : Nat) (args : List FV) (x : Exact) : FV :=
  let r := finish f rm rnd x
  { bits := r.bits, flags := args.foldl (fun a y => a ||| y.flags) r.flags,
    produced := args.foldl (fun a y => a || y.produced) r.produced }
/-- binary32 arithmetic under RNE (04 R105: r(·) and fma). -/
def add32 (a b : FV) : FV := FV.of .b32 .rne 0 [a, b] (numAdd .rne (a.num .b32) (b.num .b32))
def sub32 (a b : FV) : FV := FV.of .b32 .rne 0 [a, b] (numAdd .rne (a.num .b32) (b.num .b32).flip)
def mul32 (a b : FV) : FV := FV.of .b32 .rne 0 [a, b] (numMul (a.num .b32) (b.num .b32))
def div32 (a b : FV) : FV := FV.of .b32 .rne 0 [a, b] (numDiv (a.num .b32) (b.num .b32))
def sqrt32 (a : FV) : FV := FV.of .b32 .rne 0 [a] (numSqrt (a.num .b32))
def fma32 (a b c : FV) : FV := FV.of .b32 .rne 0 [a, b, c] (numFma .rne (a.num .b32) (b.num .b32) (c.num .b32))
/-- Negation is exact; a NaN keeps its sign (R43). -/
def neg32 (a : FV) : FV := if (a.num .b32).isNan then a else { a with bits := (a.bits ^^^ 0x80000000) }
def max32 (a b : FV) : FV := FV.of .b32 .rne 0 [a, b] (numMaxMin true (a.num .b32) (b.num .b32))
/-- binary64 arithmetic under RNE (04 R112, R118). -/
def add64 (a b : FV) : FV := FV.of .b64 .rne 0 [a, b] (numAdd .rne (a.num .b64) (b.num .b64))
def sub64 (a b : FV) : FV := FV.of .b64 .rne 0 [a, b] (numAdd .rne (a.num .b64) (b.num .b64).flip)
def mul64 (a b : FV) : FV := FV.of .b64 .rne 0 [a, b] (numMul (a.num .b64) (b.num .b64))
def div64 (a b : FV) : FV := FV.of .b64 .rne 0 [a, b] (numDiv (a.num .b64) (b.num .b64))
def sqrt64 (a : FV) : FV := FV.of .b64 .rne 0 [a] (numSqrt (a.num .b64))
def max64 (a b : FV) : FV := FV.of .b64 .rne 0 [a, b] (numMaxMin true (a.num .b64) (b.num .b64))
/-- c + a × b with the product exact and one rounding to binary64 (R118: every product inside r64 is exact). -/
def fma64 (a b c : FV) : FV := FV.of .b64 .rne 0 [a, b, c] (numFma .rne (a.num .b64) (b.num .b64) (c.num .b64))
def f32to64 (a : FV) : FV := FV.of .b64 .rne 0 [a] { v := (a.num .b32).quiet, flags := fIf (a.num .b32).isSnan fInvalid }
def f64to32 (a : FV) : FV := FV.of .b32 .rne 0 [a] { v := (a.num .b64).quiet, flags := fIf (a.num .b64).isSnan fInvalid }
def fOfNat (f : Fmt) (n : Nat) : FV := FV.of f .rne 0 [] { v := .fin ⟨false, n, 1, 0⟩ }
def one32 : FV := { bits := 0x3F800000 }
def two32 : FV := { bits := 0x40000000 }

end Sys2Proof.Machine
end

