-- ==== Sys2Proof/Machine/Map.lean ====
section
/-! DEFINITION. Sparse contents by key, in ONE canonical form: keys strictly rising, and no entry equal to what an
unlisted key reads as. Used for every byte memory and for every array of parts. -/
namespace Sys2Proof.Machine

/-- A sparse array: the listed keys; every other key reads as the default its reader names. -/
abbrev Map (α : Type) := List (Nat × α)

/-- The content at key k; d where k is not listed. -/
def mapGet {α : Type} (d : α) : Map α → Nat → α
  | [], _ => d
  | (j, v) :: m, k => if j = k then v else mapGet d m k

/-- Without key k. -/
def mapErase {α : Type} : Map α → Nat → Map α
  | [], _ => []
  | (j, v) :: m, k => if j = k then mapErase m k else (j, v) :: mapErase m k

/-- With a new key k put in its place. -/
def mapInsert {α : Type} : Map α → Nat → α → Map α
  | [], k, v => [(k, v)]
  | (j, w) :: m, k, v => if k < j then (k, v) :: (j, w) :: m else (j, w) :: mapInsert m k v

/-- Key k now reads v: writing the default removes the entry. -/
def mapSet {α : Type} [DecidableEq α] (d : α) (m : Map α) (k : Nat) (v : α) : Map α :=
  if v = d then mapErase m k else mapInsert (mapErase m k) k v

/-- The keys that satisfy a test are cleared to the default. -/
def mapClear {α : Type} (p : Nat → Bool) (m : Map α) : Map α := m.filter (fun kv => !p kv.1)

/-- Every key of the map lies above b and the keys rise strictly. -/
def keysAbove {α : Type} : Nat → Map α → Bool
  | _, [] => true
  | b, (k, _) :: m => decide (b ≤ k) && keysAbove (k + 1) m

/-- The canonical form: keys strictly rising, no entry equal to the default. -/
def mapWf {α : Type} [DecidableEq α] (d : α) (m : Map α) : Bool :=
  keysAbove 0 m && m.all (fun kv => decide (kv.2 ≠ d))

/-- A byte memory in canonical form (an unlisted byte reads as zero). -/
def Memory.wf (m : Map (BitVec 8)) : Bool := mapWf 0 m

/-- n consecutive contents from key k upward. -/
def mapRead {α : Type} (d : α) (m : Map α) (k : Nat) : Nat → List α
  | 0 => []
  | n + 1 => mapGet d m k :: mapRead d m (k + 1) n

/-- Consecutive contents from key k upward become vs. -/
def mapWrite {α : Type} [DecidableEq α] (d : α) (m : Map α) (k : Nat) : List α → Map α
  | [] => m
  | v :: vs => mapWrite d (mapSet d m k v) (k + 1) vs

end Sys2Proof.Machine
end

