-- ==== Sys2Proof/Machine/Regs.lean ====
section
/-! DEFINITION. The registers as the spec's tables lay them out: offset, bit range, access code and reset value of every
field (18 Table 18-2 and the tables it names; 20 Table 20-6). A field the table marks Reserved is no field here: it reads
zero and ignores writes (00 R7). Where a table's Reset column says Ledger, the value is the one an empty Ledger leaves
(20 R528; log entry 7). -/
namespace Sys2Proof.Machine

/-- The access codes of 00 Table 00-2. -/
inductive Access where | ro | rw | rw1c | wo | rwe
deriving DecidableEq, Repr

/-- A register field: byte offset of its 64-bit word within the object, lowest bit, width, access, reset value. -/
structure Field where
  off : Nat
  lo : Nat
  width : Nat
  acc : Access
  reset : Nat
deriving DecidableEq, Repr

/-! Table 18-2: where the objects lie in BAR0. The management space of 20 Table 20-6 is held above the 128 MiB of BAR0. -/
def Reg.hif : Nat := 0
def Reg.jnrStatus : Nat := 0x1000
def Reg.jnrKeys : Nat := 0x1040
def Reg.jnrDebug : Nat := 0x1080
def Reg.ldgStatus : Nat := 0x10C0
def Reg.safSafety : Nat := 0x2000
def Reg.safTest : Nat := 0x2040
def Reg.safRisk : Nat := 0x2060
def Reg.nvwVerify : Nat := 0x2068
def Reg.safBent (h : Nat) : Nat := 0x2100 + 16 * h
def Reg.safDram (g : Nat) : Nat := 0x2200 + 32 * g
def Reg.trsAddress : Nat := 0x2400
def Reg.nvwSlot (n : Nat) : Nat := 0x3000 + 64 * n
def Reg.ckptStore (n : Nat) : Nat := 0x3200 + 64 * n
def Reg.hdm (w : Nat) : Nat := 0x3600 + 32 * w
def Reg.trsPort (p : Nat) : Nat := 0x4000 + 64 * p
def Reg.faultLog (i : Nat) : Nat := 0x10000 + 64 * i
def Reg.memberTable (i : Nat) : Nat := 0x20000 + 128 * i
def Reg.route (d : Nat) : Nat := 0x40000 + 4 * d
def Reg.ring (r : Nat) : Nat := 0x80000 + 128 * r
def Reg.streamTable (x : Nat) : Nat := 0xA0000 + 128 * x
def Reg.t3w (x : Nat) : Nat := 0x120000 + 64 * x
def Reg.ctx (x : Nat) : Nat := 0x400000 + 1024 * x
def Reg.wwy (x q : Nat) : Nat := 0x4000000 + 0x4000 * x + 64 * q
def Reg.mgmtSpace : Nat := 0x8000000
def Reg.pwr : Nat := 0x8001000
/-- The PWR_ word of bay b (Table 19-4: 0x100 + 8b) taken as an object of its own. -/
def Reg.pwrBay (b : Nat) : Nat := 0x8001000 + 8 * b
/-- The port word p of Table 18-3 (0x008 + 8p) taken as an object of its own. -/
def Reg.hifPort (p : Nat) : Nat := 8 * p
/-! Table 10-7: the route table entry of a destination. -/
def Reg.ROUTE_PORT_SET : Field := ⟨0, 0, 16, .rw, 0⟩
def Reg.ROUTE_ORDERED_PORT : Field := ⟨0, 16, 4, .rw, 0⟩
def Reg.ROUTE_VALID : Field := ⟨0, 20, 1, .rw, 0⟩
def Reg.ROUTE_HOPS : Field := ⟨0, 24, 8, .rw, 0⟩
def Reg.routeFields : List Field := [Reg.ROUTE_PORT_SET, Reg.ROUTE_ORDERED_PORT, Reg.ROUTE_VALID, Reg.ROUTE_HOPS]
/-- TRS_ADDRESS (10 R282). -/
def Reg.TRSA_ADDRESS : Field := ⟨0, 0, 16, .rwe, 0⟩
def Reg.TRSA_ENABLE : Field := ⟨0, 16, 1, .rw, 0⟩
def Reg.trsAddressFields : List Field := [Reg.TRSA_ADDRESS, Reg.TRSA_ENABLE]

/-! Table 18-3: HIF global registers -/
/-- Device -/
def Reg.HIF_DEVICE : Field := ⟨0x0, 0, 16, .ro, 9238⟩
/-- Silicon stepping -/
def Reg.HIF_STEPPING : Field := ⟨0x0, 16, 8, .ro, 176⟩
/-- This register map -/
def Reg.HIF_REGMAP_VERSION : Field := ⟨0x0, 32, 16, .ro, 1⟩
/-- Port p: 0 down, 1 PCIe only, 2 CXL. 3 is never posted -/
def Reg.HIF_MODE : Field := ⟨0x8, 0, 2, .ro, 0⟩
/-- Lanes trained -/
def Reg.HIF_WIDTH : Field := ⟨0x8, 2, 5, .ro, 0⟩
/-- 1: 64 GT/s. 0: 32 GT/s -/
def Reg.HIF_RATE_64 : Field := ⟨0x8, 7, 1, .ro, 0⟩
/-- Latency-optimised flits in use -/
def Reg.HIF_LATENCY_OPT : Field := ⟨0x8, 8, 1, .ro, 0⟩
/-- IDE active on CXL.io -/
def Reg.HIF_IDE_IO : Field := ⟨0x8, 9, 1, .ro, 0⟩
/-- IDE active on CXL.cachemem -/
def Reg.HIF_IDE_CACHEMEM : Field := ⟨0x8, 10, 1, .ro, 0⟩
/-- A fault record was written -/
def Reg.HIF_EV_FAULT_LOG : Field := ⟨0x18, 0, 1, .rw1c, 0⟩
/-- A port STATUS or LINK_STATE changed -/
def Reg.HIF_EV_TRUSS : Field := ⟨0x18, 1, 1, .rw1c, 0⟩
/-- A throttle began, or TRIPPED was set -/
def Reg.HIF_EV_THERMAL : Field := ⟨0x18, 2, 1, .rw1c, 0⟩
/-- SPAN_OK cleared, or a generation retired -/
def Reg.HIF_EV_SECURITY : Field := ⟨0x18, 3, 1, .rw1c, 0⟩
/-- A context entered Stopped or Disabled with no command outstanding -/
def Reg.HIF_EV_CONTEXT : Field := ⟨0x18, 4, 1, .rw1c, 0⟩
/-- Vector for events -/
def Reg.HIF_EVENT_VECTOR : Field := ⟨0x18, 16, 11, .rw, 0⟩
/-- Signal events on EVENT_VECTOR -/
def Reg.HIF_EVENT_MSIX : Field := ⟨0x18, 27, 1, .rw, 0⟩
/-- Accesses refused under R478, stopping at 2^32 − 1 -/
def Reg.HIF_BAD_ACCESS : Field := ⟨0x20, 0, 32, .ro, 0⟩
/-- The fields of Table 18-3 in order. -/
def Reg.hifFields : List Field :=
  [Reg.HIF_DEVICE, Reg.HIF_STEPPING, Reg.HIF_REGMAP_VERSION, Reg.HIF_EV_FAULT_LOG, Reg.HIF_EV_TRUSS,
   Reg.HIF_EV_THERMAL, Reg.HIF_EV_SECURITY, Reg.HIF_EV_CONTEXT, Reg.HIF_EVENT_VECTOR, Reg.HIF_EVENT_MSIX,
   Reg.HIF_BAD_ACCESS]
/-- The repeated fields of Table 18-3, at every 8 bytes. -/
def Reg.hifEach : List Field :=
  [Reg.HIF_MODE, Reg.HIF_WIDTH, Reg.HIF_RATE_64, Reg.HIF_LATENCY_OPT, Reg.HIF_IDE_IO, Reg.HIF_IDE_CACHEMEM]

/-! Table 17-2: JNR_STATUS -/
/-- Firmware slot running: 0 A, 1 B -/
def Reg.JNR_ACTIVE_SLOT : Field := ⟨0x0, 0, 1, .ro, 0⟩
/-- Slot A holds an image that passed R415 -/
def Reg.JNR_VALID_A : Field := ⟨0x0, 1, 1, .ro, 1⟩
/-- The same for slot B -/
def Reg.JNR_VALID_B : Field := ⟨0x0, 2, 1, .ro, 0⟩
/-- Reason code of the last live-service command, R8 -/
def Reg.JNR_STATUS : Field := ⟨0x0, 16, 16, .ro, 0⟩
/-- Restarts under R466 -/
def Reg.JNR_WATCHDOG_RESTARTS : Field := ⟨0x0, 32, 32, .ro, 0⟩
/-- Samples not taken, stopping at 2^32 − 1 -/
def Reg.JNR_TELEMETRY_LOST : Field := ⟨0x8, 0, 32, .ro, 0⟩
/-- Completions with 0xA001 -/
def Reg.JNR_BUSY_REFUSALS : Field := ⟨0x8, 32, 32, .ro, 0⟩
/-- Cores still to take the staged microcode -/
def Reg.JNR_UCODE_PENDING : Field := ⟨0x10, 0, 16, .ro, 0⟩
/-- The fields of Table 17-2 in order. -/
def Reg.jnrStatusFields : List Field :=
  [Reg.JNR_ACTIVE_SLOT, Reg.JNR_VALID_A, Reg.JNR_VALID_B, Reg.JNR_STATUS, Reg.JNR_WATCHDOG_RESTARTS,
   Reg.JNR_TELEMETRY_LOST, Reg.JNR_BUSY_REFUSALS, Reg.JNR_UCODE_PENDING]

/-! Table 15-2: JNR_KEYS -/
/-- Current generation -/
def Reg.KEYS_KEY_GEN : Field := ⟨0x0, 0, 32, .ro, 1⟩
/-- The previous generation is still live -/
def Reg.KEYS_SWEEP_ACTIVE : Field := ⟨0x0, 32, 1, .ro, 0⟩
/-- Writing 1 requests an advance, R409 -/
def Reg.KEYS_ROTATE : Field := ⟨0x0, 33, 1, .wo, 0⟩
/-- Reason code of the last request, R8 -/
def Reg.KEYS_STATUS : Field := ⟨0x0, 48, 16, .ro, 0⟩
/-- Percent, 1 to 10. Other values are ignored -/
def Reg.KEYS_SWEEP_SHARE : Field := ⟨0x8, 0, 4, .rw, 2⟩
/-- Bytes rewritten by the current sweep -/
def Reg.KEYS_SWEEP_BYTES : Field := ⟨0x10, 0, 64, .ro, 0⟩
/-- Advances since manufacture -/
def Reg.KEYS_ROTATIONS : Field := ⟨0x18, 0, 32, .ro, 0⟩
/-- The fields of Table 15-2 in order. -/
def Reg.jnrKeysFields : List Field :=
  [Reg.KEYS_KEY_GEN, Reg.KEYS_SWEEP_ACTIVE, Reg.KEYS_ROTATE, Reg.KEYS_STATUS, Reg.KEYS_SWEEP_SHARE,
   Reg.KEYS_SWEEP_BYTES, Reg.KEYS_ROTATIONS]

/-! Table 15-7: JNR_DEBUG -/
/-- Scope unlocked -/
def Reg.DEBUG_SCOPE : Field := ⟨0x0, 0, 3, .ro, 0⟩
/-- Reason code of the last attempt, R8 -/
def Reg.DEBUG_STATUS : Field := ⟨0x0, 16, 16, .ro, 0⟩
/-- Accepted unlocks since manufacture -/
def Reg.DEBUG_UNLOCKS : Field := ⟨0x0, 32, 32, .ro, 0⟩
/-- The fields of Table 15-7 in order. -/
def Reg.jnrDebugFields : List Field :=
  [Reg.DEBUG_SCOPE, Reg.DEBUG_STATUS, Reg.DEBUG_UNLOCKS]

/-! Table 17-6: LDG_STATUS -/
/-- 0 or 1 -/
def Reg.LDG_ACTIVE_HALF : Field := ⟨0x0, 0, 1, .ro, 0⟩
/-- Percent of the active half in use -/
def Reg.LDG_FILL_PCT : Field := ⟨0x0, 1, 7, .ro, 0⟩
/-- A compaction is running -/
def Reg.LDG_COMPACTING : Field := ⟨0x0, 8, 1, .ro, 0⟩
/-- Epoch of the active half -/
def Reg.LDG_EPOCH : Field := ⟨0x0, 32, 32, .ro, 0⟩
/-- Completed compactions -/
def Reg.LDG_COMPACTIONS : Field := ⟨0x8, 0, 32, .ro, 0⟩
/-- Groups discarded at the last cold reset -/
def Reg.LDG_TORN_GROUPS : Field := ⟨0x8, 32, 32, .ro, 0⟩
/-- Records skipped under R471 -/
def Reg.LDG_UNKNOWN_RECORDS : Field := ⟨0x10, 0, 32, .ro, 0⟩
/-- The fields of Table 17-6 in order. -/
def Reg.ldgStatusFields : List Field :=
  [Reg.LDG_ACTIVE_HALF, Reg.LDG_FILL_PCT, Reg.LDG_COMPACTING, Reg.LDG_EPOCH, Reg.LDG_COMPACTIONS,
   Reg.LDG_TORN_GROUPS, Reg.LDG_UNKNOWN_RECORDS]

/-! Table 16-5: SAF_SAFETY -/
/-- Transients within the window after which the next fault fences without a retest. 0 fences at every fault -/
def Reg.SAF_TRANSIENT_LIMIT : Field := ⟨0x0, 0, 8, .rw, 3⟩
/-- Window in hours. A write of 0 is ignored -/
def Reg.SAF_TRANSIENT_WINDOW_H : Field := ⟨0x0, 8, 8, .rw, 24⟩
/-- Reason code of the last request or event, R8 -/
def Reg.SAF_STATUS : Field := ⟨0x0, 16, 16, .ro, 0⟩
/-- Physical core for FENCE_GO -/
def Reg.SAF_FENCE_CORE : Field := ⟨0x0, 32, 9, .rw, 0⟩
/-- Writing 1 fences FENCE_CORE, R454 -/
def Reg.SAF_FENCE_GO : Field := ⟨0x0, 41, 1, .wo, 0⟩
/-- Faults of Table 16-3 since cold reset -/
def Reg.SAF_DATA_PATH_FAULTS : Field := ⟨0x8, 0, 32, .ro, 0⟩
/-- Retests passed since cold reset -/
def Reg.SAF_TRANSIENTS : Field := ⟨0x8, 32, 32, .ro, 0⟩
/-- Rotation tests failed -/
def Reg.SAF_LATENT_FAULTS : Field := ⟨0x10, 0, 32, .ro, 0⟩
/-- Cores fenced -/
def Reg.SAF_FENCES : Field := ⟨0x10, 32, 32, .ro, 0⟩
/-- Records written since cold reset, modulo 65,536 -/
def Reg.SAF_LOG_HEAD : Field := ⟨0x18, 0, 16, .ro, 0⟩
/-- The fields of Table 16-5 in order. -/
def Reg.safSafetyFields : List Field :=
  [Reg.SAF_TRANSIENT_LIMIT, Reg.SAF_TRANSIENT_WINDOW_H, Reg.SAF_STATUS, Reg.SAF_FENCE_CORE, Reg.SAF_FENCE_GO,
   Reg.SAF_DATA_PATH_FAULTS, Reg.SAF_TRANSIENTS, Reg.SAF_LATENT_FAULTS, Reg.SAF_FENCES, Reg.SAF_LOG_HEAD]

/-! Table 16-7: SAF_TEST_REQUEST -/
/-- Physical core -/
def Reg.TEST_CORE : Field := ⟨0x0, 0, 9, .rw, 0⟩
/-- Writing 1 submits the request, R451 -/
def Reg.TEST_GO : Field := ⟨0x0, 9, 1, .wo, 0⟩
/-- The request awaits its slot -/
def Reg.TEST_PENDING : Field := ⟨0x0, 10, 1, .ro, 0⟩
/-- Result of the last completed request -/
def Reg.TEST_PASSED : Field := ⟨0x0, 11, 1, .ro, 0⟩
/-- ms from GO, 1 to 65,535. A write of 0 is ignored -/
def Reg.TEST_DEADLINE_MS : Field := ⟨0x0, 16, 16, .rw, 1500⟩
/-- 0x0000, 0x8103 or 0x8104 -/
def Reg.TEST_STATUS : Field := ⟨0x0, 32, 16, .ro, 0⟩
/-- ms from GO at which the test ends -/
def Reg.TEST_EXPECTED_MS : Field := ⟨0x8, 0, 32, .ro, 0⟩
/-- The fields of Table 16-7 in order. -/
def Reg.safTestFields : List Field :=
  [Reg.TEST_CORE, Reg.TEST_GO, Reg.TEST_PENDING, Reg.TEST_PASSED, Reg.TEST_DEADLINE_MS,
   Reg.TEST_STATUS, Reg.TEST_EXPECTED_MS]

/-! Table 09-7: SAF_RISK_WEIGHTS -/
/-- Weight per corrected error -/
def Reg.RISK_W_CE : Field := ⟨0x0, 0, 8, .rw, 4⟩
/-- Weight per link retrain -/
def Reg.RISK_W_RT : Field := ⟨0x0, 8, 8, .rw, 16⟩
/-- Weight per °C of margin below 10 °C -/
def Reg.RISK_W_TH : Field := ⟨0x0, 16, 8, .rw, 64⟩
/-- Weight per droop event -/
def Reg.RISK_W_DR : Field := ⟨0x0, 24, 8, .rw, 32⟩
/-- The fields of Table 09-7 in order. -/
def Reg.safRiskFields : List Field :=
  [Reg.RISK_W_CE, Reg.RISK_W_RT, Reg.RISK_W_TH, Reg.RISK_W_DR]

/-! Table 13-6: NVW_VERIFY -/
/-- Interval for staging areas in minutes. A write of 0 is ignored -/
def Reg.VERIFY_STAGE_MIN : Field := ⟨0x0, 0, 16, .rw, 15⟩
/-- Interval for slots in minutes. A write of 0 is ignored -/
def Reg.VERIFY_SLOT_MIN : Field := ⟨0x0, 16, 16, .rw, 360⟩
/-- Percent, 1 to 10. Other values are ignored -/
def Reg.VERIFY_NVW_SHARE : Field := ⟨0x0, 32, 4, .rw, 2⟩
/-- The fields of Table 13-6 in order. -/
def Reg.nvwVerifyFields : List Field :=
  [Reg.VERIFY_STAGE_MIN, Reg.VERIFY_SLOT_MIN, Reg.VERIFY_NVW_SHARE]

/-! Table 16-6: SAF_BENT_STATUS_h -/
/-- Physical position 0 to 16 of the free core. 0x1F if none -/
def Reg.BENT_FREE_POSITION : Field := ⟨0x0, 0, 5, .ro, 16⟩
/-- R449 -/
def Reg.BENT_UNCOVERED : Field := ⟨0x0, 5, 1, .ro, 0⟩
/-- The free core is under test -/
def Reg.BENT_SLOT_ACTIVE : Field := ⟨0x0, 6, 1, .ro, 0⟩
/-- ms elapsed in the current slot -/
def Reg.BENT_SLOT_MS : Field := ⟨0x0, 16, 16, .ro, 0⟩
/-- Slots completed since cold reset -/
def Reg.BENT_SLOTS : Field := ⟨0x0, 32, 32, .ro, 0⟩
/-- Tests passed since cold reset -/
def Reg.BENT_PASSES : Field := ⟨0x8, 0, 32, .ro, 0⟩
/-- Tests failed -/
def Reg.BENT_FAILS : Field := ⟨0x8, 32, 32, .ro, 0⟩
/-- The fields of Table 16-6 in order. -/
def Reg.safBentFields : List Field :=
  [Reg.BENT_FREE_POSITION, Reg.BENT_UNCOVERED, Reg.BENT_SLOT_ACTIVE, Reg.BENT_SLOT_MS, Reg.BENT_SLOTS,
   Reg.BENT_PASSES, Reg.BENT_FAILS]

/-! Table 13-2: SAF_DRAM_STATUS_g -/
/-- Hottest sensor, whole °C -/
def Reg.DRAM_TEMP_C : Field := ⟨0x0, 0, 8, .ro, 0⟩
/-- 0 1×, 1 2×, 2 4×. 3 is never posted -/
def Reg.DRAM_REFRESH_BAND : Field := ⟨0x0, 8, 2, .ro, 0⟩
/-- Some island ceiling is lowered because of this stack -/
def Reg.DRAM_THROTTLING : Field := ⟨0x0, 10, 1, .ro, 0⟩
/-- Set at a trip under R362 -/
def Reg.DRAM_TRIPPED : Field := ⟨0x0, 11, 1, .rw1c, 0⟩
/-- Corrected errors -/
def Reg.DRAM_CE_COUNT : Field := ⟨0x8, 0, 32, .ro, 0⟩
/-- Uncorrectable errors -/
def Reg.DRAM_UE_COUNT : Field := ⟨0x8, 32, 32, .ro, 0⟩
/-- Granules poisoned now -/
def Reg.DRAM_POISONED : Field := ⟨0x10, 0, 32, .ro, 0⟩
/-- Complete patrol passes -/
def Reg.DRAM_PATROL_PASSES : Field := ⟨0x10, 32, 32, .ro, 0⟩
/-- 600 to 86,400. A write outside this range is ignored -/
def Reg.DRAM_PATROL_PERIOD_S : Field := ⟨0x18, 0, 32, .rw, 3600⟩
/-- The fields of Table 13-2 in order. -/
def Reg.safDramFields : List Field :=
  [Reg.DRAM_TEMP_C, Reg.DRAM_REFRESH_BAND, Reg.DRAM_THROTTLING, Reg.DRAM_TRIPPED, Reg.DRAM_CE_COUNT,
   Reg.DRAM_UE_COUNT, Reg.DRAM_POISONED, Reg.DRAM_PATROL_PASSES, Reg.DRAM_PATROL_PERIOD_S]

/-! Table 13-3: NVW_SLOT_s -/
/-- Writing 1 binds the teacher to CONTEXT and starts the check of Table 13-4. Reads 1 once the check and any staging have completed -/
def Reg.SLOT_ENABLE : Field := ⟨0x0, 0, 1, .rw, 0⟩
/-- 0 empty. 1 erasing. 2 installing. 3 installed. 4 quarantined. 5 failed. 6 to 15 are never posted -/
def Reg.SLOT_STATE : Field := ⟨0x0, 4, 4, .ro, 0⟩
/-- Head slot of the teacher that holds this slot -/
def Reg.SLOT_FIRST_SLOT : Field := ⟨0x0, 8, 3, .ro, 0⟩
/-- Slots held by the teacher, 1 to 8 -/
def Reg.SLOT_SLOTS : Field := ⟨0x0, 11, 4, .ro, 0⟩
/-- Reason code of the last check or event, R8 -/
def Reg.SLOT_STATUS : Field := ⟨0x0, 16, 16, .ro, 0⟩
/-- Bound context, 0 to 4,095 -/
def Reg.SLOT_CONTEXT : Field := ⟨0x0, 32, 12, .rwe, 0⟩
/-- First 64 bits of the manifest's SHAKE256 digest -/
def Reg.SLOT_MANIFEST_ID : Field := ⟨0x8, 0, 64, .ro, 0⟩
/-- Bytes held in the slots -/
def Reg.SLOT_TEACHER_BYTES : Field := ⟨0x10, 0, 48, .ro, 0⟩
/-- Bytes beyond the slots that the manifest declares, a multiple of 64 MiB -/
def Reg.SLOT_STAGE_BYTES : Field := ⟨0x18, 0, 48, .ro, 0⟩
/-- Offset of the staging area in CONTEXT's tier-1 region, a multiple of 4,096 -/
def Reg.SLOT_STAGE_BASE : Field := ⟨0x20, 0, 48, .rwe, 0⟩
/-- Offset of the staged shards in CONTEXT's tier-3 window, a multiple of 4,096 -/
def Reg.SLOT_STAGE_SOURCE : Field := ⟨0x28, 0, 48, .rwe, 0⟩
/-- Highest program count of any block of this slot -/
def Reg.SLOT_WEAR_MAX : Field := ⟨0x30, 0, 16, .ro, 0⟩
/-- Shards programmed in the install in progress -/
def Reg.SLOT_SHARDS_DONE : Field := ⟨0x30, 16, 16, .ro, 0⟩
/-- Completed verify passes of R372 over this slot -/
def Reg.SLOT_VERIFY_PASSES : Field := ⟨0x30, 32, 32, .ro, 0⟩
/-- The fields of Table 13-3 in order. -/
def Reg.nvwSlotFields : List Field :=
  [Reg.SLOT_ENABLE, Reg.SLOT_STATE, Reg.SLOT_FIRST_SLOT, Reg.SLOT_SLOTS, Reg.SLOT_STATUS,
   Reg.SLOT_CONTEXT, Reg.SLOT_MANIFEST_ID, Reg.SLOT_TEACHER_BYTES, Reg.SLOT_STAGE_BYTES, Reg.SLOT_STAGE_BASE,
   Reg.SLOT_STAGE_SOURCE, Reg.SLOT_WEAR_MAX, Reg.SLOT_SHARDS_DONE, Reg.SLOT_VERIFY_PASSES]

/-! Table 13-7: SAF_CKPT_STORE_n -/
/-- Writing 1 starts the check below -/
def Reg.STORE_ENABLE : Field := ⟨0x0, 0, 1, .rw, 0⟩
/-- Reason code, R8 -/
def Reg.STORE_STATUS : Field := ⟨0x0, 16, 16, .ro, 0⟩
/-- Truss address allowed to write -/
def Reg.STORE_SOURCE_DEVICE : Field := ⟨0x0, 32, 16, .rwe, 65535⟩
/-- Context at the source -/
def Reg.STORE_SOURCE_CONTEXT : Field := ⟨0x0, 48, 12, .rwe, 0⟩
/-- Tier-1 offset, a multiple of 4,096 -/
def Reg.STORE_BASE : Field := ⟨0x8, 0, 48, .rwe, 0⟩
/-- Length, a multiple of 8,192 -/
def Reg.STORE_BYTES : Field := ⟨0x10, 0, 48, .rwe, 0⟩
/-- Step held in the first half. 0 if the half is empty -/
def Reg.STORE_STEP_A : Field := ⟨0x18, 0, 64, .ro, 0⟩
/-- Step held in the second half -/
def Reg.STORE_STEP_B : Field := ⟨0x20, 0, 64, .ro, 0⟩
/-- Checkpoints secured -/
def Reg.STORE_CAPTURES : Field := ⟨0x28, 0, 32, .ro, 0⟩
/-- Captures refused -/
def Reg.STORE_REFUSED : Field := ⟨0x28, 32, 32, .ro, 0⟩
/-- The fields of Table 13-7 in order. -/
def Reg.ckptStoreFields : List Field :=
  [Reg.STORE_ENABLE, Reg.STORE_STATUS, Reg.STORE_SOURCE_DEVICE, Reg.STORE_SOURCE_CONTEXT, Reg.STORE_BASE,
   Reg.STORE_BYTES, Reg.STORE_STEP_A, Reg.STORE_STEP_B, Reg.STORE_CAPTURES, Reg.STORE_REFUSED]

/-! Table 13-8: HIF_HDM_w -/
/-- Writing 1 starts the check below -/
def Reg.HDM_ENABLE : Field := ⟨0x0, 0, 1, .rw, 0⟩
/-- Reason code, R8 -/
def Reg.HDM_STATUS : Field := ⟨0x0, 16, 16, .ro, 0⟩
/-- Context whose region is exposed -/
def Reg.HDM_CONTEXT : Field := ⟨0x0, 32, 12, .rwe, 0⟩
/-- Offset in the region, a multiple of 256 MiB -/
def Reg.HDM_OFFSET : Field := ⟨0x8, 0, 48, .rwe, 0⟩
/-- Length, a multiple of 256 MiB, at least 256 MiB -/
def Reg.HDM_BYTES : Field := ⟨0x10, 0, 48, .rwe, 0⟩
/-- Host reads refused under R378 -/
def Reg.HDM_BLOCKED_READS : Field := ⟨0x18, 0, 32, .ro, 0⟩
/-- Host writes discarded under R378 -/
def Reg.HDM_BLOCKED_WRITES : Field := ⟨0x18, 32, 32, .ro, 0⟩
/-- The fields of Table 13-8 in order. -/
def Reg.hdmFields : List Field :=
  [Reg.HDM_ENABLE, Reg.HDM_STATUS, Reg.HDM_CONTEXT, Reg.HDM_OFFSET, Reg.HDM_BYTES,
   Reg.HDM_BLOCKED_READS, Reg.HDM_BLOCKED_WRITES]

/-! Table 10-2: Truss port descriptor -/
/-- Writing 1 starts the check of Table 10-3, then training. Reads 1 once the check has passed -/
def Reg.TRS_ENABLE : Field := ⟨0x0, 0, 1, .rw, 0⟩
/-- 0b00 eight lanes, falling back under R273. 0b01 eight lanes only. 0b10 lanes 0–3. 0b11 lanes 4–7 -/
def Reg.TRS_WIDTH : Field := ⟨0x0, 2, 2, .rwe, 0⟩
/-- 0b00 backplane. 0b01 copper cable. 0b10 and 0b11 are refused -/
def Reg.TRS_MEDIUM : Field := ⟨0x0, 4, 2, .rwe, 0⟩
/-- Reason code of the last check or event, R8 -/
def Reg.TRS_STATUS : Field := ⟨0x0, 16, 16, .ro, 0⟩
/-- 0 down. 1 training. 2 up, eight lanes. 3 up, four lanes. 4 retraining. 5 failed. 6 and 7 are never posted -/
def Reg.TRS_LINK_STATE : Field := ⟨0x0, 32, 3, .ro, 0⟩
/-- The neighbour is a span neighbour under R294 -/
def Reg.TRS_SPAN_OK : Field := ⟨0x0, 35, 1, .ro, 0⟩
/-- Neighbour's fused 64-bit identity -/
def Reg.TRS_PEER_IDENTITY : Field := ⟨0x8, 0, 64, .ro, 0⟩
/-- Neighbour's device address -/
def Reg.TRS_PEER_ADDRESS : Field := ⟨0x10, 0, 16, .ro, 65535⟩
/-- PEER_ADDRESS has been assigned -/
def Reg.TRS_PEER_ADDR_VALID : Field := ⟨0x10, 16, 1, .ro, 0⟩
/-- Neighbour's port number -/
def Reg.TRS_PEER_PORT : Field := ⟨0x10, 17, 4, .ro, 0⟩
/-- Flits resent under R279 -/
def Reg.TRS_RETRIES : Field := ⟨0x18, 0, 32, .ro, 0⟩
/-- Retrains under R280 -/
def Reg.TRS_RETRAINS : Field := ⟨0x18, 32, 32, .ro, 0⟩
/-- Codewords corrected -/
def Reg.TRS_FEC_CORRECTED : Field := ⟨0x20, 0, 32, .ro, 0⟩
/-- Codewords not correctable -/
def Reg.TRS_FEC_UNCORRECTED : Field := ⟨0x20, 32, 32, .ro, 0⟩
/-- Flits whose authentication tag failed -/
def Reg.TRS_TAG_FAILS : Field := ⟨0x28, 0, 32, .ro, 0⟩
/-- Bit l set: lane l is trained and carrying flits -/
def Reg.TRS_LANES_GOOD : Field := ⟨0x30, 0, 8, .ro, 0⟩
/-- Bit l set: lane l is under recalibration, R296 -/
def Reg.TRS_LANE_CAL : Field := ⟨0x30, 8, 8, .ro, 0⟩
/-- The fields of Table 10-2 in order. -/
def Reg.trsPortFields : List Field :=
  [Reg.TRS_ENABLE, Reg.TRS_WIDTH, Reg.TRS_MEDIUM, Reg.TRS_STATUS, Reg.TRS_LINK_STATE,
   Reg.TRS_SPAN_OK, Reg.TRS_PEER_IDENTITY, Reg.TRS_PEER_ADDRESS, Reg.TRS_PEER_ADDR_VALID, Reg.TRS_PEER_PORT,
   Reg.TRS_RETRIES, Reg.TRS_RETRAINS, Reg.TRS_FEC_CORRECTED, Reg.TRS_FEC_UNCORRECTED, Reg.TRS_TAG_FAILS,
   Reg.TRS_LANES_GOOD, Reg.TRS_LANE_CAL]

/-! Table 18-8: Ring descriptor (128 bytes) -/
/-- Writing 1 starts the check of R489 -/
def Reg.RING_ENABLE : Field := ⟨0x0, 0, 1, .rw, 0⟩
/-- Fetch stopped under R491 -/
def Reg.RING_STOPPED : Field := ⟨0x0, 1, 1, .ro, 0⟩
/-- 0b00 management. 0b01 context. Other values are refused -/
def Reg.RING_KIND : Field := ⟨0x0, 2, 2, .rwe, 0⟩
/-- Port on which the ring is fetched, snooped and signalled -/
def Reg.RING_PORT : Field := ⟨0x0, 4, 1, .rwe, 0⟩
/-- 0 none. 1 every record. 2 coalesced. 3 is refused -/
def Reg.RING_MSIX_MODE : Field := ⟨0x0, 5, 2, .rwe, 0⟩
/-- Reason code, R8 -/
def Reg.RING_STATUS : Field := ⟨0x0, 16, 16, .ro, 0⟩
/-- Context of a context ring -/
def Reg.RING_CONTEXT : Field := ⟨0x0, 32, 12, .rwe, 0⟩
/-- Host physical address, a multiple of 4,096 -/
def Reg.RING_SUB_BASE : Field := ⟨0x8, 0, 52, .rwe, 0⟩
/-- Host physical address, a multiple of 4,096 -/
def Reg.RING_COMP_BASE : Field := ⟨0x10, 0, 52, .rwe, 0⟩
/-- Host physical address, a multiple of 64 -/
def Reg.RING_CTRL_LINE : Field := ⟨0x18, 0, 52, .rwe, 0⟩
/-- 4 to 16 -/
def Reg.RING_SUB_LOG2 : Field := ⟨0x20, 0, 5, .rwe, 0⟩
/-- 4 to 16 -/
def Reg.RING_COMP_LOG2 : Field := ⟨0x20, 8, 5, .rwe, 0⟩
/-- Vector on PORT's function -/
def Reg.RING_MSIX_VECTOR : Field := ⟨0x20, 16, 11, .rwe, 0⟩
/-- Mode 2: records per message, 1 to 65,535 -/
def Reg.RING_COAL_COUNT : Field := ⟨0x28, 0, 16, .rwe, 1⟩
/-- Mode 2: longest wait in µs. 0 waits for the count alone -/
def Reg.RING_COAL_US : Field := ⟨0x28, 16, 16, .rwe, 0⟩
/-- Poll interval, 1 to 1,000 µs. Reset 10 -/
def Reg.RING_POLL_US : Field := ⟨0x28, 32, 10, .rwe, 10⟩
/-- Entries fetched -/
def Reg.RING_HEAD : Field := ⟨0x30, 0, 32, .ro, 0⟩
/-- Records written -/
def Reg.RING_COMP_SEQ : Field := ⟨0x30, 32, 32, .ro, 0⟩
/-- Commands completed with a class 0x1 code -/
def Reg.RING_REFUSED : Field := ⟨0x38, 0, 32, .ro, 0⟩
/-- Snoops that woke the fetch engine -/
def Reg.RING_WAKES : Field := ⟨0x38, 32, 32, .ro, 0⟩
/-- The fields of Table 18-8 in order. -/
def Reg.ringFields : List Field :=
  [Reg.RING_ENABLE, Reg.RING_STOPPED, Reg.RING_KIND, Reg.RING_PORT, Reg.RING_MSIX_MODE,
   Reg.RING_STATUS, Reg.RING_CONTEXT, Reg.RING_SUB_BASE, Reg.RING_COMP_BASE, Reg.RING_CTRL_LINE,
   Reg.RING_SUB_LOG2, Reg.RING_COMP_LOG2, Reg.RING_MSIX_VECTOR, Reg.RING_COAL_COUNT, Reg.RING_COAL_US,
   Reg.RING_POLL_US, Reg.RING_HEAD, Reg.RING_COMP_SEQ, Reg.RING_REFUSED, Reg.RING_WAKES]

/-! Table 12-1: Stream table object (128 bytes) -/
/-- Writing 1 starts the check of Table 12-2. Reads 1 once the check has passed -/
def Reg.ST_ENABLE : Field := ⟨0x0, 0, 1, .rw, 0⟩
/-- Reason code of the last check, R8 -/
def Reg.ST_STATUS : Field := ⟨0x0, 16, 16, .ro, 0⟩
/-- Stream entries, 1 to 65,536 -/
def Reg.ST_STREAMS : Field := ⟨0x0, 32, 17, .rwe, 0⟩
/-- Tokens per stream, a multiple of 16 from 16 to 1,048,576 -/
def Reg.ST_MAX_TOKENS : Field := ⟨0x8, 0, 32, .rwe, 0⟩
/-- Chanter cache block size in units of 512 bytes, 1 to 65,535 -/
def Reg.ST_C_BLOCK_UNITS : Field := ⟨0x8, 32, 16, .rwe, 0⟩
/-- Drone cache block size in the same units -/
def Reg.ST_D_BLOCK_UNITS : Field := ⟨0x8, 48, 16, .rwe, 0⟩
/-- Chanter cache blocks, 1 to 2^32 − 1 -/
def Reg.ST_POOL_C : Field := ⟨0x10, 0, 32, .rwe, 0⟩
/-- Drone cache blocks. 0 if the context has no teacher -/
def Reg.ST_POOL_D : Field := ⟨0x10, 32, 32, .rwe, 0⟩
/-- Stream entries, 128 bytes each, Table 12-5 -/
def Reg.ST_ENTRY_BASE : Field := ⟨0x18, 0, 48, .rwe, 0⟩
/-- Token logs, MAX_TOKENS × 4 bytes per stream -/
def Reg.ST_TOKEN_BASE : Field := ⟨0x20, 0, 48, .rwe, 0⟩
/-- Block tables, MAX_TOKENS ÷ 16 × 8 bytes per stream -/
def Reg.ST_BTABLE_BASE : Field := ⟨0x28, 0, 48, .rwe, 0⟩
/-- Chanter block pool -/
def Reg.ST_POOL_C_BASE : Field := ⟨0x30, 0, 48, .rwe, 0⟩
/-- Drone block pool -/
def Reg.ST_POOL_D_BASE : Field := ⟨0x38, 0, 48, .rwe, 0⟩
/-- Prefix registry, 64 bytes × (POOL_C + POOL_D) -/
def Reg.ST_REGISTRY_BASE : Field := ⟨0x40, 0, 48, .rwe, 0⟩
/-- Adapter table, 32 KiB, Table 12-7 -/
def Reg.ST_ADAPTER_BASE : Field := ⟨0x48, 0, 48, .rwe, 0⟩
/-- Command slots, 32 bytes each -/
def Reg.ST_CMD_BASE : Field := ⟨0x50, 0, 48, .rwe, 0⟩
/-- Command slots, 16 to 4,096 -/
def Reg.ST_CMD_SLOTS : Field := ⟨0x50, 48, 16, .rwe, 0⟩
/-- Program peg that submits commands -/
def Reg.ST_CMD_PEG : Field := ⟨0x58, 0, 16, .rwe, 0⟩
/-- Program peg the engine signals -/
def Reg.ST_DONE_PEG : Field := ⟨0x58, 16, 16, .rwe, 1⟩
/-- Paused-stream time to live in seconds, 1 to 65,535. Reset 600 -/
def Reg.ST_TTL_S : Field := ⟨0x58, 32, 16, .rwe, 600⟩
/-- Pause area in the tier-3 window -/
def Reg.ST_PAUSE_BASE : Field := ⟨0x60, 0, 48, .rwe, 0⟩
/-- Its length, a multiple of 4,096 -/
def Reg.ST_PAUSE_BYTES : Field := ⟨0x68, 0, 48, .rwe, 0⟩
/-- Entries not in state 0 -/
def Reg.ST_STREAMS_OPEN : Field := ⟨0x70, 0, 32, .ro, 0⟩
/-- Chanter blocks neither held nor registered -/
def Reg.ST_FREE_C : Field := ⟨0x70, 32, 32, .ro, 0⟩
/-- The same for the Drone pool -/
def Reg.ST_FREE_D : Field := ⟨0x78, 0, 32, .ro, 0⟩
/-- Streams expired under R347, stopping at 2^32 − 1 -/
def Reg.ST_EXPIRED : Field := ⟨0x78, 32, 32, .ro, 0⟩
/-- The fields of Table 12-1 in order. -/
def Reg.streamTableFields : List Field :=
  [Reg.ST_ENABLE, Reg.ST_STATUS, Reg.ST_STREAMS, Reg.ST_MAX_TOKENS, Reg.ST_C_BLOCK_UNITS,
   Reg.ST_D_BLOCK_UNITS, Reg.ST_POOL_C, Reg.ST_POOL_D, Reg.ST_ENTRY_BASE, Reg.ST_TOKEN_BASE,
   Reg.ST_BTABLE_BASE, Reg.ST_POOL_C_BASE, Reg.ST_POOL_D_BASE, Reg.ST_REGISTRY_BASE, Reg.ST_ADAPTER_BASE,
   Reg.ST_CMD_BASE, Reg.ST_CMD_SLOTS, Reg.ST_CMD_PEG, Reg.ST_DONE_PEG, Reg.ST_TTL_S,
   Reg.ST_PAUSE_BASE, Reg.ST_PAUSE_BYTES, Reg.ST_STREAMS_OPEN, Reg.ST_FREE_C, Reg.ST_FREE_D,
   Reg.ST_EXPIRED]

/-! Table 18-7: HIF_T3W_c (64 bytes) -/
/-- Writing 1 starts the check below -/
def Reg.T3W_ENABLE : Field := ⟨0x0, 0, 1, .rw, 0⟩
/-- Bit p: port p carries the window -/
def Reg.T3W_PORTS : Field := ⟨0x0, 1, 2, .rwe, 0⟩
/-- 1: lines may be held in the shared cache under CXL.cache. 0: every access goes to the host -/
def Reg.T3W_CACHED : Field := ⟨0x0, 3, 1, .rwe, 0⟩
/-- Reason code, R8 -/
def Reg.T3W_STATUS : Field := ⟨0x0, 16, 16, .ro, 0⟩
/-- Host physical address, a multiple of 4,096 -/
def Reg.T3W_HOST_BASE : Field := ⟨0x8, 0, 52, .rwe, 0⟩
/-- Length, a multiple of 4,096 -/
def Reg.T3W_BYTES : Field := ⟨0x10, 0, 48, .rwe, 0⟩
/-- Reads that returned CXL poison -/
def Reg.T3W_POISON_READS : Field := ⟨0x18, 0, 32, .ro, 0⟩
/-- The fields of Table 18-7 in order. -/
def Reg.t3wFields : List Field :=
  [Reg.T3W_ENABLE, Reg.T3W_PORTS, Reg.T3W_CACHED, Reg.T3W_STATUS, Reg.T3W_HOST_BASE,
   Reg.T3W_BYTES, Reg.T3W_POISON_READS]

/-! Table 14-1: Context descriptor, core block -/
/-- Writing 1 starts the checks of Table 14-2. Writing 0 tears the context down under R399 -/
def Reg.CTX_ENABLE : Field := ⟨0x0, 0, 1, .rw, 0⟩
/-- 0 best-effort (BE). 1 latency-critical (LC) -/
def Reg.CTX_CLASS : Field := ⟨0x0, 1, 1, .rwe, 0⟩
/-- Long-sequence class, R239 -/
def Reg.CTX_LONG_SEQ : Field := ⟨0x0, 2, 1, .rwe, 0⟩
/-- The context may continue on degraded bays, as Integrity, Safety and Spares states -/
def Reg.CTX_ELASTIC : Field := ⟨0x0, 3, 1, .rwe, 0⟩
/-- State, Table 14-3 -/
def Reg.CTX_STATE : Field := ⟨0x0, 8, 3, .ro, 0⟩
/-- Reason code of the last check or event, R8 -/
def Reg.CTX_STATUS : Field := ⟨0x0, 16, 16, .ro, 0⟩
/-- Bays the context runs on, 1 to 64 -/
def Reg.CTX_BAYS : Field := ⟨0x0, 32, 7, .rwe, 0⟩
/-- Priority within the class. Higher runs first -/
def Reg.CTX_PRIORITY : Field := ⟨0x0, 40, 8, .rwe, 0⟩
/-- BE time slice in ms. 0 means no slice. Ignored for LC -/
def Reg.CTX_QUANTUM_MS : Field := ⟨0x0, 48, 16, .rwe, 0⟩
/-- Context seed of R64 -/
def Reg.CTX_SEED : Field := ⟨0x8, 0, 64, .rwe, 0⟩
/-- Drone bays by context bay number, R215 -/
def Reg.CTX_DRONE_BAYS : Field := ⟨0x10, 0, 64, .rwe, 0⟩
/-- Physical bays the scheduler may use -/
def Reg.CTX_ALLOWED_BAYS : Field := ⟨0x18, 0, 64, .rwe, 18446744073709551615⟩
/-- Physical bays held now. While none are held, the bays of the last placement -/
def Reg.CTX_LAST_BAYS : Field := ⟨0x20, 0, 64, .ro, 0⟩
/-- DRAM channel groups over which the region is striped, R384 -/
def Reg.CTX_DRAM_GROUPS : Field := ⟨0x28, 0, 32, .rwe, 0⟩
/-- The context owns every channel of those groups, R397 -/
def Reg.CTX_OWN_CHANNELS : Field := ⟨0x28, 32, 1, .rwe, 0⟩
/-- Region offset within each group, a multiple of 64 MiB -/
def Reg.CTX_GROUP_BASE : Field := ⟨0x30, 0, 34, .rwe, 0⟩
/-- Region bytes in each group, a multiple of 64 MiB, at least 64 MiB -/
def Reg.CTX_GROUP_BYTES : Field := ⟨0x38, 0, 34, .rwe, 0⟩
/-- Save window offset within each group, a multiple of 4,096, R385 -/
def Reg.CTX_SAVE_BASE : Field := ⟨0x40, 0, 34, .rwe, 0⟩
/-- Shared-cache ways owned in every slice, R397 -/
def Reg.CTX_OWN_WAYS : Field := ⟨0x48, 0, 16, .rwe, 0⟩
/-- Bandwidth regulator in GB/s. 0 means none, R396 -/
def Reg.CTX_BW_GBPS : Field := ⟨0x48, 16, 16, .rwe, 0⟩
/-- First package peg, a multiple of 32 -/
def Reg.CTX_PEG_BASE : Field := ⟨0x48, 32, 16, .rwe, 0⟩
/-- Pegs held, 0 to 65,504 -/
def Reg.CTX_PEG_COUNT : Field := ⟨0x48, 48, 16, .rwe, 0⟩
/-- Scheduler sequence number at which the context last became Waiting -/
def Reg.CTX_RUN_SEQ : Field := ⟨0x50, 0, 32, .ro, 0⟩
/-- Times saved for preemption, stop or slice, stopping at 2^32 − 1 -/
def Reg.CTX_SWITCHES : Field := ⟨0x50, 32, 32, .ro, 0⟩
/-- Accounting: the sum over held bays of µs held -/
def Reg.CTX_BAY_TIME_US : Field := ⟨0x58, 0, 64, .ro, 0⟩
/-- The fields of Table 14-1 in order. -/
def Reg.ctxCoreFields : List Field :=
  [Reg.CTX_ENABLE, Reg.CTX_CLASS, Reg.CTX_LONG_SEQ, Reg.CTX_ELASTIC, Reg.CTX_STATE,
   Reg.CTX_STATUS, Reg.CTX_BAYS, Reg.CTX_PRIORITY, Reg.CTX_QUANTUM_MS, Reg.CTX_SEED,
   Reg.CTX_DRONE_BAYS, Reg.CTX_ALLOWED_BAYS, Reg.CTX_LAST_BAYS, Reg.CTX_DRAM_GROUPS, Reg.CTX_OWN_CHANNELS,
   Reg.CTX_GROUP_BASE, Reg.CTX_GROUP_BYTES, Reg.CTX_SAVE_BASE, Reg.CTX_OWN_WAYS, Reg.CTX_BW_GBPS,
   Reg.CTX_PEG_BASE, Reg.CTX_PEG_COUNT, Reg.CTX_RUN_SEQ, Reg.CTX_SWITCHES, Reg.CTX_BAY_TIME_US]

/-! Table 09-1: Training block -/
/-- Steps committed or skipped since training began. Restored from a checkpoint -/
def Reg.CTX_STEP : Field := ⟨0x100, 0, 64, .ro, 0⟩
/-- Loss-scale exponent at first enable, −64 to 64 -/
def Reg.CTX_LS_INIT : Field := ⟨0x108, 0, 8, .rwe, 16⟩
/-- Lowest exponent -/
def Reg.CTX_LS_MIN : Field := ⟨0x108, 8, 8, .rwe, 0⟩
/-- Highest exponent -/
def Reg.CTX_LS_MAX : Field := ⟨0x108, 16, 8, .rwe, 32⟩
/-- Clean steps before the scale doubles, 1 to 65,535. Reset 2,000 -/
def Reg.CTX_LS_INTERVAL : Field := ⟨0x108, 24, 16, .rwe, 2000⟩
/-- Consecutive skips at CTX_LS_MIN before the context halts, 1 to 255 -/
def Reg.CTX_LS_FLOOR_LIMIT : Field := ⟨0x108, 40, 8, .rwe, 8⟩
/-- 1: masters held split -/
def Reg.CTX_MASTER_SPLIT : Field := ⟨0x108, 48, 1, .rwe, 0⟩
/-- Current exponent E. The loss scale is 2^E -/
def Reg.CTX_LS_EXP : Field := ⟨0x110, 0, 8, .ro, 16⟩
/-- Clean steps since E last changed -/
def Reg.CTX_LS_CLEAN : Field := ⟨0x110, 8, 16, .ro, 0⟩
/-- Consecutive skips taken at CTX_LS_MIN -/
def Reg.CTX_LS_FLOOR_RUN : Field := ⟨0x110, 24, 8, .ro, 0⟩
/-- 0 idle. 1 open. 2 update after COMMIT. 3 update after SKIP. 4 repeat due. 5 halted. 6 torn. 7 is never posted -/
def Reg.CTX_STEP_STATE : Field := ⟨0x110, 32, 3, .ro, 0⟩
/-- Global-norm limit, binary32. 0 disables clipping -/
def Reg.CTX_CLIP_NORM : Field := ⟨0x118, 0, 32, .rwe, 0⟩
/-- Committed-state region, a multiple of 4,096 -/
def Reg.CTX_STATE_BASE : Field := ⟨0x120, 0, 48, .rwe, 0⟩
/-- Its length, a multiple of 4,096. 0 disables the training machinery -/
def Reg.CTX_STATE_BYTES : Field := ⟨0x128, 0, 48, .rwe, 0⟩
/-- Step record, 512 bytes, a multiple of 4,096 -/
def Reg.CTX_STEPREC_BASE : Field := ⟨0x130, 0, 48, .rwe, 0⟩
/-- Mark table, 512 bytes per context core, a multiple of 4,096 -/
def Reg.CTX_MARK_BASE : Field := ⟨0x138, 0, 48, .rwe, 0⟩
/-- Most committed steps a restore may lose, 1 to 65,535. Reset 100 -/
def Reg.CTX_LOSS_BOUND : Field := ⟨0x140, 0, 16, .rwe, 100⟩
/-- Job risk at which checkpoints move closer. Reset 1,000 -/
def Reg.CTX_RISK_THRESHOLD : Field := ⟨0x140, 16, 16, .rwe, 1000⟩
/-- Truss address of the buddy package -/
def Reg.CTX_BUDDY_DEVICE : Field := ⟨0x140, 32, 16, .rwe, 65535⟩
/-- Checkpoint store number at the buddy -/
def Reg.CTX_BUDDY_STORE : Field := ⟨0x140, 48, 16, .rwe, 0⟩
/-- Also drain checkpoints to tier 3 -/
def Reg.CTX_DRAIN : Field := ⟨0x148, 0, 1, .rwe, 0⟩
/-- Drain every n-th checkpoint, 1 to 255 -/
def Reg.CTX_DRAIN_EVERY : Field := ⟨0x148, 8, 8, .rwe, 1⟩
/-- Offset in the tier-3 window, a multiple of 4,096 -/
def Reg.CTX_DRAIN_BASE : Field := ⟨0x150, 0, 48, .rwe, 0⟩
/-- Evaluation bays, at most 4 bits set -/
def Reg.CTX_EVAL_BAYS : Field := ⟨0x158, 0, 64, .rwe, 0⟩
/-- Evaluation snapshot area, a multiple of 4,096 -/
def Reg.CTX_EVAL_SNAP_BASE : Field := ⟨0x160, 0, 48, .rwe, 0⟩
/-- Working-copy range within the state region, a multiple of 4,096 -/
def Reg.CTX_WORKCOPY_OFFSET : Field := ⟨0x168, 0, 48, .rwe, 0⟩
/-- Its length, a multiple of 4,096 -/
def Reg.CTX_WORKCOPY_BYTES : Field := ⟨0x170, 0, 48, .rwe, 0⟩
/-- Replay bays, at most 4 bits set -/
def Reg.CTX_REPLAY_BAYS : Field := ⟨0x178, 0, 64, .rwe, 0⟩
/-- Replay trace area, a multiple of 4,096 -/
def Reg.CTX_TRACE_BASE : Field := ⟨0x180, 0, 48, .rwe, 0⟩
/-- Its length, a multiple of 4,096 -/
def Reg.CTX_TRACE_BYTES : Field := ⟨0x188, 0, 48, .rwe, 0⟩
/-- CTX_STEP of the latest secured checkpoint -/
def Reg.CTX_LAST_CKPT_STEP : Field := ⟨0x190, 0, 64, .ro, 0⟩
/-- Job risk of the latest decided step -/
def Reg.CTX_JOB_RISK : Field := ⟨0x198, 0, 16, .ro, 0⟩
/-- Checkpoint interval in force -/
def Reg.CTX_CKPT_INTERVAL : Field := ⟨0x198, 16, 16, .ro, 100⟩
/-- The fields of Table 09-1 in order. -/
def Reg.ctxTrainFields : List Field :=
  [Reg.CTX_STEP, Reg.CTX_LS_INIT, Reg.CTX_LS_MIN, Reg.CTX_LS_MAX, Reg.CTX_LS_INTERVAL,
   Reg.CTX_LS_FLOOR_LIMIT, Reg.CTX_MASTER_SPLIT, Reg.CTX_LS_EXP, Reg.CTX_LS_CLEAN, Reg.CTX_LS_FLOOR_RUN,
   Reg.CTX_STEP_STATE, Reg.CTX_CLIP_NORM, Reg.CTX_STATE_BASE, Reg.CTX_STATE_BYTES, Reg.CTX_STEPREC_BASE,
   Reg.CTX_MARK_BASE, Reg.CTX_LOSS_BOUND, Reg.CTX_RISK_THRESHOLD, Reg.CTX_BUDDY_DEVICE, Reg.CTX_BUDDY_STORE,
   Reg.CTX_DRAIN, Reg.CTX_DRAIN_EVERY, Reg.CTX_DRAIN_BASE, Reg.CTX_EVAL_BAYS, Reg.CTX_EVAL_SNAP_BASE,
   Reg.CTX_WORKCOPY_OFFSET, Reg.CTX_WORKCOPY_BYTES, Reg.CTX_REPLAY_BAYS, Reg.CTX_TRACE_BASE, Reg.CTX_TRACE_BYTES,
   Reg.CTX_LAST_CKPT_STEP, Reg.CTX_JOB_RISK, Reg.CTX_CKPT_INTERVAL]

/-! Table 11-1: Exchange block -/
/-- Packages in the job, n, from 1 to 16,384 -/
def Reg.CTX_RANKS : Field := ⟨0x200, 0, 15, .rwe, 1⟩
/-- This package's rank, 0 to n − 1 -/
def Reg.CTX_RANK : Field := ⟨0x200, 16, 14, .rwe, 0⟩
/-- Bucket channels C, 1 to 15 -/
def Reg.CTX_CHANNELS : Field := ⟨0x200, 32, 4, .rwe, 4⟩
/-- First Truss channel number used -/
def Reg.CTX_CHANNEL_BASE : Field := ⟨0x200, 36, 12, .rwe, 256⟩
/-- Bucket size in MiB, 1 to 64 -/
def Reg.CTX_BUCKET_MIB : Field := ⟨0x200, 48, 7, .rwe, 8⟩
/-- Exchange every n-th step, 1 to 64 -/
def Reg.CTX_THIN_N : Field := ⟨0x200, 55, 7, .rwe, 1⟩
/-- Carry late contributions into the next exchanging step -/
def Reg.CTX_CARRY : Field := ⟨0x200, 62, 1, .rwe, 0⟩
/-- Buckets per exchanging step, 1 to 65,535 -/
def Reg.CTX_BUCKETS : Field := ⟨0x208, 0, 16, .rwe, 1⟩
/-- Program peg that closes buckets -/
def Reg.CTX_FILL_PEG : Field := ⟨0x208, 16, 16, .rwe, 0⟩
/-- Program peg the engine signals -/
def Reg.CTX_DONE_PEG : Field := ⟨0x208, 32, 16, .rwe, 1⟩
/-- Program peg that releases the all-gather -/
def Reg.CTX_GATHER_PEG : Field := ⟨0x208, 48, 16, .rwe, 2⟩
/-- Late window in µs. 0 disables late exclusion -/
def Reg.CTX_DEADLINE_US : Field := ⟨0x210, 0, 16, .rwe, 0⟩
/-- Hard cut-off in ms, 1 to 65,535. Reset 5,000 -/
def Reg.CTX_CUTOFF_MS : Field := ⟨0x210, 16, 16, .rwe, 5000⟩
/-- Wire-scale table value written at first enable -/
def Reg.CTX_INIT_SCALE : Field := ⟨0x210, 32, 8, .rwe, 127⟩
/-- Bucket slots, 2 to 32 -/
def Reg.CTX_SLOTS : Field := ⟨0x210, 40, 6, .rwe, 4⟩
/-- Bucket slots, CTX_SLOTS × bucket size -/
def Reg.CTX_BUCKET_BASE : Field := ⟨0x218, 0, 48, .rwe, 0⟩
/-- Reduced shard area, R309 -/
def Reg.CTX_SHARD_BASE : Field := ⟨0x220, 0, 48, .rwe, 0⟩
/-- Wire-scale table, CTX_BUCKETS × 8,192 × CTX_BUCKET_MIB bytes -/
def Reg.CTX_SCALE_BASE : Field := ⟨0x228, 0, 48, .rwe, 0⟩
/-- Carry area, CTX_BUCKETS × bucket size -/
def Reg.CTX_CARRY_BASE : Field := ⟨0x230, 0, 48, .rwe, 0⟩
/-- n entries of 2 bytes: Truss address of each rank -/
def Reg.CTX_RANK_TABLE_BASE : Field := ⟨0x238, 0, 48, .rwe, 0⟩
/-- Statistics area, 768 bytes, R313 -/
def Reg.CTX_STAT_BASE : Field := ⟨0x240, 0, 48, .rwe, 0⟩
/-- Own contributions excluded as late -/
def Reg.CTX_LATE_EXCLUDED : Field := ⟨0x248, 0, 32, .ro, 0⟩
/-- Excluded contributions folded into a later step -/
def Reg.CTX_CARRIED : Field := ⟨0x248, 32, 32, .ro, 0⟩
/-- Excluded contributions dropped -/
def Reg.CTX_DROPPED : Field := ⟨0x250, 0, 32, .ro, 0⟩
/-- Dropped contributions that held a non-finite value -/
def Reg.CTX_DROPPED_NONFINITE : Field := ⟨0x250, 32, 32, .ro, 0⟩
/-- Blocks in which a code saturated, R306 -/
def Reg.CTX_SAT_BLOCKS : Field := ⟨0x258, 0, 32, .ro, 0⟩
/-- Steps repeated under REPEAT -/
def Reg.CTX_REPEATS : Field := ⟨0x258, 32, 32, .ro, 0⟩
/-- Attempt of the open step, from 0 -/
def Reg.CTX_ATTEMPT : Field := ⟨0x260, 0, 8, .ro, 0⟩
/-- The fields of Table 11-1 in order. -/
def Reg.ctxExchFields : List Field :=
  [Reg.CTX_RANKS, Reg.CTX_RANK, Reg.CTX_CHANNELS, Reg.CTX_CHANNEL_BASE, Reg.CTX_BUCKET_MIB,
   Reg.CTX_THIN_N, Reg.CTX_CARRY, Reg.CTX_BUCKETS, Reg.CTX_FILL_PEG, Reg.CTX_DONE_PEG,
   Reg.CTX_GATHER_PEG, Reg.CTX_DEADLINE_US, Reg.CTX_CUTOFF_MS, Reg.CTX_INIT_SCALE, Reg.CTX_SLOTS,
   Reg.CTX_BUCKET_BASE, Reg.CTX_SHARD_BASE, Reg.CTX_SCALE_BASE, Reg.CTX_CARRY_BASE, Reg.CTX_RANK_TABLE_BASE,
   Reg.CTX_STAT_BASE, Reg.CTX_LATE_EXCLUDED, Reg.CTX_CARRIED, Reg.CTX_DROPPED, Reg.CTX_DROPPED_NONFINITE,
   Reg.CTX_SAT_BLOCKS, Reg.CTX_REPEATS, Reg.CTX_ATTEMPT]

/-! Table 08-1: Windway queue descriptor (64 bytes) -/
/-- Writing 1 starts the check of Table 08-2. Reads 1 only once the check has passed -/
def Reg.WWY_ENABLE : Field := ⟨0x0, 0, 1, .rw, 0⟩
/-- Windway segment 0 to 15 that holds the ring -/
def Reg.WWY_SEGMENT : Field := ⟨0x0, 4, 4, .rwe, 0⟩
/-- 0b01 soft-target. 0b10 feature. 0b11 raw. 0b00 is refused -/
def Reg.WWY_RECORD_KIND : Field := ⟨0x0, 8, 2, .rwe, 0⟩
/-- Soft-target: 0 forward KL, 1 reverse KL, 2 Jensen–Shannon. Feature: 4 mean squared error. Raw: ignored -/
def Reg.WWY_LOSS : Field := ⟨0x0, 10, 3, .rwe, 0⟩
/-- Soft-target: the loss and its gradient are multiplied by T² -/
def Reg.WWY_TSQ : Field := ⟨0x0, 13, 1, .rwe, 0⟩
/-- A DRAM spill area is permitted -/
def Reg.WWY_SPILL : Field := ⟨0x0, 14, 1, .rwe, 0⟩
/-- Records arrive over the Truss from REMOTE_DEVICE -/
def Reg.WWY_REMOTE_PUT : Field := ⟨0x0, 15, 1, .rwe, 0⟩
/-- Records put here are sent over the Truss to REMOTE_DEVICE -/
def Reg.WWY_REMOTE_GET : Field := ⟨0x0, 16, 1, .rwe, 0⟩
/-- Soft-target: largest K, 1 to 128 -/
def Reg.WWY_K_MAX : Field := ⟨0x0, 24, 8, .rwe, 0⟩
/-- Feature: elements per record, a multiple of 32 from 32 to 32,768 -/
def Reg.WWY_FEATURE_D : Field := ⟨0x0, 32, 16, .rwe, 0⟩
/-- Raw: record size in bytes, a multiple of 16 from 16 to 65,520. Other kinds: a written value is ignored, and the field reads the size given by R218 -/
def Reg.WWY_RECORD_BYTES : Field := ⟨0x0, 48, 16, .rwe, 0⟩
/-- Byte offset of the ring within the segment, a multiple of 4,096 -/
def Reg.WWY_BASE : Field := ⟨0x8, 0, 22, .rwe, 0⟩
/-- Records held in the segment. For REMOTE_GET, the capacity of the partner queue -/
def Reg.WWY_DEPTH : Field := ⟨0x8, 32, 32, .rwe, 0⟩
/-- Context-relative logical core allowed to put -/
def Reg.WWY_PUT_CORE : Field := ⟨0x10, 0, 8, .rwe, 0⟩
/-- Context-relative logical core allowed to get -/
def Reg.WWY_GET_CORE : Field := ⟨0x10, 8, 8, .rwe, 0⟩
/-- Truss address of the partner package -/
def Reg.WWY_REMOTE_DEVICE : Field := ⟨0x10, 16, 16, .rwe, 0⟩
/-- Queue number at the partner -/
def Reg.WWY_REMOTE_QUEUE : Field := ⟨0x10, 32, 8, .rwe, 0⟩
/-- Offset of the spill area in the context's tier-1 region, a multiple of 4,096 -/
def Reg.WWY_SPILL_BASE : Field := ⟨0x18, 0, 48, .rwe, 0⟩
/-- Records the spill area holds -/
def Reg.WWY_SPILL_RECORDS : Field := ⟨0x20, 0, 32, .rwe, 0⟩
/-- Reason code of the last check or event, R8 -/
def Reg.WWY_STATUS : Field := ⟨0x20, 32, 16, .ro, 0⟩
/-- Records taken by WWPUTs since ENABLE was set -/
def Reg.WWY_PUT_SEQ : Field := ⟨0x28, 0, 64, .ro, 0⟩
/-- Records taken by WWGETs since ENABLE was set -/
def Reg.WWY_GET_SEQ : Field := ⟨0x30, 0, 64, .ro, 0⟩
/-- Accumulated time the queue's WWPUTs waited for credits, in whole units of 1,024 segment cycles. Every segment cycle in which a WWPUT waits at the head is counted, the remainder carries from one wait to the next, and this field gains 1 at each 1,024th such cycle. Stops at 2^32 − 1 -/
def Reg.WWY_PUT_WAIT : Field := ⟨0x38, 0, 32, .ro, 0⟩
/-- The same accumulated count for the queue's WWGETs waiting for records -/
def Reg.WWY_GET_WAIT : Field := ⟨0x38, 32, 32, .ro, 0⟩
/-- The fields of Table 08-1 in order. -/
def Reg.wwyFields : List Field :=
  [Reg.WWY_ENABLE, Reg.WWY_SEGMENT, Reg.WWY_RECORD_KIND, Reg.WWY_LOSS, Reg.WWY_TSQ,
   Reg.WWY_SPILL, Reg.WWY_REMOTE_PUT, Reg.WWY_REMOTE_GET, Reg.WWY_K_MAX, Reg.WWY_FEATURE_D,
   Reg.WWY_RECORD_BYTES, Reg.WWY_BASE, Reg.WWY_DEPTH, Reg.WWY_PUT_CORE, Reg.WWY_GET_CORE,
   Reg.WWY_REMOTE_DEVICE, Reg.WWY_REMOTE_QUEUE, Reg.WWY_SPILL_BASE, Reg.WWY_SPILL_RECORDS, Reg.WWY_STATUS,
   Reg.WWY_PUT_SEQ, Reg.WWY_GET_SEQ, Reg.WWY_PUT_WAIT, Reg.WWY_GET_WAIT]

/-! Table 19-4: PWR_ registers -/
/-- 1 s average limit, 900 to 1,650 W. Other values are ignored -/
def Reg.PWR_SUSTAINED_W : Field := ⟨0x0, 0, 11, .rw, 1500⟩
/-- 10 ms average limit, SUSTAINED_W to 1,650 W. Other values are ignored -/
def Reg.PWR_EXCURSION_W : Field := ⟨0x0, 11, 11, .rw, 1650⟩
/-- Keep tier 1 across a warm reset, R515 -/
def Reg.PWR_PRESERVE : Field := ⟨0x0, 22, 1, .rw, 0⟩
/-- Unheld bays may sleep, R511 -/
def Reg.PWR_BAY_SLEEP : Field := ⟨0x0, 23, 1, .rw, 0⟩
/-- 1 to 255. A write of 0 is ignored -/
def Reg.PWR_SLEEP_AFTER_MS : Field := ⟨0x0, 24, 8, .rw, 100⟩
/-- Package power over the last 10 ms -/
def Reg.PWR_POWER_10MS_W : Field := ⟨0x8, 0, 11, .ro, 0⟩
/-- Package power over the last 1 s -/
def Reg.PWR_POWER_1S_W : Field := ⟨0x8, 11, 11, .ro, 0⟩
/-- Some ceiling is lowered under R508 -/
def Reg.PWR_CAPPING : Field := ⟨0x8, 22, 1, .ro, 0⟩
/-- Reason code of the last event, R8 -/
def Reg.PWR_STATUS : Field := ⟨0x8, 32, 16, .ro, 0⟩
/-- R504, stopping at 2^32 − 1 -/
def Reg.PWR_DROOP_EVENTS : Field := ⟨0x10, 0, 32, .ro, 0⟩
/-- Ceiling reductions under R508 -/
def Reg.PWR_CAP_STEPS : Field := ⟨0x10, 32, 32, .ro, 0⟩
/-- 300 to 600, a multiple of 25. Other values are ignored -/
def Reg.PWR_TARGET_MHZ : Field := ⟨0x100, 0, 10, .rw, 600⟩
/-- Lowest of the thermal and power ceilings -/
def Reg.PWR_CEILING_MHZ : Field := ⟨0x100, 10, 10, .ro, 600⟩
/-- Frequency now -/
def Reg.PWR_CURRENT_MHZ : Field := ⟨0x100, 20, 10, .ro, 600⟩
/-- The bay is in the sleep state -/
def Reg.PWR_SLEEPING : Field := ⟨0x100, 30, 1, .ro, 0⟩
/-- The fields of Table 19-4 in order. -/
def Reg.pwrFields : List Field :=
  [Reg.PWR_SUSTAINED_W, Reg.PWR_EXCURSION_W, Reg.PWR_PRESERVE, Reg.PWR_BAY_SLEEP, Reg.PWR_SLEEP_AFTER_MS,
   Reg.PWR_POWER_10MS_W, Reg.PWR_POWER_1S_W, Reg.PWR_CAPPING, Reg.PWR_STATUS, Reg.PWR_DROOP_EVENTS,
   Reg.PWR_CAP_STEPS]
/-- The repeated fields of Table 19-4, at every 8 bytes. -/
def Reg.pwrEach : List Field :=
  [Reg.PWR_TARGET_MHZ, Reg.PWR_CEILING_MHZ, Reg.PWR_CURRENT_MHZ, Reg.PWR_SLEEPING]

/-- The key of a field of the object at a base: its lowest bit's address. -/
def Field.key (f : Field) (base : Nat) : Nat := (base + f.off) * 8 + f.lo

end Sys2Proof.Machine
end

