-- ==== Sys2Proof/Machine/State.lean ====
section
/-! DEFINITION. The state of the block, as plain data: every piece the spec names (INVENTORY.md lists them), the queue
of commands that are waiting, and the model's own two counters. -/
namespace Sys2Proof.Machine

/-- One lane generator and its draw counter (02 R63). -/
structure Lane where
  state : Word
  counter : Nat
deriving DecidableEq, Repr

/-- A lane as a core holds it from reset until a program or a scrub: the state R64 gives where the mix is zero, since R63
says that a state is never zero. -/
def Lane.start : Lane := ⟨0x6A09E667F3BCC909, 0⟩

/-- The registers an instruction reads at issue (05 R130), with the lanes its draws come from. -/
structure RegFile where
  s : Map Word
  v : Map (BitVec 2048)
  p : Map Word
  td : Map (BitVec 256)
  lanes : Map Lane
deriving DecidableEq, Repr

def RegFile.zero : RegFile := ⟨[], [], [], [], []⟩

/-- What a slot reads of its own core as it stood before its bundle, where another slot of the bundle writes it (06 R168,
07 R209): ranges of the scratchpad with their bytes, and tiles with their words and TILE_STATUS. -/
structure Before where
  mem : List (Nat × List Byte)
  tiles : List Nat
  acc : Map (BitVec 32)
  status : Map (BitVec 16)
deriving DecidableEq, Repr

/-- An instruction in flight, or withdrawn (05 R161, 06 R164): its slot word, where and when it issued, the registers
it read, DYN_ROUNDING and NAN_MODE as they stood at issue (02 R60, 06 R170), what an SMOVS read there (R170) and what its
bundle's other slots will overwrite (R168), its retry passes (03 R92), the bytes of a Bellows move already written (05 R161),
the bytes it has asked of tier 1 and tier 3 (14 R396), and for a WWPUT or WWGET that it has its credit or records. -/
structure InFlight where
  id : Nat
  slot : Slot
  unit : ExecUnit
  word : Word
  addr : Word
  seq : Word
  regs : RegFile
  dyn : Nat
  nanMode : Nat
  status : Option Word
  before : Option Before
  legacy : Option (Fin 3 × Word)
  retries : Nat
  cursor : Nat
  asked : Nat
  taken : Bool
deriving DecidableEq, Repr

/-- A trap of a completed or withdrawn instruction, posted at the next bundle boundary (05 R155, R160, R531): its
instruction's number, its record, whether it is the first-NaN trap, and whether its instruction held issue. -/
structure Deferred where
  id : Nat
  record : BitVec 2048
  firstNan : Bool
  held : Bool
deriving DecidableEq, Repr

/-- What a core is doing (05 R157, R161; 06 R183; 16 R442). -/
inductive RunState where
  | idle | running | halted | draining | drained | trapped | fenced
deriving DecidableEq, Repr

/-- A waiting PEGW (07 R199): the package peg, its threshold, and whether its slice has released it. -/
structure PegWait where
  peg : Nat
  threshold : BitVec 32
  released : Bool
  inst : InFlight
deriving DecidableEq, Repr

/-- A FENCE barrier in the issue stage (07 R201). -/
structure FenceBar where
  mask : BitVec 5
  seq : Word
  inst : InFlight
deriving DecidableEq, Repr

/-- One core (05 Table 05-1). The instruction cache is held as the lines in each of its sets (05 R150); legacyAt is the
legacy segment the core runs in legacy mode (07 R207); fetchAsked what a line being fetched has asked of tier 1 (14 R396). -/
structure Core where
  regs : RegFile
  acc : Map (BitVec 32)
  tileStatus : Map (BitVec 16)
  scratch : Map Byte
  side : Map (BitVec 256)
  numStatus : Word
  trapControl : Word
  trapRec : BitVec 2048
  nanRec : BitVec 2048
  counters : Map Nat
  icacheMisses : Nat
  icache : Map (List Nat)
  pc : Word
  legacyAt : Option Nat
  fetchAsked : Nat
  seq : Word
  nextId : Nat
  flight : List InFlight
  withdrawn : List InFlight
  deferred : List Deferred
  run : RunState
  halt : Bool
  fence : Option FenceBar
  pegWait : Option PegWait
deriving DecidableEq, Repr

/-- A core before any program: TRAP_CONTROL at its reset value (Table 05-3), everything else zero or none. -/
def Core.start : Core :=
  { regs := .zero, acc := [], tileStatus := [], scratch := [], side := [], numStatus := 0, trapControl := 1,
    trapRec := 0, nanRec := 0, counters := [], icacheMisses := 0, icache := [], pc := 0, legacyAt := none, fetchAsked := 0,
    seq := 0, nextId := 0, flight := [], withdrawn := [], deferred := [], run := .idle, halt := false, fence := none, pegWait := none }

/-- A core as a scrub leaves it (14 R395): every item of 05 Table 05-1 zero, lane generators and TRAP_CONTROL among them,
and the cache invalid. -/
def Core.scrubbed : Core :=
  { Core.start with trapControl := 0, regs := { RegFile.zero with lanes := (List.range 64).map (fun j => (j, ⟨0, 0⟩)) } }

/-- A command that has started and not completed (18 R494): where its records go. -/
structure Ticket where
  ring : RingId
  cmdId : BitVec 32
  op : BitVec 8
  ctx : CtxId
  noSignal : Bool
deriving DecidableEq, Repr

/-- The resource declaration of a program (05 Table 05-10). -/
structure Decl where
  scratch : Nat
  tiles : Nat
  side : Nat
  pegs : Nat
  credits : Nat
  streams : Nat
  bays : Nat
  minCores : Nat
  legacy : Bool
  nvw : Bool
  tier1 : Nat
  tier3 : Nat
  caps : Nat
  preloadOff : Nat
  preloadBytes : Nat
  offload : Nat
deriving DecidableEq, Repr

/-- One segment of an image (05 Table 05-9). -/
structure Segment where
  off : Nat
  kind : Nat
  bytes : Nat
  dest : Nat
deriving DecidableEq, Repr

/-- A loaded program: the context bays it runs on, where its image copy lies in the region, and what its header says. -/
structure Program where
  bays : Word
  base : Nat
  bytes : Nat
  entry : Nat
  segs : List Segment
  decl : Decl
  args : List Word
  ticket : Option Ticket
  reportStart : Bool
  started : Bool
deriving DecidableEq, Repr

/-- Why a context is switching its bays (14 R391): what follows the save and scrub. -/
inductive SwitchGoal where
  | preempt            -- back to Waiting (R389, R390)
  | stop (code : BitVec 16)    -- to Stopped (R398)
  | place              -- to Running (R388)
deriving DecidableEq, Repr

/-- The phases of a switch (14 R391). -/
inductive SwitchPhase where | drain | scrub | restore
deriving DecidableEq, Repr

/-- A training step that is open (09 R249 to R257): what step-open carried, the exponent and counters as they stood, the
event that stopped the step, and whether its SKIP reached the floor limit. -/
structure OpenStep where
  dataPos : Word
  dataNext : Word
  evalReq : Bool
  ckptForce : Bool
  lsExp : BitVec 8
  countersAtOpen : List Nat
  drawsAtOpen : List Nat
  stopEvent : Option (BitVec 16)
  floorHalt : Bool
deriving DecidableEq, Repr

/-- A checkpoint of a context (09 R263). -/
structure Checkpoint where
  ctx : CtxId
  step : Word
  block : List Nat
  split : Bool
  bays : Nat
  dataNext : Word
  stateLen : Nat
  stateBytes : List Byte
  marks : List Byte
  lanes : Map Lane
  keyGen : Nat
deriving DecidableEq, Repr

/-- A checkpoint that has fallen due (09 R262 to R264): its step and DATA_NEXT, whether it is to be drained, what was
captured once its capture started, and the packets that carry it: the first one's PKT_SEQ and how many they are. -/
structure Due where
  step : Word
  dataNext : Word
  drain : Bool
  taken : Option Checkpoint
  first : BitVec 32
  packets : Nat
deriving DecidableEq, Repr

/-- What an armed step took in from outside what a replay can rebuild (09 R268): the core, BUNDLE_SEQ and slot that took it (no
core: a reduced bucket), the number a WWPUT or WWGET wrote into its SQ register, and the bytes. -/
structure Import where
  core : Option LogicalId
  seq : Word
  slot : Slot
  sq : Word
  bytes : List Byte
deriving DecidableEq, Repr

/-- A bucket of the open step as the exchange engine knows it (11 R302 to R316): closed, excluded as late, its own
non-finite flag and risk, whether a packet of it has come, the packets that wait, how many packets of its sequence have
arrived and been worked, and the saturated blocks of the segment being worked. -/
structure Bucket where
  number : Nat
  closed : Bool
  excluded : Bool
  nonfinite : Bool
  risk : Nat
  arrived : Nat
  worked : Nat
  waiting : List ReducePacket
  sat : Nat
deriving DecidableEq, Repr

/-- A late contribution held in the carry area (11 R315, R316): its bucket, the exponent it was formed under, its flag and
risk, and whether it was formed in this step or folded into it. -/
structure Carry where
  bucket : Nat
  lsExp : BitVec 8
  nonfinite : Bool
  risk : Nat
  formed : Bool
  folded : Bool
deriving DecidableEq, Repr

/-- The gradient exchange engine of one context (11): the peg increments still to be acted on and the signals given (07
R197), the buckets of the step, packets of a later step or attempt, carries, the scale entries it holds, delivery and the
norm so far, the statistics inputs, the summary on its way and its totals, an abort, and the all-gather. -/
structure Exchange where
  fillCount : Nat
  gatherCount : Nat
  doneSignals : Nat
  closed : Nat
  buckets : List Bucket
  early : List ReducePacket
  earlySummaries : List Summary
  earlyChunks : List Chunk
  carries : List Carry
  heldScales : Map Byte
  delivered : Nat
  q : Nat
  late : Nat
  stats : Option (List Nat × List Nat)
  merged : Bool
  soFar : Option Summary
  totals : Option Summary
  abort : Option (BitVec 16)
  gathering : Bool
  gathered : Nat
deriving DecidableEq, Repr

/-- The engine between steps, and before any. -/
def Exchange.idle : Exchange :=
  { fillCount := 0, gatherCount := 0, doneSignals := 0, closed := 0, buckets := [], early := [], earlySummaries := [],
    earlyChunks := [], carries := [], heldScales := [], delivered := 0, q := 0, late := 0, stats := none, merged := false,
    soFar := none, totals := none, abort := none, gathering := false, gathered := 0 }

/-- A registered cache block (12 R330 to R334): its side, its number, its hash and its tokens. -/
structure RegBlock where
  side : Nat
  block : Nat
  hash : Nat
  tokens : List Nat
deriving DecidableEq, Repr

/-- A paused stream's sealed copy (12 R347, 15 R425): the stream, its place in the pause area, the blocks, and which
sealing of the area's bytes it was. -/
structure PauseCopy where
  stream : Nat
  off : Nat
  len : Nat
  blocks : List (List Byte)
  draw : Nat
deriving DecidableEq, Repr

/-- A cache block packet that has come in of an export (12 R349): its source, its PKT_SEQ and its body. -/
structure StreamPiece where
  src : BitVec 16
  seq : BitVec 32
  body : List Byte
deriving DecidableEq, Repr

/-- One version record of an adapter slot (12 Table 12-7). -/
structure Adapter where
  version : Nat
  current : Bool
  refs : Nat
  base : Nat
  bytes : Nat
deriving DecidableEq, Repr

def Adapter.empty : Adapter := ⟨0, false, 0, 0, 0⟩

/-- The stream engine of one context beside the table it keeps in memory (12): when each stream opened, when it last
committed and one more than the time at which it was paused; the registry, oldest first, and how far each stream has registered its blocks;
the holders of each block; adapters, grammars, pause copies; and the pieces of exports that have arrived. -/
structure Streams where
  opened : Map Nat
  committed : Map Nat
  pausedAt : Map Nat
  registry : List RegBlock
  regDone : Map Nat
  holders : Map Nat
  adapters : Map Adapter
  lastVersion : Map Nat
  grammars : Map (Nat × Nat)
  pauses : List PauseCopy
  pieces : List StreamPiece
deriving DecidableEq, Repr

def Streams.start : Streams :=
  { opened := [], committed := [], pausedAt := [], registry := [], regDone := [], holders := [], adapters := [],
    lastVersion := [], grammars := [], pauses := [], pieces := [] }

/-- One context beside its descriptor: the bays it holds, since when, its programs, what is saved with it, its engines with their
counts of peg increments and of signals given (07 R197); replayed holds the programs of the step that a replay record tells of. -/
structure Ctx where
  bayMap : List BayId
  placedAt : Nat
  placedUs : Nat
  programs : List Program
  saved : Map Core
  kept : Map Core
  hasSaved : Bool
  savedActive : List Nat
  goal : Option SwitchGoal
  phase : SwitchPhase
  tickets : List Ticket
  step : Option OpenStep
  lastDataNext : Word
  dataNextDue : Option Word
  restoredLanes : Map Lane
  captures : List Due
  ckptCount : Nat
  drainHalf : Nat
  gateReason : BitVec 16
  replayArm : Option Word
  trace : List TraceEntry
  traceTruncated : Bool
  traceStep : Word
  imports : List Import
  replayed : List Program
  exch : Exchange
  nonce : Option Nat
  safeState : Bool
  faulted : Bool
  cmdCount : Nat
  cmdNext : Nat
  cmdDone : Nat
  bwUsed : Map Nat
  streams : Streams
  told : Bool
deriving DecidableEq, Repr

/-- A context that is Disabled. -/
def Ctx.start : Ctx :=
  { bayMap := [], placedAt := 0, placedUs := 0, programs := [], saved := [], kept := [], hasSaved := false, savedActive := [],
    goal := none, phase := .drain, tickets := [], step := none, lastDataNext := 0, dataNextDue := none, restoredLanes := [],
    captures := [], ckptCount := 0, drainHalf := 0, gateReason := 0, replayArm := none, trace := [], traceTruncated := false, traceStep := 0,
    imports := [], replayed := [], exch := .idle, nonce := none, safeState := false, faulted := false, cmdCount := 0, cmdNext := 0, cmdDone := 0,
    bwUsed := [], streams := .start, told := false }

/-- A record held in a Windway queue (08 R228, R229): its number, and its bytes in the ring or its place in the spill area. -/
structure WRecord where
  seq : Nat
  bytes : List Byte
  spill : Option Nat
deriving DecidableEq, Repr

/-- A WWPUT or WWGET in a queue's order, by its core and its number in flight there. -/
structure WRef where
  core : CoreId
  id : Nat
deriving DecidableEq, Repr

/-- A record a WWGET has taken and not yet written into its scratchpad: the instruction and the row. -/
structure WDelivery where
  ref : WRef
  row : Nat
  rcd : WRecord
deriving DecidableEq, Repr

/-- What a queue is clearing (08 R220): its ring as a segment and a range of it, and its spill area in the region. -/
structure Clearing where
  segment : Nat
  ring : Nat × Nat
  spill : Nat × Nat
deriving DecidableEq, Repr

/-- One Windway queue beside its descriptor (08 R228). -/
structure Queue where
  recs : List WRecord
  puts : List WRef
  gets : List WRef
  delivering : List WDelivery
  outstanding : Nat
  clearing : List Clearing
  putCycles : Nat
  getCycles : Nat
  spanPair : Bool
deriving DecidableEq, Repr

def Queue.start : Queue := ⟨[], [], [], [], 0, [], 0, 0, false⟩

/-- A completion record that waits to be written (18 Table 18-11). -/
structure Record where
  cmdId : BitVec 32
  ctx : CtxId
  final : Bool
  op : BitVec 8
  status : BitVec 16
  comp0 : Word
  comp1 : Word
  noSignal : Bool
deriving DecidableEq, Repr

/-- A fetched command entry that has not started: its opcode and its fields (18 Table 18-9). -/
structure Fetched where
  op : BitVec 8
  entry : Entry
deriving DecidableEq, Repr

/-- One ring beside its descriptor (18 R489 to R498). -/
structure Ring where
  subTail : BitVec 32
  compHead : BitVec 32
  hasCopy : Bool
  fetched : List Fetched
  records : List Record
  sinceMsg : Nat
  running : Nat
  closing : Bool
deriving DecidableEq, Repr

def Ring.start : Ring := ⟨0, 0, false, [], [], 0, 0, false⟩

/-- One MSI-X table entry (18 R498): address, data, mask. -/
structure MsixEntry where
  addr : Word
  data : BitVec 32
  masked : Bool
deriving DecidableEq, Repr

def MsixEntry.start : MsixEntry := ⟨0, 0, true⟩

/-- A message the device has sent: the function, the vector, and what was written where. -/
structure MsixMsg where
  fn : CxlId
  vector : Nat
  addr : Word
  data : BitVec 32
deriving DecidableEq, Repr

/-- A signal on its way to a peg's slice (07 R198): the package peg, the increment and the signalling core, if any. -/
structure PegSignal where
  peg : Nat
  inc : BitVec 32
  core : Option CoreId
deriving DecidableEq, Repr

/-- The objects with an ENABLE bit of their own (18 R481). -/
inductive ObjRef where
  | ctx (x : CtxId)
  | queue (x : CtxId) (q : QueueId)
  | port (p : PortId)
  | address
  | stream (x : CtxId)
  | slot (n : SlotId)
  | store (n : StoreId)
  | hdm (w : HdmId)
  | t3w (x : CtxId)
  | ring (r : RingId)
deriving DecidableEq, Repr

/-- One Truss port beside its descriptor (10 R277 to R297): the two directions of its link, the control flits and, by class, the
packet bytes that wait, the link key generations, the times of tag failures, uncorrectable codewords and failed retrains, a
narrowing for calibration, and the packets that have come in whole; linkDraw is the draw of the secrets of its last key exchange. -/
structure Port where
  txSeq : Nat
  rxSeq : Nat
  retry : List (Flit × Nat)
  ctl : List (Nat × Nat × List Byte)
  data : List (List Byte)
  sinceMgmt : Nat
  lastOrdered : Bool
  dropping : Bool
  sealedCount : Nat
  txGen : Nat
  rxGen : Nat
  rxOld : Bool
  keyed : Bool
  peerSeen : Bool
  credits : List Nat
  freed : List Nat
  rekeyDue : Bool
  tagTimes : List Nat
  badTimes : List Nat
  failTimes : List Nat
  narrowed : Bool
  out : List Flit
  rx : List (List Byte)
  inbound : List Packet
  spanId : Nat
  linkDraw : Nat
deriving DecidableEq, Repr

def Port.start : Port :=
  { txSeq := 0, rxSeq := 65535, retry := [], ctl := [], data := [[], [], []], sinceMgmt := 63, lastOrdered := false, dropping := false,
    sealedCount := 0, txGen := 0, rxGen := 0, rxOld := false, keyed := false, peerSeen := false, credits := [0, 0, 0],
    freed := [0, 0, 0], rekeyDue := false, tagTimes := [], badTimes := [], failTimes := [], narrowed := false, out := [],
    rx := [[], [], []], inbound := [], spanId := 0, linkDraw := 0 }

/-- A channel as one of its ends knows it (10 R290): the sender's next number and unacknowledged packets, each with its resends
and when it was last sent, and the receiver's next number or its window of numbers accepted. -/
structure Channel where
  key : ChannelKey
  ordered : Bool
  next : Nat
  unacked : List (Packet × Nat × Nat)
  expected : Nat
  window : List Nat
  down : Bool
deriving DecidableEq, Repr

/-- A checkpoint capture that a store is taking in (13 R375, R376): the store and its half, the step, the source, where its
granules go, the PKT_SEQ of the first, how many they are and how many are still to come. -/
structure Incoming where
  store : StoreId
  half : Nat
  step : Word
  device : BitVec 16
  ctx : BitVec 12
  base : Nat
  first : BitVec 32
  granules : Nat
  left : Nat
deriving DecidableEq, Repr

/-- An installation in progress (13 R367 to R371, Procedure 13-1). -/
structure Install where
  head : SlotId
  slots : Nat
  ticket : Ticket
  manifest : List Byte
  source : Nat
  programmed : List Nat
deriving DecidableEq, Repr

/-- An erasure in progress (13 R369). -/
structure Erasure where
  head : SlotId
  ticket : Ticket
deriving DecidableEq, Repr

/-- A core under retest (16 R442): the code of its fault, the context that halted on its bay, and since when. -/
structure Suspect where
  code : Nat
  ctx : Option CtxId
  since : Nat
deriving DecidableEq, Repr

def Suspect.none : Suspect := ⟨0, Option.none, 0⟩

/-- The default record of the fault log (16 Table 16-8): CORE 0x1FF, everything else zero. -/
def faultRecordReset : BitVec 512 := BitVec.ofNat 512 (0x1FF * 2 ^ 144)

/-- Why the machine stops. No command of this block faults. -/
inductive Fault where
  | unreachable   -- raised by nothing: the spec refuses, ignores or traps every breach (00 R3); safe
deriving DecidableEq, Repr

/-- Why a command is refused by the model. -/
inductive Refusal where
  /-- The command has no meaning in the model yet; raised by its arm of exec alone; safe. -/
  | notModelled (mnemonic : String)
deriving DecidableEq, Repr

/-- The whole machine. -/
structure State where
  regs : Map Nat
  cores : Map Core
  ctxs : Map Ctx
  queues : Map Queue
  pegs : Map (BitVec 32)
  pegSignals : List PegSignal
  posCore : Map Nat
  freeCore : Map Nat
  rings : Map Ring
  msix : Map MsixEntry
  pba : Map Bool
  msgs : List MsixMsg
  tier1 : Map Byte
  poison : Map Bool
  drone : Map Nat
  hostHeld : Map Bool
  bayFreed : Map Nat
  backInv : List Nat
  hostMem : Map Byte
  nvw : Map Byte
  fresh : Map Bool
  checks : List ObjRef
  ports : Map Port
  channels : List Channel
  outbox : List Packet
  delivered : List Packet
  identities : Map (BitVec 64)
  conflicts : List Nat
  incoming : List Incoming
  runSeq : Nat
  placeSeq : Nat
  manifests : Map (List Byte)
  installs : List Install
  erasures : List Erasure
  staging : List SlotId
  wear : Map Nat
  decoders : Map (Nat × Nat)
  decoderErr : Map Bool
  revoked : Nat
  minVersion : Map Nat
  images : Map (List Byte)
  meas3 : BitVec 512
  challenge : Nat
  fences : Map Nat
  memberSeq : Map Nat
  frames : Map (List Word)
  served : Map (List (Nat × Word × Option Nat))
  clkLost : Map Bool
  stackHot : Map Bool
  coreHot : Map Bool
  dstate : Nat
  corrected : Nat
  retrains : Nat
  droops : Nat
  riskHist : List (Nat × Nat × Nat)
  risk : Nat
  ckptIndex : List (CtxId × Word)
  ckpts : List Checkpoint
  drains : List Checkpoint
  ledgerWait : List (List LedgerRec)
  faultLog : Map (BitVec 512)
  transients : Map (List Nat)
  suspects : Map Suspect
  islandFaults : Map (List Nat)
  testAsked : Option CoreId
  slotAt : Map Nat
  migrating : Map Bool
  uncovNext : Map Nat
  ucodeTaken : Map Bool
  journal : Map (List (List LedgerRec))
  halfEpoch : Map Nat
  calibs : List (CalTarget × Ticket)
  laneCals : List ((PortId × LaneId) × Ticket)
  patrol : Map Nat
  thermCeil : Map Nat
  powerCeil : Map Nat
  rails : Map Nat
  railFault : Nat
  perstOff : Map Bool
  dfun : Map Bool
  l1 : Map Bool
  l0p : Map CxlWidth
  thermtrip : Bool
  recovery : Bool
  recBytes : List Byte
  recLen : Nat
  recStatus : Nat
  alertSeen : Bool
  lastPower : Nat
  tapIr : TapInstr
  dynAddr : Option (BitVec 7)
  reply : Option (List Byte)
  memActive : Bool
  nowUs : Nat
  free : Nat
  pending : List Instr
deriving DecidableEq, Repr

/-- The machine right after reset (log entries name each value the spec leaves open). -/
def State.reset : State :=
  { regs := [], cores := [], ctxs := [], queues := [], pegs := [], pegSignals := [], posCore := [], freeCore := [],
    rings := [], msix := [], pba := [], msgs := [], tier1 := [], poison := [], drone := [], hostHeld := [],
    bayFreed := [], backInv := [], hostMem := [], nvw := [], fresh := [], checks := [], ports := [], channels := [], outbox := [], delivered := [], identities := [], conflicts := [], incoming := [],
    runSeq := 0, placeSeq := 0, manifests := [], installs := [], erasures := [], staging := [],
    wear := [], decoders := [], decoderErr := [], revoked := 0, minVersion := [], images := [], meas3 := 0,
    challenge := 0, fences := [], memberSeq := [], frames := [], served := [], clkLost := [],
    stackHot := [], coreHot := [], dstate := 0, corrected := 0, retrains := 0, droops := 0, riskHist := [], risk := 0,
    ckptIndex := [], ckpts := [], drains := [], ledgerWait := [], faultLog := [], transients := [], suspects := [], islandFaults := [], testAsked := none,
    slotAt := [], migrating := [], uncovNext := [], ucodeTaken := [], journal := [], halfEpoch := [], calibs := [], laneCals := [],
    patrol := [], thermCeil := [], powerCeil := [], rails := [], railFault := 0, perstOff := [], dfun := [], l1 := [], l0p := [],
    thermtrip := false, recovery := false, recBytes := [], recLen := 0, recStatus := 0, alertSeen := false, lastPower := 0,
    tapIr := .bypass, dynAddr := none, reply := none,
    memActive := false, nowUs := 0, free := 4, pending := [] }

end Sys2Proof.Machine
end

