-- ==== Sys2Proof/Machine/Lanes.lean ====
section
/-! DEFINITION. The lane generators: stepping, drawing, seeding, rewinding and reserving (02 R63 to R70). -/
namespace Sys2Proof.Machine

/-- One step of the generator: shifts 13, 7, 17 (R63). -/
def laneStep (z : Word) : Word :=
  let a := z ^^^ (z <<< 13)
  let b := a ^^^ (a >>> 7)
  b ^^^ (b <<< 17)

/-- The inverse of z ↦ z xor (z << k), for a step of at least 7 places. -/
def unShl (k : Nat) (z : Word) : Nat → Word
  | 0 => z
  | n + 1 => z ^^^ (unShl k z n <<< k)
def unShr (k : Nat) (z : Word) : Nat → Word
  | 0 => z
  | n + 1 => z ^^^ (unShr k z n >>> k)
/-- One step backward (each step is invertible, R63). -/
def laneBack (z : Word) : Word := unShl 13 (unShr 7 (unShl 17 z 9) 9) 9

def laneSteps : Nat → Word → Word
  | 0, z => z
  | n + 1, z => laneSteps n (laneStep z)
def laneBacks : Nat → Word → Word
  | 0, z => z
  | n + 1, z => laneBacks n (laneBack z)

/-- The 12 bits a state gives: bits [63:52] of its product (R63). -/
def laneOut (z : Word) : Nat := ((z * 0x2545F4914F6CDD1D).toNat) / 2 ^ 52

/-- The bits of the k-th draw (from 0) of a reservation that starts at this lane. -/
def drawAt (l : Lane) (k : Nat) : Nat := laneOut (laneSteps (k + 1) l.state)

/-- The largest draw counter (R68). -/
def drawLimit : Nat := 2 ^ 48 - 1

/-- The lane after n draws are reserved (R67). -/
def Lane.reserve (l : Lane) (n : Nat) : Lane := ⟨laneSteps n l.state, l.counter + n⟩
/-- The lane n draws earlier (R69). -/
def Lane.rewind (l : Lane) (n : Nat) : Lane := ⟨laneBacks n l.state, l.counter - n⟩

/-- The seed of a lane (R64). -/
def laneSeed (contextSeed streamId laneId : Word) : Word :=
  let z0 := contextSeed ^^^ (streamId * 0x9E3779B97F4A7C15) ^^^ (laneId * 0xD1B54A32D192ED03)
  let z1 := (z0 ^^^ (z0 >>> 30)) * 0xBF58476D1CE4E5B9
  let z2 := (z1 ^^^ (z1 >>> 27)) * 0x94D049BB133111EB
  let z3 := z2 ^^^ (z2 >>> 31)
  if z3 = 0 then 0x6A09E667F3BCC909 else z3
/-- The lane identity of R65: 64 × context-relative logical core + lane. -/
def laneIdent (k j : Nat) : Word := BitVec.ofNat 64 (64 * k + j)
def Lane.seeded (seed stream : Word) (k j : Nat) : Lane := ⟨laneSeed seed stream (laneIdent k j), 0⟩

def laneOf (m : Map Lane) (j : Nat) : Lane := mapGet Lane.start m j
def setLane (m : Map Lane) (j : Nat) (l : Lane) : Map Lane := mapSet Lane.start m j l

/-- Lane j gives counts[j] draws; all lanes from j upward. -/
def reserveAll (m : Map Lane) : Nat → List Nat → Map Lane
  | _, [] => m
  | j, n :: ns => reserveAll (if n = 0 then m else setLane m j ((laneOf m j).reserve n)) (j + 1) ns
/-- The first lane whose counter would pass 2^48 − 1 (R68). -/
def drawsOver (m : Map Lane) (counts : List Nat) : Option Nat :=
  (upto counts.length).find? (fun j => decide (drawLimit < (laneOf m j).counter + counts.getD j 0) && decide (0 < counts.getD j 0))

/-- How many of n columns lane j serves (R66). -/
def colsServed (n j : Nat) : Nat := if j < n then (n - j - 1) / 64 + 1 else 0
/-- Draws per lane for a result of rows × cols positions (R66). -/
def gridDraws (rows cols : Nat) : List Nat := (upto 64).map (fun j => rows * colsServed cols j)
/-- The bits position (row, col) receives in row-major order (R66). -/
def gridRnd (m : Map Lane) (cols row col : Nat) : Nat :=
  drawAt (laneOf m (col % 64)) (row * colsServed cols (col % 64) + col / 64)

end Sys2Proof.Machine
end

