-- ==== Sys2Proof/Config.lean ====
section
/-! DEFINITION. What the spec leaves to a part or to a source outside the model: free values without a body
(log entries 4 and 5). Nothing can be proved about what one of them is. -/
namespace Sys2Proof.Config

/-- The device's random source, by draw: TENANT_NONCE (15 R405), CHALLENGE (15 R427), sealed-unit nonces (15 R425). -/
opaque randomWord : Nat → BitVec 64
/-- The fused DEVICE_IDENTITY (15 R404). -/
opaque deviceIdentity : BitVec 64
/-- The Joiner's backlog estimate behind RETRY_AFTER_MS (17 R465), by draw. -/
opaque retryAfterMs : Nat → Nat
/-- The Falcon-1024 verification of an image, token or vendor command (15 R415, R427): whether the signature in these
bytes verifies under an unrevoked or revoked vendor key. -/
opaque signatureVerifies : List Byte → Bool
/-- The vendor-key slot that signed these bytes (15 R406). -/
opaque signingSlot : List Byte → Fin 2
/-- The 16-bit security version an image carries (15 R415). -/
opaque securityVersion : List Byte → Nat
/-- The RESULT_CLASS an image of core microcode carries (17 R468). -/
opaque resultClass : List Byte → BitVec 8
/-- What a vendor-signed command asks for (15 R406, R415; 18 Table 18-10): a key slot to revoke, or none and then the
image kind (0 Joiner firmware, 1 microcode) with the minimum version to raise to. -/
opaque vendorCommand : List Byte → Option (Fin 2) × (Fin 2 × Nat)
/-- ML-KEM-1024 decapsulation and the AES-256-GCM unwrap of the teacher key (15 R419, R420 check 4). -/
opaque teacherKeyUnwraps : List Byte → Bool
/-- The owner's Falcon-1024 signature over a manifest (15 R418, R420 check 2). -/
opaque ownerSignatureVerifies : List Byte → Bool
/-- The teacher key that a manifest carries for this package (15 R419). -/
opaque teacherKey : List Byte → List Byte
/-- AES-256-XTS of one 512-byte data unit under a 64-byte key pair and a tweak, and its inverse (15 R407, R421). -/
opaque xtsEncrypt : List Byte → Nat → List Byte → List Byte
opaque xtsDecrypt : List Byte → Nat → List Byte → List Byte
/-- The secrets that the two ends of a link encapsulate to each other (15 R412), this end's and the neighbour's, by draw. -/
opaque linkSecret : Nat → BitVec 256
opaque peerSecret : Nat → BitVec 256
/-- AES-256-GCM under a key, a 96-bit nonce and authenticated bytes: the ciphertext and the 16-byte tag (10 R278). -/
opaque gcmSeal : List Byte → List Byte → List Byte → List Byte → List Byte
/-- The fused ROOT (15 R404). -/
opaque root : BitVec 256
/-- The key of tier 1 that lies in no region, save window or checkpoint store, by generation (15 R407 names none). -/
opaque spareKey : Nat → List Byte
/-- The registers a withdrawn instruction read at issue, as they stand in a save record (14 R385), by its word and BUNDLE_SEQ. -/
opaque heldByte : Nat → Nat → Nat → Byte
/-- The report bytes that keys and certificates decide (15 Table 15-4 from offset 0x200): those fixed for the part, by
offset; those derived from MEAS0, by MEAS0 and offset; and the signature, by draw and offset. -/
opaque reportFixedByte : Nat → Byte
opaque reportAttestByte : BitVec 512 → Nat → Byte
opaque reportSigByte : Nat → Nat → Byte
/-- The digests of what the part ships with (15 R414): 0 and 1 the images of slots A and B, 2 the core microcode, 3 the boot
ROM and fuse settings (MEAS2). -/
opaque bootMeasurement : Nat → BitVec 512
/-- What the partner's side of a remote Windway pair says at ENABLE (08 Table 08-2 checks 8 and 9), by draw: it is enabled,
agrees and names this queue; and its local core is a Drone bay's. -/
opaque partnerAgrees : Nat → Bool
opaque partnerDrone : Nat → Bool
/-- The manufacturer code that JEDEC has assigned to the maker (20 R526). -/
opaque jedecCode : BitVec 11

/-- The receive buffers of a Truss neighbour, by class (10 R277, R293): the link credits a port starts with. -/
opaque linkBuffers : Nat → Nat

/-- Which of the free cache blocks the stream engine takes (12 R330), and where it puts a pause copy (12 R347), by draw. -/
opaque blockChoice : Nat → Nat
/-- The bytes of sealed units as they stand in tier 3 (15 R425), by draw and offset. -/
opaque sealedByte : Nat → Nat → Byte
/-- The certificates that DOE returns (18 Table 18-1), by MEAS0. -/
opaque certificates : BitVec 512 → List Byte
/-- The body of a Ledger record: the spec gives its content and no layout (17 R470, Table 17-5). -/
opaque ledgerBody : LedgerRec → List Byte
/-- How many granules the key sweep has rewritten in a microsecond (15 R410 bounds them), by draw. -/
opaque sweptGranules : Nat → Nat
/-- Whether a loss of power left the group that was being written torn (17 R471), by draw. -/
opaque groupTorn : Nat → Bool
/-- The Vendor ID that PCI-SIG has assigned to the maker (18 R476). -/
opaque vendorId : BitVec 16
/-- Which line of a full set a fill of the instruction cache replaces (05 R150, R151), by draw. -/
opaque icacheVictim : Nat → Fin 8
/-- How many staged shards the device has written when staging ends before its last one (13 Table 13-4), by draw. -/
opaque stagedShards : Nat → Nat
/-- How many 512-byte granules a Bellows move has written when a drain stops it (05 R161), by draw. -/
opaque moveProgress : Nat → Nat
/-- An island's cycle count at an event (16 Table 16-8 CYCLES), by draw. -/
opaque islandCycles : Nat → BitVec 64

end Sys2Proof.Config
end

