-- ==== Sys2Proof/Machine/Hash.lean ====
section
/-! DEFINITION. The check functions: CRC-32C with the parameters of 11 R303, and SHAKE256 (FIPS 202; PRESUMED, log
entry 6: the spec names the function and does not restate it). -/
namespace Sys2Proof.Machine

/-- Eight steps of the reflected CRC-32C register (polynomial 0x1EDC_6F41, reflected 0x82F6_3B78). -/
def crcBits : Nat → BitVec 32 → BitVec 32
  | 0, c => c
  | n + 1, c => crcBits n (if c.getLsbD 0 then (c >>> 1) ^^^ 0x82F63B78#32 else c >>> 1)

def crcStep (c : BitVec 32) (b : BitVec 8) : BitVec 32 := crcBits 8 (c ^^^ b.zeroExtend 32)

/-- CRC-32C of a byte string (R303: initial and final values all ones, reflected). -/
def crc32c (bs : List (BitVec 8)) : BitVec 32 := (bs.foldl crcStep 0xFFFFFFFF#32) ^^^ 0xFFFFFFFF#32

/-! ## Keccak-f[1600], its lanes listed by x + 5y -/

/-- The generator behind the round constants: the power t of x modulo x^8 + x^6 + x^5 + x^4 + 1, whose constant term is the
bit rc(t). -/
def roundPower : Nat → Nat
  | 0 => 1
  | t + 1 => let r := 2 * roundPower t; if 256 ≤ r then (r - 256) ^^^ 0x71 else r
/-- The constant of round i: bit 2^j − 1 is rc(j + 7i). -/
def iotaWord (i : Nat) : BitVec 64 :=
  BitVec.ofNat 64 ((upto 7).foldl (fun w j => w + roundPower (j + 7 * i) % 2 * 2 ^ (2 ^ j - 1)) 0)

/-- θ: every lane takes the parities of the column to its left and of the one to its right, rotated by one. -/
def mixColumns (a : List (BitVec 64)) : List (BitVec 64) :=
  let parity (x : Nat) : BitVec 64 := (upto 5).foldl (fun p y => p ^^^ a.getD (x % 5 + 5 * y) 0) 0
  let change := (upto 5).map (fun x => parity (x + 4) ^^^ (parity (x + 1)).rotateLeft 1)
  a.zip (change ++ change ++ change ++ change ++ change) |>.map (fun p => p.1 ^^^ p.2)
/-- ρ and π together: a walk from (1, 0) through the 24 other lanes, each step t taking the lane of (x, y) to (y, 2x + 3y)
rotated by (t + 1)(t + 2)/2. -/
def walkLanes (a : List (BitVec 64)) : Nat → Nat → Nat → Nat → List (BitVec 64) → List (BitVec 64)
  | 0, _, _, _, out => out
  | n + 1, t, x, y, out =>
    let y' := (2 * x + 3 * y) % 5
    walkLanes a n (t + 1) y y' (out.set (y + 5 * y') ((a.getD (x + 5 * y) 0).rotateLeft ((t + 1) * (t + 2) / 2 % 64)))
/-- χ, row by row. -/
def bendRows : List (BitVec 64) → List (BitVec 64)
  | p :: q :: r :: s :: t :: rest =>
    (p ^^^ (r &&& ~~~q)) :: (q ^^^ (s &&& ~~~r)) :: (r ^^^ (t &&& ~~~s)) :: (s ^^^ (p &&& ~~~t)) :: (t ^^^ (q &&& ~~~p)) :: bendRows rest
  | rest => rest
/-- Round i. -/
def keccakTurn (a : List (BitVec 64)) (i : Nat) : List (BitVec 64) :=
  let m := mixColumns a
  let b := bendRows (walkLanes m 24 0 1 0 m)
  b.set 0 (b.getD 0 0 ^^^ iotaWord i)
def keccakF (a : List (BitVec 64)) : List (BitVec 64) := (upto 24).foldl keccakTurn a

/-- A block of 136 bytes joins the first 17 lanes. -/
def joinBlock : List (BitVec 64) → List (BitVec 8) → List (BitVec 64)
  | [], _ => []
  | l :: ls, [] => l :: ls
  | l :: ls, b :: bs => (l ^^^ BitVec.ofNat 64 (leNat ((b :: bs).take 8))) :: joinBlock ls (bs.drop 7)

/-- Absorb whole blocks of 136 bytes. -/
def shakeAbsorb : Nat → List (BitVec 64) → List (BitVec 8) → List (BitVec 64)
  | 0, a, _ => a
  | n + 1, a, bs => shakeAbsorb n (keccakF (joinBlock a (bs.take 136))) (bs.drop 136)

/-- SHAKE256's padding to a multiple of 136 bytes: 0x1F, zeros, 0x80. -/
def shakePad (bs : List (BitVec 8)) : List (BitVec 8) :=
  let r := 136 - bs.length % 136
  if r = 1 then bs ++ [0x9F] else bs ++ (0x1F :: List.replicate (r - 2) 0) ++ [0x80]

/-- The 512-bit SHAKE256 output over a byte string (the 64 bytes fit one squeeze). -/
def shake256 (bs : List (BitVec 8)) : List (BitVec 8) :=
  let p := shakePad bs
  let a := shakeAbsorb (p.length / 136) (List.replicate 25 0) p
  ((a.take 8).map (fun x => leBytes 8 x.toNat)).flatten

/-- The same as one number, byte 0 lowest. -/
def shake512 (bs : List (BitVec 8)) : BitVec 512 := BitVec.ofNat 512 (leNat (shake256 bs))

end Sys2Proof.Machine
end

