-- ==== Sys2Proof/Machine/Ops.lean ====
section
/-! DEFINITION. The named operations over the state: registers, parts, memory, pegs, events, records, and taking a
trap (05 R154 to R158) as one shared operation. -/
namespace Sys2Proof.Machine

/-! ## Registers -/

/-- Read a register field of the object at a base. -/
def State.rd (s : State) (base : Nat) (f : Field) : Nat := mapGet f.reset s.regs (f.key base)
/-- Write a register field of the object at a base, truncated to its width. -/
def State.wr (s : State) (base : Nat) (f : Field) (v : Nat) : State :=
  { s with regs := mapSet f.reset s.regs (f.key base) (v % 2 ^ f.width) }
/-- A one-bit field as a truth value. -/
def State.flag (s : State) (base : Nat) (f : Field) : Bool := decide (s.rd base f = 1)
/-- A counter field that stops at the end of its width. -/
def State.inc (s : State) (base : Nat) (f : Field) : State := s.wr base f (satInc f.width (s.rd base f))
/-- A counter field that gains n, stopping at the end of its width. -/
def State.incBy (s : State) (base : Nat) (f : Field) (n : Nat) : State :=
  s.wr base f (min (s.rd base f + n) (2 ^ f.width - 1))
/-- A field that counts modulo its width. -/
def State.bump (s : State) (base : Nat) (f : Field) (n : Nat) : State := s.wr base f (s.rd base f + n)
/-- Every listed field of an object back to its reset value. -/
def State.resetFields (s : State) (base : Nat) : List Field → State
  | [] => s
  | f :: fs => (s.wr base f f.reset).resetFields base fs

/-- The 64-bit word of an object at an offset, as a read of it answers: its fields in their places, everything else zero. -/
def State.word (s : State) (base : Nat) (fs : List Field) (off : Nat) : Nat :=
  (fs.filter (fun f => decide (f.off = off))).foldl (fun m f => m + s.rd base f * 2 ^ f.lo) 0

/-! ## Parts -/

def State.port (s : State) (p : Nat) : Port := mapGet Port.start s.ports p
def State.setPort (s : State) (p : Nat) (k : Port) : State := { s with ports := mapSet Port.start s.ports p k }

def State.core (s : State) (c : Nat) : Core := mapGet Core.start s.cores c
def State.setCore (s : State) (c : Nat) (k : Core) : State := { s with cores := mapSet Core.start s.cores c k }
def State.ctx (s : State) (x : Nat) : Ctx := mapGet Ctx.start s.ctxs x
def State.setCtx (s : State) (x : Nat) (k : Ctx) : State := { s with ctxs := mapSet Ctx.start s.ctxs x k }
def queueKey (x q : Nat) : Nat := 256 * x + q
def State.queue (s : State) (x q : Nat) : Queue := mapGet Queue.start s.queues (queueKey x q)
def State.setQueue (s : State) (x q : Nat) (k : Queue) : State :=
  { s with queues := mapSet Queue.start s.queues (queueKey x q) k }
def State.ring (s : State) (r : Nat) : Ring := mapGet Ring.start s.rings r
def State.setRing (s : State) (r : Nat) (k : Ring) : State := { s with rings := mapSet Ring.start s.rings r k }

/-! ## Members: logical and physical cores (01 R10, R11) -/

/-- A position that no core serves. -/
def noCore : Nat := 272
/-- The physical core of package logical core l: the identity of R10 and R11 unless the map says otherwise. -/
def State.physOf (s : State) (l : Nat) : Nat := mapGet (17 * (l / 16) + l % 16) s.posCore l
def State.setPhys (s : State) (l c : Nat) : State :=
  { s with posCore := mapSet (17 * (l / 16) + l % 16) s.posCore l c }
/-- The free core of bent h (16 R444): position 16 unless the map says otherwise; noCore where it has none. -/
def State.freeOf (s : State) (h : Nat) : Nat := mapGet (17 * h + 16) s.freeCore h
def State.setFree (s : State) (h c : Nat) : State := { s with freeCore := mapSet (17 * h + 16) s.freeCore h c }
/-- The package logical core that physical core c serves, if any. -/
def State.logicalOf (s : State) (c : Nat) : Option Nat :=
  ((upto 16).map (fun j => 16 * (c / 17) + j)).find? (fun l => decide (s.physOf l = c))
/-- The positions of a physical bay that a core is assigned to. -/
def State.mannedCores (s : State) (b : Nat) : Nat :=
  ((upto 4).filter (fun j => decide (s.physOf (4 * b + j) ≠ noCore))).length
/-- The active cores of a physical bay (R15): a suspected core serves no position (16 R442), nor does a fenced one whose
position waits for the free core. -/
def State.activeCores (s : State) (b : Nat) : Nat :=
  ((upto 4).filter (fun j => decide (s.physOf (4 * b + j) ≠ noCore) && decide (mapGet 0 s.fences (s.physOf (4 * b + j)) = 0))).length

/-- The enabled contexts that hold anything, in the map's order. -/
def State.ctxKeys (s : State) : List Nat := s.ctxs.map (fun kv => kv.1)
/-- The context that holds physical bay b, with the context bay it is there. -/
def State.bayHolder (s : State) (b : Nat) : Option (Nat × Nat) :=
  s.ctxs.findSome? (fun kv => (firstIdx (fun y : BayId => decide (y.val = b)) kv.2.bayMap 0).map (fun i => (kv.1, i)))
/-- The context and context-relative logical core of physical core c. -/
def State.place (s : State) (c : Nat) : Option (Nat × Nat) :=
  match s.logicalOf c with
  | none => none
  | some l => (s.bayHolder (l / 4)).map (fun xb => (xb.1, 4 * xb.2 + l % 4))
/-- The physical core of context x's logical core k, if its bay is held and its position is not absent. -/
def State.ctxCore (s : State) (x k : Nat) : Option Nat :=
  match (s.ctx x).bayMap[k / 4]? with
  | none => none
  | some b => let c := s.physOf (4 * b.val + k % 4); if c < noCore then some c else none
/-- The physical cores of context x, by ascending logical core, with their logical numbers. -/
def State.ctxCores (s : State) (x : Nat) : List (Nat × Nat) :=
  (upto (4 * (s.ctx x).bayMap.length)).filterMap (fun k => (s.ctxCore x k).map (fun c => (k, c)))
/-- The program that runs on context bay b. -/
def Ctx.programOn (k : Ctx) (b : Nat) : Option Program := k.programs.find? (fun p => p.bays.getLsbD b)
/-- The program of a placed core. -/
def State.programOf (s : State) (c : Nat) : Option Program :=
  match s.place c with
  | none => none
  | some (x, k) => (s.ctx x).programOn (k / 4)

/-! ## Context properties -/

/-- The enabled teacher slot head bound to context x (13 R364). -/
def State.teacherHead (s : State) (x : Nat) : Option Nat :=
  (upto 8).find? (fun n => s.flag (Reg.nvwSlot n) Reg.SLOT_ENABLE && decide (s.rd (Reg.nvwSlot n) Reg.SLOT_CONTEXT = x))
/-- Context bay b is a Drone bay (08 R215). -/
def State.isDrone (s : State) (x b : Nat) : Bool :=
  (s.teacherHead x).isSome && (s.rd (Reg.ctx x) Reg.CTX_DRONE_BAYS).testBit b
/-- The channel groups of context x, ascending (14 R384). -/
def State.groups (s : State) (x : Nat) : List Nat := maskList 32 (s.rd (Reg.ctx x) Reg.CTX_DRAM_GROUPS)
def State.regionBytes (s : State) (x : Nat) : Nat := (s.groups x).length * s.rd (Reg.ctx x) Reg.CTX_GROUP_BYTES
/-- The DRAM channel, 0 to 127, that a tier-1 address lies on: four to a group, page by page (R384). -/
def channelOf (a : Nat) : Nat := 4 * (a / 2 ^ 34) + bitsAt a 12 2
/-- The tier-1 address of region offset o, striped over the groups from a base in each (R384). -/
def stripe (groups : List Nat) (base o : Nat) : Nat :=
  let i := o / 4096
  2 ^ 34 * groups.getD (i % groups.length) 0 + base + 4096 * (i / groups.length) + o % 4096
def State.regionAddr (s : State) (x o : Nat) : Nat := stripe (s.groups x) (s.rd (Reg.ctx x) Reg.CTX_GROUP_BASE) o
/-- The offset of a tier-1 address in a stripe of len bytes per group, if it lies there (R384 read backward). -/
def stripeOff (groups : List Nat) (base len a : Nat) : Option Nat :=
  match firstIdx (fun g => decide (g = a / 2 ^ 34)) groups 0 with
  | none => none
  | some i =>
    let within := a % 2 ^ 34
    if base ≤ within ∧ within < base + len then some (((within - base) / 4096 * groups.length + i) * 4096 + a % 4096) else none
/-- The region offset of a tier-1 address of context x's region, if it lies there. -/
def State.regionOff (s : State) (x a : Nat) : Option Nat :=
  stripeOff (s.groups x) (s.rd (Reg.ctx x) Reg.CTX_GROUP_BASE) (s.rd (Reg.ctx x) Reg.CTX_GROUP_BYTES) a
/-- The length of the tier-3 window, 0 while it is not enabled (18 R487). -/
def State.windowBytes (s : State) (x : Nat) : Nat :=
  if s.flag (Reg.t3w x) Reg.T3W_ENABLE then s.rd (Reg.t3w x) Reg.T3W_BYTES else 0
def State.windowBase (s : State) (x : Nat) : Nat := s.rd (Reg.t3w x) Reg.T3W_HOST_BASE
/-- A teacher slot is 256 GiB (13 R364). -/
def slotBytes : Nat := 2 ^ 38
/-- The bytes SPACE 0x3 of context x addresses: those in the slots, then those staged (13 R365). -/
def State.teacherBytes (s : State) (x : Nat) : Nat :=
  match s.teacherHead x with
  | none => 0
  | some n => s.rd (Reg.nvwSlot n) Reg.SLOT_TEACHER_BYTES + s.rd (Reg.nvwSlot n) Reg.SLOT_STAGE_BYTES

/-! ## The instruction cache (05 R150 to R152) -/

/-- A line of 256 bytes by its number in the region; a set by the low seven bits of that number (log entry 86). -/
def icacheLine (a : Nat) : Nat := a / 256
def icacheSet (line : Nat) : Nat := line % 128
def Core.cached (k : Core) (line : Nat) : Bool := (mapGet [] k.icache (icacheSet line)).contains line
/-- A line comes in: it takes a free way of its set, or replaces one the device picks. -/
def icacheFill (m : Map (List Nat)) (line : Nat) (victim : Fin 8) : Map (List Nat) :=
  let ways := mapGet [] m (icacheSet line)
  if ways.contains line then m
  else mapSet [] m (icacheSet line) (if ways.length < 8 then ways ++ [line] else ways.set victim.val line)
def State.fillLine (s : State) (c line : Nat) : State :=
  let k := s.core c
  ({ s with free := s.free + 1 } : State).setCore c { k with icache := icacheFill k.icache line (Config.icacheVictim s.free) }
def State.fillLines (s : State) (c : Nat) : List Nat → State
  | [] => s
  | l :: ls => (s.fillLine c l).fillLines c ls
/-- The lines of a program's preload range (R152). -/
def Program.preloadLines (p : Program) : List Nat :=
  let a := p.base + p.decl.preloadOff
  if p.decl.preloadBytes = 0 then [] else
    (upto (icacheLine (a + p.decl.preloadBytes - 1) + 1 - icacheLine a)).map (fun j => icacheLine a + j)
/-- A program starts on core c, or its context is restored there: the cache takes the preload range (R152). -/
def State.preload (s : State) (c : Nat) (p : Program) : State := s.fillLines c p.preloadLines

/-! ## Code segments (05 R143, 07 R207) -/

/-- The legacy segment that holds an address. -/
def legacySeg (p : Program) (t : Nat) : Option Segment :=
  p.segs.find? (fun g => decide (g.kind = 2) && decide (g.off ≤ t) && decide (t < g.off + g.bytes))
/-- A core's issue moves to an address: in a legacy segment it is in legacy mode there, elsewhere in bundles. -/
def State.goTo (s : State) (c : Nat) (t : Word) : State :=
  s.setCore c { s.core c with
    pc := t, legacyAt := (s.programOf c).bind (fun p => (legacySeg p t.toNat).map (fun g => g.off)) }

/-! ## Memory -/

/-- Where an access goes: a scratchpad by physical core, a context's region, host memory from a base, a
context's teacher. -/
inductive Loc where
  | scratch (c : Nat)
  | tier1 (x : Nat)
  | host (base : Nat)
  | teacher (x : Nat)
  | absent
deriving DecidableEq, Repr

/-- The byte at an address of a place. -/
def State.byteAt (s : State) (l : Loc) (a : Nat) : Byte :=
  match l with
  | .scratch c => mapGet 0 (s.core c).scratch a
  | .tier1 x => mapGet 0 s.tier1 (s.regionAddr x a)
  | .host b => mapGet 0 s.hostMem (b + a)
  | .teacher x =>
    match s.teacherHead x with
    | none => 0
    | some n =>
      let tb := s.rd (Reg.nvwSlot n) Reg.SLOT_TEACHER_BYTES
      if a < tb then mapGet 0 s.nvw (n * slotBytes + a)
      else mapGet 0 s.tier1 (s.regionAddr x (s.rd (Reg.nvwSlot n) Reg.SLOT_STAGE_BASE + (a - tb)))
  | .absent => 0
/-- n bytes from an address of a place. -/
def State.bytesAt (s : State) (l : Loc) (a n : Nat) : List Byte := (upto n).map (fun i => s.byteAt l (a + i))
def State.natAt (s : State) (l : Loc) (a n : Nat) : Nat := leNat (s.bytesAt l a n)

/-- One byte written to a place; tier 2 is not written so, and a place that does not exist holds nothing. -/
def State.setByte (s : State) (l : Loc) (a : Nat) (b : Byte) : State :=
  match l with
  | .scratch c => s.setCore c { s.core c with scratch := mapSet 0 (s.core c).scratch a b }
  | .tier1 x => { s with tier1 := mapSet 0 s.tier1 (s.regionAddr x a) b }
  | .host base => { s with hostMem := mapSet 0 s.hostMem (base + a) b }
  | .teacher _ => s
  | .absent => s
def State.setBytes (s : State) (l : Loc) (a : Nat) : List Byte → State
  | [] => s
  | b :: bs => (s.setByte l a b).setBytes l (a + 1) bs

/-- A granule is 512 bytes (13 R357). -/
def granule : Nat := 512
/-- A write puts a granule under the current key generation (15 R408): remembered while the previous one is live. -/
def State.renewTag (s : State) (key : Nat) : State :=
  if s.flag Reg.jnrKeys Reg.KEYS_SWEEP_ACTIVE then { s with fresh := mapSet false s.fresh key true } else s
def State.renewRange (s : State) : List Nat → State
  | [] => s
  | k :: ks => (s.renewTag k).renewRange ks
/-- The generation a granule was written under, mod 4 (15 R408). -/
def State.granuleTag (s : State) (key : Nat) : Nat :=
  let g := s.rd Reg.jnrKeys Reg.KEYS_KEY_GEN
  (if s.flag Reg.jnrKeys Reg.KEYS_SWEEP_ACTIVE && !mapGet false s.fresh key then g + 3 else g) % 4
/-- What a write of n bytes at offset a does to the marks of the granules it meets, offset o lying at address f o: a Drone
write marks each (15 R424); any other write that replaces the whole granule clears the mark, and with it the poison
(13 R358). -/
def State.markGranules (s : State) (f : Nat → Nat) (a n origin : Nat) : Nat → State
  | 0 => s
  | k + 1 =>
    let g := a / granule + k
    let key := f (g * granule) / granule
    let whole := decide (a ≤ g * granule) && decide ((g + 1) * granule ≤ a + n)
    let s1 := if origin ≠ 0 then { s with drone := mapSet 0 s.drone key origin }
      else if whole then { s with drone := mapSet 0 s.drone key 0 } else s
    let s2 := if whole then { s1 with poison := mapSet false s1.poison key false } else s1
    (s2.renewTag key).markGranules f a n origin k
/-- The granules that n bytes at a meet. -/
def granulesIn (a n : Nat) : Nat := if n = 0 then 0 else (a + n - 1) / granule - a / granule + 1
/-- A host's cache holds tier 1 in lines of 64 bytes. -/
def hostLine : Nat := 64
/-- Before a device write to lines the host holds completes, the device back-invalidates the host's copies (13 R379). -/
def State.backInvalidate (s : State) (p : Nat → Bool) : State :=
  { s with
    hostHeld := mapClear (fun l => p (l * hostLine)) s.hostHeld
    backInv := s.backInv ++ (s.hostHeld.filter (fun kv => p (kv.1 * hostLine))).map (fun kv => kv.1) }
/-- The stretch of len bytes at tier-1 address t meets bytes [a, a + n) of context x's region. -/
def State.meetsRegion (s : State) (x a n len t : Nat) : Bool :=
  match s.regionOff x t with | some o => decide (o < a + n) && decide (a < o + len) | none => false
/-- A store of bytes to a place; tier-1 granules take their marks. -/
def State.put (s : State) (l : Loc) (a origin : Nat) (bs : List Byte) : State :=
  let s1 := s.setBytes l a bs
  match l with
  | .tier1 x => s1.markGranules (s.regionAddr x) a bs.length origin (granulesIn a bs.length)
  | _ => s1
/-- The device stores: lines of it that the host holds are called back. -/
def State.store (s : State) (l : Loc) (a origin : Nat) (bs : List Byte) : State :=
  match l with
  | .tier1 x => (s.backInvalidate (s.meetsRegion x a bs.length hostLine)).put l a origin bs
  | _ => s.put l a origin bs
/-- A store to consecutive tier-1 addresses outside every region: a checkpoint store's (13 R375). -/
def State.storeAt (s : State) (a : Nat) (bs : List Byte) : State :=
  ({ s with tier1 := mapWrite 0 s.tier1 a bs } : State).markGranules (fun o => o) a bs.length 0 (granulesIn a bs.length)
/-- The poisoned granules that bytes [a, a + n) of context x's region meet, and those it meets without covering them. -/
def State.poisonIn (s : State) (x a n : Nat) : List Nat :=
  (s.poison.filter (fun kv => s.meetsRegion x a n granule (kv.1 * granule))).map (fun kv => kv.1)
def State.partlyIn (s : State) (x a n : Nat) : List Nat :=
  (s.poisonIn x a n).filter (fun g => match s.regionOff x (g * granule) with
    | some o => decide (o < a) || decide (a + n < o + granule)
    | none => false)
/-- Bytes of a place as one core of context x may see them: a granule of Drone origin reads as zeros to any core but a
Drone core of that context (Table 15-6). -/
def State.droneHides (s : State) (l : Loc) (a : Nat) (reader : Nat) : Bool :=
  match l with
  | .tier1 x =>
    let m := mapGet 0 s.drone (s.regionAddr x a / granule)
    decide (m ≠ 0) && decide (m ≠ reader)
  | _ => false
/-- Some granule of a range is of Drone origin. -/
def State.droneInRange (s : State) (x a n : Nat) : Bool :=
  (upto (granulesIn a n)).any
    (fun k => decide (mapGet 0 s.drone (s.regionAddr x ((a / granule + k) * granule) / granule) ≠ 0))
/-- Zero a range of tier 1, and clear its marks (teardown, R399). -/
def State.zeroTier1 (s0 : State) (p : Nat → Bool) : State :=
  let s := s0.backInvalidate p
  { s with tier1 := mapClear p s.tier1, poison := mapClear (fun g => p (g * granule)) s.poison,
           drone := mapClear (fun g => p (g * granule)) s.drone }
/-- Zero bytes [lo, lo + n) of a region. -/
def State.zeroRegion (s : State) (x lo n : Nat) : State :=
  s.zeroTier1 (fun a => match s.regionOff x a with | some o => decide (lo ≤ o) && decide (o < lo + n) | none => false)
/-- A tier-1 address lies in the stripe of length len per group from a base. -/
def inStripe (groups : List Nat) (base len a : Nat) : Bool :=
  groups.contains (a / 2 ^ 34) && decide (base ≤ a % 2 ^ 34) && decide (a % 2 ^ 34 < base + len)

/-! ## Events and messages (18 R479, R498) -/

/-- A function's messages are held: it is in D3hot, or the device is (19 R512). -/
def State.fnAsleep (s : State) (f : Nat) : Bool := mapGet false s.dfun f || decide (s.dstate ≠ 0)
/-- Send one message on a vector of a function, or set its PBA bit while it is masked or held. -/
def State.sendMsix (s : State) (f : CxlId) (v : Nat) : State :=
  let e := mapGet MsixEntry.start s.msix (2048 * f.val + v)
  if e.masked || s.fnAsleep f.val then { s with pba := mapSet false s.pba (2048 * f.val + v) true }
  else { s with msgs := s.msgs ++ [⟨f, v, e.addr, e.data⟩] }
/-- The function that event messages go on (R479). -/
def State.eventFn (s : State) : CxlId := if s.rd (Reg.hifPort 0) Reg.HIF_MODE = 2 then 0 else 1
def evFields : List Field :=
  [Reg.HIF_EV_FAULT_LOG, Reg.HIF_EV_TRUSS, Reg.HIF_EV_THERMAL, Reg.HIF_EV_SECURITY, Reg.HIF_EV_CONTEXT]
def State.anyEvent (s : State) : Bool := evFields.any (fun f => s.flag Reg.hif f)
def State.eventMsg (s : State) : State := s.sendMsix s.eventFn (s.rd Reg.hif Reg.HIF_EVENT_VECTOR)
/-- Set an EV_ bit; a message goes when no EV_ bit was set before and EVENT_MSIX is set (R479). -/
def State.event (s : State) (f : Field) : State :=
  let s1 := s.wr Reg.hif f 1
  if s.anyEvent || !s.flag Reg.hif Reg.HIF_EVENT_MSIX then s1 else s1.eventMsg

/-! ## Completion records (18 R495, R496) -/

/-- Clearing a ring's ENABLE ends once no command of it remains (R492). -/
def State.settleRing (s : State) (r : Nat) : State :=
  let k := s.ring r
  if k.closing && decide (k.running = 0) && decide (k.fetched = []) then
    ((s.setRing r Ring.start).wr (Reg.ring r) Reg.RING_ENABLE 0).wr (Reg.ring r) Reg.RING_STOPPED 0
  else s
/-- Post a command's record: it joins its ring's records; a class 0x1 code counts in REFUSED. A ring that is closing
discards it (R492), and its last command ends it. -/
def State.post (s : State) (t : Ticket) (final : Bool) (status : Nat) (c0 c1 : Nat) : State :=
  let r := s.ring t.ring.val
  let rec' : Record := { cmdId := t.cmdId, ctx := t.ctx, final := final, op := t.op, status := BitVec.ofNat 16 status,
                         comp0 := BitVec.ofNat 64 c0, comp1 := BitVec.ofNat 64 c1, noSignal := t.noSignal }
  let s1 := s.setRing t.ring.val { r with
    records := if r.closing then r.records else r.records ++ [rec'], running := if final then r.running - 1 else r.running }
  let s2 := if final && decide (status / 4096 = 1) then s1.bump (Reg.ring t.ring.val) Reg.RING_REFUSED 1 else s1
  s2.settleRing t.ring.val
def entryTicket (e : Entry) (op : Nat) : Ticket := ⟨e.ring, e.cmdId, BitVec.ofNat 8 op, e.ctx, e.noSignal⟩
def entryArg (e : Entry) (i : Nat) : Nat := (e.args.getD i 0).toNat
/-- Complete a command at once with a status and no companion. -/
def State.done (s : State) (e : Entry) (op status : Nat) : State := s.post (entryTicket e op) true status 0 0

/-! ## Pegs (07 R196, R198) -/

/-- The package peg of a context's program peg n. -/
def State.pegOf (s : State) (x n : Nat) : Nat := s.rd (Reg.ctx x) Reg.CTX_PEG_BASE + n
/-- An engine's signal of a context's peg joins the signals on their way. -/
def State.signal (s : State) (x n inc : Nat) (c : Option CoreId) : State :=
  { s with pegSignals := s.pegSignals ++ [⟨s.pegOf x n, BitVec.ofNat 32 inc, c⟩] }
/-- The modular test of R199. -/
def pegHolds (count threshold : BitVec 32) : Bool := decide ((count - threshold).toNat < 2 ^ 31)

/-! ## Traps (05 R154 to R158) -/

/-- What a record says besides the instruction: code, detail, position, and how it was taken (Table 05-12). -/
structure TrapInfo where
  reason : Nat
  detail : Nat := 0
  row : Nat := 0
  col : Nat := 0
  group : Nat := 0
  pass : Nat := 0
  after : Bool := false
  deferred : Bool := false
deriving DecidableEq, Repr

/-- The record of Table 05-12. -/
def trapRecord (core : Nat) (k : Nat) (x : Nat) (i : InFlight) (ops : List (BitVec 256)) (t : TrapInfo) : BitVec 2048 :=
  let slotCode : Nat := match i.legacy with
    | some (p, _) => p.val
    | none => match i.slot with | .S => 0 | .M => 1 | .V => 2 | .D => 3
  let word : Word := match i.legacy with | some (_, w) => w | none => i.word
  let w0 := t.reason % 2 ^ 16 + core * 2 ^ 16 + k * 2 ^ 32 + slotCode * 2 ^ 40 +
    (if t.after then 2 ^ 42 else 0) + (if t.deferred then 2 ^ 43 else 0) + x * 2 ^ 48
  let w4 := t.row % 2 ^ 32 + (t.col % 2 ^ 32) * 2 ^ 32
  let w5 := t.group % 2 ^ 32 + (t.pass % 256) * 2 ^ 32
  BitVec.ofNat 2048 (w0 + i.addr.toNat * 2 ^ 64 + i.seq.toNat * 2 ^ 128 + word.toNat * 2 ^ 192 + w4 * 2 ^ 256 +
    w5 * 2 ^ 320 + (t.detail % 2 ^ 64) * 2 ^ 384 + (ops.getD 0 0).toNat * 2 ^ 512 + (ops.getD 1 0).toNat * 2 ^ 768 +
    (ops.getD 2 0).toNat * 2 ^ 1024)
/-- The reason code a record holds. -/
def recordReason (r : BitVec 2048) : Nat := fld r 0 16
def recordSeq (r : BitVec 2048) : Nat := fld r 128 64

/-- A core stops issuing and drains (05 R161): what each place does is DRAIN_REQUEST's. -/
def State.drainCore (s : State) (c : Nat) : State :=
  let k := s.core c
  match k.run with
  | .running => s.setCore c { k with run := .draining }
  | _ => s
def State.drainCores (s : State) : List (Nat × Nat) → State
  | [] => s
  | (_, c) :: cs => (s.drainCore c).drainCores cs

/-- The codes of CTX_STATE (14 Table 14-3). -/
def stDisabled : Nat := 0
def stIdle : Nat := 1
def stWaiting : Nat := 2
def stRunning : Nat := 3
def stSwitching : Nat := 4
def stStopped : Nat := 5
def stTearing : Nat := 7
def State.ctxState (s : State) (x : Nat) : Nat := s.rd (Reg.ctx x) Reg.CTX_STATE
def State.setCtxState (s : State) (x v : Nat) : State := s.wr (Reg.ctx x) Reg.CTX_STATE v
def State.ctxStatus (s : State) (x v : Nat) : State := s.wr (Reg.ctx x) Reg.CTX_STATUS v

/-- The lowest logical core of saved state that holds a trap record, how many do, and that record's BUNDLE_SEQ, as
Table 18-12 packs them. -/
def trapCompanions (m : Map Core) : Nat × Nat :=
  match m.filter (fun kv => decide (kv.2.trapRec ≠ 0)) with
  | [] => (0, 0)
  | kv :: rest => (kv.1 + 256 * (rest.length + 1), recordSeq kv.2.trapRec)
/-- Every LOAD still outstanding completes with a code (18 R497); answers whether there was one. -/
def State.finishLoads (s : State) (x code : Nat) : State × Bool :=
  let k := s.ctx x
  let (c0, c1) := trapCompanions k.saved
  let ts := k.programs.filterMap (fun p => p.ticket)
  let s1 := s.setCtx x { k with programs := k.programs.map (fun p => { p with ticket := none }) }
  (ts.foldl (fun a t => a.post t true code c0 c1) s1, !ts.isEmpty)
/-- The open tickets of a context that name an opcode complete with a status. -/
def State.finishTickets (s : State) (x op code : Nat) : State :=
  let k := s.ctx x
  let mine (t : Ticket) : Bool := decide (t.op.toNat = op)
  let s1 := s.setCtx x { k with tickets := k.tickets.filter (fun t => !mine t) }
  (k.tickets.filter mine).foldl (fun a t => a.post t true code 0 0) s1
/-- The code a halt reports: where a trap caused it, the lowest logical core's record's (05 R157). -/
def haltCode (m : Map Core) (code : Nat) : Nat :=
  match m.filter (fun kv => decide (kv.2.trapRec ≠ 0)) with
  | [] => code
  | kv :: rest => if (kv :: rest).any (fun j => decide (recordReason j.2.trapRec = code)) then recordReason kv.2.trapRec else code
/-- A context enters Stopped with a code: STATUS, its outstanding LOADs, a waiting CTX_STOP, or else EV_CONTEXT
(14 R398, 18 R497). -/
def State.enterStopped (s : State) (x code0 : Nat) : State :=
  let k := s.ctx x
  let code := haltCode k.saved code0
  let stopping := k.tickets.any (fun t => decide (t.op.toNat = 4))
  let torn := decide (s.rd (Reg.ctx x) Reg.CTX_STEP_STATE = 6)
  let s1 := (s.setCtx x { k with goal := none, phase := .drain }).setCtxState x stStopped
  let s2 := s1.ctxStatus x (if torn then 0x9201 else code)
  let (s3, any) := s2.finishLoads x code
  let s4 := s3.finishTickets x 4 0
  if any || stopping then s4 else s4.event Reg.HIF_EV_CONTEXT

/-- The device saves the context on the way to D3hot (19 R512) as it would for CTX_STOP (R398). -/
def askedStop (code : Nat) : Bool := decide (code = 0x5005) || decide (code = 0x8406)
/-- Integrity, numeric and fence codes stop a step (11 R320), and so do the failed verify passes of 13 R373. -/
def isStopEvent (code : Nat) : Bool :=
  (decide (code / 4096 = 3) || decide (code / 4096 = 7) || decide (code / 4096 = 8) || decide (code = 0x4405) || decide (code = 0x4406)) &&
  !askedStop code
/-- Data-path, fence and latent codes: their context cannot be resumed (16 R441). -/
def isFaultCode (code : Nat) : Bool :=
  decide (code / 4096 = 3) || decide (code = 0x8001) || decide (code = 0x8003) || decide (code = 0x8005) || decide (code = 0x8102)
/-- A context halts with a code (05 R157, 14 R398): its cores stop issue and drain, and it switches to Stopped; a step
in its update phase is torn unless the stop was asked for (09 R252). A context that holds no bays stops at once; an
Idle one only takes the code. -/
def State.haltCtx (s : State) (x code : Nat) : State :=
  let st := s.rd (Reg.ctx x) Reg.CTX_STEP_STATE
  let torn := (decide (st = 2) || decide (st = 3)) && !askedStop code
  let k0 := s.ctx x
  let step' := if isStopEvent code then
      k0.step.map (fun o => { o with stopEvent := some (o.stopEvent.getD (BitVec.ofNat 16 code)) })
    else k0.step
  let state := s.ctxState x
  let s0 := s.setCtx x { k0 with
    step := step'
    faulted := k0.faulted || (isFaultCode code && decide (state ≠ stIdle)) }
  if state = stDisabled ∨ state = stTearing ∨ state = stStopped then s else
  let s1 := s0.ctxStatus x (if torn then 0x9201 else code)
  let s2 := if torn then s1.wr (Reg.ctx x) Reg.CTX_STEP_STATE 6 else s1
  let k := s2.ctx x
  if state = stRunning then
    ((s2.setCtx x { k with goal := some (.stop (BitVec.ofNat 16 code)), phase := .drain }).setCtxState x
      stSwitching).drainCores (s2.ctxCores x)
  else if state = stWaiting then s2.enterStopped x code
  else if state = stIdle then s2.event Reg.HIF_EV_CONTEXT
  else match k.goal with
    | some (.stop _) => s2
    | _ => s2.setCtx x { k with goal := some (.stop (BitVec.ofNat 16 code)) }

/-- A core takes a trap (R157, R158): its record is written, it stops, and its context halts. Traps that were still to
fall due go with it, since a core takes its traps in program order (R156). -/
def State.takeTrap (s : State) (c : Nat) (rec : BitVec 2048) : State :=
  let s1 := s.setCore c { s.core c with trapRec := rec, run := .trapped, deferred := [] }
  match s.place c with
  | none => s1
  | some (x, _) => s1.haltCtx x (recordReason rec)

end Sys2Proof.Machine
end

