-- ==== Sys2Proof/Machine/Operands.lean ====
section
/-! DEFINITION. Operands of the core's instructions: registers, tensor descriptors and their limits (05 R131 to R138,
R148), elements and scales (02 R39, R71 to R75), rounding modes (02 R60). -/
namespace Sys2Proof.Machine

/-! ## Registers -/

/-- s0 reads zero (R131). -/
def RegFile.sreg (r : RegFile) (n : Nat) : Word := if n = 0 then 0 else mapGet 0 r.s n
/-- p0 reads all ones (R131). -/
def RegFile.preg (r : RegFile) (n : Nat) : Word := if n = 0 then BitVec.allOnes 64 else mapGet 0 r.p n
def RegFile.vreg (r : RegFile) (n : Nat) : BitVec 2048 := mapGet 0 r.v n
def RegFile.tdreg (r : RegFile) (n : Nat) : BitVec 256 := mapGet 0 r.td n
/-- Writes to s0 and p0 are ignored (R131). -/
def RegFile.setS (r : RegFile) (n : Nat) (w : Word) : RegFile := if n = 0 then r else { r with s := mapSet 0 r.s n w }
def RegFile.setP (r : RegFile) (n : Nat) (w : Word) : RegFile := if n = 0 then r else { r with p := mapSet 0 r.p n w }
def RegFile.setV (r : RegFile) (n : Nat) (w : BitVec 2048) : RegFile := { r with v := mapSet 0 r.v n w }
def RegFile.setTd (r : RegFile) (n : Nat) (w : BitVec 256) : RegFile := { r with td := mapSet 0 r.td n w }

/-- Element j of w bits of a vector register (04 R102). -/
def velem (x : BitVec 2048) (w j : Nat) : Nat := bitsAt x.toNat (w * j) w
/-- A vector register from its elements of w bits. -/
def vpack (w : Nat) (es : List Nat) : BitVec 2048 := BitVec.ofNat 2048 (es.foldr (fun e acc => e % 2 ^ w + acc * 2 ^ w) 0)

/-! ## What one instruction sees -/

/-- A cause found at issue: its code and its DETAIL. -/
abbrev Cause := Nat × Nat
/-- The lowest code, the first of equal ones (R156, R529). -/
def lowest : List Cause → Option Cause
  | [] => none
  | c :: cs => match lowest cs with
    | none => some c
    | some d => if d.1 < c.1 then some d else some c
def causeIf (b : Bool) (c : Cause) : List Cause := if b then [c] else []

/-- The view of an instruction: the state, its physical core, its context and context-relative logical core if it is
placed, itself with the registers it read, the declaration it is held to, and the state its writes meet. The state it reads
differs from that only in what its bundle's other slots write (06 R168). -/
structure View where
  s : State
  c : Nat
  x : Option Nat
  k : Nat
  i : InFlight
  decl : Decl
  now : State

/-- The hardware's own limits, for an instruction given to a core that runs no program (log entry 8). -/
def Decl.hardware : Decl :=
  { scratch := 2097152, tiles := 65535, side := 4096, pegs := 0, credits := 0, streams := 0, bays := 0, minCores := 0,
    legacy := false, nvw := false, tier1 := 0, tier3 := 0, caps := 0, preloadOff := 0, preloadBytes := 0, offload := 0 }

/-- The core as a slot reads it, given what its bundle's other slots overwrite. -/
def Before.on (b : Before) (k : Core) : Core :=
  { k with
    scratch := b.mem.foldl (fun m r => mapWrite 0 m r.1 r.2) k.scratch
    acc := b.acc.foldl (fun m e => mapSet 0 m e.1 e.2) (mapClear (fun a => b.tiles.contains (a / 16384)) k.acc)
    tileStatus := b.status.foldl (fun m e => mapSet 0 m e.1 e.2) (mapClear (fun t => b.tiles.contains t) k.tileStatus) }
/-- The state an instruction reads. -/
def State.asRead (s : State) (c : Nat) (i : InFlight) : State :=
  match i.before with | none => s | some b => s.setCore c (b.on (s.core c))

def viewOf (s : State) (c : Nat) (i : InFlight) : View :=
  let r := s.asRead c i
  match s.place c with
  | none => ⟨r, c, none, 0, i, .hardware, s⟩
  | some (x, k) =>
    match (s.ctx x).programOn (k / 4) with
    | none => ⟨r, c, some x, k, i, .hardware, s⟩
    | some p => ⟨r, c, some x, k, i, p.decl, s⟩

def View.f (v : View) (lo len : Nat) : Nat := fld v.i.word lo len
def View.bit (v : View) (i : Nat) : Bool := v.i.word.getLsbD i
def View.sr (v : View) (n : Nat) : Word := v.i.regs.sreg n
def View.pr (v : View) (n : Nat) : Word := v.i.regs.preg n
def View.vr (v : View) (n : Nat) : BitVec 2048 := v.i.regs.vreg n
def View.core (v : View) : Core := v.s.core v.c
/-- The core lies in a Drone bay of a bound context. -/
def View.drone (v : View) : Bool := match v.x with | none => false | some x => v.s.isDrone x (v.k / 4)
/-- What a Drone core's tier-1 writes are marked with (15 R424), and what it may read. -/
def View.origin (v : View) : Nat := match v.x with | none => 0 | some x => if v.drone then x + 1 else 0

/-! ## Descriptors (Table 05-4) -/

structure Desc where
  base : Nat
  space : Nat
  fmtc : Nat
  sgn : Bool
  hasFine : Bool
  hasCoarse : Bool
  coarse : Nat
  rows : Nat
  cols : Nat
  stride : Nat
  scaleBase : Nat
  resv : Nat
deriving DecidableEq, Repr

def Desc.of (w : BitVec 256) : Desc :=
  { base := fld w 0 48, space := fld w 48 4, fmtc := fld w 52 4, sgn := w.getLsbD 56, hasFine := w.getLsbD 57,
    hasCoarse := w.getLsbD 58, coarse := fld w 64 32, rows := fld w 96 32, cols := fld w 128 24, stride := fld w 152 40,
    scaleBase := fld w 192 48, resv := fld w 59 5 + fld w 240 16 }
def View.desc (v : View) (n : Nat) : Desc := Desc.of (v.i.regs.tdreg n)
def Desc.fmt (d : Desc) : Fmt := (Fmt.ofCode d.fmtc).getD .b32

/-- Bytes of a row of n elements of a format (Table 05-4's last paragraph). -/
def rowBytes (f : Fmt) (n : Nat) : Nat :=
  match f with
  | .e3m2 => 3 * ceilDiv n 4
  | f => ceilDiv (n * f.width) 8
/-- The fine-scale block of a format (Table 02-6). -/
def Fmt.block (f : Fmt) : Nat := match f with | .e2m1 => 16 | _ => 32
/-- The descriptor has fine scales in effect: a long format has none (Table 02-6). -/
def Desc.fine (d : Desc) : Bool := d.hasFine && !d.fmt.isLong
def Desc.scaleRow (d : Desc) : Nat := ceilDiv d.cols d.fmt.block
def Desc.coarseQ (d : Desc) : Q :=
  if d.hasCoarse then (match decodeFloat .b32 d.coarse with | .fin q => q | _ => ⟨false, 1, 1, 0⟩) else ⟨false, 1, 1, 0⟩

/-- The shape faults of R137; the row length test needs a format. -/
def descShape (n : Nat) (d : Desc) (fmtUsed : Bool) : List Cause :=
  let known := !fmtUsed || (Fmt.ofCode d.fmtc).isSome
  causeIf (decide (d.space = 14) || decide (5 ≤ d.space) || decide (d.rows = 0) || decide (d.cols = 0) ||
      decide (d.base % 4 ≠ 0) || decide (d.stride % 4 ≠ 0) || decide (d.resv ≠ 0) ||
      (fmtUsed && known && decide (d.stride < rowBytes d.fmt d.cols) && decide (1 < d.rows))) (0x2106, n) ++
  causeIf (fmtUsed && !known) (0x7001, d.fmtc)
/-- The coarse scale an instruction uses must be positive and finite (02 R72). -/
def coarseCause (d : Desc) : List Cause :=
  if d.hasCoarse then
    match decodeFloat .b32 d.coarse with
    | .fin q => causeIf (q.neg || decide (q.n = 0)) (0x7003, d.coarse)
    | _ => [(0x7003, d.coarse)]
  else []

/-! ## Where an address lies, and its limits (R138, R148; 09 R250; 15 R423) -/

def View.locate (v : View) (space addr : Nat) : Loc × Nat :=
  match space, v.x with
  | 0, _ => (.scratch v.c, addr)
  | 4, none => (if bitsAt addr 21 8 = v.k then (.scratch v.c, bitsAt addr 0 21) else (.absent, 0))
  | 4, some x =>
    if bitsAt addr 21 8 = v.k then (.scratch v.c, bitsAt addr 0 21)
    else match v.s.ctxCore x (bitsAt addr 21 8) with
      | some c => (.scratch c, bitsAt addr 0 21)
      | none => (.absent, 0)
  | 1, some x => (.tier1 x, addr)
  | 2, some x => (.host (v.s.windowBase x), addr)
  | 3, some x => (.teacher x, addr)
  | _, _ => (.absent, 0)

/-- The first byte of [a, a + n) at or above a limit. -/
def pastLimit (a n limit : Nat) : List Nat := if a + n ≤ limit then [] else [max a limit]
/-- The first byte of [a, a + n) inside [lo, lo + len). -/
def insideOf (a n lo len : Nat) : List Nat := if overlap a n lo len then [max a lo] else []

/-- What the stream engine alone writes: entries, token logs, block tables, registry and adapter table (12 R326). -/
def State.engineAreas (s : State) (x : Nat) : List (Nat × Nat) :=
  let t := Reg.streamTable x
  let n := s.rd t Reg.ST_STREAMS
  let m := s.rd t Reg.ST_MAX_TOKENS
  [(s.rd t Reg.ST_ENTRY_BASE, 128 * n), (s.rd t Reg.ST_TOKEN_BASE, 4 * m * n), (s.rd t Reg.ST_BTABLE_BASE, m / 16 * 8 * n),
   (s.rd t Reg.ST_REGISTRY_BASE, 64 * (s.rd t Reg.ST_POOL_C + s.rd t Reg.ST_POOL_D)), (s.rd t Reg.ST_ADAPTER_BASE, 32768)]
/-- Where block n of a side's pool lies (12 Table 12-1). -/
def State.blockRange (s : State) (x side n : Nat) : Nat × Nat :=
  let t := Reg.streamTable x
  let bytes := 512 * s.rd t (if side = 0 then Reg.ST_C_BLOCK_UNITS else Reg.ST_D_BLOCK_UNITS)
  (s.rd t (if side = 0 then Reg.ST_POOL_C_BASE else Reg.ST_POOL_D_BASE) + n * bytes, bytes)
/-- What is read-only while the stream engine uses it: registered blocks (12 R331), loaded grammar tables (R341) and the
weights of adapter records that are not empty (R351). -/
def State.streamHeld (s : State) (x : Nat) : List (Nat × Nat) :=
  let e := (s.ctx x).streams
  e.registry.map (fun r => s.blockRange x r.side r.block) ++ e.grammars.map (fun kv => kv.2) ++
  e.adapters.map (fun kv => (kv.2.base, kv.2.bytes))
/-- The region ranges no program write may touch: image copies (R153), and outside the update phase the committed
state (09 R250); evaluation and replay bays never write the state region, the snapshot area or the step record. -/
def State.writeBars (s : State) (x bay : Nat) : List (Nat × Nat) :=
  let b := Reg.ctx x
  let st := s.rd b Reg.CTX_STEP_STATE
  let side := (s.rd b Reg.CTX_EVAL_BAYS).testBit bay || (s.rd b Reg.CTX_REPLAY_BAYS).testBit bay
  let training := decide (s.rd b Reg.CTX_STATE_BYTES ≠ 0)
  (s.ctx x).programs.map (fun p => (p.base, p.bytes)) ++
  (if training && (side || (decide (st ≠ 2) && decide (st ≠ 3))) then
    [(s.rd b Reg.CTX_STATE_BASE, s.rd b Reg.CTX_STATE_BYTES)] else []) ++
  (if training && side then
    [(s.rd b Reg.CTX_EVAL_SNAP_BASE, if s.rd b Reg.CTX_EVAL_BAYS = 0 then 0 else s.rd b Reg.CTX_WORKCOPY_BYTES),
     (s.rd b Reg.CTX_STEPREC_BASE, 512)] else []) ++
  (if s.flag (Reg.streamTable x) Reg.ST_ENABLE then s.engineAreas x ++ s.streamHeld x else [])

def minList : List Nat → Option Nat
  | [] => none
  | a :: l => match minList l with | none => some a | some b => some (min a b)

/-- The limits on n bytes at an address of a SPACE. -/
def View.rangeCause (v : View) (space addr n : Nat) (write : Bool) : List Cause :=
  if n = 0 then [] else
  let out (l : List Nat) : List Cause := match minList l with | some a => [(0x2107, a)] | none => []
  match space with
  | 0 => out (pastLimit addr n v.decl.scratch)
  | 1 => match v.x with
    | none => [(0x2107, addr)]
    | some x => out (pastLimit addr n (v.s.regionBytes x) ++
        (if write then (v.s.writeBars x (v.k / 4)).flatMap (fun r => insideOf addr n r.1 r.2) else []))
  | 2 => match v.x with
    | none => [(0x2107, addr)]
    | some x => out (pastLimit addr n (v.s.windowBytes x)) ++ causeIf (write && v.drone) (0x4201, 0)
  | 3 => match v.x with
    | none => [(0x2107, addr)]
    | some x => if write || !v.drone then [(0x2107, addr)] else out (pastLimit addr n (v.s.teacherBytes x))
  | 4 =>
    let t := bitsAt addr 21 8
    let off := bitsAt addr 0 21
    if addr / 2 ^ 29 ≠ 0 then [(0x2107, addr)]
    else if t = v.k then (out (pastLimit off n v.decl.scratch)).map (fun c => (c.1, c.2 + t * 2 ^ 21))
    else match v.x with
      | none => [(0x2107, addr)]
      | some x => match v.s.ctxCore x t, (v.s.ctx x).programOn (t / 4) with
        | some _, some p =>
          (out (pastLimit off n p.decl.scratch)).map (fun c => (c.1, c.2 + t * 2 ^ 21)) ++
          causeIf (write && v.drone && !v.s.isDrone x (t / 4)) (0x4201, 0) ++
          causeIf (!write && !v.drone && v.s.isDrone x (t / 4)) (0x4201, 0)
        | _, _ => [(0x2107, addr)]
  | _ => []

/-- Bytes spanned by rows of len bytes a stride apart. -/
def spanBytes (rows len stride : Nat) : Nat := if rows = 0 then 0 else (rows - 1) * stride + len

/-- How an instruction uses a tensor: it reads it; it writes its elements under fine scales that it reads; or it writes
elements and fine scales (CVT with FINE_MODE auto, and the Bellows moves). -/
inductive Use where | read | encode | write
deriving DecidableEq, Repr

/-- The range of a whole tensor (fine scales included), with its limits. Made only where the descriptor is well formed
and its format known (R529). -/
def View.tensorRange (v : View) (d : Desc) (u : Use) : List Cause :=
  v.rangeCause d.space d.base (spanBytes d.rows (rowBytes d.fmt d.cols) d.stride) (decide (u ≠ .read)) ++
  (if d.fine then v.rangeCause d.space d.scaleBase (d.rows * d.scaleRow) (decide (u = .write)) else [])

/-- Everything R137, R138 and R72 ask of a descriptor used whole: shape, format, range, coarse scale. -/
def View.useTensor (v : View) (n : Nat) (u : Use) : List Cause :=
  let d := v.desc n
  let sh := descShape n d true
  sh ++ (if sh = [] then v.tensorRange d u else []) ++ coarseCause d

/-! ## Elements and scales -/

/-- Elements per packing group and its bytes (02 R39). -/
def Fmt.group : Fmt → Nat | .e3m2 => 4 | .e2m1 => 2 | .i4 => 2 | _ => 1
def Fmt.groupBytes (f : Fmt) : Nat := f.group * f.width / 8

/-- A byte as this core may read it: Drone-origin granules read as zeros to others (15 Table 15-6). -/
def View.byte (v : View) (l : Loc) (a : Nat) : Byte := if v.s.droneHides l a v.origin then 0 else v.s.byteAt l a
def View.nat (v : View) (l : Loc) (a n : Nat) : Nat := leNat ((upto n).map (fun j => v.byte l (a + j)))
def View.bytes (v : View) (l : Loc) (a n : Nat) : List Byte := (upto n).map (fun j => v.byte l (a + j))

/-- The address of row r of a tensor. -/
def View.rowAt (v : View) (d : Desc) (r : Nat) : Loc × Nat :=
  let (l, a) := v.locate d.space d.base
  (l, a + r * d.stride)
/-- The bits of element (r, c). -/
def View.elem (v : View) (d : Desc) (r c : Nat) : Nat :=
  let (l, a) := v.rowAt d r
  let f := d.fmt
  bitsAt (v.nat l (a + c / f.group * f.groupBytes) f.groupBytes) (c % f.group * f.width) f.width

def scaleValid (f : Fmt) (b : Nat) : Bool :=
  match f with
  | .e2m1 => decide (b < 0x7F)
  | _ => decide (b ≠ 0xFF)
/-- A fine scale's value (Table 02-6); an invalid one is never used as a value (R531). -/
def scaleQ (f : Fmt) (b : Nat) : Q :=
  if scaleValid f b then
    match f with
    | .e2m1 => (match decodeFloat .e4m3 b with | .fin q => q | _ => Q.zero false)
    | _ => ⟨false, 1, 1, (b : Int) - 127⟩
  else Q.zero false
/-- SPACE address of the fine scale of element (r, c), and its byte. -/
def Desc.scaleAddr (d : Desc) (r c : Nat) : Nat := d.scaleBase + r * d.scaleRow + c / d.fmt.block
def View.scaleByte (v : View) (d : Desc) (r c : Nat) : Nat :=
  let (l, a) := v.locate d.space (d.scaleAddr r c)
  (v.byte l a).toNat
def View.fineQ (v : View) (d : Desc) (r c : Nat) : Q := if d.fine then scaleQ d.fmt (v.scaleByte d r c) else ⟨false, 1, 1, 0⟩
def View.fineOk (v : View) (d : Desc) (r c : Nat) : Bool := !d.fine || scaleValid d.fmt (v.scaleByte d r c)
/-- An element with its fine scale, without its coarse scale; under an invalid scale a zero of its sign (R531). -/
def View.factor (v : View) (d : Desc) (r c : Nat) : Num :=
  let x := decodeElem d.fmt d.sgn (v.elem d r c)
  if v.fineOk d r c then x.scale (v.fineQ d r c) else .fin (Q.zero x.neg)
/-- The exact value of element (r, c), scales included (R71, R76). -/
def View.value (v : View) (d : Desc) (r c : Nat) : Num := (v.factor d r c).scale d.coarseQ

/-- A cause that rests on bytes in memory, with the position it concerns (R531): an element of the operand, or where it is
posted after completion the first element of the result whose value depends on those bytes. -/
structure MemCause where
  code : Nat
  detail : Nat
  row : Nat
  col : Nat
deriving DecidableEq, Repr
def MemCause.cause (m : MemCause) : Cause := (m.code, m.detail)
/-- The invalid fine scales among rows × columns [c0, c0 + n) of a tensor (02 R75). -/
def View.scaleFaults (v : View) (d : Desc) (r0 rows c0 n : Nat) : List MemCause :=
  if d.fine && decide (0 < n) then
    (upto rows).flatMap (fun i => (upto ((c0 + n - 1) / d.fmt.block - c0 / d.fmt.block + 1)).filterMap (fun b =>
      let col := (c0 / d.fmt.block + b) * d.fmt.block
      let byte := v.scaleByte d (r0 + i) col
      if scaleValid d.fmt byte then none
      else some ⟨0x7004, byte + d.scaleAddr (r0 + i) col * 256, r0 + i, col⟩))
  else []

/-- Whether an access of n bytes at a SPACE address meets a Drone-origin granule this core may not read. -/
def View.readsHidden (v : View) (space addr n : Nat) : Bool :=
  let (l, a) := v.locate space addr
  match l with
  | .tier1 _ => (upto (if n = 0 then 0 else (a + n - 1) / granule - a / granule + 1)).any
      (fun k => v.s.droneHides l (max a ((a / granule + k) * granule)) v.origin)
  | _ => false

/-! ## Writing elements -/

/-- A store an instruction makes. -/
structure MemWrite where
  loc : Loc
  addr : Nat
  bytes : List Byte
deriving DecidableEq, Repr

/-- One packing group of a row with some of its elements replaced; positions past the row's end are written zero (R39),
the others keep their bits. new gives the bits of an element, or none where it is not written. -/
def View.groupWrite (v : View) (d : Desc) (r g : Nat) (new : Nat → Option Nat) : MemWrite :=
  let (l, a) := v.rowAt d r
  let f := d.fmt
  let old := v.now.natAt l (a + g * f.groupBytes) f.groupBytes
  let word := (upto f.group).foldl (fun w k =>
    let c := g * f.group + k
    let e := match new c with
      | some b => b
      | none => if d.cols ≤ c then 0 else bitsAt old (k * f.width) f.width
    w + (e % 2 ^ f.width) * 2 ^ (k * f.width)) 0
  ⟨l, a + g * f.groupBytes, leBytes f.groupBytes word⟩
/-- Columns [c0, c0 + n) of row r; a group none of whose elements is written is left alone. -/
def View.rowWrite (v : View) (d : Desc) (r c0 n : Nat) (new : Nat → Option Nat) : List MemWrite :=
  if n = 0 then [] else
  let gs := d.fmt.group
  (upto ((c0 + n - 1) / gs - c0 / gs + 1)).filterMap (fun j =>
    let g := c0 / gs + j
    if (upto gs).any (fun k => (new (g * gs + k)).isSome) then some (v.groupWrite d r g new) else none)

/-! ## Rounding modes (02 R60) -/

/-- The mode an RM code resolves to: DYN takes DYN_ROUNDING of NUMERIC_STATUS as it stood at issue; 0b111 has none. A
legacy operation rounds to nearest even (07 R209). -/
def View.rm (v : View) (code : Nat) : Option RM :=
  if v.i.legacy.isSome then some .rne
  else if code = 6 then RM.ofCode v.i.dyn
  else if code = 7 then none else RM.ofCode code
def View.rmD (v : View) (code : Nat) : RM := (v.rm code).getD .rne
def View.rmCause (v : View) (code : Nat) : List Cause := causeIf (v.rm code).isNone (0x7002, 7)

/-- Draws per lane when the mode is SR, none otherwise. -/
def drawsIf (m : RM) (counts : List Nat) : List Nat := if m = .sr then counts else []
/-- The random bits of position (row, col) of a result of cols columns. -/
def View.rnd (v : View) (m : RM) (cols row col : Nat) : Nat :=
  if m = .sr then gridRnd v.i.regs.lanes cols row col else 0

end Sys2Proof.Machine
end

