-- ==== Sys2Proof/Machine/Flags.lean ====
section
/-! DEFINITION. NUMERIC_STATUS, TRAP_CONTROL, TILE_STATUS and the array counters: how they are written and how an
instruction's result sets them (02 R79, R80; 03 R100, R101; 05 R133, R134). -/
namespace Sys2Proof.Machine

/-- A status move's write of NUMERIC_STATUS: flags are RW1C, DYN_ROUNDING takes codes 0 to 5, the rest stays zero. -/
def numStatusWrite (old v : Word) : Word :=
  let flags := old &&& 0x7F &&& ~~~(v &&& 0x7F)
  let dyn := fld v 8 3
  flags ||| (BitVec.ofNat 64 (if dyn < 6 then dyn else fld old 8 3) <<< 8)
/-- An instruction's flags are sticky (R80). -/
def numStatusSet (old : Word) (f : Flags) : Word := old ||| f.zeroExtend 64

/-- The modes of Table 05-3. -/
def nanMode (tc : Word) : Nat := fld tc 0 2
def nanSeen (tc : Word) : Bool := tc.getLsbD 2
/-- A status move's write of TRAP_CONTROL: NAN_MODE 0b11 is ignored, NAN_SEEN is RW1C. -/
def trapControlWrite (old v : Word) : Word :=
  let mode := if fld v 0 2 = 3 then nanMode old else fld v 0 2
  let seen := nanSeen old && !v.getLsbD 2
  BitVec.ofNat 64 (mode + if seen then 4 else 0)
/-- TRAPNAN's write (06 R182). -/
def trapnanWrite (old : Word) (mode : Nat) (keep clear : Bool) : Word :=
  let m := if keep || decide (mode = 3) then nanMode old else mode
  BitVec.ofNat 64 (m + if nanSeen old && !clear then 4 else 0)

/-- TILE_STATUS fields (Table 03-4). -/
def tileKind (t : BitVec 16) : Nat := fld t 0 2
def tileShift (t : BitVec 16) : Nat := fld t 2 2
def tileSat (t : BitVec 16) : Bool := t.getLsbD 4
def tileRetries (t : BitVec 16) : Nat := fld t 8 8
def mkTile (kind shift : Nat) (sat : Bool) (retries : Nat) : BitVec 16 :=
  BitVec.ofNat 16 (kind + shift * 4 + (if sat then 16 else 0) + retries * 256)
/-- A status move's write of a TILE_STATUS: only TILE_SAT, write 1 to clear. -/
def tileWrite (old : BitVec 16) (v : Word) : BitVec 16 := if v.getLsbD 4 then old &&& ~~~16#16 else old

/-- Places of the counters of Table 03-5 in a core's counter map: three a format, then the integer counters. -/
def cntResults (f : Fmt) : Nat := 3 * f.code
def cntOverflows (f : Fmt) : Nat := 3 * f.code + 1
def cntVanished (f : Fmt) : Nat := 3 * f.code + 2
def cntRetry1 : Nat := 30
def cntRetry2 : Nat := 31
def cntTileSat : Nat := 32
def cntAbandoned : Nat := 33
/-- A counter stops at 2^48 − 1 (R101). -/
def countUp (m : Map Nat) (k n : Nat) : Map Nat := mapSet 0 m k (min (mapGet 0 m k + n) (2 ^ 48 - 1))
def countAll (m : Map Nat) : List (Nat × Nat) → Map Nat
  | [] => m
  | (k, n) :: r => countAll (if n = 0 then m else countUp m k n) r

/-- Every flag of a list of results. -/
def allFlags (l : List Rounded) : Flags := l.foldl (fun a r => a ||| r.flags) 0
/-- The counters a list of results under one format adds (R101). -/
def resultCounts (f : Fmt) (l : List Rounded) : List (Nat × Nat) :=
  [(cntResults f, l.length), (cntOverflows f, (l.filter (fun r => r.ovf)).length),
   (cntVanished f, (l.filter (fun r => r.van)).length)]

end Sys2Proof.Machine
end

