-- ==== Sys2Proof/Machine/Effect.lean ====
section
/-! DEFINITION. What a core's instruction does, as data, and the one operation that applies it: register, memory, tile,
side-memory and lane writes, flags, counters, first-NaN latch and traps after completion (05 R154 to R160, 06 R165,
R171). Every meaning of a slot instruction computes an Effect and nothing else changes the state. -/
namespace Sys2Proof.Machine

/-- Where the first NaN produced lies (05 R160). -/
structure NanPos where
  row : Nat
  col : Nat
  group : Nat := 0
  pass : Nat := 0
deriving DecidableEq, Repr

/-- A trap posted after completion (02 R55, 04 R124, 05 R155): held (before any later instruction) or deferred. -/
structure PostTrap where
  code : Nat
  detail : Nat
  row : Nat := 0
  col : Nat := 0
  group : Nat := 0
  pass : Nat := 0
  deferred : Bool := false
deriving DecidableEq, Repr

/-- The sequencing effects of S- and D-slot instructions. -/
inductive Ctl where
  | none
  | branch (target : Word)
  | signal (peg inc : Nat)
  | pegw (peg : Nat) (threshold : BitVec 32)
  | fence (mask : BitVec 5)
  | halt
  | wwput (queue : Nat)
  | wwget (queue : Nat)
deriving DecidableEq, Repr

structure Effect where
  s : List (Nat × Word) := []
  v : List (Nat × BitVec 2048) := []
  p : List (Nat × Word) := []
  td : List (Nat × BitVec 256) := []
  mem : List MemWrite := []
  acc : List (Nat × BitVec 32) := []
  tile : List (Nat × BitVec 16) := []
  side : List (Nat × BitVec 256) := []
  lanes : List (Nat × Lane) := []
  flags : Flags := 0
  counts : List (Nat × Nat) := []
  numStatus : Option Word := none
  trapControl : Option Word := none
  nan : Option NanPos := none
  posts : List PostTrap := []
  ctl : Ctl := .none
deriving DecidableEq, Repr

def putS (r : RegFile) : List (Nat × Word) → RegFile
  | [] => r
  | (n, w) :: l => putS (r.setS n w) l
def putV (r : RegFile) : List (Nat × BitVec 2048) → RegFile
  | [] => r
  | (n, w) :: l => putV (r.setV n w) l
def putP (r : RegFile) : List (Nat × Word) → RegFile
  | [] => r
  | (n, w) :: l => putP (r.setP n w) l
def putTd (r : RegFile) : List (Nat × BitVec 256) → RegFile
  | [] => r
  | (n, w) :: l => putTd (r.setTd n w) l
def putLanes (m : Map Lane) : List (Nat × Lane) → Map Lane
  | [] => m
  | (j, l) :: r => putLanes (setLane m j l) r
def putAll {α : Type} [DecidableEq α] (d : α) (m : Map α) : List (Nat × α) → Map α
  | [] => m
  | (k, v) :: l => putAll d (mapSet d m k v) l
def storeAll (s : State) (origin : Nat) : List MemWrite → State
  | [] => s
  | w :: ws => storeAll (s.store w.loc w.addr origin w.bytes) origin ws

/-- Stores that follow one another without a gap, as one store: a granule an instruction rewrites in pieces is replaced whole
(13 R358, 15 R424). -/
def joinWrites : List MemWrite → List MemWrite
  | [] => []
  | w :: ws => match joinWrites ws with
    | [] => [w]
    | u :: us => if w.loc = u.loc ∧ w.addr + w.bytes.length = u.addr then ⟨w.loc, w.addr, w.bytes ++ u.bytes⟩ :: us else w :: u :: us
/-- The stores after the first n bytes, and those first n bytes (05 R161). -/
def dropWrites : Nat → List MemWrite → List MemWrite
  | _, [] => []
  | n, w :: ws => if w.bytes.length ≤ n then dropWrites (n - w.bytes.length) ws
    else { w with addr := w.addr + n, bytes := w.bytes.drop n } :: ws
def takeWrites : Nat → List MemWrite → List MemWrite
  | _, [] => []
  | n, w :: ws => if w.bytes.length ≤ n then w :: takeWrites (n - w.bytes.length) ws else [{ w with bytes := w.bytes.take n }]
def Effect.rest (e : Effect) (n : Nat) : Effect := if n = 0 then e else { e with mem := dropWrites n e.mem }
/-- The bytes an effect stores. -/
def Effect.size (e : Effect) : Nat := e.mem.foldl (fun a w => a + w.bytes.length) 0

/-- The core's own share of an effect: everything but memory, sequencing and traps. -/
def Effect.onCore (e : Effect) (k : Core) : Core :=
  let r := putTd (putP (putV (putS k.regs e.s) e.v) e.p) e.td
  { k with
    regs := { r with lanes := putLanes r.lanes e.lanes }
    acc := putAll 0 k.acc e.acc
    tileStatus := putAll 0 k.tileStatus e.tile
    side := putAll 0 k.side e.side
    numStatus := numStatusSet (e.numStatus.getD k.numStatus) e.flags
    trapControl := e.trapControl.getD k.trapControl
    counters := countAll k.counters e.counts }

/-! ## Operands in records (05 R530, Table 05-15) -/

/-- A register or tile as a descriptor with SPACE 0xE: kinds 0 s, 1 v, 2 p, 3 td, 4 tile. -/
def regOperand (kind n : Nat) : BitVec 256 := BitVec.ofNat 256 (n + kind * 256 + 14 * 2 ^ 48)

/-- S-slot codes that only a translated legacy operation carries: LORSH and the legacy branches, and in the M slot LWO. No
bundle opcode assigns them. -/
def opLorsh : Nat := 0x7D
def opLegacyBranch : Nat := 0x7E
def opLwo : Nat := 0x3F
/-- The 21 bits of the legacy operation that an instruction came from. -/
def legacyOp (i : InFlight) : Nat := match i.legacy with | some (p, w) => fld w (21 * p.val) 21 | none => 0

def recordOps (i : InFlight) : List (BitVec 256) :=
  let f (lo len : Nat) : Nat := fld i.word lo len
  let bit (n : Nat) : Bool := i.word.getLsbD n
  let td (n : Nat) : BitVec 256 := i.regs.tdreg n
  let z : BitVec 256 := 0
  let op := f 5 8
  if op = 0 then [z, z, z] else
  match i.slot with
  | .S =>
    let sa := regOperand 0 (f 19 6)
    let sb := if bit 31 then z else regOperand 0 (f 25 6)
    let sd := regOperand 0 (f 13 6)
    if op = 0x10 ∨ op = 0x11 then [z, z, sd]
    else if op = 0x1B then [sa, z, sd]
    else if op = 0x0F ∨ op = 0x12 ∨ op = 0x13 ∨ op = 0x1A then [z, z, z]
    else if op ≤ 0x1B then [sa, sb, sd]
    else if op = 0x20 then [sa, z, sd]
    else if op = 0x21 then [sa, regOperand 0 (f 25 6), z]
    else if op = 0x22 then [sa, z, regOperand 3 (f 13 5)]
    else if op = 0x23 then [sa, regOperand 3 (f 13 5), z]
    else if op = 0x24 then [sa, z, regOperand 3 (f 13 5)]
    else if op = 0x28 then [z, z, sd]
    else if op = 0x29 then [sa, z, z]
    else if 0x30 ≤ op ∧ op ≤ 0x3E then [sa, sb, regOperand 2 (f 13 4)]
    else if op = 0x41 then [sa, z, z]
    else if op = 0x42 then [z, z, sd]
    else if op = opLorsh then [sd, z, sd]
    else if op = opLegacyBranch then
      let l := legacyOp i
      [if bitsAt l 0 6 = 0x1B then regOperand 0 (bitsAt l 11 5)
       else if bitsAt l 0 6 = 0x18 then z else regOperand 0 (bitsAt l 6 5), z, z]
    else if (op = 0x50 ∨ op = 0x51) ∧ i.legacy.isSome then [regOperand 0 (bitsAt (legacyOp i) 11 5), z, z]
    else [z, z, z]
  | .M =>
    if op = 0x20 then
      [regOperand 4 (f 13 4), if bit 27 then regOperand 0 (f 34 6) else z,
       if bit 61 then z else if bit 54 then regOperand 1 (f 55 6) else td (f 17 5)]
    else if op = 0x01 ∨ op = 0x10 then [td (f 13 5), td (f 18 5), regOperand 4 (f 23 4)]
    else if op = opLwo then [regOperand 4 (f 13 4), z, td (f 17 5)]
    else [z, z, z]
  | .V =>
    if op = 0x20 ∨ op = 0x23 then
      [td (f 19 5), regOperand 0 (f 24 6), if op = 0x23 then regOperand 2 (f 13 4) else regOperand 1 (f 13 6)]
    else if op = 0x21 ∨ op = 0x22 then
      [if op = 0x22 then regOperand 2 (f 42 4) else regOperand 1 (f 13 6), regOperand 0 (f 24 6), td (f 19 5)]
    else if op ≤ 0x1B ∨ op = 0x24 then
      [regOperand 1 (f 19 6), if bit 52 then regOperand 0 (f 46 6) else regOperand 1 (f 25 6),
       if op = 0x07 then regOperand 2 (f 13 4) else regOperand 1 (f 13 6)]
    else if op = 0x60 then [td (f 13 5), z, td (f 18 5)]
    else if (0x70 ≤ op ∧ op ≤ 0x7B) ∨ (0x80 ≤ op ∧ op ≤ 0x85) then
      [if bit 18 then regOperand 4 (f 13 4) else td (f 13 5),
       if op = 0x80 ∨ op = 0x82 ∨ op = 0x83 ∨ op = 0x85 then td (f 13 5 + 1) else z, td (f 19 5)]
    else if op = 0x90 ∨ op = 0x92 then [td (f 13 5), td (f 18 5), td (f 23 5)]
    else if op = 0x91 then [td (f 23 5), td (f 18 5), td (f 13 5)]
    else if op = 0xA0 then [td (f 13 5 + 3), td (f 13 5), td (f 13 5 + 4)]
    else if op = 0xA1 then [regOperand 1 (f 19 6), z, regOperand 0 (f 13 6)]
    else if op = 0xA8 ∨ op = 0xA9 then [regOperand 0 (f 13 6), regOperand 2 (f 19 4), z]
    else [z, z, z]
  | .D =>
    if op = 0x01 ∨ op = 0x10 then [td (f 13 5), z, td (f 18 5)]
    else if op = 0x20 then [td (f 13 5), z, z]
    else if op = 0x28 then [z, z, td (f 13 5)]
    else [z, z, z]

/-- The record of a trap of instruction i on core c (R158). -/
def State.recordFor (s : State) (c : Nat) (i : InFlight) (t : TrapInfo) : BitVec 2048 :=
  match s.place c with
  | some (x, k) => trapRecord c k x i (recordOps i) t
  | none => trapRecord c 0 0 i (recordOps i) t
/-- The instruction takes a trap at issue (R154, R156). -/
def State.trapAtIssue (s : State) (c : Nat) (i : InFlight) (cause : Cause) : State :=
  s.takeTrap c (s.recordFor c i { reason := cause.1, detail := cause.2 })

/-! ## Applying an effect -/

/-- The record of a trap that instruction i posts at a position of its result. -/
def NanPos.info (n : NanPos) (mode : Nat) : TrapInfo :=
  { reason := 0x7008, row := n.row, col := n.col, group := n.group, pass := n.pass, after := true, deferred := decide (mode = 1) }
def PostTrap.info (p : PostTrap) (after : Bool) : TrapInfo :=
  { reason := p.code, detail := p.detail, row := p.row, col := p.col, group := p.group, pass := p.pass, after := after, deferred := p.deferred }
/-- A trap joins those that fall due at the next bundle boundary (R155); a core that has trapped takes no other (R156). -/
def State.addDue (s : State) (c : Nat) (d : Deferred) : State :=
  let k := s.core c
  if k.run = .trapped then s else s.setCore c { k with deferred := k.deferred ++ [d] }
def State.deferTrap (s : State) (c : Nat) (i : InFlight) (p : PostTrap) (after : Bool) : State :=
  s.addDue c ⟨i.id, s.recordFor c i (p.info after), false, !p.deferred⟩
def State.deferAll (s : State) (c : Nat) (i : InFlight) : List PostTrap → State
  | [] => s
  | p :: ps => (s.deferTrap c i p true).deferAll c i ps
/-- Latch the first-NaN record when a NaN was produced and NAN_SEEN is clear (R160). The NAN_MODE of its issue decides the
trap: 0b01 defers it, under 0b10 the instruction held issue for it. -/
def State.latchNan (s : State) (c : Nat) (i : InFlight) (n : NanPos) : State :=
  let k := s.core c
  if nanSeen k.trapControl then s
  else
    let r := s.recordFor c i (n.info i.nanMode)
    let s1 := s.setCore c { k with trapControl := k.trapControl ||| 4, nanRec := r }
    if i.nanMode = 0 then s1 else s1.addDue c ⟨i.id, r, true, decide (i.nanMode = 2)⟩

/-! ## Traps that fall due (R155, R156) -/

def gathOp (op : Nat) : Bool := decide (0x90 ≤ op) && decide (op ≤ 0x92)
/-- Instructions that can raise a flag, produce a NaN or set NAN_SEEN (R170, R171). -/
def raises (i : InFlight) : Bool :=
  let op := fld i.word 5 8
  match i.slot with
  | .S => (decide (0x14 ≤ op) && decide (op ≤ 0x1B)) || (decide (0x38 ≤ op) && decide (op ≤ 0x3E)) || op == 0x29
  | .M => op != 0
  | .V => decide (0 < op) && decide (op < 0xA1) && op != 0x22 && op != 0x23 && op != 0x24 && op != 0x79 && op != 0x7A && op != 0x7B ||
      op == 0xA1
  | .D => false
/-- An instruction in flight that holds back the issue of every later bundle (R155). -/
def holdsIssue (i : InFlight) : Bool :=
  let op := fld i.word 5 8
  let strict := (i.slot = .M && op == 0x20 && i.word.getLsbD 25) || (i.slot = .V && op == 0x21 && i.word.getLsbD 39) ||
    (i.slot = .V && op == 0x60 && i.word.getLsbD 26)
  let oob := i.slot = .V && gathOp op && decide (fld i.word 29 2 = 0)
  strict || oob || (decide (i.nanMode = 2) && raises i)
/-- Which of two traps comes first: the earlier instruction's, and of one instruction the first-NaN trap (02 R82), else the
lower code (R529). -/
def Deferred.before (a b : Deferred) : Bool :=
  decide (a.id < b.id) || (decide (a.id = b.id) &&
    ((a.firstNan && !b.firstNan) || (a.firstNan == b.firstNan && decide (recordReason a.record ≤ recordReason b.record))))
def firstDue : List Deferred → Option Deferred
  | [] => none
  | d :: ds => match firstDue ds with
    | none => some d
    | some e => if d.before e then some d else some e
/-- At a bundle boundary the first trap that has fallen due is taken. While an instruction that holds issue is in flight,
the boundary of a held trap has not come. -/
def State.postDeferred (s : State) (c : Nat) : State :=
  let k := s.core c
  if k.run = .trapped ∨ (k.deferred.any (fun d => d.held) && k.flight.any holdsIssue) then s
  else match firstDue k.deferred with
    | none => s
    | some d => s.takeTrap c d.record
/-- A held trap is taken once the last instruction that holds issue has completed or been withdrawn. -/
def State.settleHeld (s : State) (c : Nat) : State :=
  if (s.core c).deferred.any (fun d => d.held) then s.postDeferred c else s

/-- The sequencing effects. A WWPUT or WWGET joins its queue's order and stays in flight; a PEGW waits unless its
condition holds; a FENCE leaves its barrier unless its mask is zero. -/
def State.control (s : State) (c : CoreId) (i : InFlight) (ctl : Ctl) : State :=
  let k := s.core c.val
  match ctl with
  | .none => s
  | .branch t => s.goTo c.val t
  | .halt => s.setCore c.val { k with halt := true }
  | .fence m => if m = 0 then s else s.setCore c.val { k with fence := some ⟨m, i.seq, i⟩ }
  | .signal n inc =>
    match s.place c.val with
    | some (x, _) => s.signal x n inc (some c)
    | none => s
  | .pegw n th =>
    match s.place c.val with
    | some (x, _) =>
      let p := s.pegOf x n
      let holds := pegHolds (mapGet 0 s.pegs p) th
      s.setCore c.val { k with pegWait := some ⟨p, th, holds, i⟩ }
    | none => s
  | .wwput q =>
    match s.place c.val with
    | some (x, _) =>
      let s1 := s.setCore c.val { k with flight := k.flight ++ [i], nextId := max k.nextId (i.id + 1) }
      s1.setQueue x q { s1.queue x q with puts := (s1.queue x q).puts ++ [⟨c, i.id⟩] }
    | none => s
  | .wwget q =>
    match s.place c.val with
    | some (x, _) =>
      let s1 := s.setCore c.val { k with flight := k.flight ++ [i], nextId := max k.nextId (i.id + 1) }
      s1.setQueue x q { s1.queue x q with gets := (s1.queue x q).gets ++ [⟨c, i.id⟩] }
    | none => s

/-- Apply a completed instruction's effect on core c (06 R165, R171). -/
def State.complete (s : State) (c : CoreId) (i : InFlight) (e : Effect) : State :=
  let origin := (viewOf s c.val i).origin
  let s1 := s.setCore c.val (e.onCore (s.core c.val))
  let s2 := storeAll s1 origin (joinWrites e.mem)
  let s3 := match e.nan with | some n => s2.latchNan c.val i n | none => s2
  let s4 := s3.deferAll c.val i e.posts
  let s5 := s4.control c i e.ctl
  if (s4.core c.val).deferred = (s.core c.val).deferred then s5 else s5.settleHeld c.val

end Sys2Proof.Machine
end

