-- ==== Sys2Proof/Machine/Trans.lean ====
section
/-! DEFINITION. EXP and LOG, correctly rounded to binary32 (04 R104), and the composite functions (04 R105).
Each is computed to more than 200 fixed-point bits; a nonzero argument's exponential and the logarithm of a number
other than 1 are irrational, so the sticky last bit makes the one rounding the correct one. -/
namespace Sys2Proof.Machine

/-- Fixed-point places. -/
def fxP : Nat := 256
/-- ln 2 in fixed point, truncated. -/
def fxLn2 : Nat := 0xb17217f7d1cf79abc9e3b39803f2f6af40f343267298b62d8a0d175b8baafa2b

/-- Horner's rule for the exponential series from term n down to term 1. -/
def expSeries (r : Nat) : Nat → Nat → Nat
  | 0, acc => acc
  | n + 1, acc => expSeries r n (2 ^ fxP + acc * r / ((n + 1) * 2 ^ fxP))

/-- e^x of a nonzero exact value, to a sticky bit; beyond the range of binary32, a value that rounds alike. -/
def qExp (x : Q) : Q :=
  if 8 ≤ x.log2 then (if x.neg then ⟨false, 1, 1, -400⟩ else ⟨false, 1, 1, 400⟩)
  else
    let (num, den) := x.over (-(fxP : Int))
    let X : Int := if x.neg then -((num / den : Nat) : Int) else ((num / den : Nat) : Int)
    let k := X / (fxLn2 : Int)
    let r := (X - k * (fxLn2 : Int)).toNat
    let y := expSeries r 60 (2 ^ fxP)
    ⟨false, 2 * y + 1, 1, k - (fxP : Int) - 1⟩

/-- EXP of a number, exact before its rounding (R104). -/
def numExp (a : Num) : Exact :=
  match nanOf [a] with
  | some r => r
  | none =>
    match a with
    | .inf s => { v := if s then .fin (Q.zero false) else .inf false }
    | .fin q => { v := .fin (if q.n = 0 then ⟨false, 1, 1, 0⟩ else qExp q) }
    | _ => invalidNan

/-- Horner's rule for Σ z^(2k) / (2k + 1). -/
def atanhSeries (zz : Nat) : Nat → Nat → Nat
  | 0, acc => acc
  | n + 1, acc => atanhSeries zz n (2 ^ fxP / (2 * n + 1) + acc * zz / 2 ^ fxP)

/-- ln of a positive value other than 1, to a sticky bit. -/
def qLog (x : Q) : Q :=
  let L0 := x.log2
  let (n0, d0) := x.over L0
  -- the significand lies in [1, 2): halve it above 1.5
  let big := decide (3 * d0 < 2 * n0)
  let L := if big then L0 + 1 else L0
  let d := if big then 2 * d0 else d0
  let zneg := decide (n0 < d)
  let z := ((if zneg then d - n0 else n0 - d) * 2 ^ fxP) / (n0 + d)
  let t := 2 * z * atanhSeries (z * z / 2 ^ fxP) 64 0 / 2 ^ fxP
  let r : Int := (if zneg then -(t : Int) else (t : Int)) + L * (fxLn2 : Int)
  ⟨decide (r < 0), 2 * r.natAbs + 1, 1, -(fxP : Int) - 1⟩

/-- LOG of a number, exact before its rounding (R104). -/
def numLog (a : Num) : Exact :=
  match nanOf [a] with
  | some r => r
  | none =>
    match a with
    | .inf s => if s then invalidNan else { v := .inf false }
    | .fin q =>
      if q.n = 0 then { v := .inf true, flags := fDivZero }
      else if q.neg then invalidNan
      else if q.cmp ⟨false, 1, 1, 0⟩ == .eq then { v := .fin (Q.zero false) }
      else { v := .fin (qLog q) }
    | _ => invalidNan

def exp32 (a : FV) : FV := FV.of .b32 .rne 0 [a] (numExp (a.num .b32))
def log32 (a : FV) : FV := FV.of .b32 .rne 0 [a] (numLog (a.num .b32))

/-- 2 × √(2/π), 0.044715 and 3 × 0.044715 in binary32 (R105). -/
def c1 : FV := { bits := 0x3FCC422A }
def c2 : FV := { bits := 0x3D372713 }
def c3 : FV := { bits := 0x3E095D4F }

/-- The functions of Table 04-2. -/
def fSigmoid (x : FV) : FV := div32 one32 (add32 one32 (exp32 (neg32 x)))
def fTanh (x : FV) : FV := sub32 (mul32 two32 (fSigmoid (mul32 two32 x))) one32
def fSilu (x : FV) : FV := mul32 x (fSigmoid x)
def geluArg (x : FV) : FV := mul32 c1 (add32 x (mul32 c2 (mul32 x (mul32 x x))))
def fGelu (x : FV) : FV := mul32 x (fSigmoid (geluArg x))
def fSigmoidD (x : FV) : FV :=
  let s := fSigmoid x
  mul32 s (sub32 one32 s)
def fTanhD (x : FV) : FV :=
  let t := fTanh x
  sub32 one32 (mul32 t t)
def fSiluD (x : FV) : FV :=
  let s := fSigmoid x
  add32 s (mul32 x (mul32 s (sub32 one32 s)))
def fGeluD (x : FV) : FV :=
  let s := fSigmoid (geluArg x)
  let du := mul32 c1 (add32 one32 (mul32 c3 (mul32 x x)))
  add32 s (mul32 x (mul32 du (mul32 s (sub32 one32 s))))

end Sys2Proof.Machine
end

