-- ==== Sys2Proof/Machine/Convert.lean ====
section
/-! DEFINITION. Conversions of tensor elements (02 R53, R75, R76), their traps and first-NaN positions, and the row
statistics of write-outs and the row engine (03 R98). -/
namespace Sys2Proof.Machine

/-- Encode a value into a tensor's element under a fine scale (R76); a zero UE4M3 scale writes zeros (R75). -/
def encodeTo (d : Desc) (fine : Q) (rm : RM) (strict : Bool) (rnd : Nat) (x : Num) : Rounded :=
  match x with
  | .fin q =>
    if fine.n = 0 then { bits := if d.fmt.isInt then 0 else signBit d.fmt q.neg, flags := fIf (decide (q.n ≠ 0)) fInexact }
    else convert d.fmt d.sgn rm strict rnd (.fin (q.div (fine.mul d.coarseQ)))
  | y => convert d.fmt d.sgn rm strict rnd y

/-- Encode into element (r, c) of a tensor under the fine scale it holds there; under an invalid one, a zero of the
source's sign (05 R531). -/
def View.encodeAt (v : View) (d : Desc) (r c : Nat) (rm : RM) (strict : Bool) (rnd : Nat) (x : Num) : Rounded :=
  if v.fineOk d r c then encodeTo d (v.fineQ d r c) rm strict rnd x
  else { bits := if d.fmt.isInt then 0 else signBit d.fmt x.neg }

/-- One converted element: where it goes, its source bits, and its result. -/
structure Elem where
  row : Nat
  col : Nat
  src : Nat
  r : Rounded

/-- The trap 0x7005 of the first strict element, after completion (02 R54, R55). -/
def strictPost (es : List Elem) : List PostTrap :=
  match es.find? (fun e => e.r.strict) with
  | some e => [{ code := 0x7005, detail := e.src, row := e.row, col := e.col }]
  | none => []
/-- The first NaN produced among elements in row-major order (05 R160). -/
def firstNan (es : List Elem) : Option NanPos :=
  (es.find? (fun e => e.r.produced)).map (fun e => ⟨e.row, e.col, 0, 0⟩)
def elemFlags (es : List Elem) : Flags := es.foldl (fun a e => a ||| e.r.flags) 0
/-- The bits a list of elements gives position (r, c). -/
def elemBits (es : List Elem) (r c : Nat) : Option Nat :=
  (es.find? (fun e => decide (e.row = r) && decide (e.col = c))).map (fun e => e.r.bits)

/-- The stores of the listed elements of a tensor, whole rows from column c0. -/
def View.storeElems (v : View) (d : Desc) (rows c0 n : Nat) (es : List Elem) : List MemWrite :=
  (upto rows).flatMap (fun r =>
    let here := es.filter (fun e => decide (e.row = r))
    v.rowWrite d r c0 n (fun c => elemBits here r c))

/-- All positions of rows × cols in row-major order. -/
def grid (rows cols : Nat) : List (Nat × Nat) := (upto rows).flatMap (fun r => (upto cols).map (fun c => (r, c)))

/-- The first of the causes in row-major order of their positions. -/
def firstMem : List MemCause → Option MemCause
  | [] => none
  | m :: ms => match firstMem ms with
    | none => some m
    | some n => if n.row < m.row ∨ (n.row = m.row ∧ n.col < m.col) then some n else some m
/-- The deferred trap of causes met during execution, at result positions (05 R531). -/
def memPosts (l : List MemCause) : List PostTrap :=
  (firstMem l).toList.map (fun m => { code := m.code, detail := m.detail, row := m.row, col := m.col, deferred := true })

/-- The deferred trap of a read that met Drone-origin granules (15 Table 15-6). -/
def dronePost (b : Bool) : List PostTrap := if b then [{ code := 0x4202, detail := 0, deferred := true }] else []

/-! ## Row statistics (R98) -/

def negInf32 : Nat := 0xFF800000

/-- The pair of one row, with the flags and the first column at which a NaN was produced. -/
structure RowStat where
  m : Nat
  s : Nat
  flags : Flags := 0
  nan : Option Nat := none

/-- max of a list of binary32 values from −∞, NaNs passed over (R58); the flags of signalling NaNs. -/
def maxList32 : List FV → FV → FV
  | [], a => a
  | y :: ys, a => maxList32 ys (FV.of .b32 .rne 0 [a] (numMaxMin true (a.num .b32) (y.num .b32)))

/-- Σ exp_rn(r(y − m)) in ascending column, noting the first column that produced a NaN. -/
def expSum (m : Nat) : List FV → Nat → FV → Option Nat → FV × Option Nat
  | [], _, acc, n => (acc, n)
  | y :: ys, j, acc, n =>
    let t := exp32 (sub32 { y with flags := 0, produced := false } { bits := m })
    let a := add32 acc t
    expSum m ys (j + 1) a (match n with | some k => some k | none => if a.produced then some j else none)

/-- The update of a row's pair by its scaled values (R98). DESIGN CHOICE (log entry 95): a NaN made outside the columns' own
steps lies at column 0 in the first-NaN record. -/
def rowStat (m0 s0 : Nat) (ys : List FV) : RowStat :=
  let fl := ys.foldl (fun a y => a ||| y.flags) 0
  let prodY := firstIdx (fun y : FV => y.produced) ys 0
  let tile := maxList32 ys { bits := negInf32 }
  let m := FV.of .b32 .rne 0 [tile] (numMaxMin true (decodeFloat .b32 m0) (tile.num .b32))
  if m.bits = negInf32 then { m := m0, s := s0, flags := fl ||| m.flags, nan := prodY }
  else
    let (sum, n) := expSum m.bits ys 0 { bits := 0 } none
    let corr := mul32 { bits := s0 } (exp32 (sub32 { bits := m0 } { bits := m.bits }))
    let out := add32 corr { sum with produced := false }
    { m := m.bits, s := out.bits, flags := fl ||| m.flags ||| out.flags,
      nan := match prodY, n with
        | some a, _ => some a
        | none, some a => some a
        | none, none => if out.produced then some 0 else none }

/-- Registers vd to vd + 3 as 128 pairs: M in the first two, S in the last two (R98). -/
def statM (r : RegFile) (vd i : Nat) : Nat := velem (r.vreg (vd + i / 64)) 32 (i % 64)
def statS (r : RegFile) (vd i : Nat) : Nat := velem (r.vreg (vd + 2 + i / 64)) 32 (i % 64)
/-- The four registers with the pairs of rows 0 to n − 1 replaced. -/
def statPut (r : RegFile) (vd : Nat) (st : List RowStat) : List (Nat × BitVec 2048) :=
  let m (i : Nat) : Nat := match st[i]? with | some x => x.m | none => statM r vd i
  let s (i : Nat) : Nat := match st[i]? with | some x => x.s | none => statS r vd i
  [(vd, vpack 32 ((upto 64).map m)), (vd + 1, vpack 32 ((upto 64).map (fun i => m (64 + i)))),
   (vd + 2, vpack 32 ((upto 64).map s)), (vd + 3, vpack 32 ((upto 64).map (fun i => s (64 + i))))]

end Sys2Proof.Machine
end

