-- ==== Sys2Proof/Machine/ScalarOps.lean ====
section
/-! DEFINITION. The S slot (06 R177 to R183): what each opcode is judged for at issue, the draws it reserves and its
effect. -/
namespace Sys2Proof.Machine

/-! ## Fields (Table 06-4) -/

def View.op (v : View) : Nat := v.f 5 8
def View.imm (v : View) : Word := (BitVec.ofNat 32 (v.f 32 32)).signExtend 64
def View.sa (v : View) : Word := v.sr (v.f 19 6)
def View.sbReg (v : View) : Word := v.sr (v.f 25 6)
/-- SB, or IMM where USE_IMM is 1 (R177). -/
def View.sb (v : View) : Word := if v.bit 31 then v.imm else v.sbReg
def View.sd (v : View) : Nat := v.f 13 6
def View.wide (v : View) : Fmt := if v.bit 35 then .b64 else .b32

/-- The operand bits an S opcode assigns (R174, R177), or none for an opcode Table 06-5 does not list. A field its
effect does not name is not assigned (log entry 9). -/
def assignedS (op : Nat) (word : Word) : Option (List (Nat × Nat)) :=
  let int := [(13, 6), (19, 6), (25, 6), (31, 1), (32, 32)]
  if op = 0 then some []
  else if op ≤ 0x0E then some int
  else if op = 0x10 ∨ op = 0x11 then some [(13, 6), (32, 32)]
  else if 0x14 ≤ op ∧ op ≤ 0x19 then some [(13, 6), (19, 6), (25, 6), (32, 3), (35, 1)]
  else if op = 0x1B then
    some ([(13, 6), (19, 6), (32, 3), (36, 2)] ++ (if fld word 36 2 < 2 then [(35, 1)] else []))
  else if op = 0x20 then some [(13, 6), (19, 6), (32, 32)]
  else if op = 0x21 then some [(19, 6), (25, 6), (32, 32)]
  else if op = 0x22 ∨ op = 0x23 then some [(13, 5), (19, 6), (32, 32)]
  else if op = 0x24 then if fld word 25 3 < 6 then some [(13, 5), (19, 6), (25, 4), (32, 32)] else none
  else if op = 0x28 then some [(13, 6), (32, 12)]
  else if op = 0x29 then some [(19, 6), (32, 12)]
  else if 0x30 ≤ op ∧ op ≤ 0x37 then some [(13, 4), (19, 6), (25, 6), (31, 1), (32, 32)]
  else if 0x38 ≤ op ∧ op ≤ 0x3E then some [(13, 4), (19, 6), (25, 6), (32, 3), (35, 1)]
  else if op = 0x40 then some [(32, 32)]
  else if op = 0x41 then some [(19, 6), (32, 32)]
  else if op = 0x42 then some [(13, 6), (32, 32)]
  else if op = 0x50 then some [(13, 16), (29, 8)]
  else if op = 0x51 then some [(13, 16), (32, 32)]
  else if op = 0x52 then some [(13, 5)]
  else if op = 0x60 then some [(13, 4)]
  else if op = 0x7F then some []
  else none

/-! ## Integer arithmetic -/

/-- Opcodes 0x01 to 0x0E (Table 06-5). -/
def aluS (op : Nat) (a b : Word) : Word :=
  match op with
  | 0x01 => a + b
  | 0x02 => a - b
  | 0x03 => a * b
  | 0x04 => BitVec.ofInt 64 (a.toInt * b.toInt / (2 ^ 64 : Nat))
  | 0x05 => a &&& b
  | 0x06 => a ||| b
  | 0x07 => a ^^^ b
  | 0x08 => a <<< (b.toNat % 64)
  | 0x09 => a >>> (b.toNat % 64)
  | 0x0A => a.sshiftRight (b.toNat % 64)
  | 0x0B => if a.toInt ≤ b.toInt then a else b
  | 0x0C => if a.toInt ≤ b.toInt then b else a
  | 0x0D => if a.toNat ≤ b.toNat then a else b
  | 0x0E => if a.toNat ≤ b.toNat then b else a
  | _ => 0

/-- The conditions of CMP, opcodes 0x30 to 0x37. -/
def cmpS (cond : Nat) (a b : Word) : Bool :=
  match cond with
  | 0 => a == b
  | 1 => a != b
  | 2 => decide (a.toInt < b.toInt)
  | 3 => decide (a.toInt ≤ b.toInt)
  | 4 => decide (b.toInt < a.toInt)
  | 5 => decide (b.toInt ≤ a.toInt)
  | 6 => decide (a.toNat < b.toNat)
  | _ => decide (a.toNat ≤ b.toNat)
/-- A scalar compare writes its result to all 64 bits (05 R132). -/
def splat (b : Bool) : Word := if b then BitVec.allOnes 64 else 0

/-- The conditions of a quiet floating compare: EQ, NE, LT, LE, GT, GE, UNORD (Table 06-5). -/
def fcmpHolds (cond : Nat) (o : Option Ordering) : Bool :=
  match cond, o with
  | 0, some .eq => true
  | 1, some .eq => false
  | 1, _ => true
  | 2, some .lt => true
  | 3, some .lt => true
  | 3, some .eq => true
  | 4, some .gt => true
  | 5, some .gt => true
  | 5, some .eq => true
  | 6, none => true
  | _, _ => false

/-! ## Floating arithmetic (R178) -/

def View.fnum (v : View) (w : Word) : Num := decodeFloat v.wide (w.toNat % 2 ^ v.wide.width)
def View.rmS (v : View) : RM := v.rmD (v.f 32 3)
/-- The one draw of lane 0 (02 R67). -/
def View.rndS (v : View) : Nat := v.rnd v.rmS 1 0 0
/-- A rounding floating operation: opcodes 0x14 to 0x17 and FCVT reserve a draw of lane 0 under SR. -/
def drawsS (v : View) : List Nat :=
  if (0x14 ≤ v.op ∧ v.op ≤ 0x17) ∨ v.op = 0x1B then drawsIf v.rmS [1] else []

/-- A rounded result as an effect on SD: binary32 zero-extends; a NaN produced lies at position 0. -/
def floatEffect (v : View) (r : Rounded) : Effect :=
  { s := [(v.sd, BitVec.ofNat 64 r.bits)], flags := r.flags, nan := if r.produced then some ⟨0, 0, 0, 0⟩ else none }

/-- Conversion to int64 (R178). -/
def toInt64 (rm : RM) (rnd : Nat) (x : Num) : Rounded :=
  match x with
  | .nan _ _ => { bits := 0, flags := fInvalid }
  | .inf s => { bits := if s then 2 ^ 63 else 2 ^ 63 - 1, flags := fInvalid ||| fInexact }
  | .fin q =>
    let (num, den) := q.over 0
    let (n, inex) := roundNat rm q.neg num den rnd
    let i : Int := if q.neg then -(n : Int) else n
    if i < -(2 ^ 63 : Nat) then { bits := 2 ^ 63, flags := fInvalid ||| fInexact }
    else if ((2 ^ 63 - 1 : Nat) : Int) < i then { bits := 2 ^ 63 - 1, flags := fInvalid ||| fInexact }
    else { bits := unsignedOf 64 i, flags := fIf inex fInexact }

def convF (v : View) (f : Fmt) (x : Num) : Rounded :=
  finish f v.rmS v.rndS { v := x.quiet, flags := fIf x.isSnan fInvalid }

/-- Opcodes 0x14 to 0x1B. -/
def effFloat (v : View) : Effect :=
  let f := v.wide
  let a := v.fnum v.sa
  let b := v.fnum v.sbReg
  let fin (x : Exact) : Effect := floatEffect v (finish f v.rmS v.rndS x)
  match v.op with
  | 0x14 => fin (numAdd v.rmS a b)
  | 0x15 => fin (numAdd v.rmS a b.flip)
  | 0x16 => fin (numMul a b)
  | 0x17 => fin (numDiv a b)
  | 0x18 => fin (numMaxMin true a b)
  | 0x19 => fin (numMaxMin false a b)
  | _ =>
    match v.f 36 2 with
    | 0 => fin { v := .fin (Q.ofInt v.sa.toInt) }
    | 1 => floatEffect v (toInt64 v.rmS v.rndS a)
    | 2 => floatEffect v (convF v .b64 (decodeFloat .b32 (v.sa.toNat % 2 ^ 32)))
    | _ => floatEffect v (convF v .b32 (decodeFloat .b64 v.sa.toNat))

/-! ## Scratchpad and descriptors (R179) -/

def View.offset (v : View) : Nat := (v.sa + v.imm).toNat
/-- An S-slot access of n bytes aligned to n below SCRATCH_BYTES; the DETAIL of a misaligned one is its offset. -/
def scratchCause (v : View) (n : Nat) : List Cause :=
  if v.offset % n ≠ 0 then [(0x2107, v.offset)]
  else causeIf (decide (v.decl.scratch < v.offset + n)) (0x2107, max v.offset v.decl.scratch)

/-- A descriptor field by its TDFLD code: lowest bit and width in the 32 bytes. -/
def tdField (code : Nat) : Nat × Nat :=
  match code with
  | 0 => (0, 48)
  | 1 => (96, 32)
  | 2 => (128, 24)
  | 3 => (152, 40)
  | 4 => (192, 48)
  | _ => (64, 32)
def tdPut (t : BitVec 256) (code value : Nat) : BitVec 256 :=
  let (lo, len) := tdField code
  BitVec.ofNat 256 (bitsPut t.toNat lo len value)

/-! ## The status space (05 R133) -/

def statusAssigned (id : Nat) : Bool :=
  decide (id ≤ 3) || (decide (0x10 ≤ id) && decide (id ≤ 0x1F)) || (decide (0x100 ≤ id) && decide (id ≤ 0x13F))
def coreIdent (v : View) : Nat :=
  match v.x with
  | none => 0
  | some x =>
    let bays := match (v.s.ctx x).programOn (v.k / 4) with | some p => popCount 64 p.bays.toNat | none => 0
    let act := match (v.s.ctx x).bayMap[v.k / 4]? with | some b => v.s.activeCores b.val | none => 0
    v.k + bays * 2 ^ 8 + act * 2 ^ 15
def statusRead (v : View) (id : Nat) : Word :=
  let k := v.core
  if id = 0 then k.numStatus
  else if id = 1 then k.trapControl
  else if id = 2 then v.i.seq
  else if id = 3 then BitVec.ofNat 64 (coreIdent v)
  else if id ≤ 0x1F then (mapGet 0 k.tileStatus (id - 0x10)).zeroExtend 64
  else BitVec.ofNat 64 (laneOf v.i.regs.lanes (id - 0x100)).counter
def statusWrite (v : View) (id : Nat) (w : Word) : Effect :=
  let k := v.core
  if id = 0 then { numStatus := some (numStatusWrite k.numStatus w) }
  else if id = 1 then { trapControl := some (trapControlWrite k.trapControl w) }
  else if 0x10 ≤ id ∧ id ≤ 0x1F then { tile := [(id - 0x10, tileWrite (mapGet 0 k.tileStatus (id - 0x10)) w)] }
  else {}

/-! ## Branches (05 R143, 07 R207) -/

/-- A bundle start in a bundle code segment. -/
def inBundleCode (p : Program) (t : Nat) : Bool :=
  decide (t % 32 = 0) && p.segs.any (fun g => decide (g.kind = 1) && decide (g.off ≤ t) && decide (t + 32 ≤ g.off + g.bytes))
/-- A legacy entry: the first word of an 8-word group of a legacy segment. -/
def isLegacyEntry (p : Program) (t : Nat) : Bool :=
  p.segs.any (fun g => decide (g.kind = 2) && decide (g.off ≤ t) && decide (t < g.off + g.bytes) && decide ((t - g.off) % 64 = 0))
def inLegacyCode (p : Program) (t : Nat) : Bool :=
  p.segs.any (fun g => decide (g.kind = 2) && decide (g.off ≤ t) && decide (t + 8 ≤ g.off + g.bytes))
def View.program (v : View) : Option Program :=
  match v.x with | none => none | some x => (v.s.ctx x).programOn (v.k / 4)
/-- A legal target of a bundle branch; without a program, any bundle address (log entry 8). -/
def branchOk (v : View) (t : Word) : Bool :=
  match v.program with
  | none => decide (t.toNat % 32 = 0)
  | some p => inBundleCode p t.toNat || isLegacyEntry p t.toNat
def branchTarget (v : View) : Word := if v.op = 0x41 then v.sa + v.imm else v.i.addr + 32 * v.imm

/-! ## Judgement and effect -/

def judgeS (v : View) : List Cause :=
  let op := v.op
  if (0x14 ≤ op ∧ op ≤ 0x1B) ∨ (0x38 ≤ op ∧ op ≤ 0x3E) then v.rmCause (v.f 32 3)
  else if op = 0x20 ∨ op = 0x21 then scratchCause v 8
  else if op = 0x22 ∨ op = 0x23 then scratchCause v 32
  else if op = 0x28 ∨ op = 0x29 then causeIf (!statusAssigned (v.f 32 12)) (0x2104, v.f 32 12)
  else if 0x40 ≤ op ∧ op ≤ 0x42 then causeIf (!branchOk v (branchTarget v)) (0x2108, (branchTarget v).toNat)
  else if op = 0x50 then
    causeIf (decide (v.f 29 8 = 0)) (0x2104, 0) ++ causeIf (decide (v.decl.pegs ≤ v.f 13 16)) (0x2109, v.f 13 16)
  else if op = 0x51 then causeIf (decide (v.decl.pegs ≤ v.f 13 16)) (0x2109, v.f 13 16)
  else []

def effScalar (v : View) : Effect :=
  let op := v.op
  if op = 0 then {}
  else if op ≤ 0x0E then { s := [(v.sd, aluS op v.sa v.sb)] }
  else if op = 0x10 then { s := [(v.sd, v.imm)] }
  else if op = 0x11 then
    { s := [(v.sd, BitVec.ofNat 64 (bitsPut (v.sr v.sd).toNat 32 32 (v.f 32 32)))] }
  else if op ≤ 0x1B then effFloat v
  else if op = 0x20 then { s := [(v.sd, BitVec.ofNat 64 (v.s.natAt (.scratch v.c) v.offset 8))] }
  else if op = 0x21 then { mem := [⟨.scratch v.c, v.offset, leBytes 8 v.sbReg.toNat⟩] }
  else if op = 0x22 then { td := [(v.f 13 5, BitVec.ofNat 256 (v.s.natAt (.scratch v.c) v.offset 32))] }
  else if op = 0x23 then { mem := [⟨.scratch v.c, v.offset, leBytes 32 (v.i.regs.tdreg (v.f 13 5)).toNat⟩] }
  else if op = 0x24 then
    let t := v.i.regs.tdreg (v.f 13 5)
    let (lo, len) := tdField (v.f 25 3)
    let val := v.offset + (if v.bit 28 then fld t lo len else 0)
    { td := [(v.f 13 5, tdPut t (v.f 25 3) val)] }
  else if op = 0x28 then { s := [(v.sd, v.i.status.getD (statusRead v (v.f 32 12)))] }
  else if op = 0x29 then statusWrite v (v.f 32 12) v.sa
  else if op ≤ 0x37 then { p := [(v.f 13 4, splat (cmpS (op - 0x30) v.sa v.sb))] }
  else if op ≤ 0x3E then
    let a := v.fnum v.sa
    let b := v.fnum v.sbReg
    { p := [(v.f 13 4, splat (fcmpHolds (op - 0x38) (numCmp a b)))], flags := fIf (a.isSnan || b.isSnan) fInvalid }
  else if op = 0x40 ∨ op = 0x41 then { ctl := .branch (branchTarget v) }
  else if op = 0x42 then { s := [(v.sd, v.i.addr + 32)], ctl := .branch (branchTarget v) }
  else if op = 0x50 then { ctl := .signal (v.f 13 16) (v.f 29 8) }
  else if op = 0x51 then { ctl := .pegw (v.f 13 16) (BitVec.ofNat 32 (v.f 32 32)) }
  else if op = 0x52 then { ctl := .fence (BitVec.ofNat 5 (v.f 13 5)) }
  else if op = 0x60 then { trapControl := some (trapnanWrite v.core.trapControl (v.f 13 2) (v.bit 15) (v.bit 16)) }
  else { ctl := .halt }

end Sys2Proof.Machine
end

