-- ==== Sys2Proof/Machine/ArrayOps.lean ====
section
/-! DEFINITION. The M slot: MMA, MMX and write-outs (03; 06 R184, R185). -/
namespace Sys2Proof.Machine

def assignedM (op : Nat) : Option (List (Nat × Nat)) :=
  if op = 0 then some []
  else if op = 0x01 then some [(13, 5), (18, 5), (23, 4), (27, 1), (28, 3)]
  else if op = 0x10 then some [(13, 5), (18, 5), (23, 4), (27, 1), (28, 3), (31, 1)]
  else if op = 0x20 then some [(13, 49)]
  else none

/-! ## Operand pairs (Table 03-1) -/

/-- What a pair runs as: alignment group (0 for the exact integer pairs), accumulator format, cycles for K elements. -/
structure Pair where
  group : Nat
  acc : Fmt
  cycles : Nat → Nat

def short8 (f : Fmt) : Bool := match f with | .e4m3 => true | .e5m2 => true | .e3m2 => true | _ => false
def pairOf (x y : Fmt) : Option Pair :=
  if x = .e2m1 ∧ y = .e2m1 then some ⟨64, .b32, fun k => ceilDiv k 2⟩
  else if x = .i4 ∧ y = .i4 then some ⟨0, .b32, fun k => ceilDiv k 2⟩
  else if short8 x && short8 y then some ⟨32, .b32, fun k => k⟩
  else if x = .i8 ∧ y = .i8 then some ⟨0, .b32, fun k => k⟩
  else if (x = .bf16 ∧ y = .bf16) ∨ (x = .b16 ∧ y = .b16) then some ⟨32, .b32, fun k => 4 * k⟩
  else if x = .b32 ∧ y = .b32 then some ⟨1, .b32, fun k => 32 * k⟩
  else if x = .b64 ∧ y = .b64 then some ⟨1, .b64, fun k => 128 * k⟩
  else none

def View.tx (v : View) : Desc := v.desc (v.f 13 5)
def View.ty (v : View) : Desc := v.desc (v.f 18 5)
/-- The legacy LMMA names its operands in the same bundle fields (07 R211) and may be no larger than 64 × 64. -/
def View.mmaLimit (v : View) : Nat := if v.i.legacy.isSome then 64 else 128
/-- The destination tile: bit 0 is ignored for binary64 (R99). -/
def View.tile (v : View) : Nat :=
  if v.tx.fmtc = 0 ∧ v.ty.fmtc = 0 ∧ v.op = 0x01 then v.f 23 4 / 2 * 2 else v.f 23 4
def tileCause (v : View) (t : Nat) : List Cause := causeIf (!v.decl.tiles.testBit t) (0x2109, t)

/-! ## Accumulation (R86) -/

/-- An accumulator running over groups: its number, the flags, where a NaN was first produced, and the counts. -/
structure AccSt where
  bits : Nat
  flags : Flags := 0
  nan : Option Nat := none
  results : Nat := 0
  ovf : Nat := 0
  van : Nat := 0

/-- The product of two factors with their scales, exact; both NaN carry X's. -/
def product (x y : Num) : Exact := numMul x y

/-- A group sum of G products (Table 03-2 and the alignment of R86); pad says that the group is short. -/
def groupSum (rm : RM) (pad : Bool) (ps : List (Num × Num)) : Exact :=
  let prods := ps.map (fun p => (p, product p.1 p.2))
  match prods.find? (fun p => p.1.1.isNan || p.1.2.isNan) with
  | some p =>
    let f := if p.1.1.isNan then p.1.1 else p.1.2
    { v := f.quiet, flags := fIf f.isSnan fInvalid }
  | none =>
    if prods.any (fun p => p.2.v.isNan) then invalidNan
    else
      let pos := prods.any (fun p => match p.2.v with | .inf s => !s | _ => false)
      let neg := prods.any (fun p => match p.2.v with | .inf s => s | _ => false)
      if pos && neg then invalidNan
      else if pos then { v := .inf false }
      else if neg then { v := .inf true }
      else
        let qs := prods.filterMap (fun p => match p.2.v with | .fin q => some q | _ => none)
        let nz := qs.filter (fun q => decide (q.n ≠ 0))
        match nz with
        | [] => { v := .fin (Q.zero ((!pad && qs.all (fun q => q.neg)) || rm == .rdn)) }
        | q0 :: rest =>
          let emax := rest.foldl (fun m q => max m q.log2) q0.log2
          let u := emax - 26
          let t : Int := nz.foldl (fun (t : Int) q =>
            let (n, d) := q.over u
            if q.neg then t - ((n / d : Nat) : Int) else t + ((n / d : Nat) : Int)) 0
          let cut := nz.any (fun q => let (n, d) := q.over u; decide (n % d ≠ 0))
          { v := .fin (if t = 0 then Q.zero (rm == .rdn) else ⟨decide (t < 0), t.natAbs, 1, u⟩), flags := fIf cut fInexact }

/-- One accumulator addition: acc + S × cx × cy, rounded once, the accumulator as first operand. -/
def accAdd (f : Fmt) (rm : RM) (rnd : Nat) (c : Q) (g : Nat) (a : AccSt) (sum : Exact) : AccSt :=
  let x := numAdd rm (decodeFloat f a.bits) (sum.v.scale c)
  let r := convert f true rm false rnd x.v
  { bits := r.bits, flags := a.flags ||| sum.flags ||| x.flags ||| r.flags,
    nan := match a.nan with | some n => some n | none => if sum.produced || x.produced then some g else none,
    results := a.results + 1, ovf := a.ovf + (if r.ovf then 1 else 0), van := a.van + (if r.van then 1 else 0) }

/-- All groups of one output element in ascending order. -/
def accGroups (f : Fmt) (rm : RM) (rnd : Nat → Nat) (c : Q) (G : Nat) : Nat → Nat → List (Num × Num) → AccSt → AccSt
  | 0, _, _, a => a
  | n + 1, g, ps, a =>
    let here := ps.take G
    let sum : Exact := if G = 1 then (match here with | [p] => product p.1 p.2 | _ => { v := .fin (Q.zero false) })
      else groupSum rm (decide (here.length < G)) here
    accGroups f rm rnd c G n (g + 1) (ps.drop G) (accAdd f rm (rnd g) c g a sum)

/-- Words of element (i, j) of a tile, and their place in the buffer. -/
def accKey (t i j : Nat) : Nat := 16384 * t + 128 * i + j
def View.accWord (v : View) (t i j : Nat) : Nat := (mapGet 0 v.core.acc (accKey t i j)).toNat
/-- A tile's element as its format holds it (R99). -/
def View.accBits (v : View) (f : Fmt) (t i j : Nat) : Nat :=
  if f = .b64 then v.accWord t i j + v.accWord (t + 1) i j * 2 ^ 32 else v.accWord t i j
def accPut (f : Fmt) (t i j bits : Nat) : List (Nat × BitVec 32) :=
  if f = .b64 then [(accKey t i j, BitVec.ofNat 32 bits), (accKey (t + 1) i j, BitVec.ofNat 32 (bits / 2 ^ 32))]
  else [(accKey t i j, BitVec.ofNat 32 bits)]

def View.factors (v : View) (d : Desc) (rows : Nat) : List (List Num) :=
  (upto rows).map (fun r => (upto d.cols).map (fun k => v.factor d r k))

/-- A piece of a binary32 element (R95), with the flags of the operations that made it and whether one of them produced a
NaN (02 R48). -/
structure Piece where
  x : Num
  flags : Flags
  made : Bool

def Piece.round (y : Exact) : Piece :=
  let r := finish .bf16 .rne 0 y
  ⟨decodeFloat .bf16 r.bits, r.flags, r.produced⟩
/-- a − b, rounded to a piece after the flags that came before it. -/
def Exact.minus (a : Exact) (b : Num) : Exact :=
  let d := numAdd .rne a.v b.flip
  { v := d.v, flags := a.flags ||| d.flags, produced := a.produced || d.produced }
/-- The pieces of an element: each the bfloat16 rounding of what the ones before it leave. -/
def pieces (three : Bool) (x : Num) : List Piece :=
  let e : Exact := { v := x }
  let p1 := Piece.round e
  let d2 := e.minus p1.x
  let p2 := Piece.round d2
  if three then [p1, p2, Piece.round (d2.minus p2.x)] else [p1, p2]
/-- The flags of splitting every element of an operand. -/
def splitFlags (l : List (List (List Piece))) : Flags :=
  l.foldl (fun a r => r.foldl (fun a ps => ps.foldl (fun a p => a ||| p.flags) a) a) 0
/-- Pairs of pieces of each pass (Table 03-3), counted from 0. -/
def mmxPasses (three : Bool) : List (Nat × Nat) :=
  if three then [(0, 2), (2, 0), (1, 1), (0, 1), (1, 0), (0, 0)] else [(0, 1), (1, 0), (0, 0)]

/-- The first NaN in the order pass, group, row, column (05 R160). -/
def nanBefore (a b : NanPos) : Bool :=
  decide (a.pass < b.pass) || (decide (a.pass = b.pass) && (decide (a.group < b.group) || (decide (a.group = b.group) &&
    (decide (a.row < b.row) || (decide (a.row = b.row) && decide (a.col < b.col))))))
def minNan : List NanPos → Option NanPos
  | [] => none
  | a :: l => match minNan l with | none => some a | some b => some (if nanBefore b a then b else a)

/-! ## Judgement -/

/-- Largest first: what R184 asks of the shapes. -/
def mmaShape (v : View) : List Cause :=
  let x := v.tx
  let y := v.ty
  causeIf (decide (y.cols ≠ x.cols)) (0x2104, y.cols) ++ causeIf (decide (v.mmaLimit < x.rows)) (0x2104, x.rows) ++
  causeIf (decide (v.mmaLimit < y.rows)) (0x2104, y.rows)
/-- An operand must lie in SPACE 0x0, within SCRATCH_BYTES (R184, 05 R138). -/
def mmaOperand (v : View) (n : Nat) : List Cause :=
  let d := v.desc n
  let sh := descShape n d true
  sh ++ (if d.space ≠ 0 then [(0x2107, d.base)] else if sh = [] then v.tensorRange d .read else [])
def pairDetail (v : View) : Nat := v.tx.fmtc + 16 * v.ty.fmtc
def mmxCycles (v : View) : Nat := (if v.bit 31 then 24 else 12) * v.tx.cols
def mmaOk (f : Fmt) : Bool := match f with | .bf16 => true | .i8 => true | _ => false

def judgeMma (v : View) : List Cause :=
  let x := v.tx
  let y := v.ty
  let known := (Fmt.ofCode x.fmtc).isSome && (Fmt.ofCode y.fmtc).isSome
  mmaOperand v (v.f 13 5) ++ mmaOperand v (v.f 18 5) ++ mmaShape v ++ v.rmCause (v.f 28 3) ++ tileCause v v.tile ++
  (if v.op = 0x10 then
    causeIf (known && !(decide (x.fmtc = 1) && decide (y.fmtc = 1))) (0x7001, pairDetail v) ++
    causeIf (decide (8192 < mmxCycles v)) (0x2103, mmxCycles v) ++ coarseCause x ++ coarseCause y
  else if known then
    match pairOf x.fmt y.fmt with
    | none => [(0x7001, pairDetail v)]
    | some p =>
      causeIf (v.i.legacy.isSome && !(mmaOk x.fmt)) (0x7001, pairDetail v) ++
      causeIf (decide (8192 < p.cycles x.cols)) (0x2103, p.cycles x.cols) ++
      (if p.acc = .b64 then tileCause v (v.tile + 1) else []) ++
      (if p.group = 0 then
        causeIf (x.hasFine || x.hasCoarse) (0x7001, 0x300 + x.fmtc) ++ causeIf (y.hasFine || y.hasCoarse) (0x7001, 0x300 + y.fmtc)
      else coarseCause x ++ coarseCause y)
  else [])

/-- The deferred trap of invalid scales met during execution: the first element in the order of 05 R160 that an operand's
faulty block reaches, a block of X reaching a row of results and one of Y a column, in the group of its elements. -/
def mmaPosts (v : View) (G : Nat) : List PostTrap :=
  let at' (n : NanPos) (m : MemCause) : NanPos × MemCause := (n, m)
  let all := (v.scaleFaults v.tx 0 v.tx.rows 0 v.tx.cols).map (fun m => at' ⟨m.row, 0, m.col / G, 0⟩ m) ++
    (v.scaleFaults v.ty 0 v.ty.rows 0 v.ty.cols).map (fun m => at' ⟨0, m.row, m.col / G, 0⟩ m)
  match minNan (all.map (fun p => p.1)) with
  | none => []
  | some n => ((all.find? (fun p => decide (p.1 = n))).toList).map (fun p =>
      { code := p.2.code, detail := p.2.detail, row := n.row, col := n.col, group := n.group, pass := n.pass, deferred := true })
/-- The fine scales both operands read (02 R75). -/
def memMma (v : View) : List MemCause :=
  v.scaleFaults v.tx 0 v.tx.rows 0 v.tx.cols ++ v.scaleFaults v.ty 0 v.ty.rows 0 v.ty.cols

/-- Groups of K elements. -/
def groupsOf (G K : Nat) : Nat := if G = 0 then 0 else ceilDiv K G
def drawsMma (v : View) : List Nat :=
  let rm := v.rmD (v.f 28 3)
  let per (G passes : Nat) : List Nat :=
    drawsIf rm ((upto 64).map (fun j => passes * groupsOf G v.tx.cols * v.tx.rows * colsServed v.ty.rows j))
  if v.op = 0x10 then per 32 (mmxPasses (v.bit 31)).length
  else match pairOf v.tx.fmt v.ty.fmt with
    | some p => if p.group = 0 then [] else per p.group 1
    | none => []

/-! ## Effect -/

/-- The random bits of accumulator addition (pass, g, i, j) (R88, R96). -/
def mmaRnd (v : View) (rm : RM) (ng pass g i j : Nat) : Nat :=
  if rm = .sr then
    let cs := colsServed v.ty.rows (j % 64)
    drawAt (laneOf v.i.regs.lanes (j % 64)) (((pass * ng + g) * v.tx.rows + i) * cs + j / 64)
  else 0

/-- Rows of X or Y that an invalid scale reached during execution write zero elements (05 R531). -/
def badRows (l : List MemCause) : List Nat := l.map (fun m => m.row)

/-- A floating MMA or MMX over its passes. -/
def effFloatMma (v : View) (f : Fmt) (G : Nat) : Effect :=
  let rm := v.rmD (v.f 28 3)
  let x := v.tx
  let y := v.ty
  let c := x.coarseQ.mul y.coarseQ
  let ng := groupsOf G x.cols
  let xs := v.factors x x.rows
  let ys := v.factors y y.rows
  let mmx := decide (v.op = 0x10)
  let passes : List (Nat × Nat) := if mmx then mmxPasses (v.bit 31) else [(0, 0)]
  let xp : List (List (List Piece)) := if mmx then xs.map (fun r => r.map (pieces (v.bit 31))) else []
  let yp : List (List (List Piece)) := if mmx then ys.map (fun r => r.map (pieces (v.bit 31))) else []
  let pick (l : List (List (List Piece))) (r n : Nat) : List Num := (l.getD r []).map (fun ps => match ps[n]? with | some p => p.x | none => .canon)
  let madeAt (l : List (List (List Piece))) (r n : Nat) : Option Nat :=
    firstIdx (fun ps : List Piece => match ps[n]? with | some p => p.made | none => false) (l.getD r []) 0
  let bx := badRows (v.scaleFaults x 0 x.rows 0 x.cols)
  let byy := badRows (v.scaleFaults y 0 y.rows 0 y.cols)
  let cell (i j : Nat) : AccSt × Option NanPos :=
    let start : AccSt := { bits := if v.bit 27 then v.accBits f v.tile i j else 0 }
    let go := passes.foldl (fun (st : AccSt × Option NanPos × Nat) pq =>
      let (a, n, pass) := st
      let rowX := if mmx then pick xp i pq.1 else xs.getD i []
      let rowY := if mmx then pick yp j pq.2 else ys.getD j []
      let a' := accGroups f rm (fun g => mmaRnd v rm ng pass g i j) c G ng 0 (rowX.zip rowY) { a with nan := none }
      -- a NaN made by the split counts as produced in the group of its element (log entry 10)
      let g? := minList (a'.nan.toList ++ (if mmx then (madeAt xp i pq.1).toList ++ (madeAt yp j pq.2).toList else []).map (fun k => k / G))
      (a', (match n with | some m => some m | none => g?.map (fun g => ⟨i, j, g, pass⟩)), pass + 1)) (start, none, 0)
    let (a, n, _) := go
    if bx.contains i || byy.contains j then ({ a with bits := 0 }, none) else (a, n)
  let cells := (grid x.rows y.rows).map (fun ij => (ij, cell ij.1 ij.2))
  let t := v.tile
  { acc := cells.flatMap (fun ce => accPut f t ce.1.1 ce.1.2 ce.2.1.bits)
    tile := if f = .b64 then [(t, mkTile 2 0 false 0), (t + 1, mkTile 3 0 false 0)] else [(t, mkTile 0 0 false 0)]
    flags := cells.foldl (fun a ce => a ||| ce.2.1.flags) (splitFlags xp ||| splitFlags yp)
    counts :=
      [(cntResults x.fmt, cells.foldl (fun a ce => a + ce.2.1.results) 0),
       (cntOverflows x.fmt, cells.foldl (fun a ce => a + ce.2.1.ovf) 0),
       (cntVanished x.fmt, cells.foldl (fun a ce => a + ce.2.1.van) 0)]
    nan := minNan (cells.filterMap (fun ce => ce.2.2))
    posts := mmaPosts v G }

/-- Integer elements of an operand (R91). -/
def View.ints (v : View) (d : Desc) : List (List Int) :=
  (upto d.rows).map (fun r => (upto d.cols).map (fun k =>
    if d.sgn then signed d.fmt.width (v.elem d r k) else (v.elem d r k : Int)))
def dotInt (t : Nat) : List Int → List Int → Int
  | a :: as, b :: bs => a / (2 ^ t : Nat) * (b / (2 ^ t : Nat)) + dotInt t as bs
  | _, _ => 0
def inInt32 (i : Int) : Bool := decide (-(2 ^ 31 : Nat) ≤ i) && decide (i < (2 ^ 31 : Nat))
def clamp32 (i : Int) : Int := max (-(2 ^ 31 : Nat)) (min i (2 ^ 31 - 1 : Nat))

/-- The shift an integer MMA starts with (R92). -/
def intStart (v : View) : Nat := if v.bit 27 then tileShift (mapGet 0 v.core.tileStatus v.tile) else 0
/-- Pass number r: every result with shift start + r and the starting word moved 2r places. -/
def intPass (v : View) (r : Nat) : List ((Nat × Nat) × Int) :=
  let xs := v.ints v.tx
  let ys := v.ints v.ty
  let t := intStart v + r
  (grid v.tx.rows v.ty.rows).map (fun ij =>
    let w : Int := if v.bit 27 then signed 32 (v.accWord v.tile ij.1 ij.2) else 0
    (ij, w / (4 ^ r : Nat) + dotInt t (xs.getD ij.1 []) (ys.getD ij.2 [])))
def intFits (l : List ((Nat × Nat) × Int)) : Bool := l.all (fun e => inInt32 e.2)
/-- The retry passes the MMA takes, and whether the last pass falls back (R92). -/
def intRetries (v : View) : Nat → Nat → Nat × Bool
  | 0, r => (r, true)
  | n + 1, r =>
    if intFits (intPass v r) then (r, false)
    else if intStart v + r < 2 then intRetries v n (r + 1) else (r, true)
def effIntMma (v : View) : Effect :=
  let (r, fall) := intRetries v 3 0
  let res := intPass v r
  let t := v.tile
  let old := mapGet 0 v.core.tileStatus t
  let base := if v.bit 27 then tileRetries old else 0
  { acc := res.map (fun e => (accKey t e.1.1 e.1.2, BitVec.ofInt 32 (if fall then clamp32 e.2 else e.2)))
    tile := [(t, mkTile 1 (if fall then 2 else intStart v + r) (tileSat old || fall) (min 255 (base + r)))]
    counts :=
      (if r = 1 then [(cntRetry1, 1)] else if r = 2 then [(cntRetry2, 1)] else []) ++
      (if fall then [(cntTileSat, 1), (cntResults v.tx.fmt, 1), (cntOverflows v.tx.fmt, 1)] else []) }

def isIntMma (v : View) : Bool := decide (v.op = 0x01) && v.tx.fmt.isInt && v.ty.fmt.isInt
def effMma (v : View) : Effect :=
  if v.op = 0x10 then effFloatMma v .b32 32
  else match pairOf v.tx.fmt v.ty.fmt with
    | some p => if p.group = 0 then effIntMma v else effFloatMma v p.acc p.group
    | none => {}

/-! ## Write-outs (R94, R98; 06 R185) -/

def View.wTile (v : View) : Nat := v.f 13 4
def View.wM (v : View) : Nat := v.f 40 7 + 1
def View.wN (v : View) : Nat := v.f 47 7 + 1
def View.wDesc (v : View) : Desc := v.desc (v.f 17 5)
def View.wStatus (v : View) : BitVec 16 := mapGet 0 v.core.tileStatus v.wTile
def View.wKind (v : View) : Nat := tileKind v.wStatus
def View.wPair (v : View) : Bool := decide (2 ≤ v.wKind)
def View.wDiscard (v : View) : Bool := v.bit 61
def View.wVs (v : View) : Nat := v.f 28 6 / 4 * 4

/-- The number an element of tile t holds, by its TILE_KIND, and its bits (R94, R99). -/
def View.tileNum (v : View) (t i j : Nat) : Num × Nat :=
  let st := mapGet 0 v.core.tileStatus t
  if 2 ≤ tileKind st then
    let b := v.accBits .b64 (t / 2 * 2) i j
    (decodeFloat .b64 b, b)
  else
    let w := v.accWord t i j
    if tileKind st = 1 then (.fin (Q.ofInt (signed 32 w * (4 ^ tileShift st : Nat))), w) else (decodeFloat .b32 w, w)
def View.wSource (v : View) (i j : Nat) : Num × Nat := v.tileNum v.wTile i j
/-- The tiles a source tile stands for must be declared (R99, 05 R148). -/
def tileSourceCause (v : View) (t : Nat) : List Cause :=
  if 2 ≤ tileKind (mapGet 0 v.core.tileStatus t) then tileCause v (t / 2 * 2) ++ tileCause v (t / 2 * 2 + 1) else tileCause v t

def judgeWriteOut (v : View) : List Cause :=
  let d := v.wDesc
  let n := v.f 17 5
  tileSourceCause v v.wTile ++
  v.rmCause (v.f 22 3) ++ causeIf (v.bit 27 && decide (v.wKind ≠ 0)) (0x7001, 0x200 + v.wKind) ++
  (if v.wDiscard then []
   else if v.bit 54 then
    causeIf (decide ((if v.wPair then 32 else 64) < v.wN)) (0x2104, v.wN) ++
    causeIf (decide (63 < v.f 55 6 + v.wM - 1)) (0x2104, v.f 55 6)
   else
    v.useTensor n .encode ++ causeIf (decide (d.rows ≠ v.wM)) (0x2104, d.rows) ++
    causeIf (decide (d.cols ≠ v.wN)) (0x2104, d.cols))
def memWriteOut (v : View) : List MemCause :=
  if v.wDiscard || v.bit 54 then [] else v.scaleFaults v.wDesc 0 v.wM 0 v.wN
def drawsWriteOut (v : View) : List Nat :=
  if v.wDiscard then [] else drawsIf (v.rmD (v.f 22 3)) (gridDraws v.wM v.wN)

/-- The tile holds numbers whose way into an integer destination WRAP decides: INT32 words or binary64 pairs (R94). -/
def View.wWraps (v : View) : Bool := decide (v.wKind = 1) || v.wPair
/-- A finite value's low-order bits in an integer destination, with no flag (R94, WRAP = 1). -/
def wrapTo (d : Desc) (fine : Q) (rm : RM) (rnd : Nat) (q : Q) : Rounded :=
  let y := q.div (fine.mul d.coarseQ)
  let (num, den) := y.over 0
  let (n, _) := roundNat rm y.neg num den rnd
  { bits := unsignedOf d.fmt.width (if y.neg then -(n : Int) else n), van := decide (n = 0) && decide (y.n ≠ 0) }
/-- One element of a write-out to memory (R94): into an integer destination WRAP = 1 takes the low-order bits, and WRAP = 0
follows Table 02-4, SATURATED set wherever the value is clamped (log entry 90). -/
def View.wEncode (v : View) (d : Desc) (i j : Nat) (rm : RM) (strict : Bool) (rnd : Nat) (x : Num) : Rounded :=
  let table := v.encodeAt d i j rm strict rnd x
  if v.wWraps && d.fmt.isInt then
    match x with
    | .fin q =>
      if v.bit 26 && v.fineOk d i j && decide ((v.fineQ d i j).n ≠ 0) then wrapTo d (v.fineQ d i j) rm rnd q
      else { table with flags := table.flags ||| fIf table.ovf fSaturated }
    | _ => { table with flags := table.flags ||| fIf table.ovf fSaturated }
  else table

/-- The row statistics of the written rows (R98). -/
def writeOutStats (v : View) : List RowStat :=
  let beta : FV := { bits := (v.sr (v.f 34 6)).toNat % 2 ^ 32 }
  (upto v.wM).map (fun i =>
    rowStat (statM v.i.regs v.wVs i) (statS v.i.regs v.wVs i)
      ((upto v.wN).map (fun j => mul32 beta { bits := v.accWord v.wTile i j })))
def statNan (st : List RowStat) : List NanPos :=
  (upto st.length).filterMap (fun i => match st[i]? with | some x => x.nan.map (fun j => ⟨i, j, 0, 0⟩) | none => none)
def statFlags (st : List RowStat) : Flags := st.foldl (fun a x => a ||| x.flags) 0

/-- WRITE_OUT (06 R185). DESIGN CHOICE (log entry 98): with TOV = 1 the elements of a vector register at or beyond column N
keep what they held. -/
def effWriteOut (v : View) : Effect :=
  let rm := v.rmD (v.f 22 3)
  let strict := v.bit 25
  let d := v.wDesc
  let stats := if v.bit 27 then writeOutStats v else []
  let statRegs := if v.bit 27 then statPut v.i.regs v.wVs stats else []
  if v.wDiscard then { v := statRegs, flags := statFlags stats, nan := minNan (statNan stats) }
  else
    let tov := v.bit 54
    let vf : Fmt := if v.wPair then .b64 else .b32
    let es : List Elem := (grid v.wM v.wN).map (fun ij =>
      let (x, bits) := v.wSource ij.1 ij.2
      let rnd := v.rnd rm v.wN ij.1 ij.2
      ⟨ij.1, ij.2, bits,
        if tov then convert vf true rm strict rnd x else v.wEncode d ij.1 ij.2 rm strict rnd x⟩)
    let vregs := if tov then (upto v.wM).map (fun i =>
        let old := v.vr (v.f 55 6 + i)
        let w := vf.width
        (v.f 55 6 + i, vpack w ((upto (2048 / w)).map (fun j =>
          if j < v.wN then (elemBits (es.filter (fun e => decide (e.row = i))) i j).getD 0 else velem old w j)))) else []
    { v := vregs ++ statRegs
      mem := if tov then [] else v.storeElems d v.wM 0 v.wN es
      flags := elemFlags es ||| statFlags stats
      counts := resultCounts (if tov then vf else d.fmt) (es.map (fun e => e.r))
      nan := minNan ((firstNan es).toList ++ statNan stats)
      posts := (if tov then [] else strictPost es) ++ memPosts (memWriteOut v) }

end Sys2Proof.Machine
end

