-- ==== Sys2Proof/Machine/VectorOps.lean ====
section
/-! DEFINITION. The vector engine: arithmetic, functions, compares, loads and stores, masks and CVT (04 R102 to R106;
06 R186 to R189; 02 R77, R78). -/
namespace Sys2Proof.Machine

/-! ## Fields (Table 06-8) -/

def View.viewCode (v : View) : Nat := v.f 40 2
def View.viewFmt (v : View) : Fmt := if v.viewCode = 1 then .b64 else .b32
/-- Elements of a register in this view, and their width. -/
def View.viewN (v : View) : Nat := if v.viewCode = 1 then 32 else 64
def View.viewW (v : View) : Nat := if v.viewCode = 1 then 64 else 32
/-- The predicate bit of element j: bit 2j in the binary64 view (R186). -/
def View.maskBit (v : View) (p : Word) (j : Nat) : Bool := p.getLsbD (if v.viewCode = 1 then 2 * j else j)
def View.lmask (v : View) (j : Nat) : Bool := v.maskBit (v.pr (v.f 42 4)) j

/-- The operand bits a vector opcode assigns, or none (R174, R186 to R188). A VCMP condition its view does not take is
not assigned. -/
def assignedVec (op : Nat) (word : Word) : Option (List (Nat × Nat)) :=
  if op = 0x07 then
    let cond := fld word 53 4
    let view := fld word 40 2
    if 9 ≤ cond ∨ (view < 2 ∧ (cond = 6 ∨ cond = 7)) ∨ (view = 2 ∧ cond = 8) then none else some [(13, 44)]
  else if 0x01 ≤ op ∧ op ≤ 0x1B then some [(13, 44)]
  else if op = 0x24 then some [(13, 44)]
  else if 0x20 ≤ op ∧ op ≤ 0x23 then some [(13, 33)]
  else if op = 0x60 then some [(13, 21)]
  else none

/-- The views an opcode takes (Table 06-9). -/
def viewSuits (op view : Nat) : Bool :=
  if op ≤ 0x07 then decide (view < 3)
  else if op ≤ 0x0F then decide (view = 2)
  else if op ≤ 0x11 then decide (view < 2)
  else if op ≤ 0x1B then decide (view = 0)
  else decide (view < 3)
def viewCause (v : View) : List Cause := causeIf (!viewSuits v.op v.viewCode) (0x7001, 0x100 + v.viewCode)

/-! ## Arithmetic -/

def FV.rounded (x : FV) : Rounded := { bits := x.bits, flags := x.flags, produced := x.produced }

/-- The functions of opcodes 0x12 to 0x1B (R104, R105). -/
def vecFn (op : Nat) (x : FV) : FV :=
  match op with
  | 0x12 => exp32 x
  | 0x13 => log32 x
  | 0x14 => fSigmoid x
  | 0x15 => fTanh x
  | 0x16 => fSilu x
  | 0x17 => fGelu x
  | 0x18 => fSigmoidD x
  | 0x19 => fTanhD x
  | 0x1A => fSiluD x
  | _ => fGeluD x

/-- One element in a floating view. -/
def vecFloat (op : Nat) (f : Fmt) (rm : RM) (rnd a b c : Nat) : Rounded :=
  let x := decodeFloat f a
  let y := decodeFloat f b
  match op with
  | 0x01 => finish f rm rnd (numAdd rm x y)
  | 0x02 => finish f rm rnd (numAdd rm x y.flip)
  | 0x03 => finish f rm rnd (numMul x y)
  | 0x04 => finish f rm rnd (numFma rm x y (decodeFloat f c))
  | 0x05 => finish f .rne 0 (numMaxMin true x y)
  | 0x06 => finish f .rne 0 (numMaxMin false x y)
  | 0x10 => finish f rm rnd (numDiv x y)
  | 0x11 => finish f rm rnd (numSqrt x)
  | op => (vecFn op { bits := a }).rounded

/-- One element in the INT32 view (R103: wraps, no flag). -/
def vecInt (op : Nat) (a b c : BitVec 32) : BitVec 32 :=
  match op with
  | 0x01 => a + b
  | 0x02 => a - b
  | 0x03 => a * b
  | 0x04 => a * b + c
  | 0x05 => if a.toInt ≤ b.toInt then b else a
  | 0x06 => if a.toInt ≤ b.toInt then a else b
  | 0x08 => a + b
  | 0x09 => a - b
  | 0x0A => a <<< (b.toNat % 32)
  | 0x0B => a >>> (b.toNat % 32)
  | 0x0C => a.sshiftRight (b.toNat % 32)
  | 0x0D => a &&& b
  | 0x0E => a ||| b
  | _ => a ^^^ b

/-- The sources of element j: VA, VB or the broadcast SA, VC. -/
def View.vecA (v : View) (j : Nat) : Nat := velem (v.vr (v.f 19 6)) v.viewW j
def View.vecB (v : View) (j : Nat) : Nat :=
  if v.bit 52 then (v.sr (v.f 46 6)).toNat % 2 ^ v.viewW else velem (v.vr (v.f 25 6)) v.viewW j
def View.vecC (v : View) (j : Nat) : Nat := velem (v.vr (v.f 31 6)) v.viewW j

/-- The opcodes that round in their RM, in a floating view. -/
def vecRounds (v : View) : Bool :=
  decide (v.viewCode < 2) && ((decide (1 ≤ v.op) && decide (v.op ≤ 4)) || v.op == 0x10 || v.op == 0x11)
def vecElem (v : View) (j : Nat) : Rounded :=
  let rm := v.rmD (v.f 37 3)
  if v.viewCode = 2 then
    { bits := (vecInt v.op (BitVec.ofNat 32 (v.vecA j)) (BitVec.ofNat 32 (v.vecB j)) (BitVec.ofNat 32 (v.vecC j))).toNat }
  else vecFloat v.op v.viewFmt rm (if vecRounds v then v.rnd rm v.viewN 0 j else 0) (v.vecA j) (v.vecB j) (v.vecC j)

/-- A register with the unmasked elements replaced. -/
def View.vput (v : View) (reg : Nat) (es : List (Nat × Nat)) : List (Nat × BitVec 2048) :=
  [(reg, vpack v.viewW ((upto v.viewN).map (fun j =>
    match es.find? (fun e => decide (e.1 = j)) with | some e => e.2 | none => velem (v.vr reg) v.viewW j)))]

def vecArith (v : View) : Effect :=
  let es := ((upto v.viewN).filter v.lmask).map (fun j => (⟨0, j, v.vecA j, vecElem v j⟩ : Elem))
  { v := v.vput (v.f 13 6) (es.map (fun e => (e.col, e.r.bits))), flags := elemFlags es, nan := firstNan es }

/-- VCMP's condition on element j, and whether it signals (R186). -/
def vcmpElem (v : View) (j : Nat) : Bool × Bool :=
  let cond := v.f 53 4
  if v.viewCode = 2 then
    (cmpS cond ((BitVec.ofNat 32 (v.vecA j)).signExtend 64) ((BitVec.ofNat 32 (v.vecB j)).signExtend 64), false)
  else
    let x := decodeFloat v.viewFmt (v.vecA j)
    let y := decodeFloat v.viewFmt (v.vecB j)
    (fcmpHolds (if cond = 8 then 6 else cond) (numCmp x y), x.isSnan || y.isSnan)
def vecCmp (v : View) : Effect :=
  let bits := (upto v.viewN).map (fun j => (j, if v.lmask j then vcmpElem v j else (false, false)))
  { p := [(v.f 13 4, BitVec.ofNat 64 (bits.foldl (fun a e =>
      a + (if e.2.1 then (if v.viewCode = 1 then 3 * 2 ^ (2 * e.1) else 2 ^ e.1) else 0)) 0))],
    flags := fIf (bits.any (fun e => e.2.2)) fInvalid }

/-- VMSEL (R188): VA's element where the bit of PS is 1, +0 elsewhere. -/
def vecSel (v : View) : Effect :=
  { v := [(v.f 13 6, vpack v.viewW ((upto v.viewN).map (fun j => if v.lmask j then v.vecA j else 0)))] }

/-! ## Loads and stores (R187, R188) -/

def View.ldDesc (v : View) : Desc := v.desc (v.f 19 5)
def View.ldRow (v : View) : Nat := (v.sr (v.f 24 6)).toNat
def View.ldCol (v : View) : Nat := (v.sr (v.f 30 6)).toNat
/-- Columns moved that lie below COLS. -/
def View.ldCount (v : View) : Nat := min v.viewN (v.ldDesc.cols - v.ldCol)

/-- The bytes of columns [c0, c0 + n) of row r, and their fine scales, as SPACE addresses. -/
def partRange (d : Desc) (r c0 n : Nat) : List (Nat × Nat) :=
  if n = 0 then [] else
  let g := d.fmt.group
  let b := d.fmt.block
  let g0 := c0 / g
  let b0 := c0 / b
  [(d.base + r * d.stride + g0 * d.fmt.groupBytes, ((c0 + n - 1) / g - g0 + 1) * d.fmt.groupBytes)] ++
  (if d.fine then [(d.scaleBase + r * d.scaleRow + b0, (c0 + n - 1) / b - b0 + 1)] else [])
def View.partCause (v : View) (d : Desc) (r c0 n : Nat) (write : Bool) : List Cause :=
  match partRange d r c0 n with
  | [] => []
  | a :: rest => v.rangeCause d.space a.1 a.2 write ++ rest.flatMap (fun p => v.rangeCause d.space p.1 p.2 false)
/-- Drone-origin granules among the bytes of a tensor this core reads. -/
def View.hidden (v : View) (d : Desc) : Bool :=
  (upto d.rows).any (fun r => (partRange d r 0 d.cols).any (fun p => v.readsHidden d.space p.1 p.2))
def View.hiddenPart (v : View) (d : Desc) (r c0 n : Nat) : Bool :=
  (partRange d r c0 n).any (fun p => v.readsHidden d.space p.1 p.2)

def judgeLdSt (v : View) : List Cause :=
  let d := v.ldDesc
  let sh := descShape (v.f 19 5) d true
  viewCause v ++ v.rmCause (v.f 36 3) ++ sh ++ coarseCause d ++
  causeIf (decide (d.rows ≤ v.ldRow)) (0x2104, v.ldRow) ++
  (if sh = [] && decide (v.ldRow < d.rows) then v.partCause d v.ldRow v.ldCol v.ldCount (v.op == 0x21) else []) ++
  causeIf (decide (v.viewCode = 2) && (Fmt.ofCode d.fmtc).isSome && (!d.fmt.isInt || d.hasFine || d.hasCoarse)) (0x7001, d.fmtc)
/-- The invalid fine scales among the columns moved, at the first element of the register that each block holds. -/
def memLdSt (v : View) : List MemCause :=
  (v.scaleFaults v.ldDesc v.ldRow 1 v.ldCol v.ldCount).map (fun m => { m with row := 0, col := m.col - v.ldCol })
/-- Every position consumes a draw in SR mode, in every view (R62, R187). -/
def drawsLdSt (v : View) : List Nat := drawsIf (v.rmD (v.f 36 3)) (gridDraws 1 v.viewN)

def effVld (v : View) : Effect :=
  let d := v.ldDesc
  let rm := v.rmD (v.f 36 3)
  let es := ((upto v.viewN).filter v.lmask).map (fun j =>
    let c := v.ldCol + j
    let src := if c < d.cols then v.elem d v.ldRow c else 0
    let r : Rounded := if d.cols ≤ c then { bits := 0 }
      else if v.viewCode = 2 then
        { bits := unsignedOf 32 (if d.sgn then signed d.fmt.width src else (src : Int)) }
      else convert v.viewFmt true rm false (v.rnd rm v.viewN 0 j) (v.value d v.ldRow c)
    (⟨0, j, src, r⟩ : Elem))
  { v := v.vput (v.f 13 6) (es.map (fun e => (e.col, e.r.bits)))
    flags := elemFlags es
    nan := firstNan es
    posts := memPosts (memLdSt v) ++ dronePost (v.hiddenPart d v.ldRow v.ldCol v.ldCount) }

def effVst (v : View) : Effect :=
  let d := v.ldDesc
  let rm := v.rmD (v.f 36 3)
  let reg := v.vr (v.f 13 6)
  let es := ((upto v.ldCount).filter v.lmask).map (fun j =>
    let src := velem reg v.viewW j
    let x : Num := if v.viewCode = 2 then .fin (Q.ofInt (signed 32 src)) else decodeFloat v.viewFmt src
    (⟨0, j, src, v.encodeAt d v.ldRow (v.ldCol + j) rm (v.bit 39) (v.rnd rm v.viewN 0 j) x⟩ : Elem))
  { mem := v.rowWrite d v.ldRow v.ldCol v.ldCount (fun c => if c < v.ldCol then none else elemBits es 0 (c - v.ldCol))
    flags := elemFlags es
    nan := firstNan es
    posts := strictPost es ++ memPosts (memLdSt v) }

/-- The 8 bytes of a mask tensor that VMPACK or VMLOAD moves (R188): their address and their count. -/
def View.maskBytes (v : View) : Nat × Nat := (v.ldDesc.base + v.ldRow * v.ldDesc.stride + v.ldCol / 8, 8)
def judgeMask (v : View) : List Cause :=
  let d := v.ldDesc
  let sh := descShape (v.f 19 5) d false ++
    causeIf (decide (d.stride < ceilDiv d.cols 8) && decide (1 < d.rows)) (0x2106, v.f 19 5)
  viewCause v ++ v.rmCause (v.f 36 3) ++ sh ++ causeIf (decide (d.rows ≤ v.ldRow)) (0x2104, v.ldRow) ++
  causeIf (decide (v.ldCol % 64 ≠ 0)) (0x2104, v.ldCol) ++
  (if sh = [] && decide (v.ldRow < d.rows) then v.rangeCause d.space v.maskBytes.1 v.maskBytes.2 (v.op == 0x22) else [])
def effVmpack (v : View) : Effect :=
  let d := v.ldDesc
  let (l, a) := v.locate d.space v.maskBytes.1
  { mem := [⟨l, a, leBytes v.maskBytes.2 (v.pr (v.f 42 4)).toNat⟩] }
def effVmload (v : View) : Effect :=
  let d := v.ldDesc
  let (l, a) := v.locate d.space v.maskBytes.1
  { p := [(v.f 13 4, BitVec.ofNat 64 (v.nat l a v.maskBytes.2))]
    posts := dronePost (v.readsHidden d.space v.maskBytes.1 v.maskBytes.2) }

/-! ## CVT (R189; 02 R77, R78) -/

def View.cvtS (v : View) : Desc := v.desc (v.f 13 5)
def View.cvtD (v : View) : Desc := v.desc (v.f 18 5)
def View.cvtAuto (v : View) : Bool := v.bit 27 && v.cvtD.fine

def judgeCvt (v : View) : List Cause :=
  let a := v.cvtS
  let b := v.cvtD
  v.useTensor (v.f 13 5) .read ++ v.useTensor (v.f 18 5) (if v.cvtAuto then .write else .encode) ++ v.rmCause (v.f 23 3) ++
  causeIf (decide (b.rows ≠ a.rows)) (0x2104, b.rows) ++ causeIf (decide (b.cols ≠ a.cols)) (0x2104, b.cols) ++
  causeIf (decide (8192 < ceilDiv (a.rows * a.cols) 64)) (0x2103, ceilDiv (a.rows * a.cols) 64)
def memCvt (v : View) : List MemCause :=
  v.scaleFaults v.cvtS 0 v.cvtS.rows 0 v.cvtS.cols ++
  (if v.cvtAuto then [] else v.scaleFaults v.cvtD 0 v.cvtD.rows 0 v.cvtD.cols)
def drawsCvt (v : View) : List Nat := drawsIf (v.rmD (v.f 23 3)) (gridDraws v.cvtS.rows v.cvtS.cols)

/-- EMAX of Table 02-7. -/
def scaleEmax (f : Fmt) (sgn : Bool) : Int :=
  match f with
  | .e4m3 => 8
  | .e5m2 => 15
  | .e3m2 => 4
  | .i8 => if sgn then 6 else 7
  | .i4 => if sgn then 2 else 3
  | _ => 2
/-- The largest non-NaN magnitude of a block: none for an infinite one (R77). -/
def blockMax (xs : List Num) : Option Q :=
  if xs.any Num.isInf then none
  else some (xs.foldl (fun m x => match x with | .fin q => (if m.cmp q.abs = .lt then q.abs else m) | _ => m) (Q.zero false))
/-- The scale byte chosen for a block, and the flags of choosing it (R77, R80). -/
def autoScale (d : Desc) (xs : List Num) : Nat × Flags :=
  match blockMax xs with
  | none => if d.fmt = .e2m1 then (0x7E, fClamped) else (254, fClamped)
  | some q =>
    let m := q.div d.coarseQ
    if d.fmt = .e2m1 then
      if m.n = 0 then (0x38, fNone)
      else
        let s := m.div ⟨false, 6, 1, 0⟩
        if s.cmp ⟨false, 1, 1, -9⟩ = .lt then (0x01, fClamped)
        else if s.cmp ⟨false, 448, 1, 0⟩ = .gt then (0x7E, fClamped)
        else let r := convert .e4m3 true .rup false 0 (.fin s); (r.bits, r.flags)
    else if m.n = 0 then (127, fNone)
    else
      let e : Int := m.log2 - scaleEmax d.fmt d.sgn + 127
      if e < 0 then (0, fClamped) else if 254 < e then (254, fClamped) else (e.toNat, fNone)

/-- The running maximum over source magnitudes, each rounded toward +∞ to binary32 (R78). -/
def cvtMax (old : Word) (xs : List Num) (saturated : Bool) : Word × Flags :=
  let m := xs.foldl (fun (a : FV) x =>
    if x.isNan then a
    else
      let y : FV := FV.of .b32 .rup 0 [] { v := x.abs }
      FV.of .b32 .rne 0 [a, y] (numMaxMin true (a.num .b32) (y.num .b32))) ({ bits := old.toNat % 2 ^ 32 } : FV)
  (BitVec.ofNat 64 (m.bits + (if old.getLsbD 32 || xs.any Num.isNan then 2 ^ 32 else 0) +
    (if old.getLsbD 33 || saturated then 2 ^ 33 else 0)), m.flags)

def effCvt (v : View) : Effect :=
  let a := v.cvtS
  let b := v.cvtD
  let rm := v.rmD (v.f 23 3)
  let vals := (upto a.rows).map (fun r => (upto a.cols).map (fun c => v.value a r c))
  let blk := b.fmt.block
  let scales : List (List (Nat × Flags)) := if v.cvtAuto then
      vals.map (fun row => (upto b.scaleRow).map (fun k => autoScale b ((row.drop (k * blk)).take blk))) else []
  let es : List Elem := (grid a.rows a.cols).map (fun rc =>
    let x := (vals.getD rc.1 []).getD rc.2 .canon
    let rnd := v.rnd rm a.cols rc.1 rc.2
    ⟨rc.1, rc.2, v.elem a rc.1 rc.2,
      if v.cvtAuto then encodeTo b (scaleQ b.fmt (((scales.getD rc.1 []).getD (rc.2 / blk) (0, 0)).1)) rm (v.bit 26) rnd x
      else v.encodeAt b rc.1 rc.2 rm (v.bit 26) rnd x⟩)
  let fl := elemFlags es
  let (sd, mf) := cvtMax (v.sr (v.f 28 6)) vals.flatten (es.any (fun e => e.r.flags &&& fSaturated != 0))
  let scaleMem : List MemWrite := (upto scales.length).map (fun r =>
    let (l, addr) := v.locate b.space (b.scaleBase + r * b.scaleRow)
    ⟨l, addr, (scales.getD r []).map (fun s => BitVec.ofNat 8 s.1)⟩)
  { s := [(v.f 28 6, sd)]
    mem := v.storeElems b a.rows 0 a.cols es ++ scaleMem
    flags := fl ||| mf ||| scales.foldl (fun a row => row.foldl (fun a s => a ||| s.2) a) 0
    nan := firstNan es
    posts := strictPost es ++ memPosts (memCvt v) ++ dronePost (v.hidden a) }

/-! ## The vector opcodes together -/

def judgeVec (v : View) : List Cause :=
  if v.op ≤ 0x1B ∨ v.op = 0x24 then viewCause v ++ v.rmCause (v.f 37 3)
  else if v.op = 0x60 then judgeCvt v
  else if v.op ≤ 0x21 then judgeLdSt v
  else judgeMask v
def memVec (v : View) : List MemCause :=
  if v.op = 0x60 then memCvt v else if v.op = 0x20 ∨ v.op = 0x21 then memLdSt v else []
def drawsVec (v : View) : List Nat :=
  if v.op ≤ 0x1B then (if vecRounds v then drawsIf (v.rmD (v.f 37 3)) (gridDraws 1 v.viewN) else [])
  else if v.op = 0x60 then drawsCvt v
  else if v.op = 0x20 ∨ v.op = 0x21 then drawsLdSt v
  else []
def effVec (v : View) : Effect :=
  if v.op = 0x07 then vecCmp v
  else if v.op ≤ 0x1B then vecArith v
  else if v.op = 0x20 then effVld v
  else if v.op = 0x21 then effVst v
  else if v.op = 0x22 then effVmpack v
  else if v.op = 0x23 then effVmload v
  else if v.op = 0x24 then vecSel v
  else effCvt v

end Sys2Proof.Machine
end

