-- ==== Sys2Proof/Machine/RowOps.lean ====
section
/-! DEFINITION. The row engine (04 R114 to R121; 06 R190): side-memory records, normalisation, softmax, top-k. -/
namespace Sys2Proof.Machine

def isRowOp (op : Nat) : Bool := (decide (0x70 ≤ op) && decide (op ≤ 0x7B)) || (decide (0x80 ≤ op) && decide (op ≤ 0x85))
def assignedRow (op : Nat) : Option (List (Nat × Nat)) := if isRowOp op then some [(13, 47)] else none

/-! ## Fields (Table 06-10) -/

def View.rTs (v : View) : Nat := v.f 13 5
def View.rTd (v : View) : Nat := v.f 19 5
def View.rTile (v : View) : Bool := v.bit 18
def View.rBase (v : View) : Nat := v.f 24 12
def View.rSp (v : View) : Word := v.sr (v.f 36 6)
/-- The low word of SP: eps or BETA. -/
def View.rSpLo (v : View) : Nat := (v.rSp).toNat % 2 ^ 32
def View.rM (v : View) : Nat := v.f 51 7 + 1
def View.rRms (v : View) : Bool := v.bit 58
def View.rXout (v : View) : Bool := v.bit 59
def View.rVs (v : View) : Nat := v.f 45 6 / 4 * 4
/-- N: columns of the source, or of TD when the source is a tile (R190). -/
def View.rN (v : View) : Nat := if v.rTile then (v.desc v.rTd).cols else (v.desc v.rTs).cols

/-- What an operation reads and writes besides its records. -/
def rowReadsX (op : Nat) : Bool := [0x70, 0x72, 0x73, 0x75, 0x77, 0x80, 0x82, 0x83, 0x85].contains op
def rowReadsDy (op : Nat) : Bool := [0x80, 0x82, 0x83, 0x85].contains op
/-- Rows of TS + 2 read: gain, and bias for a layer norm's APPLY. -/
def rowGain (v : View) : Nat :=
  if v.op = 0x72 then (if v.rRms then 1 else 2) else if v.op = 0x80 ∨ v.op = 0x82 then 1 else 0
def rowOutputs (op : Nat) : Bool := [0x72, 0x75, 0x82, 0x85].contains op
def rowTwo (v : View) : Bool := v.rXout && (v.op == 0x72 || v.op == 0x82)

/-! ## Records (Table 04-4) -/

structure SideRec where
  sumA : Nat
  sumB : Nat
  stat0 : Nat
  stat1 : Nat
  count : Nat
  kind : Nat
  phase : Nat
  k : Nat
  filled : Nat
deriving DecidableEq, Repr

def SideRec.of (w : BitVec 256) : SideRec :=
  ⟨fld w 0 64, fld w 64 64, fld w 128 32, fld w 160 32, fld w 192 32, fld w 224 8, fld w 232 4, fld w 236 8, fld w 244 8⟩
def SideRec.bits (r : SideRec) : BitVec 256 :=
  BitVec.ofNat 256 (r.sumA + r.sumB * 2 ^ 64 + r.stat0 * 2 ^ 128 + r.stat1 * 2 ^ 160 + (r.count % 2 ^ 32) * 2 ^ 192 +
    r.kind * 2 ^ 224 + r.phase * 2 ^ 232 + r.k * 2 ^ 236 + r.filled * 2 ^ 244)
def View.side (v : View) (n : Nat) : SideRec := SideRec.of (mapGet 0 v.core.side n)
/-- A record before its first accumulation. -/
def SideRec.fresh (kind : Nat) : SideRec := ⟨0, 0, if kind = 3 then negInf32 else 0, 0, 0, kind, 0, 0, 0⟩

/-- K of the operation: an operand of TOPK_INIT, the header of the first row otherwise. -/
def View.rK (v : View) : Nat := if v.op = 0x76 then fld v.rSp 32 8 else (v.side v.rBase).k
def isTopk (op : Nat) : Bool := op == 0x76 || op == 0x77 || op == 0x78
/-- Records per row, and the first record of row i (R114). -/
def View.rStep (v : View) : Nat := if isTopk v.op then 1 + ceilDiv v.rK 3 else 1
def View.rRec (v : View) (i : Nat) : Nat := v.rBase + i * v.rStep

/-- Record states required (Table 04-5); entry records of TOPK_INIT are tested beside. -/
def rowState (v : View) (r : SideRec) : Bool :=
  let norm := decide (r.kind = 1) || decide (r.kind = 2)
  match v.op with
  | 0x70 => decide (r.kind = 0) || (decide (r.kind = if v.rRms then 2 else 1) && decide (r.phase = 0))
  | 0x71 => norm && decide (r.phase = 0) && decide (0 < r.count)
  | 0x72 => norm && decide (r.phase = 1)
  | 0x80 => norm && (decide (r.phase = 1) || decide (r.phase = 2))
  | 0x81 => norm && decide (r.phase = 2)
  | 0x82 => norm && decide (r.phase = 3)
  | 0x73 => decide (r.kind = 0) || (decide (r.kind = 3) && decide (r.phase = 0) && decide (r.count = v.rSpLo))
  | 0x74 => decide (r.kind = 3) && decide (r.phase = 0)
  | 0x75 => decide (r.kind = 3) && decide (r.phase = 1)
  | 0x83 => decide (r.kind = 3) && (decide (r.phase = 1) || decide (r.phase = 2))
  | 0x84 => decide (r.kind = 3) && decide (r.phase = 2)
  | 0x85 => decide (r.kind = 3) && decide (r.phase = 3)
  | 0x76 => decide (r.kind = 0)
  | 0x77 => decide (r.kind = 4) && decide (r.count = v.rSpLo)
  | 0x78 => decide (r.kind = 4)
  | 0x79 => true
  | _ => decide (r.kind ≠ 5)
/-- The first record whose state an operation does not take. -/
def rowStateCause (v : View) : List Cause :=
  let recs := if v.op = 0x76 then upto (v.rM * v.rStep) else (upto v.rM).map (fun i => i * v.rStep)
  match recs.find? (fun n => !rowState v (v.side (v.rBase + n))) with
  | some n => [(0x2105, v.rBase + n)]
  | none => []

/-! ## Judgement -/

/-- Rows and columns an operation touches of a tensor (05 R138). -/
def View.rowsRange (v : View) (d : Desc) (rows cols : Nat) (write : Bool) : List Cause :=
  v.rangeCause d.space d.base (spanBytes rows (rowBytes d.fmt cols) d.stride) write ++
  (if d.fine then v.rangeCause d.space d.scaleBase (spanBytes rows (ceilDiv cols d.fmt.block) d.scaleRow) false else [])
/-- A tensor operand in td n: shape, format, coarse scale, range; a number past td31 is R175's. -/
def View.rowTensor (v : View) (n base rows cols : Nat) (write : Bool) (want : Option Nat) : List Cause :=
  if 31 < n then [(0x2104, base)]
  else
    let d := v.desc n
    let sh := descShape n d true
    sh ++ coarseCause d ++ (if sh = [] then v.rowsRange d rows cols write else []) ++
    (match want with | some f => causeIf (d.fmtc ≠ f && (Fmt.ofCode d.fmtc).isSome) (0x7001, d.fmtc) | none => [])
/-- A descriptor that names bytes only. -/
def View.rowBytesAt (v : View) (n bytes : Nat) (write : Bool) : List Cause :=
  let d := v.desc n
  let sh := descShape n d true
  sh ++ coarseCause d ++ (if sh = [] then v.rangeCause d.space d.base bytes write else [])
/-- The records that STATLOAD finds in memory and may not load (R117): made only where the descriptor can be used (05
R529). -/
def loadFaults (v : View) : List MemCause :=
  let d := v.desc v.rTs
  let m := v.rM
  if descShape v.rTs d true = [] ∧ v.rangeCause d.space d.base (spanBytes m 32 d.stride) false = [] then
    (upto m).filterMap (fun i =>
      let (l, a) := v.rowAt d i
      let r := SideRec.of (BitVec.ofNat 256 (v.nat l a 32))
      if 5 < r.kind ∨ 3 < r.phase then some ⟨0x2105, v.rBase + i, i, 0⟩ else none)
  else []

def judgeRow (v : View) : List Cause :=
  let m := v.rM
  let n := v.rN
  let usesN := rowReadsX v.op
  let last := v.rBase + m * v.rStep
  v.rmCause (v.f 42 3) ++
  (if v.op = 0x76 && (decide (v.rK = 0) || decide (128 < v.rK)) then [(0x2104, v.rK)]
   else if 4096 < last then [(0x2104, 4096)]
   else causeIf (decide (v.decl.side < last)) (0x2109, max v.rBase v.decl.side) ++ rowStateCause v) ++
  (if usesN then
    (if v.rTile then tileSourceCause v (v.f 13 4) ++ (if rowOutputs v.op then [] else descShape v.rTd (v.desc v.rTd) true)
     else v.rowTensor v.rTs v.rTs m n false none) ++
    causeIf (decide (128 < n)) (0x2104, n) else []) ++
  (if rowReadsDy v.op then v.rowTensor (v.rTs + 1) v.rTs m n false none else []) ++
  (if rowGain v = 0 then [] else v.rowTensor (v.rTs + 2) v.rTs (rowGain v) n false (some 1)) ++
  (if rowOutputs v.op then v.rowTensor v.rTd v.rTd m n true none else []) ++
  (if rowTwo v then v.rowTensor (v.rTd + 1) v.rTd m n true none else []) ++
  (if v.op = 0x77 then
    let cb := fld v.rSp 32 32
    causeIf (decide (262144 < cb + n)) (0x2104, cb + n) else []) ++
  (if v.op = 0x78 then v.rowBytesAt v.rTd (m * (8 * v.rK + 8)) true else []) ++
  (if v.op = 0x7A then v.rowBytesAt v.rTd (spanBytes m 32 (v.desc v.rTd).stride) true else []) ++
  (if v.op = 0x7B then v.rowBytesAt v.rTs (spanBytes m 32 (v.desc v.rTs).stride) false else [])

def memRow (v : View) : List MemCause :=
  let m := v.rM
  let n := v.rN
  (if rowReadsX v.op && !v.rTile then v.scaleFaults (v.desc v.rTs) 0 m 0 n else []) ++
  (if rowReadsDy v.op then v.scaleFaults (v.desc (v.rTs + 1)) 0 m 0 n else []) ++
  (if rowOutputs v.op then v.scaleFaults (v.desc v.rTd) 0 m 0 n else []) ++
  (if rowTwo v then v.scaleFaults (v.desc (v.rTd + 1)) 0 m 0 n else []) ++
  (if v.op = 0x7B then loadFaults v else [])
def drawsRow (v : View) : List Nat :=
  if rowOutputs v.op then drawsIf (v.rmD (v.f 42 3)) (gridDraws v.rM v.rN) else []

/-! ## Elements -/

def FV.ofNum (x : Num) : FV := let r := convert .b32 true .rne false 0 x; { bits := r.bits, flags := r.flags, produced := r.produced }
/-- x of row i, in binary32. -/
def View.rowX (v : View) (i : Nat) : List FV :=
  (upto v.rN).map (fun j =>
    if v.rTile then .ofNum (v.tileNum (v.f 13 4) i j).1 else .ofNum (v.value (v.desc v.rTs) i j))
def View.rowDy (v : View) (i : Nat) : List FV := (upto v.rN).map (fun j => .ofNum (v.value (v.desc (v.rTs + 1)) i j))
/-- Gain (row 0) and bias (row 1) of TS + 2. -/
def View.rowG (v : View) (r j : Nat) : FV := .ofNum (v.value (v.desc (v.rTs + 2)) r j)

/-- What one row gives: its record, its outputs, the flags and the first column that produced a NaN. -/
structure RowRes where
  rcd : SideRec
  out : List FV := []
  out2 : List FV := []
  flags : Flags := 0
  nan : Option Nat := none

def fvFlags (l : List FV) : Flags := l.foldl (fun a y => a ||| y.flags) 0
def fvNan (l : List FV) : Option Nat := firstIdx (fun y : FV => y.produced) l 0
def firstOf : Option Nat → Option Nat → Option Nat
  | some a, some b => some (min a b)
  | some a, none => some a
  | none, b => b
def clean (x : FV) : FV := { x with produced := false }

/-- A running sum, with the first index at which it produced a NaN. -/
def accumulate (step : FV → FV → FV) : List FV → Nat → FV → Option Nat → FV × Option Nat
  | [], _, a, n => (a, n)
  | y :: ys, j, a, n =>
    let b := step (clean a) y
    accumulate step ys (j + 1) b (match n with | some k => some k | none => if b.produced then some j else none)

/-! ## Normalisation (R118) -/

def normAccRow (v : View) (i : Nat) : RowRes :=
  let old := v.side (v.rRec i)
  let r := if old.kind = 0 then SideRec.fresh (if v.rRms then 2 else 1) else old
  let xs := v.rowX i
  let (a, na) := accumulate (fun s x => add64 s (f32to64 x)) xs 0 { bits := r.sumA } none
  let (b, nb) := accumulate (fun s x => fma64 (f32to64 x) (f32to64 x) s) xs 0 { bits := r.sumB } none
  { rcd := { r with sumA := a.bits, sumB := b.bits, count := (r.count + v.rN) % 2 ^ 32 }, flags := a.flags ||| b.flags,
    nan := firstOf na nb }

def normFinRow (v : View) (i : Nat) : RowRes :=
  let r := v.side (v.rRec i)
  let n := fOfNat .b64 r.count
  let eps := f32to64 { bits := v.rSpLo }
  let mean := if v.rRms then ({ bits := 0 } : FV) else div64 { bits := r.sumA } n
  let mb := div64 { bits := r.sumB } n
  let var := if v.rRms then mb else max64 (sub64 mb (mul64 mean mean)) { bits := 0 }
  let m := f64to32 mean
  let rstd := f64to32 (div64 (fOfNat .b64 1) (sqrt64 (add64 var eps)))
  { rcd := { r with stat0 := m.bits, stat1 := rstd.bits, phase := 1 }, flags := m.flags ||| rstd.flags,
    nan := if m.produced || rstd.produced then some 0 else none }

/-- xh of each column, recomputed from the record. -/
def normXh (v : View) (r : SideRec) (i : Nat) : List FV :=
  let mean : FV := { bits := if v.rRms then 0 else r.stat0 }
  (v.rowX i).map (fun x => mul32 (sub32 x mean) { bits := r.stat1 })

def normApplyRow (v : View) (i : Nat) : RowRes :=
  let r := v.side (v.rRec i)
  let xh := normXh v r i
  let out := (upto v.rN).map (fun j =>
    fma32 (xh.getD j { bits := 0 }) (v.rowG 0 j) (if v.rRms then { bits := 0 } else v.rowG 1 j))
  { rcd := r, out := out, out2 := xh, flags := fvFlags out, nan := fvNan out }

/-- gy := r32(dy × g). -/
def normGy (v : View) (i : Nat) : List FV :=
  (upto v.rN).map (fun j => mul32 ((v.rowDy i).getD j { bits := 0 }) (v.rowG 0 j))
def fma64of32 (s : FV) (a b : FV) : FV := fma64 (f32to64 a) (f32to64 b) s

def normBaccRow (v : View) (i : Nat) : RowRes :=
  let old := v.side (v.rRec i)
  let r := if old.phase = 1 then { old with sumA := 0, sumB := 0 } else old
  let xh := normXh v r i
  let gy := normGy v i
  let (a, na) := accumulate (fun s y => add64 s (f32to64 y)) gy 0 { bits := r.sumA } none
  let (b, nb) := (upto v.rN).foldl (fun (st : FV × Option Nat) j =>
    let y := fma64of32 (clean st.1) (gy.getD j { bits := 0 }) (xh.getD j { bits := 0 })
    (y, match st.2 with | some k => some k | none => if y.produced then some j else none)) (({ bits := r.sumB } : FV), none)
  { rcd := { r with sumA := a.bits, sumB := b.bits, phase := 2 }, flags := a.flags ||| b.flags, nan := firstOf na nb }

/-- r32 of an exact binary64 quotient. -/
def quotient32 (a : Nat) (n : Nat) : FV :=
  FV.of .b32 .rne 0 [] (numDiv (decodeFloat .b64 a) (.fin ⟨false, n, 1, 0⟩))
def normBfinRow (v : View) (i : Nat) : RowRes :=
  let r := v.side (v.rRec i)
  let a := if v.rRms then ({ bits := 0 } : FV) else quotient32 r.sumA r.count
  let b := quotient32 r.sumB r.count
  { rcd := { r with sumA := a.bits, sumB := b.bits, phase := 3 }, flags := a.flags ||| b.flags,
    nan := if a.produced || b.produced then some 0 else none }

def normBapplyRow (v : View) (i : Nat) : RowRes :=
  let r := v.side (v.rRec i)
  let xh := normXh v r i
  let gy := normGy v i
  let am : FV := { bits := if v.rRms then 0 else r.sumA % 2 ^ 32 }
  let bm : FV := { bits := r.sumB % 2 ^ 32 }
  let out := (upto v.rN).map (fun j =>
    let t := sub32 (gy.getD j { bits := 0 }) am
    mul32 (fma32 (neg32 (xh.getD j { bits := 0 })) bm t) { bits := r.stat1 })
  let out2 := if rowTwo v then (upto v.rN).map (fun j => mul32 ((v.rowDy i).getD j { bits := 0 }) (xh.getD j { bits := 0 })) else []
  { rcd := r, out := out, out2 := out2, flags := fvFlags out ||| fvFlags out2, nan := firstOf (fvNan out) (fvNan out2) }

/-! ## Softmax (R119) -/

def View.betaMul (beta : Nat) (xs : List FV) : List FV := xs.map (fun x => mul32 { bits := beta } x)

def smaxAccRow (v : View) (i : Nat) : RowRes :=
  let old := v.side (v.rRec i)
  let r := if old.kind = 0 then { SideRec.fresh 3 with count := v.rSpLo } else old
  let st := rowStat r.stat0 r.stat1 (View.betaMul v.rSpLo (v.rowX i))
  { rcd := { r with stat0 := st.m, stat1 := st.s }, flags := st.flags, nan := st.nan }
def smaxFinRow (v : View) (i : Nat) : RowRes :=
  let r := v.side (v.rRec i)
  let lse := add32 { bits := r.stat0 } (log32 { bits := r.stat1 })
  { rcd := { r with stat0 := lse.bits, phase := 1 }, flags := lse.flags, nan := if lse.produced then some 0 else none }
/-- p := EXP(r32(y − LSE)) of each column. -/
def smaxP (v : View) (r : SideRec) (i : Nat) : List FV :=
  (View.betaMul r.count (v.rowX i)).map (fun y => exp32 (sub32 y { bits := r.stat0 }))
def smaxApplyRow (v : View) (i : Nat) : RowRes :=
  let r := v.side (v.rRec i)
  let p := smaxP v r i
  { rcd := r, out := p, flags := fvFlags p, nan := fvNan p }
def smaxBaccRow (v : View) (i : Nat) : RowRes :=
  let old := v.side (v.rRec i)
  let r := if old.phase = 1 then { old with sumA := 0 } else old
  let p := smaxP v r i
  let dy := v.rowDy i
  let (a, n) := (upto v.rN).foldl (fun (st : FV × Option Nat) j =>
    let y := fma64of32 (clean st.1) (dy.getD j { bits := 0 }) (p.getD j { bits := 0 })
    (y, match st.2 with | some k => some k | none => if y.produced then some j else none)) (({ bits := r.sumA } : FV), none)
  { rcd := { r with sumA := a.bits, phase := 2 }, flags := a.flags, nan := n }
def smaxBfinRow (v : View) (i : Nat) : RowRes :=
  let r := v.side (v.rRec i)
  let a := f64to32 { bits := r.sumA }
  { rcd := { r with sumA := a.bits, phase := 3 }, flags := a.flags }
def smaxBapplyRow (v : View) (i : Nat) : RowRes :=
  let r := v.side (v.rRec i)
  let p := smaxP v r i
  let dy := v.rowDy i
  let out := (upto v.rN).map (fun j =>
    mul32 (mul32 (p.getD j { bits := 0 }) (sub32 (dy.getD j { bits := 0 }) { bits := r.sumA % 2 ^ 32 })) { bits := v.rSpLo })
  { rcd := r, out := out, flags := fvFlags out, nan := fvNan out }

/-! ## Top-k (R120, R121) -/

structure TopEntry where
  val : Nat
  idx : Nat
deriving DecidableEq, Repr

def noIndex : Nat := 2 ^ 32 - 1
def emptyEntry : TopEntry := ⟨negInf32, noIndex⟩
/-- Entry a ranks above entry b. -/
def TopEntry.above (a b : TopEntry) : Bool :=
  if a.idx = noIndex then false
  else if b.idx = noIndex then true
  else match numCmp (decodeFloat .b32 a.val) (decodeFloat .b32 b.val) with
    | some .gt => true
    | some .eq => decide (a.idx < b.idx)
    | _ => false
/-- Put an entry into a list in descending rank. -/
def rankIn (e : TopEntry) : List TopEntry → List TopEntry
  | [] => [e]
  | x :: xs => if e.above x then e :: x :: xs else x :: rankIn e xs
/-- The k highest-ranked entries of two lists, in descending rank. -/
def topOf (k : Nat) (old new : List TopEntry) : List TopEntry :=
  new.foldl (fun l e => (rankIn e l).take k) (old.foldl (fun l e => rankIn e l) [])

/-- The k entries after header record h. -/
def View.entries (v : View) (h k : Nat) : List TopEntry :=
  (upto k).map (fun t =>
    let w := fld (mapGet 0 v.core.side (h + 1 + t / 3)) (64 * (t % 3)) 64
    ⟨w % 2 ^ 32, w / 2 ^ 32⟩)
/-- The entry records that hold a list of entries. -/
def TopEntry.bits (e : TopEntry) : Nat := e.val + e.idx * 2 ^ 32
/-- A header with its list: entry 0 stands in its SUM_A as well (Table 04-4), and FILLED counts the entries in use. -/
def headerOf (r : SideRec) (l : List TopEntry) : SideRec :=
  { r with sumA := (l.getD 0 emptyEntry).bits, filled := (l.filter (fun e => decide (e.idx ≠ noIndex))).length % 256 }
def entryRecs (h : Nat) (k : Nat) (es : List TopEntry) : List (Nat × BitVec 256) :=
  (upto (ceilDiv k 3)).map (fun n =>
    let w (t : Nat) : Nat := (es.getD (3 * n + t) emptyEntry).bits
    (h + 1 + n, BitVec.ofNat 256 (w 0 + w 1 * 2 ^ 64 + w 2 * 2 ^ 128 + 5 * 2 ^ 224)))

def topkInit (v : View) : Effect :=
  { side := (upto v.rM).flatMap (fun i =>
      (v.rRec i, (headerOf { SideRec.fresh 4 with count := v.rSpLo, k := v.rK } []).bits) :: entryRecs (v.rRec i) v.rK []) }

def topkMerge (v : View) : Effect :=
  let rows := (upto v.rM).map (fun i =>
    let ys := View.betaMul v.rSpLo (v.rowX i)
    let cands := (upto v.rN).filterMap (fun j =>
      let y := ys.getD j { bits := 0 }
      if (y.num .b32).isNan then none else some (⟨y.bits, fld v.rSp 32 32 + j⟩ : TopEntry))
    let l := topOf v.rK (v.entries (v.rRec i) v.rK) cands
    ((v.rRec i, (headerOf (v.side (v.rRec i)) l).bits) :: entryRecs (v.rRec i) v.rK l, fvFlags ys, fvNan ys))
  { side := rows.flatMap (fun r => r.1)
    flags := rows.foldl (fun a r => a ||| r.2.1) 0
    nan := minNan ((upto rows.length).filterMap (fun i => match rows[i]? with
      | some r => r.2.2.map (fun j => ⟨i, j, 0, 0⟩)
      | none => none))
    posts := memPosts (memRow v) ++ (if v.rTile then [] else dronePost (v.hidden (v.desc v.rTs))) }

/-- One row of TOPK_EMIT: its bytes, flags and whether it produced a NaN. -/
def emitRow (v : View) (i : Nat) : List Byte × Flags × Bool :=
  let k := v.rK
  let es := v.entries (v.rRec i) k
  let lse := add32 { bits := statM v.i.regs v.rVs i } (log32 { bits := statS v.i.regs v.rVs i })
  let idx := es.flatMap (fun e => leBytes 4 e.idx)
  match lse.num .b32 with
  | .fin _ =>
    let logp := es.map (fun e => sub32 { bits := e.val } { bits := lse.bits })
    let tail := logp.foldl (fun t l => sub32 t (exp32 l)) one32
    let tail' := max32 tail { bits := 0 }
    (idx ++ logp.flatMap (fun l => leBytes 4 l.bits) ++ leBytes 4 tail'.bits ++ leBytes 4 lse.bits,
      lse.flags ||| tail'.flags ||| fvFlags logp, false)
  | _ => (idx ++ (upto (k + 1)).flatMap (fun _ => leBytes 4 0x7FC00000) ++ leBytes 4 lse.bits, lse.flags ||| fInvalid, true)
def topkEmit (v : View) : Effect :=
  let d := v.desc v.rTd
  let (l, a) := v.locate d.space d.base
  let rows := (upto v.rM).map (emitRow v)
  { mem := [⟨l, a, rows.flatMap (fun r => r.1)⟩]
    side := (upto (v.rM * v.rStep)).map (fun n => (v.rBase + n, 0))
    flags := rows.foldl (fun x r => x ||| r.2.1) 0
    nan := (firstIdx (fun r : List Byte × Flags × Bool => r.2.2) rows 0).map (fun i => ⟨i, 0, 0, 0⟩) }

/-! ## Saving and clearing (R116, R117) -/

def rowClear (v : View) : Effect := { side := (upto v.rM).map (fun i => (v.rBase + i, 0)) }
def rowSave (v : View) : Effect :=
  let d := v.desc v.rTd
  { mem := (upto v.rM).map (fun i =>
      let (l, a) := v.rowAt d i
      ⟨l, a, leBytes 32 (mapGet 0 v.core.side (v.rBase + i)).toNat⟩) }
def rowLoad (v : View) : Effect :=
  let d := v.desc v.rTs
  let bad := loadFaults v
  { side := if bad ≠ [] then [] else (upto v.rM).map (fun i =>
      let (l, a) := v.rowAt d i
      (v.rBase + i, BitVec.ofNat 256 (v.nat l a 32 % 2 ^ 252)))
    posts := memPosts bad ++ dronePost (v.hidden d) }

/-! ## One row operation -/

def rowRes (v : View) (i : Nat) : RowRes :=
  match v.op with
  | 0x70 => normAccRow v i
  | 0x71 => normFinRow v i
  | 0x72 => normApplyRow v i
  | 0x73 => smaxAccRow v i
  | 0x74 => smaxFinRow v i
  | 0x75 => smaxApplyRow v i
  | 0x80 => normBaccRow v i
  | 0x81 => normBfinRow v i
  | 0x82 => normBapplyRow v i
  | 0x83 => smaxBaccRow v i
  | 0x84 => smaxBfinRow v i
  | _ => smaxBapplyRow v i

/-- The sums a row operation accumulates into its record. -/
def rowSums (op : Nat) (r : SideRec) : SideRec :=
  if op = 0x70 ∨ op = 0x80 then { r with sumA := 0, sumB := 0 }
  else if op = 0x73 then { r with stat0 := 0, stat1 := 0 }
  else if op = 0x83 then { r with sumA := 0 } else r
/-- What invalid fine scales met during execution leave of a row (05 R531): an output of a faulty column is a zero of its
source's sign, and the sums that a faulty column enters are zero. -/
def rowFaulty (v : View) (i : Nat) (r : RowRes) : RowRes :=
  let bad (j : Nat) : Bool := (rowReadsX v.op && !v.rTile && !v.fineOk (v.desc v.rTs) i j) ||
    (rowReadsDy v.op && !v.fineOk (v.desc (v.rTs + 1)) i j)
  if (upto v.rN).any bad then
    let xs := v.rowX i
    let zero (l : List FV) : List FV := (upto l.length).map (fun j =>
      if bad j then { bits := if (xs.getD j { bits := 0 }).bits.testBit 31 then 2 ^ 31 else 0 } else l.getD j { bits := 0 })
    { r with rcd := rowSums v.op r.rcd, out := zero r.out, out2 := zero r.out2 }
  else r

/-- Outputs of the rows written in their destination's format (R53, R118). -/
def View.rowOut (v : View) (td : Nat) (outs : List (List FV)) : List Elem :=
  let d := v.desc td
  let rm := v.rmD (v.f 42 3)
  (grid v.rM v.rN).map (fun ij =>
    let x := (outs.getD ij.1 []).getD ij.2 { bits := 0 }
    ⟨ij.1, ij.2, x.bits, v.encodeAt d ij.1 ij.2 rm false (v.rnd rm v.rN ij.1 ij.2) (x.num .b32)⟩)

def rowMath (v : View) : Effect :=
  let rows := (upto v.rM).map (fun i => rowFaulty v i (rowRes v i))
  let es := if rowOutputs v.op then v.rowOut v.rTd (rows.map (fun r => r.out)) else []
  let es2 := if rowTwo v then v.rowOut (v.rTd + 1) (rows.map (fun r => r.out2)) else []
  let nans := (upto rows.length).filterMap (fun i => match rows[i]? with
    | some r => r.nan.map (fun j => (⟨i, j, 0, 0⟩ : NanPos))
    | none => none)
  { side := (upto rows.length).filterMap (fun i => (rows[i]?).map (fun r => (v.rRec i, r.rcd.bits)))
    mem := v.storeElems (v.desc v.rTd) v.rM 0 v.rN es ++ v.storeElems (v.desc (v.rTd + 1)) v.rM 0 v.rN es2
    flags := rows.foldl (fun a r => a ||| r.flags) 0 ||| elemFlags es ||| elemFlags es2
    nan := minNan (nans ++ (firstNan es).toList ++ (firstNan es2).toList)
    posts := memPosts (memRow v) ++
      dronePost ((rowReadsX v.op && !v.rTile && v.hidden (v.desc v.rTs)) ||
        (rowReadsDy v.op && v.hidden (v.desc (v.rTs + 1))) ||
        (decide (0 < rowGain v) && v.hidden (v.desc (v.rTs + 2)))) }

def effRow (v : View) : Effect :=
  match v.op with
  | 0x76 => topkInit v
  | 0x77 => topkMerge v
  | 0x78 => topkEmit v
  | 0x79 => rowClear v
  | 0x7A => rowSave v
  | 0x7B => rowLoad v
  | _ => rowMath v

end Sys2Proof.Machine
end

