-- ==== Sys2Proof/Machine/GatherOps.lean ====
section
/-! DEFINITION. The gather engine: GATH, SCAT and SEGR (04 R123 to R128; 06 R191), in list order. -/
namespace Sys2Proof.Machine

/-- Operand bits; a combine mode an opcode does not take is not assigned (R174, R191). -/
def assignedGath (op : Nat) (word : Word) : Option (List (Nat × Nat)) :=
  let cmb := fld word 31 3
  if op < 0x90 ∨ 0x92 < op ∨ 5 ≤ cmb ∨ (op = 0x92 ∧ cmb = 0) ∨ (op ≠ 0x92 ∧ cmb = 4) then none else some [(13, 30)]

def View.gT (v : View) : Desc := v.desc (v.f 13 5)
def View.gI (v : View) : Desc := v.desc (v.f 18 5)
def View.gR (v : View) : Desc := v.desc (v.f 23 5)
def View.gOob (v : View) : Nat := v.f 29 2
def View.gCmb (v : View) : Nat := v.f 31 3
/-- Entries of the list, their bytes, and the padding value. -/
def View.gN (v : View) : Nat := v.gI.cols
def View.gW (v : View) : Nat := if v.bit 28 then 4 else 2
def View.gPad (v : View) : Nat := 2 ^ (8 * v.gW) - 1
def View.gIdx (v : View) (p : Nat) : Nat :=
  let (l, a) := v.locate v.gI.space v.gI.base
  v.nat l (a + v.gW * p) v.gW
def View.gList (v : View) : List Nat := (upto v.gN).map v.gIdx
def View.gB (v : View) : Nat := rowBytes v.gT.fmt v.gT.cols
/-- Rows an index may name: R of the table, or S output rows. -/
def View.gRows (v : View) : Nat := if v.op = 0x92 then v.gR.rows else v.gT.rows
/-- The operation combines elements arithmetically. -/
def View.gArith (v : View) : Bool := v.op == 0x92 || (v.op == 0x91 && decide (v.gCmb ≠ 0))

/-- Cycles counted at issue (R128). -/
def View.gCycles (v : View) : Nat :=
  if v.op = 0x91 ∧ v.gCmb ≠ 0 then v.gN else max (ceilDiv v.gN 64) (ceilDiv (v.gN * v.gB) 512)

/-- Formats that ADD, MAX, MIN, SUM and MEAN take (R126): the floating ones, and the integer codes, whose rows they read as
INT32 words (log entry 92). -/
def gathFmt (f : Fmt) : Bool := f == .b32 || f == .b16 || f == .bf16 || f.isInt
/-- The elements of a combined row, and their bytes. -/
def View.gElems (v : View) : Nat := if v.gT.fmt.isInt then v.gB / 4 else v.gT.cols
def View.gWidth (v : View) : Nat := if v.gT.fmt.isInt then 4 else v.gT.fmt.width / 8

/-- A descriptor of rows of bytes: shape, coarse scale, and its range over n rows, fine scales included. -/
def View.rowsOf (v : View) (td rows : Nat) (write : Bool) : List Cause :=
  let d := v.desc td
  let sh := descShape td d true
  sh ++ coarseCause d ++
  (if sh = [] then
    v.rangeCause d.space d.base (spanBytes rows (rowBytes d.fmt d.cols) d.stride) write ++
    (if d.fine then v.rangeCause d.space d.scaleBase (rows * d.scaleRow) false else [])
   else [])

def judgeGath (v : View) : List Cause :=
  let t := v.gT
  let i := v.gI
  let r := v.gR
  let known := (Fmt.ofCode t.fmtc).isSome
  let shI := descShape (v.f 18 5) i false
  let rb := rowBytes r.fmt r.cols
  v.rmCause (v.f 34 3) ++ causeIf (decide (v.gOob = 3)) (0x2104, 3) ++
  shI ++ (if shI = [] then v.rangeCause i.space i.base (v.gN * v.gW) false else []) ++
  v.rowsOf (v.f 13 5) (if v.op = 0x92 then v.gN else t.rows) (v.op == 0x91) ++
  v.rowsOf (v.f 23 5) (if v.op = 0x92 then r.rows else v.gN) (v.op != 0x91) ++
  (if known then
    causeIf (decide (v.gB % 4 ≠ 0) || decide (4096 < v.gB)) (0x2104, v.gB) ++
    causeIf ((Fmt.ofCode r.fmtc).isSome && decide (rb ≠ v.gB)) (0x2104, rb) ++
    causeIf (decide (8192 < v.gCycles)) (0x2103, v.gCycles) ++
    causeIf (v.gArith && (!gathFmt t.fmt || (t.fmt.isInt && (t.hasFine || t.hasCoarse || r.hasFine || r.hasCoarse))))
      (0x7001, t.fmtc)
   else [])

/-! ## Indices -/

/-- What an index means (R123, R124). -/
inductive Pick where
  | pad
  | row (r : Nat)
  | bad
deriving DecidableEq, Repr

def View.pick (v : View) (i : Nat) : Pick :=
  if i = v.gPad then .pad else if i < v.gRows then .row i else if v.gOob = 2 then .row (v.gRows - 1) else .bad
/-- The list's positions with what each names. -/
def View.picks (v : View) : List (Nat × Nat × Pick) :=
  let l := v.gList
  (upto l.length).map (fun p => (p, l.getD p 0, v.pick (l.getD p 0)))

/-- Positions whose non-padding id is below an earlier one (R127). -/
def outOfOrder (pad : Nat) : List Nat → Nat → Nat → List Nat
  | [], _, _ => []
  | i :: is, p, top =>
    if i = pad then outOfOrder pad is (p + 1) top
    else if i < top then p :: outOfOrder pad is (p + 1) top
    else outOfOrder pad is (p + 1) i
/-- Decreasing segment ids are a cause that rests on memory (05 R531); a list out of reach is not read (R529). -/
def memGath (v : View) : List MemCause :=
  if v.op = 0x92 && descShape (v.f 18 5) v.gI false = [] && v.rangeCause v.gI.space v.gI.base (v.gN * v.gW) false = [] then
    (outOfOrder v.gPad v.gList 0 0).map (fun p => ⟨0x2104, v.gIdx p, p, 0⟩)
  else []

/-- The trap after completion of the first out-of-range index under OOB = 0b00. -/
def oobPost (v : View) : List PostTrap :=
  if v.gOob = 0 then
    match v.picks.find? (fun e => decide (e.2.2 = .bad)) with
    | some e => [{ code := 0x2104, detail := e.2.1, row := e.1 }]
    | none => []
  else []
/-- Positions that round in SR mode (02 R62): a position of the list for every element combined, then one of each output
row for MEAN. INT32 elements round in MEAN's division alone. -/
def View.gListDraws (v : View) : Nat := if v.gT.fmt.isInt then 0 else v.gN
def drawsGath (v : View) : List Nat :=
  if v.gArith then
    drawsIf (v.rmD (v.f 34 3)) (gridDraws (v.gListDraws + if v.gCmb = 4 then v.gR.rows else 0) v.gElems)
  else []

/-! ## Rows -/

def View.rowRaw (v : View) (d : Desc) (r : Nat) : List Byte :=
  let (l, a) := v.rowAt d r
  v.bytes l a v.gB
def View.rowPut (v : View) (d : Desc) (r : Nat) (bs : List Byte) : MemWrite :=
  let (l, a) := v.rowAt d r
  ⟨l, a, bs⟩

/-- The value of bits under a descriptor's format and coarse scale, without fine scales. -/
def Desc.num (d : Desc) (bits : Nat) : Num := (decodeElem d.fmt d.sgn bits).scale d.coarseQ
/-- Elements of a row under the format of the table descriptor. -/
def View.rowElems (v : View) (d : Desc) (r : Nat) : List Nat :=
  let (l, a) := v.rowAt d r
  let w := v.gWidth
  (upto v.gElems).map (fun k => v.nat l (a + w * k) w)

/-- A combined element with its flags. -/
structure Mixed where
  bits : Nat
  flags : Flags := 0
  nan : Bool := false
/-- An INT32 word under a descriptor's SIGNED bit (02 R59). -/
def Desc.word (d : Desc) (bits : Nat) : Int := if d.sgn then signed 32 bits else (bits % 2 ^ 32 : Nat)
/-- A whole number into an INT32 word under SIGNED, saturating (R126). -/
def satWord (d : Desc) (i : Int) : Mixed :=
  let lo : Int := if d.sgn then -(2 ^ 31 : Nat) else 0
  let hi : Int := if d.sgn then (2 ^ 31 - 1 : Nat) else (2 ^ 32 - 1 : Nat)
  let y := max lo (min i hi)
  ⟨unsignedOf 32 y, fIf (decide (y ≠ i)) fSaturated, false⟩
/-- ADD, MAX or MIN of a value held under dst and a source value (R126). -/
def mix (dst src : Desc) (cmb : Nat) (rm : RM) (rnd : Nat) (a b : Nat) : Mixed :=
  if dst.fmt.isInt then
    let x := dst.word a
    let y := src.word b
    match cmb with
    | 2 => ⟨unsignedOf 32 (max x y), 0, false⟩
    | 3 => ⟨unsignedOf 32 (min x y), 0, false⟩
    | _ => satWord dst (x + y)
  else
    let x := dst.num a
    let y := src.num b
    let e := match cmb with
      | 2 => numMaxMin true x y
      | 3 => numMaxMin false x y
      | _ => numAdd rm x y
    let r := encodeTo dst ⟨false, 1, 1, 0⟩ rm false rnd e.v
    ⟨r.bits, e.flags ||| r.flags, e.produced || r.produced⟩
/-- A segment's first row as its output holds it. -/
def mixFirst (dst src : Desc) (rm : RM) (rnd : Nat) (b : Nat) : Mixed :=
  if dst.fmt.isInt then satWord dst (src.word b)
  else let e := encodeTo dst ⟨false, 1, 1, 0⟩ rm false rnd (src.num b); ⟨e.bits, e.flags, e.produced⟩
/-- MEAN's division by a count, rounded once (R127). -/
def mixMean (dst : Desc) (rm : RM) (rnd : Nat) (a n : Nat) : Mixed :=
  if dst.fmt.isInt then
    let x := dst.word a
    let (q, inex) := roundNat rm (decide (x < 0)) x.natAbs n rnd
    ⟨unsignedOf 32 (if x < 0 then -(q : Int) else q), fIf inex fInexact, false⟩
  else
    let e := numDiv (dst.num a) (.fin ⟨false, n, 1, 0⟩)
    let x := encodeTo dst ⟨false, 1, 1, 0⟩ rm false rnd e.v
    ⟨x.bits, e.flags ||| x.flags, x.produced⟩

/-- Rows under combination: their elements, and how many source rows each took. -/
structure MixRow where
  elems : List Nat
  count : Nat
deriving DecidableEq, Repr
structure MixState where
  rows : Map MixRow
  flags : Flags := 0
  nans : List NanPos := []

def MixRow.none : MixRow := ⟨[], 0⟩

/-- Combine one source row, at list position p, into row r. fresh gives the row before the first combination: the table's
elements for SCAT, nothing for SEGR. -/
def View.mixRow (v : View) (dst src : Desc) (fresh : Nat → Option (List Nat)) (st : MixState) (p r : Nat) : MixState :=
  let rm := v.rmD (v.f 34 3)
  let cmb := if v.gCmb = 4 then 1 else v.gCmb
  let have_ := mapGet MixRow.none st.rows r
  let old : Option (List Nat) := if have_.count = 0 then fresh r else some have_.elems
  let ys := v.rowElems src p
  let out : List Mixed := (upto v.gElems).map (fun k =>
    let rnd := if dst.fmt.isInt then 0 else v.rnd rm v.gElems p k
    match old with
    | some l => mix dst src cmb rm rnd (l.getD k 0) (ys.getD k 0)
    | none => mixFirst dst src rm rnd (ys.getD k 0))
  { rows := mapSet MixRow.none st.rows r ⟨out.map (fun m => m.bits), have_.count + 1⟩
    flags := out.foldl (fun a m => a ||| m.flags) st.flags
    nans := st.nans ++ ((firstIdx (fun m : Mixed => m.nan) out 0).map (fun k => (⟨r, k, 0, 0⟩ : NanPos))).toList }

def elemsBytes (w : Nat) (es : List Nat) : List Byte := es.flatMap (fun e => leBytes w e)

/-! ## Effects -/

def effGath (v : View) : Effect :=
  let zeros := List.replicate v.gB (0 : Byte)
  { mem := v.picks.filterMap (fun e =>
      match e.2.2 with
      | .pad => some (v.rowPut v.gR e.1 zeros)
      | .row r => some (v.rowPut v.gR e.1 (v.rowRaw v.gT r))
      | .bad => if v.gOob = 0 then none else some (v.rowPut v.gR e.1 zeros))
    posts := oobPost v ++ dronePost (v.hidden v.gT || v.readsHidden v.gI.space v.gI.base (v.gN * v.gW)) }

def effScat (v : View) : Effect :=
  let posts := oobPost v ++ dronePost (v.hidden v.gR || v.readsHidden v.gI.space v.gI.base (v.gN * v.gW) ||
    (v.gArith && v.hidden v.gT))
  if v.gCmb = 0 then
    { mem := v.picks.filterMap (fun e => match e.2.2 with
        | .row r => some (v.rowPut v.gT r (v.rowRaw v.gR e.1))
        | _ => none)
      posts := posts }
  else
    let st := v.picks.foldl (fun st e => match e.2.2 with
      | .row r => v.mixRow v.gT { v.gR with fmtc := v.gT.fmtc } (fun r => some (v.rowElems v.gT r)) st e.1 r
      | _ => st) ({ rows := [] } : MixState)
    { mem := st.rows.map (fun kv => v.rowPut v.gT kv.1 (elemsBytes v.gWidth kv.2.elems))
      flags := st.flags
      nan := minNan st.nans
      posts := posts }

/-- SEGR (R127). An empty output row takes the low bits of SF, as many as an element has, in each of its elements (log entry 93). -/
def effSegr (v : View) : Effect :=
  let rm := v.rmD (v.f 34 3)
  let dst : Desc := { v.gR with fmtc := v.gT.fmtc }
  let bad := outOfOrder v.gPad v.gList 0 0
  let st := v.picks.foldl (fun st e => match e.2.2 with
    | .row r => if bad.contains e.1 then st else v.mixRow dst v.gT (fun _ => none) st e.1 r
    | _ => st) ({ rows := [] } : MixState)
  let w := v.gWidth
  let fill := List.replicate v.gElems ((v.sr (v.f 37 6)).toNat % 2 ^ (8 * w))
  let outs : List (Nat × List Mixed) := (upto v.gR.rows).map (fun r =>
    let m := mapGet MixRow.none st.rows r
    (r, if m.count = 0 then fill.map (fun b => ⟨b, 0, false⟩)
      else if v.gCmb = 4 then
        (upto v.gElems).map (fun k => mixMean dst rm (v.rnd rm v.gElems (v.gListDraws + r) k) (m.elems.getD k 0) m.count)
      else m.elems.map (fun b => ⟨b, 0, false⟩)))
  { mem := outs.map (fun o => v.rowPut v.gR o.1 (elemsBytes w (o.2.map (fun m => m.bits))))
    flags := outs.foldl (fun a o => o.2.foldl (fun a m => a ||| m.flags) a) st.flags
    nan := minNan st.nans
    posts := oobPost v ++ memPosts (memGath v) ++
      dronePost (v.hidden v.gT || v.readsHidden v.gI.space v.gI.base (v.gN * v.gW)) }

def effGather (v : View) : Effect :=
  if v.op = 0x90 then effGath v else if v.op = 0x91 then effScat v else effSegr v

end Sys2Proof.Machine
end

