-- ==== Sys2Proof/Machine/OptOps.lean ====
section
/-! DEFINITION. VOPT, VNRM, SEED and RWND (04 R108 to R113; 02 R64, R69; 06 R192, R193). -/
namespace Sys2Proof.Machine

def assignedOpt (op : Nat) (word : Word) : Option (List (Nat × Nat)) :=
  if op = 0xA0 then (if fld word 18 2 = 3 then none else some [(13, 23)])
  else if op = 0xA1 then (if fld word 25 2 = 3 then none else some [(13, 14)])
  else if op = 0xA8 ∨ op = 0xA9 then some [(13, 10)]
  else none

/-! ## VOPT -/

def View.oTw (v : View) : Nat := v.f 13 5
def View.oKind (v : View) : Nat := v.f 18 2
def View.oSh (v : View) : Nat := v.f 20 6
def View.oVn (v : View) : Nat := v.f 26 6
def View.oSplit (v : View) : Bool := v.bit 35
def View.oDesc (v : View) (k : Nat) : Desc := v.desc (v.oTw + k)
def View.oCount (v : View) : Nat := (v.oDesc 0).rows * (v.oDesc 0).cols
def View.oHyper (v : View) (k : Nat) : FV := { bits := (v.sr (v.oSh + k)).toNat % 2 ^ 32 }
/-- Cycles counted at issue (Table 06-2). -/
def View.oCycles (v : View) : Nat := ceilDiv v.oCount (if v.oKind = 1 then 16 else 32)

/-- What a descriptor of VOPT must be: format and all that R137, R138 and R72 ask. -/
def View.oUse (v : View) (k : Nat) (u : Use) (fmts : List Nat) : List Cause :=
  let d := v.oDesc k
  v.useTensor (v.oTw + k) u ++
  causeIf ((Fmt.ofCode d.fmtc).isSome && !fmts.contains d.fmtc) (0x7001, d.fmtc)

/-- VOPT's causes at issue. With SPLIT = 1 the HI array is bfloat16 and the LO array any 16-bit format (log entry 94). -/
def judgeVopt (v : View) : List Cause :=
  let c := v.oCount
  v.rmCause (v.f 32 3) ++ causeIf (decide (63 < v.oSh + 5)) (0x2104, v.oSh) ++
  causeIf (decide (63 < v.oVn + 5) || decide (v.oVn % 2 = 1)) (0x2104, v.oVn) ++
  (if 31 < v.oTw + 4 then [(0x2104, v.oTw)]
   else
    (match (upto 5).find? (fun k => decide ((v.oDesc k).rows * (v.oDesc k).cols ≠ c)) with
     | some k => [(0x2104, (v.oDesc k).rows * (v.oDesc k).cols)]
     | none => []) ++
    causeIf (decide (8192 < v.oCycles)) (0x2103, v.oCycles) ++
    v.oUse 0 .encode (if v.oSplit then [3] else [1]) ++ v.oUse 1 .encode [1] ++ (if v.oKind = 1 then v.oUse 2 .encode [1] else []) ++
    v.oUse 3 .read [1, 2, 3] ++ v.oUse 4 .encode (if v.oSplit then [2, 3] else upto 10))
/-- Only the working copy can have fine scales. The position is the element's number. -/
def memVopt (v : View) : List MemCause :=
  let d := v.oDesc 4
  if v.oSplit then [] else (v.scaleFaults d 0 d.rows 0 d.cols).map (fun m => { m with row := 0, col := m.row * d.cols + m.col })
/-- Draws (R111): one an element with SPLIT = 0; with SPLIT = 1 nothing is rounded by RM and none are taken (log entry 94). -/
def drawsVopt (v : View) : List Nat :=
  if v.oSplit then [] else drawsIf (v.rmD (v.f 32 3)) (gridDraws 1 v.oCount)

/-- Element e of descriptor k: its place and its value in binary32. -/
def View.oPos (v : View) (k e : Nat) : Nat × Nat := (e / (v.oDesc k).cols, e % (v.oDesc k).cols)
def View.oBits (v : View) (k e : Nat) : Nat := let p := v.oPos k e; v.elem (v.oDesc k) p.1 p.2
def View.oVal (v : View) (k e : Nat) : FV := let p := v.oPos k e; .ofNum (v.value (v.oDesc k) p.1 p.2)
/-- The master: binary32, or HI and LO joined (R111). -/
def View.oMaster (v : View) (e : Nat) : FV :=
  if v.oSplit then { bits := v.oBits 0 e * 65536 + v.oBits 4 e } else v.oVal 0 e

/-- The sign of a number: −1, 0 or 1; a NaN is propagated (R43, R109). -/
def sign32 (c : FV) : FV :=
  match c.num .b32 with
  | .nan _ _ => c
  | .inf s => { c with bits := if s then 0xBF800000 else 0x3F800000 }
  | .fin q => { c with bits := if q.n = 0 then 0 else if q.neg then 0xBF800000 else 0x3F800000 }

/-- New master, moments, and d of one element (R109). -/
structure OptRes where
  w : FV
  m : FV
  v : FV
  g : FV
  bad : Bool

/-- r(sqrt(v) + EPS): the exact root and sum, rounded once. -/
def rootPlus (v eps : FV) : FV :=
  let r := numSqrt (v.num .b32)
  let s := numAdd .rne r.v (eps.num .b32)
  FV.of .b32 .rne 0 [v, eps] { s with flags := s.flags ||| r.flags, produced := s.produced || r.produced }

def optElem (v : View) (e : Nat) : OptRes :=
  let p := v.oPos 3 e
  let big := v.value (v.oDesc 3) p.1 p.2
  let gm := (v.oHyper 5).num .b32
  let g := FV.of .b32 .rne 0 [] (numMul big gm)
  let w := v.oMaster e
  let m := v.oVal 1 e
  let b1 := v.oHyper 1
  let b2 := v.oHyper 2
  let lr := v.oHyper 0
  let wd := v.oHyper 4
  if big.isNan || big.isInf || (g.num .b32).isNan || (g.num .b32).isInf then
    { w := w, m := m, v := { bits := 0 }, g := { g with flags := g.flags ||| fInvalid }, bad := true }
  else
    match v.oKind with
    | 0 =>
      let m' := fma32 b1 m g
      let d := mul32 lr (fma32 wd w m')
      ⟨sub32 w d, m', { bits := 0 }, g, false⟩
    | 1 =>
      let s := v.oVal 2 e
      let m' := fma32 b1 m (mul32 (sub32 one32 b1) g)
      let s' := fma32 b2 s (mul32 (sub32 one32 b2) (mul32 g g))
      let q := div32 m' (rootPlus s' (v.oHyper 3))
      let d := mul32 lr (fma32 wd w q)
      ⟨sub32 w d, m', s', g, false⟩
    | _ =>
      let c := fma32 b1 m (mul32 (sub32 one32 b1) g)
      let d := mul32 lr (fma32 wd w (sign32 c))
      let m' := fma32 b2 m (mul32 (sub32 one32 b2) g)
      ⟨sub32 w d, m', { bits := 0 }, g, false⟩

/-- Partial sum of quantity q in lane j (R112). -/
def normLane (r : RegFile) (vn q j : Nat) : Nat := velem (r.vreg (vn + 2 * q + j / 32)) 64 (j % 32)
/-- The sum of a lane's squares in ascending element order. -/
def normSum (start : Nat) (xs : List FV) : FV :=
  xs.foldl (fun a x => let y := f32to64 x; fma64 y y a) { bits := start }

/-- The stores of one value per element over a descriptor. -/
def View.oStore (v : View) (k : Nat) (bits : List Nat) : List MemWrite :=
  let d := v.oDesc k
  (upto d.rows).flatMap (fun r => v.rowWrite d r 0 d.cols (fun c => if c < d.cols then bits[r * d.cols + c]? else none))

def effVopt (v : View) : Effect :=
  let n := v.oCount
  let rm := v.rmD (v.f 32 3)
  let rs := (upto n).map (optElem v)
  let enc (k : Nat) (x : FV) : Rounded := encodeTo (v.oDesc k) ⟨false, 1, 1, 0⟩ .rne false 0 (x.num .b32)
  let keep (k e : Nat) (bad : Bool) (x : FV) : Rounded := if bad then { bits := v.oBits k e } else enc k x
  let idx := rs.zip (upto n)
  let copy : List Rounded := if v.oSplit then [] else idx.map (fun re =>
    let p := v.oPos 4 re.2
    v.encodeAt (v.oDesc 4) p.1 p.2 rm false (v.rnd rm n 0 re.2) (re.1.w.num .b32))
  let master := if v.oSplit then [] else idx.map (fun re => keep 0 re.2 re.1.bad re.1.w)
  let moment := idx.map (fun re => keep 1 re.2 re.1.bad re.1.m)
  let second := if v.oKind = 1 then idx.map (fun re => keep 2 re.2 re.1.bad re.1.v) else []
  let quantity (q : Nat) (r : OptRes × Nat) : FV :=
    match q with
    | 0 => clean r.1.w
    | 1 => clean r.1.g
    | _ => sub32 (clean r.1.w) (clean (v.oMaster r.2))
  let sums := (upto 3).map (fun q => (upto 64).map (fun j =>
    normSum (normLane v.i.regs v.oVn q j) ((idx.filter (fun r => decide (r.2 % 64 = j))).map (quantity q))))
  let made (r : OptRes) : Bool := !r.bad && (r.w.produced || r.m.produced || r.v.produced)
  { mem :=
      (if v.oSplit then
        v.oStore 0 (rs.map (fun r => r.w.bits / 65536)) ++ v.oStore 4 (rs.map (fun r => r.w.bits % 65536))
       else v.oStore 0 (master.map (fun c => c.bits)) ++ v.oStore 4 (copy.map (fun c => c.bits))) ++
      v.oStore 1 (moment.map (fun c => c.bits)) ++ (if v.oKind = 1 then v.oStore 2 (second.map (fun c => c.bits)) else [])
    v := (upto 6).map (fun k => (v.oVn + k, vpack 64 ((upto 32).map (fun e =>
      ((sums.getD (k / 2) []).getD (32 * (k % 2) + e) { bits := 0 }).bits))))
    flags := rs.foldl (fun a r => a ||| r.w.flags ||| r.m.flags ||| r.v.flags ||| r.g.flags) 0 |||
      allFlags (copy ++ master ++ moment ++ second) ||| sums.foldl (fun a l => a ||| fvFlags l) 0
    nan := (firstIdx made rs 0).map (fun e => ⟨0, e, 0, 0⟩)
    posts := memPosts (memVopt v) ++ dronePost ((upto 5).any (fun k =>
      (k != 2 || v.oKind == 1) && (k != 4 || v.oSplit) && v.hidden (v.oDesc k))) }

/-! ## VNRM (R113) -/

def judgeVnrm (v : View) : List Cause :=
  let n := v.f 19 6 + 2 * v.f 25 2
  causeIf (decide (63 < n + 1)) (0x2104, n)
/-- One level of the tree: adjacent results added. -/
def treeLevel : List FV → List FV
  | a :: b :: l => add64 a b :: treeLevel l
  | l => l
def effVnrm (v : View) : Effect :=
  let parts : List FV := (upto 64).map (fun j => { bits := normLane v.i.regs (v.f 19 6) (v.f 25 2) j })
  let r := (treeLevel (treeLevel (treeLevel (treeLevel (treeLevel (treeLevel parts)))))).getD 0 { bits := 0 }
  { s := [(v.f 13 6, BitVec.ofNat 64 r.bits)], flags := r.flags,
    nan := if r.produced then some ⟨0, 0, 0, 0⟩ else none }

/-! ## SEED and RWND (02 R64, R69, R70) -/

def View.laneMask (v : View) : List Nat := maskList 64 (v.pr (v.f 19 4)).toNat
def View.ctxSeed (v : View) : Word :=
  match v.x with | none => 0 | some x => BitVec.ofNat 64 (v.s.rd (Reg.ctx x) Reg.CTX_SEED)
def rwndCount (v : View) : Nat := (v.sr (v.f 13 6)).toNat
def judgeRwnd (v : View) : List Cause :=
  let n := rwndCount v
  causeIf (decide (n = 0) || decide (65536 < n) || v.laneMask.any (fun j => decide ((laneOf v.i.regs.lanes j).counter < n)))
    (0x7007, n)
/-- The lanes an instruction leaves for those issued after it: SEED's and RWND's own, or its reservations (02 R67, R70). -/
def View.lanesAfter (v : View) (draws : List Nat) : Map Lane :=
  if v.i.slot = .V ∧ v.op = 0xA8 then
    putLanes v.i.regs.lanes (v.laneMask.map (fun j =>
      (j, Lane.seeded v.ctxSeed (BitVec.ofNat 64 ((v.sr (v.f 13 6)).toNat % 2 ^ 32)) v.k j)))
  else if v.i.slot = .V ∧ v.op = 0xA9 then
    putLanes v.i.regs.lanes (v.laneMask.map (fun j => (j, (laneOf v.i.regs.lanes j).rewind (rwndCount v))))
  else reserveAll v.i.regs.lanes 0 draws

def judgeOpt (v : View) : List Cause :=
  if v.op = 0xA0 then judgeVopt v
  else if v.op = 0xA1 then judgeVnrm v
  else if v.op = 0xA9 then judgeRwnd v
  else []
def effOpt (v : View) : Effect :=
  if v.op = 0xA0 then effVopt v else if v.op = 0xA1 then effVnrm v else {}

end Sys2Proof.Machine
end

