-- ==== Sys2Proof/Machine/BellowsOps.lean ====
section
/-! DEFINITION. The moves of the D slot: XFER and XFERT (06 R194). -/
namespace Sys2Proof.Machine

def assignedD (op : Nat) : Option (List (Nat × Nat)) :=
  if op = 0 then some []
  else if op = 0x01 ∨ op = 0x10 then some [(13, 10)]
  else if op = 0x20 ∨ op = 0x28 then some [(13, 19)]
  else none

def View.xS (v : View) : Desc := v.desc (v.f 13 5)
def View.xD (v : View) : Desc := v.desc (v.f 18 5)

/-- The descriptor requirements of R194. -/
def xferFits (v : View) : Bool :=
  let a := v.xS
  let b := v.xD
  if v.op = 0x01 then
    decide (a.fmtc = b.fmtc) && decide (a.sgn = b.sgn) && decide (a.hasFine = b.hasFine) && decide (a.rows = b.rows) &&
    decide (a.cols = b.cols)
  else
    decide (b.rows = a.cols) && decide (b.cols = a.rows) && decide (a.fmtc = b.fmtc) && decide (a.sgn = b.sgn) &&
    !a.hasFine && !b.hasFine && decide (b.space = 0)
def judgeXfer (v : View) : List Cause :=
  causeIf (!xferFits v) (0x2106, v.f 18 5) ++ v.useTensor (v.f 13 5) .read ++ v.useTensor (v.f 18 5) .write ++
  causeIf (decide (v.op = 0x10) && decide (v.xS.fmtc = 6)) (0x7001, 6)

/-- A row's bytes with the unused positions of its last group zero (02 R39). -/
def View.rowCopy (v : View) (d : Desc) (r : Nat) : List Byte :=
  let (l, a) := v.rowAt d r
  let n := rowBytes d.fmt d.cols
  let bs := v.bytes l a n
  if d.cols % d.fmt.group = 0 then bs else leBytes n (leNat bs % 2 ^ (d.cols * d.fmt.width))

/-- The fine scales that XFER reads as it moves them (02 R75); XFERT has none. -/
def memXfer (v : View) : List MemCause := if v.op = 0x01 then v.scaleFaults v.xS 0 v.xS.rows 0 v.xS.cols else []
/-- An element as a move writes it: its bits, or under an invalid fine scale met during execution a zero of its sign (05
R531). -/
def View.movedElem (v : View) (d : Desc) (r c : Nat) : Nat :=
  let x := v.elem d r c
  if v.fineOk d r c then x else if d.fmt.isInt then 0 else signBit d.fmt (decodeFloat d.fmt x).neg
def effXfer (v : View) : Effect :=
  let a := v.xS
  let b := v.xD
  { mem := (upto a.rows).flatMap (fun r =>
        if (upto a.cols).all (v.fineOk a r) then [v.rowPut b r (v.rowCopy a r)]
        else v.rowWrite b r 0 b.cols (fun c => if c < b.cols then some (v.movedElem a r c) else none)) ++
      (if a.fine then (upto a.rows).map (fun r =>
        let (l, x) := v.locate a.space (a.scaleBase + r * a.scaleRow)
        let (m, y) := v.locate b.space (b.scaleBase + r * b.scaleRow)
        (⟨m, y, v.bytes l x a.scaleRow⟩ : MemWrite)) else [])
    posts := memPosts (memXfer v) ++ dronePost (v.hidden a) }
def effXfert (v : View) : Effect :=
  let a := v.xS
  let b := v.xD
  { mem := (upto b.rows).flatMap (fun r => v.rowWrite b r 0 b.cols (fun c => if c < b.cols then some (v.elem a c r) else none))
    posts := dronePost (v.hidden a) }

end Sys2Proof.Machine
end

