-- ==== Sys2Proof/Machine/WindwayOps.lean ====
section
/-! DEFINITION. Windway queues: sizes, the checks of a WWPUT and WWGET at issue, and the check and rewriting of a record
as it is placed (08 R218, R221 to R225, R229; 06 R195). -/
namespace Sys2Proof.Machine

/-! ## Sizes (R218) -/

def State.wq (s : State) (x q : Nat) (f : Field) : Nat := s.rd (Reg.wwy x q) f
def State.queueOn (s : State) (x q : Nat) : Bool := s.flag (Reg.wwy x q) Reg.WWY_ENABLE
/-- The record size that a queue's fields give. -/
def State.recordSize (s : State) (x q : Nat) : Nat :=
  match s.wq x q Reg.WWY_RECORD_KIND with
  | 1 => 16 + 16 * ceilDiv (5 * s.wq x q Reg.WWY_K_MAX) 16
  | 2 => 16 + 16 * ceilDiv (33 * s.wq x q Reg.WWY_FEATURE_D) 512
  | _ => s.wq x q Reg.WWY_RECORD_BYTES
def State.queueCapacity (s : State) (x q : Nat) : Nat :=
  s.wq x q Reg.WWY_DEPTH + (if s.flag (Reg.wwy x q) Reg.WWY_SPILL then s.wq x q Reg.WWY_SPILL_RECORDS else 0)
/-- Capacities of the enabled queues 0 to q, which count as credits (R222). -/
def State.queueCredits (s : State) (x q : Nat) : Nat :=
  (upto (q + 1)).foldl (fun a j => a + if s.queueOn x j then s.queueCapacity x j else 0) 0
/-- Records placed and not yet written into the getter's scratchpad, and credits taken for records still to be placed. -/
def State.freeCredits (s : State) (x q : Nat) : Nat := s.queueCapacity x q - (s.queue x q).outstanding

/-! ## At issue (R195, R221, R222) -/

def View.wwDesc (v : View) : Desc := v.desc (v.f 13 5)
def View.wwQueue (v : View) : Nat := v.f 18 8
def View.wwRowBytes (v : View) : Nat := rowBytes v.wwDesc.fmt v.wwDesc.cols
/-- The issuing core is the queue's local putter or getter. -/
def View.wwMine (v : View) (x : Nat) : Bool :=
  let b := Reg.wwy x v.wwQueue
  if v.op = 0x20 then decide (v.s.rd b Reg.WWY_PUT_CORE = v.k) && !v.s.flag b Reg.WWY_REMOTE_PUT
  else decide (v.s.rd b Reg.WWY_GET_CORE = v.k) && !v.s.flag b Reg.WWY_REMOTE_GET

def judgeWw (v : View) : List Cause :=
  let d := v.wwDesc
  let q := v.wwQueue
  let n := d.rows
  let sh := descShape (v.f 13 5) d true
  sh ++ coarseCause d ++ causeIf (decide (d.space ≠ 0)) (0x2107, d.base) ++
  (if sh = [] && decide (d.space = 0) then v.tensorRange { d with hasFine := false } (if v.op = 0x28 then .write else .read) else []) ++
  match v.x with
  | none => [(0x2107, q)]
  | some x =>
    let size := v.s.recordSize x q
    causeIf (!v.s.queueOn x q || !v.wwMine x) (0x2107, q) ++
    causeIf ((Fmt.ofCode d.fmtc).isSome && decide (v.wwRowBytes ≠ size)) (0x2104, v.wwRowBytes) ++
    causeIf (decide (v.s.queueCapacity x q < n) || decide (1048576 < n * size)) (0x2104, n) ++
    causeIf (decide (v.decl.credits < v.s.queueCredits x q)) (0x2109, v.s.queueCredits x q)
def effWw (v : View) : Effect := { ctl := if v.op = 0x20 then .wwput v.wwQueue else .wwget v.wwQueue }

/-! ## Records (R223, R224) -/

def recNat (bs : List Byte) (off n : Nat) : Nat := leNat ((bs.drop off).take n)
/-- Bytes [off, off + n) replaced by a number. -/
def recPut (bs : List Byte) (off n v : Nat) : List Byte := bs.take off ++ leBytes n v ++ bs.drop (off + n)

/-- Whether a record passes its queue's check (R224). A raw record is not checked. -/
def recordPasses (kind kMax featureD : Nat) (bs : List Byte) : Bool :=
  let w0 := recNat bs 0 8
  match kind with
  | 1 =>
    let k := bitsAt w0 8 8
    let temp := bitsAt w0 16 16
    decide (bitsAt w0 0 4 = 1) && decide (0 < k) && decide (k ≤ kMax) &&
    decide (temp < 0x8000) && decide (0x0400 ≤ temp) && decide (temp < 0x7C00) &&
    (upto k).all (fun t => let i := recNat bs (16 + 3 * t) 3; decide (i < 0x40000) || decide (i = 0xFFFFFF))
  | 2 =>
    let fmt := bitsAt w0 8 8
    let coarse := recNat bs 8 4
    decide (bitsAt w0 0 4 = 2) && (decide (fmt = 4) || decide (fmt = 5)) && decide (recNat bs 12 2 = featureD) &&
    (match decodeFloat .b32 coarse with | .fin q => !q.neg && decide (q.n ≠ 0) | _ => false) &&
    (upto (featureD / 32)).all (fun t => decide (recNat bs (16 + featureD + t) 1 ≠ 0xFF))
  | _ => true

/-- A passing record as the Windway writes it (R224). -/
def recordRewrite (kind kMax featureD loss : Nat) (tsq : Bool) (seq : Nat) (bs : List Byte) : List Byte :=
  match kind with
  | 1 =>
    let k := bitsAt (recNat bs 0 8) 8 8
    let w0 := bitsPut (bitsPut (recNat bs 0 8) 4 3 loss) 7 1 (if tsq then 1 else 0)
    let b1 := recPut (recPut bs 0 8 w0) 14 2 seq
    let b2 := (upto (kMax - k)).foldl (fun b j => recPut (recPut b (16 + 3 * (k + j)) 3 0xFFFFFF) (16 + 3 * kMax + 2 * (k + j)) 2 0xFC00) b1
    b2.take (16 + 5 * kMax) ++ List.replicate (bs.length - (16 + 5 * kMax)) 0
  | 2 =>
    let w0 := bitsPut (bitsPut (bitsPut (recNat bs 0 8) 4 3 loss) 7 1 0) 16 16 0
    let b1 := recPut (recPut bs 0 8 w0) 14 2 seq
    let used := 16 + featureD + featureD / 32
    b1.take used ++ List.replicate (bs.length - used) 0
  | _ => bs

/-- Check a record for queue q and give it as placed under a sequence number. -/
def State.placeRecord (s : State) (x q seq : Nat) (bs : List Byte) : Option (List Byte) :=
  let kind := s.wq x q Reg.WWY_RECORD_KIND
  let kMax := s.wq x q Reg.WWY_K_MAX
  let d := s.wq x q Reg.WWY_FEATURE_D
  if recordPasses kind kMax d bs then
    some (recordRewrite kind kMax d (s.wq x q Reg.WWY_LOSS) (s.flag (Reg.wwy x q) Reg.WWY_TSQ) seq bs)
  else none

/-- Records of a queue held in its ring, those taken and not delivered included (R229). -/
def Queue.held (k : Queue) : List WRecord := k.recs ++ k.delivering.map (fun d => d.rcd)
def Queue.inRing (k : Queue) : Nat := (k.held.filter (fun r => r.spill.isNone)).length
/-- The place a spilled record takes. DESIGN CHOICE (log entry 105): the lowest that no record of the queue holds. -/
def Queue.spillPlace (k : Queue) : Nat :=
  let used := k.held.filterMap (fun r => r.spill)
  ((upto (used.length + 1)).find? (fun i => !used.contains i)).getD 0
/-- Where place i of a spill area lies in the region. -/
def State.spillAt (s : State) (x q i : Nat) : Nat := s.wq x q Reg.WWY_SPILL_BASE + i * s.recordSize x q

end Sys2Proof.Machine
end

