-- ==== Sys2Proof/Machine/Checks.lean ====
section
/-! DEFINITION. The checks that ENABLE runs, object by object (08 Table 08-2, 09 Table 09-2, 10 Table 10-3, 11 Table 11-2,
12 Table 12-2, 13 Table 13-4 and R375 to R377, 14 Table 14-2, 18 R487 and R489). Each answers the first code that
refuses, or none. A Reserved field of a register object reads zero, so no check finds one (00 R7). -/
namespace Sys2Proof.Machine

/-! ## Helpers -/

/-- The objects of an array whose ENABLE bit reads 1. ENABLE is bit 0 of every object that has one. -/
def State.enabledIdx (s : State) (base stride n : Nat) : List Nat :=
  s.regs.filterMap (fun kv =>
    if base * 8 ≤ kv.1 ∧ kv.1 < (base + stride * n) * 8 ∧ (kv.1 - base * 8) % (stride * 8) = 0 ∧ kv.2 % 2 = 1 then
      some ((kv.1 - base * 8) / (stride * 8)) else none)
def State.enabledCtxs (s : State) : List Nat := s.enabledIdx (Reg.ctx 0) 1024 4096
/-- Enabled queues as pairs (context, queue). -/
def State.enabledQueues (s : State) : List (Nat × Nat) :=
  (s.enabledIdx (Reg.wwy 0 0) 64 1048576).map (fun i => (i / 256, i % 256))
def State.enabledPorts (s : State) : List Nat := s.enabledIdx (Reg.trsPort 0) 64 16
def State.enabledStores (s : State) : List Nat := s.enabledIdx (Reg.ckptStore 0) 64 16
def State.enabledHdms (s : State) : List Nat := s.enabledIdx (Reg.hdm 0) 32 64
def State.enabledT3ws (s : State) : List Nat := s.enabledIdx (Reg.t3w 0) 64 4096
def State.enabledRings (s : State) : List Nat := s.enabledIdx (Reg.ring 0) 128 512
def State.enabledTables (s : State) : List Nat := s.enabledIdx (Reg.streamTable 0) 128 4096
def State.enabledSlots (s : State) : List Nat := s.enabledIdx (Reg.nvwSlot 0) 64 8

/-- The first code of a list of conditions that holds. -/
def firstCode : List (Bool × Nat) → Option Nat
  | [] => none
  | (b, c) :: l => if b then some c else firstCode l
/-- Two of the ranges share a byte. -/
def anyOverlap : List (Nat × Nat) → Bool
  | [] => false
  | r :: rs => rs.any (fun q => overlap r.1 r.2 q.1 q.2) || anyOverlap rs
def meetsAny (r : Nat × Nat) (l : List (Nat × Nat)) : Bool := l.any (fun q => overlap r.1 r.2 q.1 q.2)
def anyMeets (a b : List (Nat × Nat)) : Bool := a.any (fun r => meetsAny r b)
def leaves (limit : Nat) (l : List (Nat × Nat)) : Bool := l.any (fun r => decide (limit < r.1 + r.2))
def pageAligned (l : List Nat) : Bool := l.all (fun a => decide (a % 4096 = 0))

def mib : Nat := 1048576
def State.ctxOn (s : State) (x : Nat) : Bool := s.flag (Reg.ctx x) Reg.CTX_ENABLE
/-- The package's own address, if TRS_ADDRESS is enabled (10 R282). -/
def State.ownAddress (s : State) : Option Nat :=
  if s.flag Reg.trsAddress Reg.TRSA_ENABLE then some (s.rd Reg.trsAddress Reg.TRSA_ADDRESS) else none
/-- A port that is up or that a retrain may bring back (10 R287, R291). -/
def State.portAlive (s : State) (p : Nat) : Bool :=
  let st := s.rd (Reg.trsPort p) Reg.TRS_LINK_STATE
  decide (st = 2) || decide (st = 3) || decide (st = 4)
/-- The port of ordered packets to an address, if its route is VALID and the port is not down (10 R287, R289). -/
def State.orderedRoute (s : State) (dest : Nat) : Option Nat :=
  let p := s.rd (Reg.route dest) Reg.ROUTE_ORDERED_PORT
  if s.flag (Reg.route dest) Reg.ROUTE_VALID && s.portAlive p then some p else none

/-! ## Areas of a region -/

/-- The bucket size in bytes, and the blocks of a bucket (11 R301). -/
def State.bucketBytes (s : State) (x : Nat) : Nat := s.rd (Reg.ctx x) Reg.CTX_BUCKET_MIB * mib
def State.blocksPerBucket (s : State) (x : Nat) : Nat := 8192 * s.rd (Reg.ctx x) Reg.CTX_BUCKET_MIB
def State.trains (s : State) (x : Nat) : Bool := decide (s.rd (Reg.ctx x) Reg.CTX_STATE_BYTES ≠ 0)
/-- The areas of Table 09-1 as ranges of the region. -/
def State.trainAreas (s : State) (x : Nat) : List (Nat × Nat) :=
  let b := Reg.ctx x
  if s.trains x then
    [(s.rd b Reg.CTX_STATE_BASE, s.rd b Reg.CTX_STATE_BYTES), (s.rd b Reg.CTX_STEPREC_BASE, 512),
     (s.rd b Reg.CTX_MARK_BASE, 512 * (4 * s.rd b Reg.CTX_BAYS)),
     (s.rd b Reg.CTX_TRACE_BASE, s.rd b Reg.CTX_TRACE_BYTES)] ++
    (if s.rd b Reg.CTX_EVAL_BAYS = 0 then [] else [(s.rd b Reg.CTX_EVAL_SNAP_BASE, s.rd b Reg.CTX_WORKCOPY_BYTES)])
  else []
def State.scaleArea (s : State) (x : Nat) : Nat × Nat :=
  (s.rd (Reg.ctx x) Reg.CTX_SCALE_BASE, s.rd (Reg.ctx x) Reg.CTX_BUCKETS * s.blocksPerBucket x)
/-- The areas of Table 11-1 but for the wire-scale table, which lies inside the state region. -/
def State.exchAreas (s : State) (x : Nat) : List (Nat × Nat) :=
  let b := Reg.ctx x
  if s.trains x then
    [(s.rd b Reg.CTX_BUCKET_BASE, s.rd b Reg.CTX_SLOTS * s.bucketBytes x),
     (s.rd b Reg.CTX_SHARD_BASE, s.rd b Reg.CTX_BUCKETS * (ceilDiv (s.blocksPerBucket x) (s.rd b Reg.CTX_RANKS) * 256)),
     (s.rd b Reg.CTX_CARRY_BASE, s.rd b Reg.CTX_BUCKETS * s.bucketBytes x),
     (s.rd b Reg.CTX_RANK_TABLE_BASE, 2 * s.rd b Reg.CTX_RANKS), (s.rd b Reg.CTX_STAT_BASE, 768)]
  else []
/-- The areas of Table 12-1 in the region. -/
def State.streamAreas (s : State) (x : Nat) : List (Nat × Nat) :=
  let t := Reg.streamTable x
  s.engineAreas x ++
  [(s.rd t Reg.ST_POOL_C_BASE, s.rd t Reg.ST_POOL_C * (512 * s.rd t Reg.ST_C_BLOCK_UNITS)),
   (s.rd t Reg.ST_POOL_D_BASE, s.rd t Reg.ST_POOL_D * (512 * s.rd t Reg.ST_D_BLOCK_UNITS)),
   (s.rd t Reg.ST_CMD_BASE, 32 * s.rd t Reg.ST_CMD_SLOTS)]
def State.spillArea (s : State) (x q : Nat) : List (Nat × Nat) :=
  if s.flag (Reg.wwy x q) Reg.WWY_SPILL then
    [(s.wq x q Reg.WWY_SPILL_BASE, s.wq x q Reg.WWY_SPILL_RECORDS * s.recordSize x q)] else []
def State.ctxQueues (s : State) (x : Nat) : List Nat :=
  (s.enabledQueues.filter (fun xq => decide (xq.1 = x))).map (fun xq => xq.2)
def State.spillAreas (s : State) (x : Nat) : List (Nat × Nat) := (s.ctxQueues x).flatMap (fun q => s.spillArea x q)
def State.stageArea (s : State) (x : Nat) : List (Nat × Nat) :=
  match s.teacherHead x with
  | some n => [(s.rd (Reg.nvwSlot n) Reg.SLOT_STAGE_BASE, s.rd (Reg.nvwSlot n) Reg.SLOT_STAGE_BYTES)]
  | none => []
/-- The protected areas of 13 R378 that exist now. -/
def State.protectedAreas (s : State) (x : Nat) : List (Nat × Nat) :=
  s.stageArea x ++ s.trainAreas x ++ s.exchAreas x ++
  (if s.flag (Reg.streamTable x) Reg.ST_ENABLE then s.streamAreas x else []) ++ s.spillAreas x ++
  (s.ctx x).programs.map (fun p => (p.base, p.bytes))

/-! ## Tier-1 ranges (14 R384, R385) -/

/-- A bay's save record (14 R385). -/
def saveRecordBytes : Nat := 13205504
def State.savePerGroup (s : State) (x : Nat) : Nat :=
  ceilDiv (s.rd (Reg.ctx x) Reg.CTX_BAYS * saveRecordBytes) (4096 * (s.groups x).length) * 4096
def State.regionRanges (s : State) (x : Nat) : List (Nat × Nat) :=
  (s.groups x).map (fun g => (2 ^ 34 * g + s.rd (Reg.ctx x) Reg.CTX_GROUP_BASE, s.rd (Reg.ctx x) Reg.CTX_GROUP_BYTES))
def State.saveRanges (s : State) (x : Nat) : List (Nat × Nat) :=
  (s.groups x).map (fun g => (2 ^ 34 * g + s.rd (Reg.ctx x) Reg.CTX_SAVE_BASE, s.savePerGroup x))
def State.storeRange (s : State) (n : Nat) : Nat × Nat :=
  (s.rd (Reg.ckptStore n) Reg.STORE_BASE, s.rd (Reg.ckptStore n) Reg.STORE_BYTES)
def State.ownedGroups (s : State) (x : Nat) : List Nat :=
  if s.flag (Reg.ctx x) Reg.CTX_OWN_CHANNELS then s.groups x else []
/-- A range touches a channel group. -/
def inGroup (r : Nat × Nat) (g : Nat) : Bool := overlap r.1 r.2 (2 ^ 34 * g) (2 ^ 34)

/-! ## The context (14 Table 14-2, 09 Table 09-2, 11 Table 11-2) -/

def exp8 (n : Nat) : Int := signed 8 n

def State.checkCtxCore (s : State) (x : Nat) : Option Nat :=
  let b := Reg.ctx x
  let f (k : Field) : Nat := s.rd b k
  let others := s.enabledCtxs.filter (fun y => decide (y ≠ x))
  let mine := s.regionRanges x ++ s.saveRanges x
  let theirs := others.flatMap (fun y => s.regionRanges y ++ s.saveRanges y) ++ s.enabledStores.map s.storeRange
  let g := s.groups x
  let own := s.flag b Reg.CTX_OWN_CHANNELS
  let ways := f Reg.CTX_OWN_WAYS
  let otherWays := others.foldl (fun a y => a ||| s.rd (Reg.ctx y) Reg.CTX_OWN_WAYS) 0
  let bw (y : Nat) : Nat := if s.flag (Reg.ctx y) Reg.CTX_CLASS then s.rd (Reg.ctx y) Reg.CTX_BW_GBPS else 0
  firstCode
    [(decide (f Reg.CTX_BAYS = 0) || decide (64 < f Reg.CTX_BAYS), 0x1301),
     (decide (popCount 64 (f Reg.CTX_ALLOWED_BAYS) < f Reg.CTX_BAYS) || decide (2 ^ f Reg.CTX_BAYS ≤ f Reg.CTX_DRONE_BAYS), 0x1302),
     (g.isEmpty || decide (f Reg.CTX_GROUP_BASE % (64 * mib) ≠ 0) || decide (f Reg.CTX_GROUP_BYTES % (64 * mib) ≠ 0) ||
       decide (f Reg.CTX_GROUP_BYTES < 64 * mib) || decide (f Reg.CTX_SAVE_BASE % 4096 ≠ 0) ||
       decide (2 ^ 34 < f Reg.CTX_GROUP_BASE + f Reg.CTX_GROUP_BYTES), 0x1303),
     (anyMeets mine theirs || others.any (fun y => (s.ownedGroups y).any (fun h => mine.any (fun r => inGroup r h))), 0x1304),
     (((own || decide (ways ≠ 0)) && decide (f Reg.CTX_BAYS < 8)) || (own && g.any (fun h => theirs.any (fun r => inGroup r h))) ||
       decide (ways &&& otherWays ≠ 0) || (decide (ways ≠ 0) && decide (12 < popCount 16 (ways ||| otherWays))), 0x1305),
     ((decide (f Reg.CTX_BW_GBPS = 0) && decide (f Reg.CTX_BAYS < 8)) ||
       decide (36000 < others.foldl (fun a y => a + bw y) (bw x)), 0x1306),
     (decide (f Reg.CTX_PEG_BASE % 32 ≠ 0) || decide (65536 < f Reg.CTX_PEG_BASE + f Reg.CTX_PEG_COUNT) ||
       meetsAny (f Reg.CTX_PEG_BASE, f Reg.CTX_PEG_COUNT)
         (others.map (fun y => (s.rd (Reg.ctx y) Reg.CTX_PEG_BASE, s.rd (Reg.ctx y) Reg.CTX_PEG_COUNT))), 0x1307)]

def State.checkTraining (s : State) (x : Nat) : Option Nat :=
  let b := Reg.ctx x
  let f (k : Field) : Nat := s.rd b k
  let lo := exp8 (f Reg.CTX_LS_MIN)
  let hi := exp8 (f Reg.CTX_LS_MAX)
  let e0 := exp8 (f Reg.CTX_LS_INIT)
  let out (e : Int) : Bool := decide (e < -64) || decide (64 < e)
  let areas := s.trainAreas x
  let ev := f Reg.CTX_EVAL_BAYS
  let rp := f Reg.CTX_REPLAY_BAYS
  let first := firstCode [(out lo || out hi || out e0 || decide (hi < lo) || decide (e0 < lo) || decide (hi < e0) ||
    decide (f Reg.CTX_LS_INTERVAL = 0) || decide (f Reg.CTX_LS_FLOOR_LIMIT = 0), 0x1501)]
  if first.isSome || !s.trains x then first else
  firstCode
    [((match decodeFloat .b32 (f Reg.CTX_CLIP_NORM) with | .fin q => q.neg && decide (q.n ≠ 0) | _ => true), 0x1502),
     (leaves (s.regionBytes x) areas || !pageAligned ((areas.filter (fun r => decide (r.2 ≠ 0))).map (fun r => r.1)) ||
       !pageAligned [f Reg.CTX_STATE_BYTES, f Reg.CTX_TRACE_BYTES] || anyOverlap areas, 0x1503),
     (decide (f Reg.CTX_STATE_BYTES < f Reg.CTX_WORKCOPY_OFFSET + f Reg.CTX_WORKCOPY_BYTES) ||
       !pageAligned [f Reg.CTX_WORKCOPY_OFFSET, f Reg.CTX_WORKCOPY_BYTES], 0x1504),
     (decide (4 < popCount 64 ev) || decide (4 < popCount 64 rp) || decide (ev &&& rp ≠ 0) ||
       decide (2 ^ f Reg.CTX_BAYS ≤ ev) || decide (2 ^ f Reg.CTX_BAYS ≤ rp), 0x1505),
     (decide (f Reg.CTX_LOSS_BOUND = 0) || decide (f Reg.CTX_DRAIN_EVERY = 0) || decide (f Reg.CTX_BUDDY_DEVICE = 0xFFFF) ||
       decide (s.ownAddress = some (f Reg.CTX_BUDDY_DEVICE)), 0x1506)]

/-- The Truss address of rank r (11 Table 11-1). -/
def State.rankAddress (s : State) (x r : Nat) : Nat := s.natAt (.tier1 x) (s.rd (Reg.ctx x) Reg.CTX_RANK_TABLE_BASE + 2 * r) 2
def State.successor (s : State) (x : Nat) : Nat :=
  s.rankAddress x ((s.rd (Reg.ctx x) Reg.CTX_RANK + 1) % s.rd (Reg.ctx x) Reg.CTX_RANKS)
def State.predecessor (s : State) (x : Nat) : Nat :=
  let n := s.rd (Reg.ctx x) Reg.CTX_RANKS
  s.rankAddress x ((s.rd (Reg.ctx x) Reg.CTX_RANK + n - 1) % n)
def hasRepeat : List Nat → Bool
  | [] => false
  | a :: l => l.contains a || hasRepeat l

def State.checkExchange (s : State) (x : Nat) : Option Nat :=
  let b := Reg.ctx x
  let f (k : Field) : Nat := s.rd b k
  let n := f Reg.CTX_RANKS
  let bad (k : Field) (lo hi : Nat) : Bool := decide (f k < lo) || decide (hi < f k)
  let areas := s.exchAreas x
  let sc := s.scaleArea x
  let pegs := [f Reg.CTX_FILL_PEG, f Reg.CTX_DONE_PEG, f Reg.CTX_GATHER_PEG]
  if !s.trains x then none else
  let early := firstCode
    [(bad Reg.CTX_RANKS 1 16384 || decide (n ≤ f Reg.CTX_RANK) || bad Reg.CTX_CHANNELS 1 15 || bad Reg.CTX_BUCKET_MIB 1 64 ||
       bad Reg.CTX_THIN_N 1 64 || bad Reg.CTX_BUCKETS 1 65535 || bad Reg.CTX_CUTOFF_MS 1 65535 || bad Reg.CTX_SLOTS 2 32, 0x1701),
     (decide (f Reg.CTX_CHANNEL_BASE < 256) || decide (4096 < f Reg.CTX_CHANNEL_BASE + f Reg.CTX_CHANNELS + 2), 0x1702),
     (leaves (s.regionBytes x) (sc :: areas) || !pageAligned ((sc :: areas).map (fun r => r.1)) ||
       decide (sc.1 < f Reg.CTX_STATE_BASE) || decide (f Reg.CTX_STATE_BASE + f Reg.CTX_STATE_BYTES < sc.1 + sc.2) ||
       anyOverlap areas || anyMeets areas (s.trainAreas x), 0x1703),
     (hasRepeat pegs || pegs.any (fun p => decide (f Reg.CTX_PEG_COUNT ≤ p)), 0x1704),
     (decide (f Reg.CTX_WORKCOPY_BYTES % (512 * n) ≠ 0), 0x1705)]
  if early.isSome || decide (n ≤ 1) then early else
  let table := (upto n).map (s.rankAddress x)
  firstCode
    [(decide (s.ownAddress ≠ some (s.rankAddress x (f Reg.CTX_RANK))) || table.contains 0xFFFF || hasRepeat table, 0x1706),
     ((s.orderedRoute (s.successor x)).isNone, 0x1707),
     (s.conflicts.contains (s.successor x) || s.conflicts.contains (s.predecessor x), 0x6006)]

def State.checkCtx (s : State) (x : Nat) : Option Nat :=
  match s.checkCtxCore x with
  | some c => some c
  | none => match s.checkTraining x with
    | some c => some c
    | none => s.checkExchange x

/-! ## Windway queues (08 Table 08-2) -/

/-- The ring's bytes in its segment. -/
def State.ringRange (s : State) (x q : Nat) : Nat × Nat := (s.wq x q Reg.WWY_BASE, s.wq x q Reg.WWY_DEPTH * s.recordSize x q)
def State.isSender (s : State) (x q : Nat) : Bool := s.flag (Reg.wwy x q) Reg.WWY_REMOTE_GET
def State.isReceiver (s : State) (x q : Nat) : Bool := s.flag (Reg.wwy x q) Reg.WWY_REMOTE_PUT
/-- What queues are still clearing, with their context (R220). -/
def State.clearings (s : State) : List (Nat × Clearing) :=
  s.queues.flatMap (fun kv => kv.2.clearing.map (fun c => (kv.1 / 256, c)))
/-- A policy bit of the bound teacher's manifest (15 Table 15-5, 0x028). -/
def manifestBit (m : List Byte) (i : Nat) : Bool := (leNat ((m.drop 0x28).take 8)).testBit i
def State.teacherBit (s : State) (x i : Nat) : Bool :=
  match s.teacherHead x with
  | some n => manifestBit (mapGet [] s.manifests n) i
  | none => false
/-- A logical core of context x lies in an absent position (16 R452); known only while the bay is held. -/
def State.isAbsent (s : State) (x k : Nat) : Bool :=
  match (s.ctx x).bayMap[k / 4]? with
  | some b => decide (s.physOf (4 * b.val + k % 4) = noCore)
  | none => false
/-- The neighbour's port on the way to a device is one hop off and SPAN_OK (Table 08-2 check 8). -/
def State.spanReach (s : State) (dest : Nat) : Bool :=
  decide (s.rd (Reg.route dest) Reg.ROUTE_HOPS = 1) &&
  (match s.orderedRoute dest with | some p => s.flag (Reg.trsPort p) Reg.TRS_SPAN_OK | none => false)

/-- A remote pair between two Drone bays of one teacher (Table 08-2 check 8, 10 R294). -/
def State.spanPairAt (s : State) (x q : Nat) : Bool :=
  Config.partnerDrone s.free &&
  ((s.isSender x q && s.isDrone x (s.wq x q Reg.WWY_PUT_CORE / 4)) || (s.isReceiver x q && s.isDrone x (s.wq x q Reg.WWY_GET_CORE / 4)))
def State.checkQueue (s : State) (x q : Nat) : Option Nat :=
  let f (k : Field) : Nat := s.wq x q k
  let fl (k : Field) : Bool := s.flag (Reg.wwy x q) k
  let kind := f Reg.WWY_RECORD_KIND
  let size := s.recordSize x q
  let others := s.enabledQueues.filter (fun yr => decide (yr ≠ (x, q)))
  let local' (remote : Bool) (p : Nat → Bool) (core : Field) : Bool := !remote && p (f core)
  let cores := 4 * s.rd (Reg.ctx x) Reg.CTX_BAYS
  let noCoreThere (k : Nat) : Bool := decide (cores ≤ k) || s.isAbsent x k
  let putDrone := s.isDrone x (f Reg.WWY_PUT_CORE / 4)
  let dev := f Reg.WWY_REMOTE_DEVICE
  let far := Config.partnerDrone s.free
  let reach := s.ownAddress.isSome && decide (dev ≠ 0xFFFF) && (s.orderedRoute dev).isSome
  firstCode
    [(decide (kind = 0) || (s.isSender x q && s.isReceiver x q), 0x1401),
     ((match kind with
       | 1 => decide (f Reg.WWY_K_MAX = 0) || decide (128 < f Reg.WWY_K_MAX) || decide (2 < f Reg.WWY_LOSS)
       | 2 => decide (f Reg.WWY_FEATURE_D % 32 ≠ 0) || decide (f Reg.WWY_FEATURE_D = 0) || decide (32768 < f Reg.WWY_FEATURE_D) ||
              decide (f Reg.WWY_LOSS ≠ 4)
       | _ => decide (f Reg.WWY_RECORD_BYTES % 16 ≠ 0) || decide (f Reg.WWY_RECORD_BYTES = 0)), 0x1402),
     (decide (f Reg.WWY_DEPTH = 0) || (!s.isSender x q && (decide (f Reg.WWY_BASE % 4096 ≠ 0) ||
       decide (4 * mib < f Reg.WWY_BASE + f Reg.WWY_DEPTH * size))), 0x1403),
     (!s.isSender x q && (others.any (fun yr => !s.isSender yr.1 yr.2 &&
       decide (s.wq yr.1 yr.2 Reg.WWY_SEGMENT = f Reg.WWY_SEGMENT) && meetsAny (s.ringRange x q) [s.ringRange yr.1 yr.2]) ||
       s.clearings.any (fun yc => decide (yc.2.segment = f Reg.WWY_SEGMENT) && meetsAny (s.ringRange x q) [yc.2.ring])), 0x1404),
     (local' (s.isReceiver x q) noCoreThere Reg.WWY_PUT_CORE || local' (s.isSender x q) noCoreThere Reg.WWY_GET_CORE, 0x1405),
     (decide (kind ≠ 3) && (local' (s.isReceiver x q) (fun k => !s.isDrone x (k / 4)) Reg.WWY_PUT_CORE ||
       local' (s.isSender x q) (fun k => s.isDrone x (k / 4)) Reg.WWY_GET_CORE), 0x1406),
     (fl Reg.WWY_SPILL && (s.isSender x q || decide (f Reg.WWY_SPILL_RECORDS = 0) || decide (f Reg.WWY_SPILL_BASE % 4096 ≠ 0) ||
       leaves (s.regionBytes x) (s.spillArea x q) ||
       anyMeets (s.spillArea x q) ((others.filter (fun yr => decide (yr.1 = x))).flatMap (fun yr => s.spillArea yr.1 yr.2) ++
         (s.clearings.filter (fun yc => decide (yc.1 = x))).map (fun yc => yc.2.spill))), 0x1407),
     ((s.isReceiver x q || s.isSender x q) && s.conflicts.contains dev, 0x6006),
     ((s.isReceiver x q && !reach) || (s.isSender x q && (!reach || !Config.partnerAgrees s.free)) ||
       (s.spanPairAt x q && !s.spanReach dev), 0x1408),
     (s.isSender x q && putDrone && !(far && s.spanReach dev) &&
       !(match kind with | 1 => s.teacherBit x 0 | 2 => s.teacherBit x 1 | _ => false), 0x1409)]

/-! ## Truss, stream tables, slots, stores, windows, rings -/

def State.checkPort (s : State) (p : Nat) : Option Nat :=
  firstCode [(decide (1 < s.rd (Reg.trsPort p) Reg.TRS_MEDIUM), 0x1601), (s.ownAddress.isNone, 0x1602)]
def State.checkAddress (s : State) : Option Nat := firstCode [(!s.enabledPorts.isEmpty, 0x1604)]

def State.checkTable (s : State) (x : Nat) : Option Nat :=
  let t := Reg.streamTable x
  let f (k : Field) : Nat := s.rd t k
  let bad (k : Field) (lo hi : Nat) : Bool := decide (f k < lo) || decide (hi < f k)
  let bases := [Reg.ST_ENTRY_BASE, Reg.ST_TOKEN_BASE, Reg.ST_BTABLE_BASE, Reg.ST_POOL_C_BASE, Reg.ST_POOL_D_BASE,
    Reg.ST_REGISTRY_BASE, Reg.ST_ADAPTER_BASE, Reg.ST_CMD_BASE, Reg.ST_PAUSE_BASE, Reg.ST_PAUSE_BYTES].map f
  let areas := s.streamAreas x
  let pegs := s.rd (Reg.ctx x) Reg.CTX_PEG_COUNT
  firstCode
    [(bad Reg.ST_STREAMS 1 65536 || bad Reg.ST_MAX_TOKENS 16 1048576 || decide (f Reg.ST_MAX_TOKENS % 16 ≠ 0) ||
       bad Reg.ST_C_BLOCK_UNITS 1 65535 || decide (f Reg.ST_POOL_C = 0) || bad Reg.ST_CMD_SLOTS 16 4096 ||
       decide (f Reg.ST_TTL_S = 0) || !pageAligned bases, 0x1801),
     (leaves (s.regionBytes x) areas || anyOverlap areas || anyMeets areas (s.trainAreas x ++ s.exchAreas x) ||
       (decide (f Reg.ST_PAUSE_BYTES ≠ 0) && decide (s.windowBytes x < f Reg.ST_PAUSE_BASE + f Reg.ST_PAUSE_BYTES)), 0x1802),
     (decide (65536 < (s.enabledTables.filter (fun y => decide (y ≠ x))).foldl
       (fun a y => a + s.rd (Reg.streamTable y) Reg.ST_STREAMS) (f Reg.ST_STREAMS)), 0x1803),
     (decide (f Reg.ST_CMD_PEG = f Reg.ST_DONE_PEG) || decide (pegs ≤ f Reg.ST_CMD_PEG) || decide (pegs ≤ f Reg.ST_DONE_PEG), 0x1804),
     (decide (f Reg.ST_POOL_D ≠ 0) && (s.teacherHead x).isNone, 0x1805)]

/-- A sealed shard is 64 MiB and 4 KiB (15 R421). -/
def shardBytes : Nat := 64 * mib
def sealedShardBytes : Nat := 64 * mib + 4096
/-- The re-check of a kept manifest (15 R422). -/
def State.manifestHolds (s : State) (n x : Nat) : Bool :=
  let m := mapGet [] s.manifests n
  let ceiling := leNat ((m.drop 0x20).take 6)
  Config.ownerSignatureVerifies m && Config.teacherKeyUnwraps m &&
  (decide (ceiling = 0) || decide (s.rd (Reg.ctx x) Reg.CTX_WORKCOPY_BYTES ≤ ceiling)) &&
  (decide (s.rd Reg.jnrDebug Reg.DEBUG_SCOPE = 0) || manifestBit m 2)
def State.checkSlot (s : State) (n : Nat) : Option Nat :=
  let b := Reg.nvwSlot n
  let f (k : Field) : Nat := s.rd b k
  let x := f Reg.SLOT_CONTEXT
  let stage := (f Reg.SLOT_STAGE_BASE, f Reg.SLOT_STAGE_BYTES)
  let has := decide (f Reg.SLOT_STAGE_BYTES ≠ 0)
  firstCode
    [(decide (f Reg.SLOT_FIRST_SLOT ≠ n) || decide (f Reg.SLOT_STATE ≠ 3), 0x1901),
     (!s.ctxOn x || (s.teacherHead x).any (fun m => decide (m ≠ n)), 0x1902),
     (!s.manifestHolds n x, 0x1903),
     (has && (leaves (s.regionBytes x) [stage] || meetsAny stage (s.trainAreas x ++ s.exchAreas x ++
       (if s.flag (Reg.streamTable x) Reg.ST_ENABLE then s.streamAreas x else []) ++ s.spillAreas x)), 0x1904),
     (has && decide (s.windowBytes x < f Reg.SLOT_STAGE_SOURCE + f Reg.SLOT_STAGE_BYTES / shardBytes * sealedShardBytes), 0x1905)]

/-- Tier 1 is 512 GiB (01 Table 01-5). -/
def tier1Bytes : Nat := 2 ^ 39
/-- R375. DESIGN CHOICE (log entry 103): a range in a group that an enabled context owns is refused with 0x1A02, since 14 R397
admits no other context's store there. -/
def State.checkStore (s : State) (n : Nat) : Option Nat :=
  let dev := s.rd (Reg.ckptStore n) Reg.STORE_SOURCE_DEVICE
  let r := s.storeRange n
  firstCode
    [(decide (dev = 0xFFFF) || decide (s.ownAddress = some dev), 0x1A01),
     (decide (tier1Bytes < r.1 + r.2) || meetsAny r (s.enabledCtxs.flatMap s.regionRanges) ||
       meetsAny r ((s.enabledStores.filter (fun m => decide (m ≠ n))).map s.storeRange) ||
       (s.enabledCtxs.flatMap s.ownedGroups).any (inGroup r), 0x1A02)]

def State.hdmRange (s : State) (w : Nat) : Nat × Nat := (s.rd (Reg.hdm w) Reg.HDM_OFFSET, s.rd (Reg.hdm w) Reg.HDM_BYTES)
def State.checkHdm (s : State) (w : Nat) : Option Nat :=
  let r := s.hdmRange w
  let x := s.rd (Reg.hdm w) Reg.HDM_CONTEXT
  firstCode
    [(decide (r.1 % (256 * mib) ≠ 0) || decide (r.2 % (256 * mib) ≠ 0) || decide (r.2 = 0), 0x1B01),
     (!s.ctxOn x || s.enabledHdms.any (fun v => decide (v ≠ w) && decide (s.rd (Reg.hdm v) Reg.HDM_CONTEXT = x)) ||
       decide (s.regionBytes x < r.1 + r.2), 0x1B02),
     (meetsAny r (s.protectedAreas x), 0x1B03)]

def State.cxlMode (s : State) (p : Nat) : Nat := s.rd (Reg.hifPort p) Reg.HIF_MODE
/-- The three areas of a ring in host memory (18 R489). -/
def State.ringAreas (s : State) (r : Nat) : List (Nat × Nat) :=
  let b := Reg.ring r
  [(s.rd b Reg.RING_SUB_BASE, 64 * 2 ^ s.rd b Reg.RING_SUB_LOG2), (s.rd b Reg.RING_COMP_BASE, 32 * 2 ^ s.rd b Reg.RING_COMP_LOG2),
   (s.rd b Reg.RING_CTRL_LINE, 64)]
def State.t3wRange (s : State) (x : Nat) : Nat × Nat := (s.rd (Reg.t3w x) Reg.T3W_HOST_BASE, s.rd (Reg.t3w x) Reg.T3W_BYTES)
/-- The drain area of 09 R532 leaves a window of this length. -/
def State.drainLeaves (s : State) (x window : Nat) : Bool :=
  let b := Reg.ctx x
  decide (window < s.rd b Reg.CTX_DRAIN_BASE + 2 * (s.rd b Reg.CTX_STATE_BYTES + mib))
def State.checkT3w (s : State) (x : Nat) : Option Nat :=
  let b := Reg.t3w x
  let ports := s.rd b Reg.T3W_PORTS
  let r := s.t3wRange x
  firstCode
    [(decide (ports = 0) || decide (r.2 = 0) || decide (2 ^ 52 < r.1 + r.2), 0x1C01),
     (!s.ctxOn x || (maskList 2 ports).any (fun p => decide (s.cxlMode p ≠ 2)), 0x1C02),
     (meetsAny r ((s.enabledT3ws.filter (fun y => decide (y ≠ x))).map s.t3wRange ++ s.enabledRings.flatMap s.ringAreas), 0x1C03),
     (s.flag (Reg.ctx x) Reg.CTX_DRAIN && s.drainLeaves x r.2, 0x1C05)]

def State.checkRing (s : State) (r : Nat) : Option Nat :=
  let b := Reg.ring r
  let f (k : Field) : Nat := s.rd b k
  let bad (k : Field) (lo hi : Nat) : Bool := decide (f k < lo) || decide (hi < f k)
  let areas := s.ringAreas r
  firstCode
    [(decide (1 < f Reg.RING_KIND) || decide (f Reg.RING_MSIX_MODE = 3) || bad Reg.RING_SUB_LOG2 4 16 ||
       bad Reg.RING_COMP_LOG2 4 16 || bad Reg.RING_POLL_US 1 1000, 0x1D01),
     (decide (f Reg.RING_SUB_BASE % 4096 ≠ 0) || decide (f Reg.RING_COMP_BASE % 4096 ≠ 0) || decide (f Reg.RING_CTRL_LINE % 64 ≠ 0) ||
       leaves (2 ^ 52) areas, 0x1D02),
     (decide (s.cxlMode (f Reg.RING_PORT) ≠ 2), 0x1D03),
     (decide (f Reg.RING_KIND = 1) && !s.ctxOn (f Reg.RING_CONTEXT), 0x1D04),
     (anyOverlap areas || anyMeets areas ((s.enabledRings.filter (fun q => decide (q ≠ r))).flatMap s.ringAreas ++
       s.enabledT3ws.map s.t3wRange), 0x1D05)]

end Sys2Proof.Machine
end

