-- ==== Sys2Proof/Machine/LegacyOps.lean ====
section
/-! DEFINITION. The W1 operations (07 R207 to R212): each as the slot word of the bundle instruction it behaves as, and
the three that no bundle instruction gives (LORSH, the branches, LWO). -/
namespace Sys2Proof.Machine

/-- A slot word from an opcode and fields placed at their lowest bits; p0, not inverted. -/
def slotOf (op : Nat) (fs : List (Nat × Nat)) : Word := BitVec.ofNat 64 (fs.foldl (fun a f => a + f.2 * 2 ^ f.1) (op * 32))
/-- A 10-bit immediate as 32 bits, sign-extended. -/
def imm10 (n : Nat) : Nat := unsignedOf 32 (signed 10 n)

/-- The 21-bit operation as a slot and its word, or none where Table 07-5 does not list it or an unused bit is set. -/
def legacySlot (o : Nat) (r : RegFile) : Option (Slot × Word) :=
  let op := bitsAt o 0 6
  let d := bitsAt o 6 5
  let a := bitsAt o 11 5
  let b := bitsAt o 16 5
  let i10 := bitsAt o 11 10
  let peg := fld (r.sreg a) 0 16
  let rrr (n : Nat) : Option (Slot × Word) := some (.S, slotOf n [(13, d), (19, a), (25, b)])
  let vvv (n : Nat) : Option (Slot × Word) := some (.V, slotOf n [(13, d), (19, a), (25, b)])
  match op with
  | 0x00 => if o = 0 then some (.S, 0) else none
  | 0x01 => rrr 0x01
  | 0x02 => rrr 0x02
  | 0x03 => rrr 0x03
  | 0x04 => rrr 0x05
  | 0x05 => rrr 0x06
  | 0x06 => rrr 0x07
  | 0x07 => rrr 0x08
  | 0x08 => some (.S, slotOf 0x01 [(13, d), (19, d), (31, 1), (32, imm10 i10)])
  | 0x09 => some (.S, slotOf 0x10 [(13, d), (32, imm10 i10)])
  | 0x0A => some (.S, slotOf opLorsh [(13, d), (32, i10)])
  | 0x10 => some (.S, slotOf 0x20 [(13, d), (19, a), (32, 8 * b)])
  | 0x11 => some (.S, slotOf 0x21 [(19, a), (25, d), (32, 8 * b)])
  | 0x12 => some (.S, slotOf 0x22 [(13, d), (19, a), (32, 32 * b)])
  | 0x18 => if d = 0 then some (.S, slotOf opLegacyBranch []) else none
  | 0x19 => some (.S, slotOf opLegacyBranch [(19, d)])
  | 0x1A => some (.S, slotOf opLegacyBranch [(19, d)])
  | 0x1B => if d = 0 ∧ b = 0 then some (.S, slotOf opLegacyBranch [(19, a)]) else none
  | 0x20 => some (.M, slotOf 0x01 [(13, d), (18, a), (23, bitsAt o 16 4), (27, bitsAt o 20 1)])
  | 0x21 => if bitsAt o 15 6 = 0 then some (.M, slotOf opLwo [(13, bitsAt o 11 4), (17, d)]) else none
  | 0x28 => vvv 0x01
  | 0x29 => vvv 0x02
  | 0x2A => vvv 0x03
  | 0x2B => vvv 0x05
  | 0x2C => vvv 0x06
  | 0x2D => some (.V, slotOf 0x20 [(13, d), (19, a), (24, b)])
  | 0x2E => some (.V, slotOf 0x21 [(13, d), (19, a), (24, b)])
  | 0x30 => if b = 0 then some (.D, slotOf 0x01 [(13, d), (18, a)]) else none
  | 0x38 => if d = 0 ∧ b = 0 then some (.S, slotOf 0x50 [(13, peg), (29, 1)]) else none
  | 0x39 => if d = 0 then some (.S, slotOf 0x51 [(13, peg), (32, fld (r.sreg b) 0 32)]) else none
  | 0x3A => if o = 0x3A then some (.S, slotOf 0x52 [(13, 31)]) else none
  | 0x3F => if o = 0x3F then some (.S, slotOf 0x7F []) else none
  | _ => none

/-! ## Branches (R210) -/

def View.lop (v : View) : Nat := legacyOp v.i
/-- The target of a legacy branch. -/
def legacyTarget (v : View) : Word :=
  if bitsAt v.lop 0 6 = 0x1B then v.sa
  else BitVec.ofNat 64 (v.i.addr.toNat / 64 * 64) + BitVec.ofInt 64 (64 * signed 10 (bitsAt v.lop 11 10))
def legacyTargetOk (v : View) : Bool :=
  let t := (legacyTarget v).toNat
  match v.program with
  | none => bitsAt v.lop 0 6 ≠ 0x1B || decide (t % 32 = 0)
  | some p =>
    if bitsAt v.lop 0 6 = 0x1B then inBundleCode p t
    else decide (legacySeg p v.i.addr.toNat = legacySeg p t) && (legacySeg p t).isSome
def legacyTaken (v : View) : Bool :=
  match bitsAt v.lop 0 6 with
  | 0x19 => v.sa != 0
  | 0x1A => v.sa == 0
  | _ => true

/-! ## LWO (R212) -/

def View.lwD (v : View) : Desc := v.desc (v.f 17 5)
def judgeLwo (v : View) : List Cause :=
  let d := v.lwD
  let t := v.f 13 4
  let sh := descShape (v.f 17 5) d false ++
    causeIf (decide (d.stride < 3 * d.cols) && decide (1 < d.rows)) (0x2106, v.f 17 5)
  sh ++ causeIf (decide (64 < d.rows)) (0x2104, d.rows) ++ causeIf (decide (64 < d.cols)) (0x2104, d.cols) ++
  tileCause v t ++
  (if d.space ≠ 0 then [(0x2107, d.base)]
   else if sh = [] then v.rangeCause 0 d.base (spanBytes d.rows (3 * d.cols) d.stride) true else []) ++
  causeIf (decide (2 ≤ tileKind (mapGet 0 v.core.tileStatus t))) (0x7001, 0x200 + tileKind (mapGet 0 v.core.tileStatus t))

/-- The 24 bits of one element, and its flags. -/
def lwoBits (kind shift w : Nat) : Nat × Flags :=
  if kind = 1 then
    let x := signed 32 w * (4 ^ shift : Nat)
    let y : Int := max (-(2 ^ 23 : Nat)) (min x (2 ^ 23 - 1 : Nat))
    (unsignedOf 24 y, fIf (decide (x ≠ y)) fSaturated)
  else
    let m := w % 2 ^ 31
    let sign := w / 2 ^ 31 * 2 ^ 23
    if 0x7F800000 < m then (0x7FC000, fIf (m &&& 0x400000 = 0) fInvalid)
    else if m = 0x7F800000 then (sign + 0x7F7FFF, fSaturated)
    else
      let q := m / 256
      let r := m % 256
      let up := if 128 < r ∨ (r = 128 ∧ q % 2 = 1) then q + 1 else q
      if 0x7F8000 ≤ up then (sign + 0x7F7FFF, fSaturated ||| fOverflow ||| fInexact)
      else (sign + up, fIf (decide (r ≠ 0)) fInexact ||| fIf (decide (r ≠ 0) && decide (m < 0x7FFFC0)) fUnderflow)

/-- LWO (03 R101, 07 R212). DESIGN CHOICE (log entry 96): its elements, whose destination has no FMT, count in no array
counter. -/
def effLwo (v : View) : Effect :=
  let d := v.lwD
  let t := v.f 13 4
  let st := mapGet 0 v.core.tileStatus t
  let rows := (upto d.rows).map (fun i => (upto d.cols).map (fun j => lwoBits (tileKind st) (tileShift st) (v.accWord t i j)))
  { mem := (upto d.rows).map (fun i => v.rowPut d i ((rows.getD i []).flatMap (fun e => leBytes 3 e.1)))
    flags := rows.foldl (fun a r => r.foldl (fun a e => a ||| e.2) a) 0 }

/-! ## The operations no bundle instruction gives -/

def judgeLegacy (v : View) : List Cause :=
  if v.i.slot = .M then judgeLwo v
  else if v.op = opLegacyBranch then causeIf (!legacyTargetOk v) (0x2108, (legacyTarget v).toNat)
  else []
def effLegacy (v : View) : Effect :=
  if v.i.slot = .M then effLwo v
  else if v.op = opLegacyBranch then (if legacyTaken v then { ctl := .branch (legacyTarget v) } else {})
  else { s := [(v.sd, (v.sr v.sd <<< 10) ||| BitVec.ofNat 64 (v.f 32 10))] }
/-- The instruction is one of those. -/
def View.legacyOnly (v : View) : Bool :=
  v.i.legacy.isSome && ((v.i.slot = .M && v.op == opLwo) || (v.i.slot = .S && (v.op == opLorsh || v.op == opLegacyBranch)))

end Sys2Proof.Machine
end

