-- ==== Sys2Proof/Machine/Trace.lean ====
section
/-! DEFINITION. The record of an armed step (09 R268): the digest of each completed M, V or D instruction that writes data
(16 R437), and the bytes that come from outside what a replay can rebuild. -/
namespace Sys2Proof.Machine

def rowOp (v : View) : Bool := isRowOp v.op
def optOp (op : Nat) : Bool := op == 0xA0 || op == 0xA1 || op == 0xA8 || op == 0xA9

/-! ## Digests (16 R437) -/

def dedup {α : Type} [DecidableEq α] : List α → List α
  | [] => []
  | a :: l => if l.contains a then dedup l else a :: dedup l
/-- The check value of a piece of at most 512 bytes, zero-padded. -/
def checkValue (bs : List Byte) : List Byte := leBytes 4 (crc32c (bs ++ List.replicate (512 - bs.length) 0)).toNat
/-- The granules a list of writes touches, by place and number, ascending. -/
def granulesOf (ws : List MemWrite) : List (Loc × Nat) :=
  sortBy (fun a b => decide (a.2 < b.2)) (dedup (ws.flatMap (fun w =>
    (upto (if w.bytes = [] then 0 else (w.addr + w.bytes.length - 1) / 512 - w.addr / 512 + 1)).map (fun i => (w.loc, w.addr / 512 + i)))))
/-- The 128 granules of a tile. -/
def tileChecks (acc : Map (BitVec 32)) (t : Nat) : List Byte :=
  (upto 128).flatMap (fun g => checkValue ((upto 128).flatMap (fun i => leBytes 4 (mapGet 0 acc (16384 * t + 128 * g + i)).toNat)))
/-- The digest of an effect, on the state it left. -/
def State.digest (s : State) (c : Nat) (e : Effect) : BitVec 32 :=
  let k := s.core c
  let asc (l : List Nat) : List Nat := sortBy (fun a b => decide (a < b)) (dedup l)
  crc32c ((granulesOf e.mem).flatMap (fun g => checkValue (s.bytesAt g.1 (512 * g.2) 512)) ++
    (asc (e.s.map (fun r => r.1))).flatMap (fun n => checkValue (leBytes 8 (k.regs.sreg n).toNat)) ++
    (asc (e.v.map (fun r => r.1))).flatMap (fun n => checkValue (leBytes 256 (k.regs.vreg n).toNat)) ++
    (asc (e.p.map (fun r => r.1))).flatMap (fun n => checkValue (leBytes 8 (k.regs.preg n).toNat)) ++
    (asc (e.acc.map (fun r => r.1 / 16384))).flatMap (tileChecks k.acc))
def Effect.writesData (e : Effect) : Bool :=
  decide (e.mem ≠ []) || decide (e.s ≠ []) || decide (e.v ≠ []) || decide (e.p ≠ []) || decide (e.acc ≠ [])

/-! ## Imports -/

/-- The bytes of some rows of a tensor with their fine scales, as SPACE, address and length. -/
def rowReads (d : Desc) (rows : List Nat) : List (Nat × Nat × Nat) :=
  rows.flatMap (fun r => (partRange d r 0 d.cols).map (fun p => (d.space, p.1, p.2)))
def allReads (d : Desc) : List (Nat × Nat × Nat) := rowReads d (upto d.rows)
/-- What a gather-family operation reads: its index list, the rows that its list names, the rows it combines with. -/
def View.gathReads (v : View) : List (Nat × Nat × Nat) :=
  let named := v.gList.filter (fun r => decide (r < v.gRows))
  (v.gI.space, v.gI.base, v.gN * v.gW) ::
    (if v.op = 0x90 then rowReads v.gT named
     else if v.op = 0x91 then rowReads v.gR (upto v.gN) ++ (if v.gCmb = 0 then [] else rowReads v.gT named)
     else rowReads v.gT (upto v.gN))
/-- The bytes of memory that an instruction reads, as SPACE, address and length. -/
def View.reads (v : View) : List (Nat × Nat × Nat) :=
  match v.i.slot with
  | .S => []
  | .M => if v.op = 0x01 ∨ v.op = 0x10 then allReads v.tx ++ allReads v.ty else []
  | .V =>
    if isRowOp v.op then
      (if rowReadsX v.op && !v.bit 18 then allReads (v.desc v.rTs) else []) ++
      (if rowReadsDy v.op then allReads (v.desc (v.rTs + 1)) else []) ++
      (if rowGain v = 0 then [] else allReads (v.desc (v.rTs + 2))) ++ (if v.op = 0x7B then allReads (v.desc v.rTs) else [])
    else if gathOp v.op then v.gathReads
    else if v.op = 0xA0 then ([0, 1, 3] ++ (if v.oKind = 1 then [2] else [])).flatMap (fun k => allReads (v.oDesc k))
    else if v.op = 0x60 then allReads v.cvtS
    else if v.op = 0x20 then (partRange v.ldDesc v.ldRow v.ldCol v.ldCount).map (fun p => (v.ldDesc.space, p.1, p.2))
    else if v.op = 0x23 then [(v.ldDesc.space, v.maskBytes.1, v.maskBytes.2)]
    else []
  | .D => if v.op = 0x01 ∨ v.op = 0x10 then allReads v.xS else []
/-- A read that a replay cannot rebuild: another core's scratchpad, tier 3, or tier 1 outside the state region. -/
def View.isImport (v : View) (r : Nat × Nat × Nat) : Bool :=
  match r.1, v.x with
  | 2, _ => true
  | 4, _ => decide (bitsAt r.2.1 21 8 ≠ v.k)
  | 1, some x =>
    let lo := v.s.rd (Reg.ctx x) Reg.CTX_STATE_BASE
    !(decide (lo ≤ r.2.1) && decide (r.2.1 + r.2.2 ≤ lo + v.s.rd (Reg.ctx x) Reg.CTX_STATE_BYTES))
  | _, _ => false
/-- A read that would bring bytes of Drone origin into the trace (15 Table 15-6). -/
def View.importsDrone (v : View) (x : Nat) : Bool :=
  (v.reads.filter v.isImport).any (fun r => decide (r.1 = 1) && v.s.droneInRange x r.2.1 r.2.2)
def View.imports (v : View) : List Byte :=
  (v.reads.filter v.isImport).flatMap (fun r => let la := v.locate r.1 r.2.1; v.bytes la.1 la.2 r.2.2)

/-! ## Recording -/

/-- The context records its open step. -/
def State.tracing (s : State) (x : Nat) : Bool :=
  (s.ctx x).step.isSome && decide ((s.ctx x).replayArm = some (BitVec.ofNat 64 (s.rd (Reg.ctx x) Reg.CTX_STEP + 1)))
/-- The buckets of the open step. -/
def State.traceBuckets (s : State) (x : Nat) : Nat :=
  if (s.rd (Reg.ctx x) Reg.CTX_STEP + 1) % s.rd (Reg.ctx x) Reg.CTX_THIN_N = 0 then s.rd (Reg.ctx x) Reg.CTX_BUCKETS else 0
/-- Where the draws of Table 09-10 begin, and where they end. -/
def State.traceDraws (s : State) (x : Nat) : Nat := 0x40 + 16 * s.traceBuckets x
def State.traceHead (s : State) (x : Nat) : Nat := s.traceDraws x + 4 * s.rd (Reg.ctx x) Reg.CTX_BAYS * 64 * 16
/-- The bytes of trace so far. -/
def Ctx.traceUsed (k : Ctx) : Nat := 16 * k.trace.length + sumOf (k.imports.map (fun i => i.bytes.length))
/-- The trace area takes bytes at an offset, as far as it reaches. -/
def State.traceStore (s : State) (x off : Nat) (bs : List Byte) : State :=
  s.store (.tier1 x) (s.rd (Reg.ctx x) Reg.CTX_TRACE_BASE + off) 0 (bs.take (s.rd (Reg.ctx x) Reg.CTX_TRACE_BYTES - off))
/-- Bytes join the trace behind the draws. DESIGN CHOICE (log entry 109): entries and imports stand in one sequence, in the
order they came. Once the area is full, recording stops and the record is truncated. -/
def State.traceAppend (s : State) (x : Nat) (bs : List Byte) (f : Ctx → Ctx) : State :=
  let k := s.ctx x
  let at' := s.traceHead x + k.traceUsed
  if !s.tracing x || k.traceTruncated then s
  else if s.rd (Reg.ctx x) Reg.CTX_TRACE_BYTES < at' + bs.length then s.setCtx x { k with traceTruncated := true }
  else (s.traceStore x at' bs).setCtx x (f k)
/-- Imported bytes join the record. -/
def State.importBytes (s : State) (x : Nat) (core : Option LogicalId) (seq : Word) (sl : Slot) (sq : Word) (bs : List Byte) : State :=
  s.traceAppend x bs (fun k => { k with imports := k.imports ++ [⟨core, seq, sl, sq, bs⟩] })
def slotCode : Slot → Nat | .S => 0 | .M => 1 | .V => 2 | .D => 3
/-- A 16-byte entry: BUNDLE_SEQ, slot, core, digest (DESIGN CHOICE, log entry 109). -/
def entryBytes (e : TraceEntry) : List Byte :=
  leBytes 8 e.seq.toNat ++ leBytes 1 (slotCode e.slot) ++ leBytes 1 e.core.val ++ leBytes 2 0 ++ leBytes 4 e.digest.toNat
def State.traceInst (s : State) (x : Nat) (e : TraceEntry) : State :=
  s.traceAppend x (entryBytes e) (fun k => { k with trace := k.trace ++ [e] })
/-- An instruction of core c has left its effect e in s1: it is recorded where it writes data. -/
def State.traceEffect (s1 : State) (c : CoreId) (i : InFlight) (e : Effect) : State :=
  match s1.place c.val with
  | some (x, k) =>
    if s1.tracing x && decide (i.slot ≠ .S) && e.writesData then s1.traceInst x ⟨Fin.ofNat 256 k, i.seq, i.slot, s1.digest c.val e⟩ else s1
  | none => s1
/-- Complete an instruction and record it where its context records. A move that a drain has stopped has written its first
bytes already (05 R161). Nothing of a granule of Drone origin enters the trace: the context halts (15 Table 15-6). -/
def State.completeTraced (s : State) (c : CoreId) (i : InFlight) (e : Effect) : State :=
  let v := viewOf s c.val i
  let s1 := s.complete c i (e.rest i.cursor)
  match s.place c.val with
  | none => s1
  | some (x, k) =>
    if s.tracing x then
      let bs := v.imports
      (if bs.isEmpty then s1 else if v.importsDrone x then s1.haltCtx x 0x4202 else s1.importBytes x (some (Fin.ofNat 256 k)) i.seq i.slot 0 bs).traceEffect c i e
    else s1

end Sys2Proof.Machine
end

