-- ==== Sys2Proof/Machine/Faults.lean ====
section
/-! DEFINITION. The fault log (16 R458), and poisoned granules where they are consumed or written in part (13 R357, R358; 16
Table 16-3). -/
namespace Sys2Proof.Machine

/-! ## The fault log (Table 16-8) -/

/-- What a record says besides the times and its number. -/
structure FaultInfo where
  detect : Nat
  action : Nat := 0
  island : Nat := 0
  ctx : Option Nat := none
  core : Nat := 0x1FF
  row : Nat := 0
  col : Nat := 0
  addr : Nat := 0
  exposed : Nat := 0
deriving DecidableEq, Repr

/-- The bay whose island clock a core runs at: the one it serves, else its own; a bent's sixteenth position has none. -/
def State.clockBay (s : State) (c : Nat) : Option Nat :=
  match s.logicalOf c with
  | some l => some (l / 4)
  | none => if c % 17 < 16 then some (4 * (c / 17) + c % 17 / 4) else none
def State.currentMhz (s : State) (b : Nat) : Nat := s.rd (Reg.pwrBay b) Reg.PWR_CURRENT_MHZ
/-- CURRENT_MHZ of a core's island: a free core runs at the lowest of its bent (19 R507). DESIGN CHOICE (log entry 88): a
fenced core at position 16 that serves nothing reads 600. -/
def State.coreMhz (s : State) (c : Nat) : Nat :=
  let h := c / 17
  if s.freeOf h = c then (upto 4).foldl (fun m i => min m (s.currentMhz (4 * h + i))) 600
  else match s.clockBay c with | some b => s.currentMhz b | none => 600
/-- The clock of an island in whole MHz (01 Table 01-6). -/
def State.islandMhz (s : State) (id : Nat) : Nat :=
  match id / 4096 with
  | 0 => s.coreMhz (id % 4096)
  | 1 | 2 => 900
  | 3 => 1500
  | 5 => 1562
  | 7 => 1200
  | _ => 1000
/-- STEP of a context's step record. -/
def State.recordStep (s : State) (x : Nat) : Nat :=
  if s.trains x then s.natAt (.tier1 x) (s.rd (Reg.ctx x) Reg.CTX_STEPREC_BASE) 8 else 0
def faultRecord (f : FaultInfo) (cycles : Word) (mhz step seq : Nat) : BitVec 512 :=
  let w0 := f.detect % 2 ^ 16 + (f.action % 2 ^ 16) * 2 ^ 16 + (f.island % 2 ^ 16) * 2 ^ 32 +
    (match f.ctx with | some x => (x % 2 ^ 12) * 2 ^ 48 + 2 ^ 60 | none => 0)
  let w2 := mhz % 2 ^ 16 + (f.core % 2 ^ 9) * 2 ^ 16 + (f.row % 256) * 2 ^ 32 + (f.col % 256) * 2 ^ 40
  BitVec.ofNat 512 (w0 + cycles.toNat * 2 ^ 64 + w2 * 2 ^ 128 + (f.addr % 2 ^ 64) * 2 ^ 192 + (step % 2 ^ 64) * 2 ^ 256 +
    (f.exposed % 2 ^ 64) * 2 ^ 320 + seq * 2 ^ 384)
/-- A record is written at LOG_HEAD mod 256, and is an event (R458, 18 Table 18-3). -/
def State.logFault (s : State) (f : FaultInfo) : State :=
  let head := s.rd Reg.safSafety Reg.SAF_LOG_HEAD
  let step := match f.ctx with | some x => s.recordStep x | none => 0
  let r := faultRecord f (Config.islandCycles s.free) (s.islandMhz f.island) step head
  (({ s with free := s.free + 1, faultLog := mapSet faultRecordReset s.faultLog (head % 256) r } : State).bump
    Reg.safSafety Reg.SAF_LOG_HEAD 1).event Reg.HIF_EV_FAULT_LOG

/-! ## Poison (13 R357, R358) -/

/-- A data-path fault that implicates no core: it is counted and logged, and the context whose data it met halts (Table
16-3). -/
def State.dataFault (s : State) (x code : Nat) (f : FaultInfo) : State :=
  ((s.bump Reg.safSafety Reg.SAF_DATA_PATH_FAULTS 1).logFault
    { f with detect := code, ctx := if s.ctxOn x then some x else none }).haltCtx x code
/-- A fault on poisoned granule g. DESIGN CHOICE (log entry 102): the record names the granule's channel group and address. -/
def State.poisonFault (s : State) (x code g : Nat) : State :=
  s.dataFault x code { detect := code, island := 0x3000 + g * granule / 2 ^ 34, addr := g * granule }
/-- The fault of reading and writing ranges of context x's region: a poisoned granule is consumed, or written in part. -/
def State.poisonMet (s : State) (x : Nat) (reads writes : List (Nat × Nat)) : Option (Nat × Nat) :=
  if s.poison = [] then none
  else match reads.flatMap (fun r => s.poisonIn x r.1 r.2) with
    | g :: _ => some (0x3003, g)
    | [] => (writes.flatMap (fun w => s.partlyIn x w.1 w.2)).head?.map (fun g => (0x3004, g))
/-- What an operation that has ended in t met of poison as it found the state s. -/
def State.afterPoison (s : State) (x : Nat) (reads writes : List (Nat × Nat)) (t : State) : State :=
  match s.poisonMet x reads writes with
  | some (code, g) => t.poisonFault x code g
  | none => t
/-- The part of a read that tier 1 serves, as a range of the context's region (13 R365). -/
def View.regionPart (v : View) (r : Nat × Nat × Nat) : List (Nat × Nat) :=
  match r.1, v.x with
  | 1, some _ => [r.2]
  | 3, some x => match v.s.teacherHead x with
    | some n =>
      let held := v.s.rd (Reg.nvwSlot n) Reg.SLOT_TEACHER_BYTES
      let lo := max r.2.1 held
      [(v.s.rd (Reg.nvwSlot n) Reg.SLOT_STAGE_BASE + (lo - held), r.2.1 + r.2.2 - lo)]
    | none => []
  | _, _ => []
def MemWrite.regionPart (w : MemWrite) : List (Nat × Nat) := match w.loc with | .tier1 _ => [(w.addr, w.bytes.length)] | _ => []
/-- The port that the line of a tier-3 window at host address a travels on (18 R487): port A[12] where both carry it and that one
runs CXL, else the other one. -/
def State.linePort (s : State) (x a : Nat) : Nat :=
  match s.rd (Reg.t3w x) Reg.T3W_PORTS with
  | 1 => 0
  | 2 => 1
  | _ => let p := a / 4096 % 2; if s.cxlMode p = 2 then p else 1 - p
/-- A tier-3 read over a port that does not run CXL, as while it is under reset, returns poison (19 R515). -/
def State.lineLost (s : State) (x o : Nat) : Option Nat :=
  let p := s.linePort x (s.windowBase x + o)
  if s.cxlMode p = 2 then none else some p
/-- The port that a read of tier 3 was lost on: its first line's, or the next page's. -/
def State.hostLost (s : State) (x : Nat) (r : Nat × Nat × Nat) : Option Nat :=
  if r.1 = 2 ∧ r.2.2 ≠ 0 then (s.lineLost x r.2.1).orElse (fun _ => s.lineLost x (r.2.1 + r.2.2 - 1)) else none
/-- A tier-3 read that returned poison is consumed as a poisoned granule and counted (18 R488). DESIGN CHOICE (log entry 102): the
record names the CXL port's island and the instruction's address. -/
def State.hostPoison (s : State) (v : View) (t : State) : State :=
  match v.x with
  | some x => match v.reads.findSome? (s.hostLost x) with
    | some p => (t.bump (Reg.t3w x) Reg.T3W_POISON_READS 1).dataFault x 0x3003 { detect := 0x3003, island := 0x6000 + p, addr := v.i.addr.toNat }
    | none => t
  | none => t
/-- An instruction of core c that has ended in t met poison in what it read or stored. -/
def State.instPoison (s : State) (v : View) (e : Effect) (t : State) : State :=
  match v.x with
  | some x => s.hostPoison v (s.afterPoison x (v.reads.flatMap v.regionPart) ((joinWrites e.mem).flatMap MemWrite.regionPart) t)
  | none => t

end Sys2Proof.Machine
end

