-- ==== Sys2Proof/Machine/Slots.lean ====
section
/-! DEFINITION. A slot instruction from its word: decode, predicate, causes at issue, draws, effect (05 R139 to R142,
R154, R529), and running one at once on a core. -/
namespace Sys2Proof.Machine


/-- The operand bits a word's opcode assigns, or none where the slot's opcode space does not list it (R140, R174). -/
def assignedBits (sl : Slot) (word : Word) : Option (List (Nat × Nat)) :=
  let op := fld word 5 8
  match sl with
  | .S => assignedS op word
  | .M => assignedM op
  | .V =>
    if op = 0 then some []
    else if isRowOp op then assignedRow op
    else if gathOp op then assignedGath op word
    else if optOp op then assignedOpt op word
    else assignedVec op word
  | .D => assignedD op
/-- No operand bit outside the assigned fields is set. -/
def bitsClear (word : Word) (fs : List (Nat × Nat)) : Bool :=
  (upto 51).all (fun i => !word.getLsbD (13 + i) || fs.any (fun f => decide (f.1 ≤ 13 + i) && decide (13 + i < f.1 + f.2)))
/-- The cause a word meets as it is decoded, before its predicate is read (R141). -/
def decodeCause (sl : Slot) (word : Word) : List Cause :=
  match assignedBits sl word with
  | none => [(0x2101, fld word 5 8)]
  | some fs => causeIf (!bitsClear word fs) (0x2101, fld word 5 8)

/-- The unit a slot word runs on (06 Table 06-1). -/
def unitOf (sl : Slot) (word : Word) : ExecUnit :=
  let op := fld word 5 8
  match sl with
  | .S => .scalar
  | .M => if op = 0x20 ∨ op = opLwo then .writeOut else .array
  | .V => if isRowOp op then .row else if gathOp op then .gather else .vector
  | .D => .bellows

/-- The slot executes (R141); a legacy operation always does. -/
def View.executes (v : View) : Bool := (v.pr (v.f 0 4) != 0) != v.bit 4

/-! ## Judgement, draws, effect -/

def judgeSlot (v : View) : List Cause :=
  if v.op = 0 then []
  else if v.legacyOnly then judgeLegacy v
  else match v.i.slot with
    | .S => judgeS v
    | .M => if v.op = 0x20 then judgeWriteOut v else judgeMma v
    | .V => if rowOp v then judgeRow v else if gathOp v.op then judgeGath v else if optOp v.op then judgeOpt v else judgeVec v
    | .D => if v.op = 0x20 ∨ v.op = 0x28 then judgeWw v else judgeXfer v
/-- The causes that rest on bytes in memory (R531). -/
def memSlot (v : View) : List MemCause :=
  if v.op = 0 ∨ v.legacyOnly then []
  else match v.i.slot with
    | .M => if v.op = 0x20 then memWriteOut v else if isIntMma v then [] else memMma v
    | .V => if rowOp v then memRow v else if gathOp v.op then memGath v
      else if v.op = 0xA0 then memVopt v else if optOp v.op then [] else memVec v
    | .D => memXfer v
    | .S => []
def drawsSlot (v : View) : List Nat :=
  if v.op = 0 ∨ v.legacyOnly then []
  else match v.i.slot with
    | .S => drawsS v
    | .M => if v.op = 0x20 then drawsWriteOut v else drawsMma v
    | .V => if rowOp v then drawsRow v else if gathOp v.op then drawsGath v
      else if v.op = 0xA0 then drawsVopt v else if optOp v.op then [] else drawsVec v
    | .D => []
def effSlot (v : View) : Effect :=
  if v.op = 0 then {}
  else if v.legacyOnly then effLegacy v
  else match v.i.slot with
    | .S => effScalar v
    | .M => if v.op = 0x20 then effWriteOut v else effMma v
    | .V => if rowOp v then effRow v else if gathOp v.op then effGather v else if optOp v.op then effOpt v else effVec v
    | .D => if v.op = 0x20 ∨ v.op = 0x28 then effWw v else if v.op = 0x10 then effXfert v else effXfer v

/-- The lane whose draw counter would pass its end (02 R68). -/
def drawCause (v : View) : List Cause :=
  match drawsOver v.i.regs.lanes (drawsSlot v) with | some j => [(0x7006, j)] | none => []
/-- Every cause taken at issue of a decoded instruction that executes. -/
def slotCauses (v : View) : List Cause := judgeSlot v ++ (memSlot v).map MemCause.cause ++ drawCause v
/-- The cause posted: the decoder's, or the lowest of the others if the slot executes. -/
def issueCause (v : View) : Option Cause :=
  match (if v.i.legacy.isSome then [] else decodeCause v.i.slot v.i.word) with
  | c :: _ => some c
  | [] => if v.executes then lowest (slotCauses v) else none

/-! ## Running one instruction at once -/

/-- An instruction as it stands at issue. -/
def instOf (k : Core) (sl : Slot) (word : Word) (leg : Option (Fin 3 × Word)) : InFlight :=
  { id := k.nextId, slot := sl, unit := unitOf sl word, word := word, addr := k.pc, seq := k.seq, regs := k.regs,
    dyn := fld k.numStatus 8 3, nanMode := nanMode k.trapControl, status := none, before := none,
    legacy := leg, retries := 0, cursor := 0, asked := 0, taken := false }

def State.setLanes (s : State) (c : Nat) (m : Map Lane) : State :=
  s.setCore c { s.core c with regs := { (s.core c).regs with lanes := m } }

/-- Judge, reserve and complete one instruction on core c (log entry 11: a slot row acts at once). -/
def State.runInst (s : State) (c : CoreId) (i : InFlight) : State :=
  let v := viewOf s c.val i
  match issueCause v with
  | some cause => s.trapAtIssue c.val i cause
  | none =>
    let e := effSlot v
    if v.executes then s.instPoison v e ((s.setLanes c.val (v.lanesAfter (drawsSlot v))).completeTraced c i e) else s

def slotWord (op : Nat) (a : SlotArgs) : Word :=
  (a.operands ++ BitVec.ofNat 8 op ++ BitVec.ofBool a.pneg ++ a.pred : BitVec (51 + 8 + 1 + 4))
/-- A slot row: the instruction its word spells, on core c. -/
def State.runSlot (s : State) (c : CoreId) (sl : Slot) (op : Nat) (a : SlotArgs) : State :=
  s.runInst c (instOf (s.core c.val) sl (slotWord op a) none)

/-- The 64-bit word that holds one operation at a position, LNOP elsewhere (07 Table 07-4). -/
def legacyWord (op : Nat) (a : LegacyArgs) : Word :=
  BitVec.ofNat 64 ((op + a.operands.toNat * 64) * 2 ^ (21 * a.pos.val) + if a.wait then 2 ^ 63 else 0)
/-- A legacy row: the operation at its position on core c. -/
def State.runLegacy (s : State) (c : CoreId) (op : Nat) (a : LegacyArgs) : State :=
  let k := s.core c.val
  let w := legacyWord op a
  let o := op + a.operands.toNat * 64
  match legacySlot o k.regs with
  | some (sl, word) => s.runInst c (instOf k sl word (some (a.pos, w)))
  | none => s.trapAtIssue c.val (instOf k .S 0 (some (a.pos, w))) (0x2101, o)

end Sys2Proof.Machine
end

