-- ==== Sys2Proof/Machine/Scalar.lean ====
section
/-! DEFINITION. The rows of the S slot (06 R177 to R183; 07 R198, R199, R201). -/
namespace Sys2Proof.Machine

abbrev Out := Host.Outcome State Fault Refusal

/-- NOOP (R139): Slot opcode 0x00 does nothing. -/
def execNoop (c : CoreId) (sl : Slot) (a : SlotArgs) (s : State) : Out := .next (s.runSlot c sl 0x00 a)

/-- ADD (R177): Scalar add modulo 2^64. -/
def execAdd (c : CoreId) (a : SlotArgs) (s : State) : Out := .next (s.runSlot c .S 0x01 a)

/-- SUB (R177): Scalar subtract modulo 2^64. -/
def execSub (c : CoreId) (a : SlotArgs) (s : State) : Out := .next (s.runSlot c .S 0x02 a)

/-- MUL (R177): Scalar multiply modulo 2^64. -/
def execMul (c : CoreId) (a : SlotArgs) (s : State) : Out := .next (s.runSlot c .S 0x03 a)

/-- MULH (R177): High 64 bits of the signed scalar product. -/
def execMulh (c : CoreId) (a : SlotArgs) (s : State) : Out := .next (s.runSlot c .S 0x04 a)

/-- AND (R177): Scalar bitwise AND. -/
def execAnd (c : CoreId) (a : SlotArgs) (s : State) : Out := .next (s.runSlot c .S 0x05 a)

/-- OR (R177): Scalar bitwise OR. -/
def execOr (c : CoreId) (a : SlotArgs) (s : State) : Out := .next (s.runSlot c .S 0x06 a)

/-- XOR (R177): Scalar bitwise XOR. -/
def execXor (c : CoreId) (a : SlotArgs) (s : State) : Out := .next (s.runSlot c .S 0x07 a)

/-- SHL (R177): Scalar shift left by SB[5:0]. -/
def execShl (c : CoreId) (a : SlotArgs) (s : State) : Out := .next (s.runSlot c .S 0x08 a)

/-- SHR (R177): Scalar logical shift right. -/
def execShr (c : CoreId) (a : SlotArgs) (s : State) : Out := .next (s.runSlot c .S 0x09 a)

/-- SAR (R177): Scalar arithmetic shift right. -/
def execSar (c : CoreId) (a : SlotArgs) (s : State) : Out := .next (s.runSlot c .S 0x0A a)

/-- MIN (R177): Signed scalar minimum. -/
def execMin (c : CoreId) (a : SlotArgs) (s : State) : Out := .next (s.runSlot c .S 0x0B a)

/-- MAX (R177): Signed scalar maximum. -/
def execMax (c : CoreId) (a : SlotArgs) (s : State) : Out := .next (s.runSlot c .S 0x0C a)

/-- MINU (R177): Unsigned scalar minimum. -/
def execMinu (c : CoreId) (a : SlotArgs) (s : State) : Out := .next (s.runSlot c .S 0x0D a)

/-- MAXU (R177): Unsigned scalar maximum. -/
def execMaxu (c : CoreId) (a : SlotArgs) (s : State) : Out := .next (s.runSlot c .S 0x0E a)

/-- LDI (R177): Load the sign-extended immediate into SD. -/
def execLdi (c : CoreId) (a : SlotArgs) (s : State) : Out := .next (s.runSlot c .S 0x10 a)

/-- LDIH (R177): Load the immediate into SD[63:32], keeping the low half. -/
def execLdih (c : CoreId) (a : SlotArgs) (s : State) : Out := .next (s.runSlot c .S 0x11 a)

/-- FADD (R178): Floating scalar add of width W in mode RM. -/
def execFadd (c : CoreId) (a : SlotArgs) (s : State) : Out := .next (s.runSlot c .S 0x14 a)

/-- FSUB (R178): Floating scalar subtract. -/
def execFsub (c : CoreId) (a : SlotArgs) (s : State) : Out := .next (s.runSlot c .S 0x15 a)

/-- FMUL (R178): Floating scalar multiply. -/
def execFmul (c : CoreId) (a : SlotArgs) (s : State) : Out := .next (s.runSlot c .S 0x16 a)

/-- FDIV (R178): Floating scalar divide, holding the scalar unit for 8 cycles. -/
def execFdiv (c : CoreId) (a : SlotArgs) (s : State) : Out := .next (s.runSlot c .S 0x17 a)

/-- FMAX (R58): Floating scalar maximum. -/
def execFmax (c : CoreId) (a : SlotArgs) (s : State) : Out := .next (s.runSlot c .S 0x18 a)

/-- FMIN (R58): Floating scalar minimum. -/
def execFmin (c : CoreId) (a : SlotArgs) (s : State) : Out := .next (s.runSlot c .S 0x19 a)

/-- FCVT (R178): Scalar conversion between int64, binary32 and binary64, as CONV selects. -/
def execFcvt (c : CoreId) (a : SlotArgs) (s : State) : Out := .next (s.runSlot c .S 0x1B a)

/-- SLD (R179): Load 8 bytes from the scratchpad into SD. -/
def execSld (c : CoreId) (a : SlotArgs) (s : State) : Out := .next (s.runSlot c .S 0x20 a)

/-- SST (R179): Store 8 bytes from SB to the scratchpad. -/
def execSst (c : CoreId) (a : SlotArgs) (s : State) : Out := .next (s.runSlot c .S 0x21 a)

/-- TDLD (R179): Load a 32-byte tensor descriptor into a td register. -/
def execTdld (c : CoreId) (a : SlotArgs) (s : State) : Out := .next (s.runSlot c .S 0x22 a)

/-- TDST (R179): Store a td register to the scratchpad. -/
def execTdst (c : CoreId) (a : SlotArgs) (s : State) : Out := .next (s.runSlot c .S 0x23 a)

/-- TDFLD (R177): Set a descriptor field, or add to it. -/
def execTdfld (c : CoreId) (a : SlotArgs) (s : State) : Out := .next (s.runSlot c .S 0x24 a)

/-- SMOVS (R170): Read a status register into SD. -/
def execSmovs (c : CoreId) (a : SlotArgs) (s : State) : Out := .next (s.runSlot c .S 0x28 a)

/-- SMOVT (R170): Write SA to a status register. -/
def execSmovt (c : CoreId) (a : SlotArgs) (s : State) : Out := .next (s.runSlot c .S 0x29 a)

/-- CMP (R177): Integer compare into a predicate register. -/
def execCmp (c : CoreId) (cond : BitVec 3) (a : SlotArgs) (s : State) : Out :=
  .next (s.runSlot c .S (0x30 + cond.toNat) a)

/-- FCMP (R178): Quiet floating compare into a predicate register. -/
def execFcmp (c : CoreId) (cond : BitVec 3) (a : SlotArgs) (s : State) : Out :=
  .next (s.runSlot c .S (0x38 + cond.toNat) a)

/-- BRA (R180): Branch relative to the bundle address. -/
def execBra (c : CoreId) (a : SlotArgs) (s : State) : Out := .next (s.runSlot c .S 0x40 a)

/-- BRR (R180): Branch to SA plus IMM. -/
def execBrr (c : CoreId) (a : SlotArgs) (s : State) : Out := .next (s.runSlot c .S 0x41 a)

/-- CALL (R177): Save the return address in SD, then branch as BRA. -/
def execCall (c : CoreId) (a : SlotArgs) (s : State) : Out := .next (s.runSlot c .S 0x42 a)

/-- PEGS (R198): Signal a peg with an increment. -/
def execPegs (c : CoreId) (a : SlotArgs) (s : State) : Out := .next (s.runSlot c .S 0x50 a)

/-- PEGW (R199): Wait until a peg's count reaches a threshold under the modular test. -/
def execPegw (c : CoreId) (a : SlotArgs) (s : State) : Out := .next (s.runSlot c .S 0x51 a)

/-- FENCE (R201): Place a barrier until earlier accesses in the scope mask complete. -/
def execFence (c : CoreId) (a : SlotArgs) (s : State) : Out := .next (s.runSlot c .S 0x52 a)

/-- TRAPNAN (R182): Write NAN_MODE and optionally clear NAN_SEEN. -/
def execTrapnan (c : CoreId) (a : SlotArgs) (s : State) : Out := .next (s.runSlot c .S 0x60 a)

/-- HALT (R183): Stop issue after this bundle. -/
def execHalt (c : CoreId) (a : SlotArgs) (s : State) : Out := .next (s.runSlot c .S 0x7F a)

end Sys2Proof.Machine
end

