-- ==== Sys2Proof/Machine/Array.lean ====
section
/-! DEFINITION. The rows of the M slot (03; 06 R184, R185). -/
namespace Sys2Proof.Machine

/-- MMA (R86): Matrix product accumulated into a tile with the fixed group alignment. -/
def execMma (c : CoreId) (a : SlotArgs) (s : State) : Out := .next (s.runSlot c .M 0x01 a)

/-- MMX (R95): Split-precision binary32 product through bfloat16 passes. -/
def execMmx (c : CoreId) (a : SlotArgs) (s : State) : Out := .next (s.runSlot c .M 0x10 a)

/-- WRITE_OUT (R185): Convert an accumulator tile to a destination, with optional row statistics. -/
def execWriteOut (c : CoreId) (a : SlotArgs) (s : State) : Out := .next (s.runSlot c .M 0x20 a)

end Sys2Proof.Machine
end

