-- ==== Sys2Proof/Machine/Bellows.lean ====
section
/-! DEFINITION. The rows of the D slot (06 R194, R195). -/
namespace Sys2Proof.Machine

/-- XFER (R194): Bellows move between spaces. -/
def execXfer (c : CoreId) (a : SlotArgs) (s : State) : Out := .next (s.runSlot c .D 0x01 a)

/-- XFERT (R194): Transposing Bellows move into the scratchpad. -/
def execXfert (c : CoreId) (a : SlotArgs) (s : State) : Out := .next (s.runSlot c .D 0x10 a)

/-- WWPUT (R228): A Windway put joins the queue's put order. -/
def execWwput (c : CoreId) (a : SlotArgs) (s : State) : Out := .next (s.runSlot c .D 0x20 a)

/-- WWGET (R228): A Windway get joins the queue's get order. -/
def execWwget (c : CoreId) (a : SlotArgs) (s : State) : Out := .next (s.runSlot c .D 0x28 a)

end Sys2Proof.Machine
end

