-- ==== Sys2Proof/Machine/Foot.lean ====
section
/-! DEFINITION. What an instruction reads and writes, as the interlocks see it (06 R165 to R170), and the spaces a FENCE
covers (07 R201). -/
namespace Sys2Proof.Machine

/-- Registers by kind (0 s, 1 v, 2 p, 3 td) and number, tiles, ranges of the own scratchpad, and ranges of side-memory
records. -/
structure Foot where
  rd : List (Nat × Nat) := []
  wr : List (Nat × Nat) := []
  tr : List Nat := []
  tw : List Nat := []
  mr : List (Nat × Nat) := []
  mw : List (Nat × Nat) := []
  recs : List (Nat × Nat) := []

def Foot.join (a b : Foot) : Foot :=
  ⟨a.rd ++ b.rd, a.wr ++ b.wr, a.tr ++ b.tr, a.tw ++ b.tw, a.mr ++ b.mr, a.mw ++ b.mw, a.recs ++ b.recs⟩

/-- The part of a range that lies in the core's own scratchpad (R168). -/
def View.own (v : View) (space addr len : Nat) : List (Nat × Nat) :=
  if len = 0 then []
  else if space = 0 then [(addr, len)]
  else if space = 4 ∧ bitsAt addr 21 8 = v.k then [(bitsAt addr 0 21, len)] else []
/-- Own ranges of rows × cols of a tensor, fine scales included. -/
def View.ownRows (v : View) (d : Desc) (rows cols : Nat) : List (Nat × Nat) :=
  v.own d.space d.base (spanBytes rows (rowBytes d.fmt cols) d.stride) ++
  (if d.fine then v.own d.space d.scaleBase (spanBytes rows (ceilDiv cols d.fmt.block) d.scaleRow) else [])
def View.ownAll (v : View) (d : Desc) : List (Nat × Nat) := v.ownRows d d.rows d.cols

def sR (n : Nat) : List (Nat × Nat) := [(0, n)]
def vR (n : Nat) : List (Nat × Nat) := [(1, n)]
def pR (n : Nat) : List (Nat × Nat) := [(2, n)]
def tR (n : Nat) : List (Nat × Nat) := [(3, n)]

/-- The scalar registers that LPEGS and LPEGW read for their peg and threshold (07 R208). -/
def legacyPegReads (v : View) : Foot :=
  if v.i.legacy.isSome then
    { rd := sR (bitsAt v.lop 11 5) ++ (if v.op = 0x51 then sR (bitsAt v.lop 16 5) else []) }
  else {}
def footS (v : View) : Foot :=
  let sa := sR (v.f 19 6)
  let sb := sR (v.f 25 6)
  let sd := sR (v.f 13 6)
  let op := v.op
  if op = 0 then {}
  else if op ≤ 0x0E then { rd := sa ++ (if v.bit 31 then [] else sb), wr := sd }
  else if op = 0x10 then { wr := sd }
  else if op = 0x11 then { rd := sd, wr := sd }
  else if op ≤ 0x19 then { rd := sa ++ sb, wr := sd }
  else if op = 0x1B then { rd := sa, wr := sd }
  else if op = 0x20 then { rd := sa, wr := sd, mr := v.own 0 v.offset 8 }
  else if op = 0x21 then { rd := sa ++ sb, mw := v.own 0 v.offset 8 }
  else if op = 0x22 then { rd := sa, wr := tR (v.f 13 5), mr := v.own 0 v.offset 32 }
  else if op = 0x23 then { rd := sa ++ tR (v.f 13 5), mw := v.own 0 v.offset 32 }
  else if op = 0x24 then { rd := sa ++ tR (v.f 13 5), wr := tR (v.f 13 5) }
  else if op = 0x28 then { wr := sd }
  else if op = 0x29 then { rd := sa }
  else if op ≤ 0x37 then { rd := sa ++ (if v.bit 31 then [] else sb), wr := pR (v.f 13 4) }
  else if op ≤ 0x3E then { rd := sa ++ sb, wr := pR (v.f 13 4) }
  else if op = 0x41 then { rd := sa }
  else if op = 0x42 then { wr := sd }
  else if op = opLorsh then { rd := sd, wr := sd }
  else if op = opLegacyBranch then { rd := sa }
  else if op = 0x50 ∨ op = 0x51 then legacyPegReads v
  else {}

def pairTiles (b64 : Bool) (t : Nat) : List Nat := if b64 then [t / 2 * 2, t / 2 * 2 + 1] else [t]
def footM (v : View) : Foot :=
  if v.op = 0 then {}
  else if v.op = 0x20 then
    let src := pairTiles v.wPair v.wTile
    let tov := v.bit 54 && !v.wDiscard
    let mem := !v.wDiscard && !v.bit 54
    let vd := if tov then (upto v.wM).map (fun i => (1, v.f 55 6 + i)) else []
    let vs := if v.bit 27 then (upto 4).map (fun i => (1, v.wVs + i)) else []
    { rd := (if mem then tR (v.f 17 5) else []) ++ (if v.bit 27 then sR (v.f 34 6) else []) ++ vd ++ vs, wr := vd ++ vs,
      tr := src, mw := if mem then v.ownAll v.wDesc else [] }
  else if v.op = opLwo then
    let d := v.lwD
    { rd := tR (v.f 17 5), tr := [v.f 13 4], mw := v.own 0 d.base (spanBytes d.rows (3 * d.cols) d.stride) }
  else
    let t := pairTiles (v.op == 0x01 && v.tx.fmtc == 0) v.tile
    { rd := tR (v.f 13 5) ++ tR (v.f 18 5), tr := if v.bit 27 then t else [], tw := t,
      mr := v.ownAll v.tx ++ v.ownAll v.ty }

def footRow (v : View) : Foot :=
  let m := v.rM
  let n := v.rN
  let td (k : Nat) : List (Nat × Nat) := tR k
  let x := rowReadsX v.op
  { rd := sR (v.f 36 6) ++ (if x && !v.rTile then td v.rTs else []) ++ (if x && v.rTile then td v.rTd else []) ++
      (if rowReadsDy v.op then td (v.rTs + 1) else []) ++ (if rowGain v = 0 then [] else td (v.rTs + 2)) ++
      (if rowOutputs v.op || v.op == 0x78 || v.op == 0x7A then td v.rTd else []) ++ (if rowTwo v then td (v.rTd + 1) else []) ++
      (if v.op = 0x7B then td v.rTs else []) ++
      (if v.op = 0x78 then (upto 4).map (fun i => (1, v.rVs + i)) else []),
    tr := if x && v.rTile then pairTiles (decide (2 ≤ tileKind (mapGet 0 v.core.tileStatus (v.f 13 4)))) (v.f 13 4) else [],
    mr := (if x && !v.rTile then v.ownRows (v.desc v.rTs) m n else []) ++
      (if rowReadsDy v.op then v.ownRows (v.desc (v.rTs + 1)) m n else []) ++
      (if rowGain v = 0 then [] else v.ownRows (v.desc (v.rTs + 2)) (rowGain v) n) ++
      (if v.op = 0x7B then let d := v.desc v.rTs; v.own d.space d.base (spanBytes m 32 d.stride) else []),
    mw := (if rowOutputs v.op then v.ownRows (v.desc v.rTd) m n else []) ++
      (if rowTwo v then v.ownRows (v.desc (v.rTd + 1)) m n else []) ++
      (if v.op = 0x78 then let d := v.desc v.rTd; v.own d.space d.base (m * (8 * v.rK + 8)) else []) ++
      (if v.op = 0x7A then let d := v.desc v.rTd; v.own d.space d.base (spanBytes m 32 d.stride) else []),
    recs := [(v.rBase, m * v.rStep)] }

def footGath (v : View) : Foot :=
  let list := v.own v.gI.space v.gI.base (v.gN * v.gW)
  let rows (d : Desc) (n : Nat) : List (Nat × Nat) := v.own d.space d.base (spanBytes n (rowBytes d.fmt d.cols) d.stride)
  { rd := tR (v.f 13 5) ++ tR (v.f 18 5) ++ tR (v.f 23 5) ++ (if v.op = 0x92 then sR (v.f 37 6) else []),
    mr := list ++ (if v.op = 0x90 then rows v.gT v.gT.rows
      else if v.op = 0x91 then rows v.gR v.gN ++ (if v.gCmb = 0 then [] else rows v.gT v.gT.rows)
      else rows v.gT v.gN),
    mw := if v.op = 0x90 then rows v.gR v.gN else if v.op = 0x91 then rows v.gT v.gT.rows else rows v.gR v.gR.rows }

def footOpt (v : View) : Foot :=
  if v.op = 0xA0 then
    let norms := (upto 6).map (fun i => (1, v.oVn + i))
    let used := [0, 1, 3, 4] ++ (if v.oKind = 1 then [2] else [])
    let own (k : Nat) : List (Nat × Nat) := v.ownAll (v.oDesc k)
    { rd := (upto 5).map (fun k => (3, v.oTw + k)) ++ (upto 6).map (fun k => (0, v.oSh + k)) ++ norms, wr := norms,
      mr := used.flatMap own, mw := (used.filter (fun k => k != 3)).flatMap own }
  else if v.op = 0xA1 then
    let n := v.f 19 6 + 2 * v.f 25 2
    { rd := vR n ++ vR (n + 1), wr := sR (v.f 13 6) }
  else { rd := sR (v.f 13 6) ++ pR (v.f 19 4) }

def footVec (v : View) : Foot :=
  if v.op = 0 then {}
  else if v.op = 0x24 then { rd := vR (v.f 19 6) ++ pR (v.f 42 4), wr := vR (v.f 13 6) }
  else if v.op ≤ 0x1B then
    let b := if v.bit 52 then sR (v.f 46 6) else vR (v.f 25 6)
    { rd := vR (v.f 19 6) ++ b ++ vR (v.f 31 6) ++ pR (v.f 42 4) ++ (if v.op = 0x07 then [] else vR (v.f 13 6)),
      wr := if v.op = 0x07 then pR (v.f 13 4) else vR (v.f 13 6) }
  else if v.op = 0x60 then
    { rd := tR (v.f 13 5) ++ tR (v.f 18 5) ++ sR (v.f 28 6), wr := sR (v.f 28 6), mr := v.ownAll v.cvtS, mw := v.ownAll v.cvtD }
  else
    let d := v.ldDesc
    let common := tR (v.f 19 5) ++ sR (v.f 24 6) ++ sR (v.f 30 6)
    let part := (partRange d v.ldRow v.ldCol v.ldCount).flatMap (fun p => v.own d.space p.1 p.2)
    let mask := v.own d.space v.maskBytes.1 v.maskBytes.2
    if v.op = 0x20 then { rd := common ++ pR (v.f 42 4) ++ vR (v.f 13 6), wr := vR (v.f 13 6), mr := part }
    else if v.op = 0x21 then { rd := common ++ pR (v.f 42 4) ++ vR (v.f 13 6), mw := part }
    else if v.op = 0x22 then { rd := common ++ pR (v.f 42 4), mw := mask }
    else { rd := common, wr := pR (v.f 13 4), mr := mask }

def footD (v : View) : Foot :=
  if v.op = 0 then {}
  else if v.op = 0x20 then { rd := tR (v.f 13 5), wr := sR (v.f 26 6), mr := v.ownAll v.wwDesc }
  else if v.op = 0x28 then { rd := tR (v.f 13 5), wr := sR (v.f 26 6), mw := v.ownAll v.wwDesc }
  else { rd := tR (v.f 13 5) ++ tR (v.f 18 5), mr := v.ownAll v.xS, mw := v.ownAll v.xD }

def footOf (v : View) : Foot :=
  match v.i.slot with
  | .S => footS v
  | .M => footM v
  | .V => if rowOp v then footRow v else if gathOp v.op then footGath v else if optOp v.op then footOpt v else footVec v
  | .D => footD v

/-- s0 and p0 never conflict (05 R131). -/
def countsAsWrite (r : Nat × Nat) : Bool := !((r.1 == 0 || r.1 == 2) && r.2 == 0)
def meets (a b : List (Nat × Nat)) : Bool := a.any (fun x => b.contains x)
def rangesMeet (a b : List (Nat × Nat)) : Bool := a.any (fun x => b.any (fun y => overlap x.1 x.2 y.1 y.2))

/-- The slot with footprint n waits for an earlier, incomplete instruction with footprint e (R165, R166, R168), and a row
operation for an earlier one on the same records, so that their states are judged as that one leaves them (log entry 91). -/
def mustWait (e n : Foot) (chained : Bool) : Bool :=
  let w := e.wr.filter countsAsWrite
  meets w (n.rd ++ n.wr) ||
  (!chained && (e.tw.any (fun t => (n.tr ++ n.tw).contains t) || e.tr.any (fun t => n.tw.contains t))) ||
  rangesMeet e.mw (n.mr ++ n.mw) || rangesMeet e.mr n.mw || rangesMeet e.recs n.recs

/-- A status move, or TRAPNAN, that waits for earlier instructions (R170): the register it names. -/
def statusWaits (i : InFlight) : Option Nat :=
  let op := fld i.word 5 8
  if i.slot = .S ∧ (op = 0x28 ∨ op = 0x29) then
    let id := fld i.word 32 12
    if id < 2 ∨ (0x10 ≤ id ∧ id ≤ 0x1F) then some id else none
  else if i.slot = .S ∧ op = 0x60 then some 1 else none
/-- An earlier instruction may still change the status register a move names. -/
def changesStatus (e : InFlight) (ef : Foot) (id : Nat) : Bool :=
  let op := fld e.word 5 8
  if id < 2 then raises e || (e.slot = .S && (op == 0x29 || op == 0x60))
  else ef.tw.contains (id - 0x10) || (e.slot = .S && op == 0x29)

/-- The scopes a FENCE covers that an instruction accesses (Table 07-2), as bits 0 to 4. -/
def spaceScope (v : View) (space addr : Nat) : Nat :=
  match space with
  | 0 => 1
  | 1 => 2
  | 2 => 4
  | 4 => if bitsAt addr 21 8 = v.k then 1 else 16
  | _ => 0
def tdScope (v : View) (d : Desc) : Nat := spaceScope v d.space d.base
def scopesOf (v : View) : Nat :=
  let f := footOf v
  let tds := if v.i.slot = .S then [] else ((f.rd.filter (fun r => r.1 == 3)).map (fun r => tdScope v (v.desc r.2)))
  let scratch := if f.mr = [] ∧ f.mw = [] then 0 else 1
  let ww := if v.i.slot = .D ∧ (v.op = 0x20 ∨ v.op = 0x28) then 8 else 0
  (tds.foldl (fun a b => a ||| b) scratch) ||| ww

end Sys2Proof.Machine
end

