-- ==== Sys2Proof/Machine/Issue.lean ====
section
/-! DEFINITION. Issue, completion and drain of a core's instructions (05 R146, R154 to R157, R161; 06 R163 to R171; 07
R198 to R202, R209), and pegs. -/
namespace Sys2Proof.Machine

/-! ## Waiting (06 R163 to R170) -/

/-- Instructions a unit holds at once, the scalar unit aside (Table 06-1). -/
def places (u : ExecUnit) : Nat := match u with | .bellows => 4 | _ => 2
def isFdiv (i : InFlight) : Bool := i.unit = .scalar && fld i.word 5 8 == 0x17
/-- A unit has a free place for one more instruction. -/
def unitFree (flight : List InFlight) (i : InFlight) : Bool :=
  let here := flight.filter (fun e => decide (e.unit = i.unit))
  if i.unit = .scalar then !(here.any isFdiv) else decide (here.length < places i.unit)

/-- A floating MMA with ACC = 1 right behind a floating MMA or MMX on the same tile with the same kind (R167). -/
def chains (s : State) (c : Nat) (flight : List InFlight) (i : InFlight) : Option Nat :=
  if i.unit = .array ∧ i.word.getLsbD 27 then
    match (flight.filter (fun e => decide (e.unit = .array))).getLast? with
    | some e =>
      let a := viewOf s c e
      let b := viewOf s c i
      if !isIntMma a && !isIntMma b && decide ((footM a).tw = (footM b).tw) then some e.id else none
    | none => none
  else none

/-- The instruction waits for one in flight, or for a place on its unit; opcode 0x00 takes no unit (05 R139). -/
def waitsFor (s : State) (c : Nat) (flight : List InFlight) (i : InFlight) : Bool :=
  let n := footOf (viewOf s c i)
  let ch := chains s c flight i
  flight.any (fun e =>
    let ef := footOf (viewOf s c e)
    mustWait ef n (ch == some e.id) ||
    (match statusWaits i with | some id => changesStatus e ef id | none => false)) || (fld i.word 5 8 != 0 && !unitFree flight i)

/-- The predicate register a slot word names is still to be written (R163). -/
def predWaits (s : State) (c : Nat) (flight : List InFlight) (word : Word) : Bool :=
  flight.any (fun e => (footOf (viewOf s c e)).wr.any (fun (r : Nat × Nat) => r == (2, fld word 0 4) && countsAsWrite r))

/-! ## The bandwidth regulator (14 R396) -/

/-- Bytes of a range that tier 1 or tier 3 serves: all in SPACE 0x1 and 0x2, in SPACE 0x3 those staged (13 R365). -/
def View.tierPart (v : View) (r : Nat × Nat × Nat) : Nat :=
  match r.1, v.x with
  | 1, _ => r.2.2
  | 2, _ => r.2.2
  | 3, some x => match v.s.teacherHead x with
    | some n => r.2.1 + r.2.2 - max r.2.1 (v.s.rd (Reg.nvwSlot n) Reg.SLOT_TEACHER_BYTES)
    | none => 0
  | _, _ => 0
def MemWrite.tierPart (w : MemWrite) : Nat := match w.loc with | .tier1 _ => w.bytes.length | .host _ => w.bytes.length | _ => 0
/-- The tier-1 and tier-3 bytes an instruction requests. -/
def View.tierBytes (v : View) : Nat := sumOf (v.reads.map v.tierPart) + sumOf ((effSlot v).mem.map MemWrite.tierPart)
/-- What a bay of a context may request in one regulator window of 10 µs. -/
def State.windowBudget (s : State) (x : Nat) : Nat :=
  s.rd (Reg.ctx x) Reg.CTX_BW_GBPS * 10000 / s.rd (Reg.ctx x) Reg.CTX_BAYS
/-- A request of so many bytes by core c takes what its bay's window leaves. Answers what it took. -/
def State.takeWindow (s : State) (c need : Nat) : State × Nat :=
  match s.place c with
  | none => (s, need)
  | some (x, k) =>
    if s.rd (Reg.ctx x) Reg.CTX_BW_GBPS = 0 then (s, need)
    else
      let used := mapGet 0 (s.ctx x).bwUsed (k / 4)
      let take := min need (s.windowBudget x - used)
      (s.setCtx x { s.ctx x with bwUsed := mapSet 0 (s.ctx x).bwUsed (k / 4) (used + take) }, take)
/-- A core of a regulated context. -/
def State.regulated (s : State) (c : Nat) : Bool :=
  match s.place c with
  | none => false
  | some (x, _) => decide (s.rd (Reg.ctx x) Reg.CTX_BW_GBPS ≠ 0)
/-- An instruction that needs more than its bay's window leaves goes on in the next window. Answers whether it may complete. -/
def State.regulate (s : State) (c : Nat) (i : InFlight) : State × Bool :=
  if !s.regulated c then (s, true)
  else
    let need := (viewOf s c i).tierBytes - i.asked
    let r := s.takeWindow c need
    if r.2 = need then (r.1, true)
    else (r.1.setCore c { r.1.core c with
      flight := (r.1.core c).flight.map (fun e => if e.id = i.id then { e with asked := e.asked + r.2 } else e) }, false)
/-- The line that core c is about to fetch, if its cache does not hold it. -/
def State.missing (s : State) (c : Nat) : Option Nat :=
  (s.programOf c).bind (fun p =>
    let line := icacheLine (p.base + (s.core c).pc.toNat)
    if (s.core c).cached line then none else some line)
/-- A line that misses is fetched from tier 1 within the regulator's windows too. -/
def State.regulateFetch (s : State) (c : Nat) : State × Bool :=
  if !s.regulated c || (s.missing c).isNone then (s, true)
  else
    let k := s.core c
    let need := 256 - k.fetchAsked
    let r := s.takeWindow c need
    if r.2 = need then (r.1.setCore c { k with fetchAsked := 0 }, true)
    else (r.1.setCore c { k with fetchAsked := k.fetchAsked + r.2 }, false)

/-! ## Issuing a set of slots -/

/-- What an SMOVS reads as it issues (R170). -/
def statusAtIssue (v : View) : Option Word := if v.i.slot = .S ∧ v.op = 0x28 then some (statusRead v (v.f 32 12)) else none
/-- The parts of a bundle or legacy word: each instruction with the lanes as the earlier ones leave them. -/
def threadLanes (s : State) (c : Nat) : List InFlight → Map Lane → List InFlight
  | [], _ => []
  | i :: is, m =>
    let i0 := { i with regs := { i.regs with lanes := m } }
    let i' := { i0 with status := statusAtIssue (viewOf s c i0) }
    let v := viewOf s c i'
    let causes := if i.legacy.isSome then [] else decodeCause i.slot i.word
    i' :: threadLanes s c is (if causes = [] && v.executes then v.lanesAfter (drawsSlot v) else m)

/-- The registers and tiles two executing slots both write (05 R142): the first slot and the operand's number with 256 times its
kind. DESIGN CHOICE (log entry 97): DETAIL carries no SPACE. -/
def doubleWrite (s : State) (c : Nat) : List InFlight → Option (InFlight × Nat)
  | [] => none
  | i :: is =>
    let f := footOf (viewOf s c i)
    let mine := (f.wr.filter countsAsWrite).map (fun (r : Nat × Nat) => r.1 * 256 + r.2) ++ f.tw.map (fun t => 4 * 256 + t)
    match mine.find? (fun w => is.any (fun j =>
      let g := footOf (viewOf s c j)
      ((g.wr.filter countsAsWrite).map (fun (r : Nat × Nat) => r.1 * 256 + r.2) ++ g.tw.map (fun t => 4 * 256 + t)).contains w)) with
    | some w => some (i, w)
    | none => doubleWrite s c is

/-- The lowest cause over the slots, the first slot of equal ones (05 R156). -/
def worst : List (InFlight × Cause) → Option (InFlight × Cause)
  | [] => none
  | x :: xs => match worst xs with
    | none => some x
    | some y => if y.2.1 < x.2.1 then some y else some x

/-- What a part reads that another of its set will write: within one bundle every read counts as earlier than every write
(R168), and a legacy word's operations read their sources as they stood before it (07 R209). -/
def keepBefore (s : State) (c : Nat) (all : List InFlight) (i : InFlight) : InFlight :=
  let f := footOf (viewOf s c i)
  let others := (all.filter (fun j => decide (j ≠ i))).map (fun j => footOf (viewOf s c j))
  let mem := f.mr.filter (fun r => others.any (fun o => rangesMeet [r] o.mw))
  let tiles := f.tr.filter (fun t => others.any (fun o => o.tw.contains t))
  if mem = [] ∧ tiles = [] then i
  else
    let k := s.core c
    let b : Before :=
      { mem := mem.map (fun r => (r.1, s.bytesAt (.scratch c) r.1 r.2)), tiles := tiles,
        acc := k.acc.filter (fun e => tiles.contains (e.1 / 16384)), status := k.tileStatus.filter (fun e => tiles.contains e.1) }
    { i with before := some b }

/-- SMOVT and TRAPNAN act as they issue, so that what they write applies to every instruction issued after them and to none
of their own bundle (R170). -/
def actsAtIssue (i : InFlight) : Bool := i.slot = .S && (fld i.word 5 8 == 0x29 || fld i.word 5 8 == 0x60)
/-- Nothing is left to do at completion. -/
def Effect.ctlOnly (e : Effect) : Bool :=
  decide (e.ctl ≠ .none) && decide (e.s = []) && decide (e.trapControl = none)

/-- One executing slot goes in flight: its sequencing acts now, the rest at completion. -/
def State.launch (s : State) (c : CoreId) (i : InFlight) : State :=
  let v := viewOf s c.val i
  if v.op = 0 then s
  else
    let e := effSlot v
    let k := s.core c.val
    let i' := { i with id := k.nextId }
    let s1 := s.setCore c.val { k with nextId := k.nextId + 1 }
    match e.ctl with
    | .wwput q => s1.control c i' (.wwput q)
    | .wwget q => s1.control c i' (.wwget q)
    | ctl =>
      if actsAtIssue i then s1.completeTraced c i' e
      else
        let s2 := s1.control c i' ctl
        if e.ctlOnly then s2
        else s2.setCore c.val { s2.core c.val with flight := (s2.core c.val).flight ++ [i'] }
def State.launchAll (s : State) (c : CoreId) : List InFlight → State
  | [] => s
  | i :: is => (s.launch c i).launchAll c is

/-- The fetch of a bundle or legacy word: a miss is counted, and brings its line in (05 R150, R151). -/
def State.countFetch (s : State) (c : Nat) : State :=
  let k := s.core c
  match s.missing c with
  | none => s
  | some line => (s.setCore c { k with icacheMisses := min (k.icacheMisses + 1) (2 ^ 48 - 1) }).fillLine c line
/-- A line that core c must fetch lies in a poisoned granule: the context's, and the granule. -/
def State.fetchPoison (s : State) (c : Nat) : Option (Nat × Nat) :=
  if s.poison = [] then none
  else match s.place c, s.missing c with
    | some (x, _), some line => (s.poisonIn x (256 * line) 256).head?.map (fun g => (x, g))
    | _, _ => none
/-- Issue a set of parts at an address: wait, judge, reserve, launch, advance (05 R146, R154). all names every part, run
those that execute; refuse is a cause of the whole word. -/
def State.issueParts (s : State) (c : CoreId) (parts : List InFlight) (wait : Bool) (refuse : List (InFlight × Cause))
    (bytes : Nat) : State :=
  let k := s.core c.val
  let th := threadLanes s c.val parts k.regs.lanes
  let run := th.filter (fun i => (viewOf s c.val i).executes)
  if wait || run.any (waitsFor s c.val k.flight) then s
  else
    let r := s.regulateFetch c.val
    if !r.2 then r.1 else
    match s.fetchPoison c.val with
    | some (x, g) => (r.1.countFetch c.val).poisonFault x 0x3003 g
    | none =>
    let causes := th.filterMap (fun i => (issueCause (viewOf s c.val i)).map (fun x => (i, x)))
    let two := match doubleWrite s c.val run with | some (i, w) => [(i, ((0x2102, w) : Cause))] | none => []
    match worst (refuse ++ causes ++ two) with
    | some (i, x) => (r.1.countFetch c.val).trapAtIssue c.val i x
    | none =>
      let lanes := run.foldl (fun _ i => let v := viewOf s c.val i; v.lanesAfter (drawsSlot v)) k.regs.lanes
      let s0 := r.1.countFetch c.val
      let s1 := s0.setCore c.val { s0.core c.val with
        regs := { k.regs with lanes := lanes }, pc := k.pc + BitVec.ofNat 64 bytes, seq := k.seq + 1, run := .running }
      s1.launchAll c (run.map (keepBefore s c.val run))

/-! ## Bundles (06 R163) and legacy words (07 R209) -/

/-- A core that may issue: it runs a program of a Running context, and no barrier, wait or deferred trap stands. -/
def mayIssue (s : State) (c : Nat) : Option Program :=
  let k := s.core c
  match s.place c with
  | none => none
  | some (x, b) =>
    if (decide (k.run = .running) || decide (k.run = .drained)) && decide (s.ctxState x = stRunning) && (s.ctx x).goal = none &&
        k.fence.isNone && k.pegWait.isNone && decide (k.deferred = []) && !k.flight.any holdsIssue then
      (s.ctx x).programOn (b / 4)
    else none
/-- n bytes of the image copy of a program, from an instruction address (05 R153). -/
def State.imageNat (s : State) (x : Nat) (p : Program) (a n : Nat) : Nat := s.natAt (.tier1 x) (p.base + a) n
def State.fetch (s : State) (c : Nat) (p : Program) (n : Nat) : Nat :=
  match s.place c with
  | some (x, _) => s.imageNat x p (s.core c).pc.toNat n
  | none => 0

/-- A WWPUT or WWGET takes its place in its queue's order; on a disabled queue it is not performed, and its 0x2107 falls due
(08 R221). -/
def State.joinQueue (s : State) (c : CoreId) (i : InFlight) (ctl : Ctl) : State :=
  match (judgeWw (viewOf s c.val i)).find? (fun x => decide (x.1 = 0x2107)) with
  | some x => s.deferTrap c.val i { code := x.1, detail := x.2, deferred := true } false
  | none => s.control c i ctl
/-- Withdrawn and abandoned instructions are issued again in program order before the next bundle issues (05 R161); a
stopped move goes on from its cursor. -/
def State.reissue (s : State) (c : CoreId) : State :=
  let k := s.core c.val
  match k.withdrawn with
  | [] => s
  | i :: rest =>
    if waitsFor s c.val k.flight i then s
    else
      let s1 := s.setCore c.val { k with withdrawn := rest, run := .running }
      let v := viewOf s1 c.val i
      match (effSlot v).ctl with
      | .wwput q => s1.joinQueue c i (.wwput q)
      | .wwget q => s1.joinQueue c i (.wwget q)
      | .pegw n t => s1.control c i (.pegw n t)
      | .fence m => s1.control c i (.fence m)
      | _ => s1.setCore c.val { s1.core c.val with
          flight := (s1.core c.val).flight ++ [{ i with retries := 0, asked := min i.asked i.cursor }] }

def State.bundleIssue (s : State) (c : CoreId) : State :=
  let k := s.core c.val
  match mayIssue s c.val with
  | none => s
  | some p =>
    if k.withdrawn ≠ [] then s.reissue c
    else if k.halt then s
    else if k.legacyAt.isSome then s
    else if !inBundleCode p k.pc.toNat then s.trapAtIssue c.val (instOf k .S 0 none) (0x2108, k.pc.toNat)
    else
      let w := s.fetch c.val p 32
      let word (j : Nat) : Word := BitVec.ofNat 64 (bitsAt w (64 * j) 64)
      let parts := [instOf k .S (word 0) none, instOf k .M (word 1) none, instOf k .V (word 2) none, instOf k .D (word 3) none]
      s.issueParts c parts (parts.any (fun i => predWaits s c.val k.flight i.word)) [] 32

def legacyBranch (o : Nat) : Bool := decide (0x18 ≤ o % 64) && decide (o % 64 ≤ 0x1B)
/-- The first operation past the limits of R209, counting what the earlier positions hold. -/
def legacyLimit (seen : List (Nat × ExecUnit)) : List (Nat × Nat × ExecUnit) → Option (Nat × Nat)
  | [] => none
  | (pos, o, u) :: rest =>
    let scalars := (seen.filter (fun e => decide (e.2 = .scalar))).length
    let past := if u = .scalar then
        decide (2 ≤ scalars) || (legacyBranch o && seen.any (fun e => legacyBranch e.1))
      else seen.any (fun e => decide (e.2 = u))
    if past then some (pos, o) else legacyLimit (seen ++ [(o, u)]) rest

/-- A legacy operation of a word as an instruction, by its position; one that does not decode stands as no operation. -/
def legacyPart (k : Core) (w : Word) (j : Fin 3) : InFlight :=
  match legacySlot (fld w (21 * j.val) 21) k.regs with
  | some (sl, word) => instOf k sl word (some (j, w))
  | none => instOf k .S 0 (some (j, w))
/-- The causes that refuse a whole word (R208, R209, R210), by position: an operation that is not listed, the first beyond the
limits, and a branch in position 0 with more than LNOP behind OP1. -/
def legacyRefusals (k : Core) (w : Word) : List (InFlight × Cause) :=
  let op (j : Fin 3) : Nat := fld w (21 * j.val) 21
  let live (j : Fin 3) : List (Nat × Nat × ExecUnit) := match legacySlot (op j) k.regs with
    | some (sl, word) => if op j = 0 then [] else [(j.val, op j, unitOf sl word)]
    | none => []
  let past := legacyLimit [] (live 0 ++ live 1 ++ live 2)
  let here (j : Fin 3) : List (InFlight × Cause) :=
    (if j = 0 ∧ legacyBranch (op 0) ∧ op 2 ≠ 0 then [(legacyPart k w 0, (0x2101, op 2))] else []) ++
    (match legacySlot (op j) k.regs with | some _ => [] | none => [(legacyPart k w j, (0x2101, op j))]) ++
    (match past with | some (pos, o) => if pos = j.val then [(legacyPart k w j, (0x2101, o))] else [] | none => [])
  here 0 ++ here 1 ++ here 2
/-- An address holds a word of the legacy segment that starts at off. -/
def inLegacySeg (p : Program) (off a : Nat) : Bool :=
  p.segs.any (fun g => decide (g.kind = 2) && decide (g.off = off) && decide (off ≤ a) && decide (a + 8 ≤ off + g.bytes))

/-- A core in legacy mode issues its next word; past the last word of its segment it traps (R210). -/
def State.legacyWordIssue (s : State) (c : CoreId) : State :=
  let k := s.core c.val
  match mayIssue s c.val, k.legacyAt with
  | some p, some off =>
    let a := k.pc.toNat
    if k.withdrawn ≠ [] then s.reissue c
    else if k.halt then s
    else if !inLegacySeg p off a then s.trapAtIssue c.val (instOf k .S 0 (some (0, 0))) (0x2108, a)
    else
      let w : Word := BitVec.ofNat 64 (s.fetch c.val p 8)
      let parts := ([0, 1, 2] : List (Fin 3)).filterMap (fun j =>
        (legacySlot (fld w (21 * j.val) 21) k.regs).map (fun _ => legacyPart k w j))
      s.issueParts c parts (w.getLsbD 63 && k.flight ≠ []) (legacyRefusals k w) 8
  | _, _ => s

/-! ## Completion (06 R165, R171; 03 R92) -/

/-- The k-th instruction on a unit, oldest first. -/
def onUnit (flight : List InFlight) (u : ExecUnit) (n : Nat) : Option InFlight :=
  (flight.filter (fun e => decide (e.unit = u)))[n]?
def State.dropFlight (s : State) (c id : Nat) : State :=
  s.setCore c { s.core c with flight := (s.core c).flight.filter (fun e => decide (e.id ≠ id)) }
def isWw (i : InFlight) : Bool := i.slot = .D && (fld i.word 5 8 == 0x20 || fld i.word 5 8 == 0x28)
/-- An earlier slot of the same bundle or word stores to bytes that i stores to: writes are made in the order S, M, V, D (R168). -/
def storesAfter (s : State) (c : Nat) (flight : List InFlight) (i : InFlight) : Bool :=
  flight.any (fun e => decide (e.seq = i.seq) && decide (e.id < i.id) &&
    rangesMeet (footOf (viewOf s c e)).mw (footOf (viewOf s c i)).mw)
/-- The results of an instruction in flight, from the values it read at issue. -/
def State.finishInst (s : State) (c : CoreId) (i : InFlight) : State :=
  let v := viewOf s c.val i
  let e := effSlot v
  s.instPoison v (e.rest i.cursor) (((s.dropFlight c.val i.id).completeTraced c i { e with ctl := .none }).settleHeld c.val)

/-- The current pass of an integer MMA fits, or it is the last (03 R92). -/
def passDone (s : State) (c : Nat) (i : InFlight) : Bool :=
  let v := viewOf s c i
  !isIntMma v || decide (i.unit ≠ .array) || intFits (intPass v i.retries)
def State.unitComplete (s : State) (c : CoreId) (u : ExecUnit) (n : Fin 4) : State :=
  if u ≠ .bellows ∧ n.val ≠ 0 then s
  else match onUnit (s.core c.val).flight u n.val with
    | none => s
    | some i => if isWw i || !passDone s c.val i || storesAfter s c.val (s.core c.val).flight i then s else
        let r := s.regulate c.val i
        if r.2 then r.1.finishInst c i else r.1

/-- Put an instruction into program order. -/
def byId (i : InFlight) : List InFlight → List InFlight
  | [] => [i]
  | j :: js => if i.id ≤ j.id then i :: j :: js else j :: byId i js
/-- An integer MMA pass ends with a result out of range: it retries, falls back, or is abandoned by a drain (03 R92,
R93). -/
def State.integerRetry (s : State) (c : CoreId) : State :=
  let k := s.core c.val
  match onUnit k.flight .array 0 with
  | none => s
  | some i =>
    let v := viewOf s c.val i
    if !isIntMma v || intFits (intPass v i.retries) then s
    else if k.run = .draining ∨ k.run = .trapped then
      s.setCore c.val { k with
        flight := k.flight.filter (fun e => decide (e.id ≠ i.id)), withdrawn := byId { i with retries := 0 } k.withdrawn,
        counters := countUp k.counters cntAbandoned 1 }
    else if intStart v + i.retries < 2 then
      s.setCore c.val { k with flight := k.flight.map (fun e => if e.id = i.id then { e with retries := e.retries + 1 } else e) }
    else s.finishInst c i

/-! ## Pegs (07 R198, R199) -/

/-- The engines of a context count the increments of their pegs (07 R197). -/
def countPeg (s : State) (p inc : Nat) : List Nat → State
  | [] => s
  | x :: xs =>
    let b := Reg.ctx x
    let base := s.rd b Reg.CTX_PEG_BASE
    let held := decide (s.ctxState x ≠ stDisabled) && decide (base ≤ p) && decide (p < base + s.rd b Reg.CTX_PEG_COUNT)
    let n := p - base
    let e := (s.ctx x).exch
    let s1 := if held && decide (s.rd b Reg.CTX_STATE_BYTES ≠ 0) then
        s.setCtx x { s.ctx x with exch := { e with
          fillCount := e.fillCount + (if n = s.rd b Reg.CTX_FILL_PEG then inc else 0)
          gatherCount := e.gatherCount + (if n = s.rd b Reg.CTX_GATHER_PEG then inc else 0) } }
      else s
    let s2 := if held && s.flag (Reg.streamTable x) Reg.ST_ENABLE && decide (n = s.rd (Reg.streamTable x) Reg.ST_CMD_PEG) then
        s1.setCtx x { s1.ctx x with cmdCount := (s1.ctx x).cmdCount + inc }
      else s1
    countPeg s2 p inc xs
/-- Release the waiters of a peg whose condition holds. -/
def releaseWaiters (s : State) (p : Nat) : List Nat → State
  | [] => s
  | c :: cs =>
    let k := s.core c
    let s1 := match k.pegWait with
      | some w => if w.peg = p ∧ pegHolds (mapGet 0 s.pegs p) w.threshold then
          s.setCore c { k with pegWait := some { w with released := true } } else s
      | none => s
    releaseWaiters s1 p cs
def takeSignal (p : Nat) : List PegSignal → Option (PegSignal × List PegSignal)
  | [] => none
  | g :: gs => if g.peg = p then some (g, gs) else match takeSignal p gs with
    | some (h, r) => some (h, g :: r)
    | none => none
/-- The slice applies the oldest increment on its way to a peg. -/
def State.pegApply (s : State) (p : Nat) : State :=
  match takeSignal p s.pegSignals with
  | none => s
  | some (g, rest) =>
    let s1 := { s with pegSignals := rest, pegs := mapSet 0 s.pegs p (mapGet 0 s.pegs p + g.inc) }
    releaseWaiters (countPeg s1 p g.inc.toNat s1.ctxKeys) p (s1.cores.map (fun kv => kv.1))
def State.pegwRelease (s : State) (c : CoreId) : State :=
  let k := s.core c.val
  match k.pegWait with
  | some w => if w.released then s.setCore c.val { k with pegWait := none } else s
  | none => s

/-! ## FENCE (07 R201) -/

def State.fenceClear (s : State) (c : CoreId) : State :=
  let k := s.core c.val
  match k.fence with
  | none => s
  | some b =>
    if k.flight.any (fun e => decide (e.seq.toNat < b.seq.toNat) && decide (scopesOf (viewOf s c.val e) &&& b.mask.toNat ≠ 0)) then s
    else s.setCore c.val { k with fence := none }

/-! ## HALT and program end (06 R183; 14 R386) -/

/-- A core has nothing of its own outstanding. -/
def State.quiet (s : State) (c : Nat) : Bool :=
  let k := s.core c
  decide (k.flight = []) && k.fence.isNone && k.pegWait.isNone && !s.pegSignals.any (fun g => decide (g.core.map Fin.val = some c))
/-- The present physical cores of a program. -/
def State.programCores (s : State) (x : Nat) (p : Program) : List Nat :=
  ((s.ctxCores x).filter (fun kc => p.bays.getLsbD (kc.1 / 4))).map (fun kc => kc.2)
/-- Every item of Table 05-1 of a core is zeroed, and its cache invalidated (14 R395). -/
def State.scrubCores (s : State) : List Nat → State
  | [] => s
  | c :: cs => { s.scrubCores cs with cores := mapSet Core.start (s.scrubCores cs).cores c Core.scrubbed }
/-- What a context's logical cores hold, kept with it (18 R480). -/
def State.coresOf (s : State) (x : Nat) : Map Core := (s.ctxCores x).foldl (fun m kc => mapSet Core.start m kc.1 (s.core kc.2)) []
/-- The context gives its bays up: their cores are scrubbed and they hold nothing more. -/
def State.releaseBays (s : State) (x : Nat) : State :=
  let s1 := (s.setCtx x { s.ctx x with kept := s.coresOf x }).scrubCores ((s.ctxCores x).map (fun kc => kc.2))
  let s2 : State := { s1 with bayFreed := (s1.ctx x).bayMap.foldl (fun m b => mapSet 0 m b.val s1.nowUs) s1.bayFreed }
  s2.setCtx x { s2.ctx x with bayMap := [], goal := none, phase := .drain }
/-- A program ends once all its cores have halted (a core that took a position only after the program's start never began):
its LOAD completes, and a context whose programs have all ended gives up its bays and is Idle. -/
def State.programEnd (s : State) (x : Nat) (p : Program) : State :=
  if (s.programCores x p).all (fun c => decide ((s.core c).run = .halted) || decide ((s.core c).run = .idle)) then
    let k := s.ctx x
    let rest := k.programs.filter (fun q => decide (q.bays ≠ p.bays))
    let s1 := s.setCtx x { k with programs := rest }
    let s2 := match p.ticket with | some t => s1.post t true 0 0 0 | none => s1
    if rest = [] then (s2.releaseBays x).setCtxState x stIdle else s2
  else s
/-- A core halts once HALT has issued and nothing of its own is outstanding, while its context is Running (R183; 14 R386). -/
def State.coreHalted (s : State) (c : CoreId) : State :=
  let k := s.core c.val
  match s.place c.val with
  | none => s
  | some (x, b) =>
    if k.halt && (decide (k.run = .running) || decide (k.run = .drained)) && decide (k.withdrawn = []) && decide (k.deferred = []) &&
        s.quiet c.val && decide (s.ctxState x = stRunning) then
      let s1 := s.setCore c.val { k with run := .halted }
      match (s1.ctx x).programOn (b / 4) with | some p => s1.programEnd x p | none => s1
    else s

/-! ## Drain (05 R161, 07 R202) -/

/-- Instructions that have not begun executing: all but the oldest on each unit, and a waiting WWPUT or WWGET. -/
def isWaiting (flight : List InFlight) (i : InFlight) : Bool :=
  match i.unit with
  | .scalar => false
  | .bellows => isWw i && !i.taken
  | u => match onUnit flight u 0 with | some o => decide (o.id ≠ i.id) | none => false
/-- An executing integer MMA that is in a retry pass is abandoned (03 R93). -/
def isAbandoned (s : State) (c : Nat) (i : InFlight) : Bool :=
  i.unit = .array && decide (0 < i.retries) && isIntMma (viewOf s c i)
/-- A withdrawn WWPUT or WWGET leaves its queue's order, having taken nothing. -/
def State.leaveQueues (s : State) (x c : Nat) : List InFlight → State
  | [] => s
  | i :: is =>
    let q := fld i.word 18 8
    let k := s.queue x q
    let out (l : List WRef) : List WRef := l.filter (fun r => !(decide (r.core.val = c) && decide (r.id = i.id)))
    let s1 := if isWw i then s.setQueue x q { k with puts := out k.puts, gets := out k.gets } else s
    s1.leaveQueues x c is
/-- Instructions whose stores must follow those of one that is withdrawn with them (R168). -/
def behind (s : State) (c : Nat) (flight gone : List InFlight) : List InFlight :=
  flight.filter (fun i => gone.contains i || storesAfter s c gone i)
/-- Tier-3 reads go on for up to 10 µs after the request. -/
def isMove (i : InFlight) : Bool := i.unit = .bellows && !isWw i
def readsTier3 (s : State) (c : Nat) (i : InFlight) : Bool := isMove i && decide ((viewOf s c i).xS.space = 2)
/-- A move in flight ends its current granules and stops: what it has written stands, and its cursor says how far it is. -/
def State.stopMove (s : State) (c : Nat) (i : InFlight) : State :=
  let v := viewOf s c i
  let e := effSlot v
  let left := ceilDiv (e.size - i.cursor) 512
  let cur := min e.size (i.cursor + 512 * (Config.moveProgress s.free % (left + 1)))
  let ws := takeWrites (cur - i.cursor) (dropWrites i.cursor e.mem)
  let s1 := storeAll ({ s with free := s.free + 1 } : State) v.origin (joinWrites ws)
  let k := s1.core c
  s.instPoison v { e with mem := ws } (s1.setCore c { k with
    flight := k.flight.filter (fun j => decide (j.id ≠ i.id)), withdrawn := byId { i with cursor := cur } k.withdrawn })
def State.stopMoves (s : State) (c : Nat) : List InFlight → State
  | [] => s
  | i :: is => (s.stopMove c i).stopMoves c is
def State.drainSlots (s0 : State) (c : Nat) : State :=
  let s := s0.stopMoves c ((s0.core c).flight.filter (fun i => isMove i && !readsTier3 s0 c i))
  let k := s.core c
  let first := k.flight.filter (fun i => isWaiting k.flight i || isAbandoned s c i)
  let gone := behind s c k.flight (behind s c k.flight first)
  let ab := (k.flight.filter (isAbandoned s c)).length
  let waits := (match k.pegWait with | some w => if w.released then [] else [w.inst] | none => []) ++
    (match k.fence with | some b => [b.inst] | none => [])
  let s1 := match s.place c with | some (x, _) => s.leaveQueues x c gone | none => s
  let kept := k.flight.filter (fun i => !gone.contains i)
  (s1.setCore c { k with
    flight := kept
    withdrawn := (waits ++ gone.map (fun (i : InFlight) => ({ i with retries := 0 } : InFlight))).foldl (fun l i => byId i l) k.withdrawn
    pegWait := none
    fence := none
    counters :=
      if ab = 0 then k.counters else countUp k.counters cntAbandoned ab }).settleHeld c
def State.drainRequest (s : State) (c : CoreId) : State :=
  let k := s.core c.val
  if k.run = .running then (s.setCore c.val { k with run := .draining }).drainSlots c.val
  else if k.run = .draining ∨ k.run = .trapped then s.drainSlots c.val
  else s
/-- A draining core with nothing in flight stands at a bundle boundary with its whole state architectural. -/
def State.coreDrained (s : State) (c : CoreId) : State :=
  let k := s.core c.val
  if k.run = .draining ∧ k.deferred = [] ∧ s.quiet c.val then s.setCore c.val { k with run := .drained } else s

/-- Tier-3 reads still outstanding 10 µs after a drain request are abandoned, and what is left of them is requested again at
resume. -/
def State.abandonReads (s : State) (c : CoreId) : State :=
  let k := s.core c.val
  if k.run = .draining ∨ k.run = .trapped then s.stopMoves c.val (k.flight.filter (readsTier3 s c.val)) else s

/-! ## Counters (03 R101) -/

/-- COUNTER_CLEAR has effect only while the context holds bays (18 R480). -/
def State.counterClear (s : State) (x k : Nat) : State :=
  match s.ctxCore x k with
  | some c => s.setCore c { s.core c with counters := [] }
  | none => s

/-! ## The rows -/

/-- BUNDLE_ISSUE (R163). -/
def execBundleIssue (c : CoreId) (s : State) : Out := .next (s.bundleIssue c)
/-- UNIT_COMPLETE (R165). -/
def execUnitComplete (c : CoreId) (u : ExecUnit) (k : Fin 4) (s : State) : Out := .next (s.unitComplete c u k)
/-- DEFERRED_TRAP_POST (R155). -/
def execDeferredTrapPost (c : CoreId) (s : State) : Out := .next (s.postDeferred c.val)
/-- PEG_APPLY (R198). -/
def execPegApply (p : PegId) (s : State) : Out := .next (s.pegApply p.val)
/-- PEGW_RELEASE (R199). -/
def execPegwRelease (c : CoreId) (s : State) : Out := .next (s.pegwRelease c)
/-- FENCE_CLEAR (R201). -/
def execFenceClear (c : CoreId) (s : State) : Out := .next (s.fenceClear c)
/-- CORE_HALTED (R183). -/
def execCoreHalted (c : CoreId) (s : State) : Out := .next (s.coreHalted c)
/-- INTEGER_RETRY_PASS (R92). -/
def execIntegerRetryPass (c : CoreId) (s : State) : Out := .next (s.integerRetry c)
/-- LEGACY_WORD_ISSUE (R209). -/
def execLegacyWordIssue (c : CoreId) (s : State) : Out := .next (s.legacyWordIssue c)
/-- TIER3_READ_ABANDON (R161). -/
def execTier3ReadAbandon (c : CoreId) (s : State) : Out := .next (s.abandonReads c)
/-- DRAIN_REQUEST (R161). -/
def execDrainRequest (c : CoreId) (s : State) : Out := .next (s.drainRequest c)
/-- COUNTER_CLEAR (R101): writing 1. -/
def execCounterClear (x : CtxId) (k : LogicalId) (v : Word) (s : State) : Out :=
  .next (if v.getLsbD 0 && s.memActive then s.counterClear x.val k.val else s)

end Sys2Proof.Machine
end

