-- ==== Sys2Proof/Machine/Objects.lean ====
section
/-! DEFINITION. Objects with an ENABLE bit (18 R481, R482), host commands as they start (18 R493, R494), and the member
descriptors (01 R14 to R22). -/
namespace Sys2Proof.Machine

/-! ## ENABLE (18 R481, R482) -/

/-- Where an object lies in BAR0. -/
def ObjRef.base : ObjRef → Nat
  | .ctx x => Reg.ctx x.val
  | .queue x q => Reg.wwy x.val q.val
  | .port p => Reg.trsPort p.val
  | .address => Reg.trsAddress
  | .stream x => Reg.streamTable x.val
  | .slot n => Reg.nvwSlot n.val
  | .store n => Reg.ckptStore n.val
  | .hdm w => Reg.hdm w.val
  | .t3w x => Reg.t3w x.val
  | .ring r => Reg.ring r.val
def ObjRef.enable : ObjRef → Field
  | .ctx _ => Reg.CTX_ENABLE
  | .queue _ _ => Reg.WWY_ENABLE
  | .port _ => Reg.TRS_ENABLE
  | .address => Reg.TRSA_ENABLE
  | .stream _ => Reg.ST_ENABLE
  | .slot _ => Reg.SLOT_ENABLE
  | .store _ => Reg.STORE_ENABLE
  | .hdm _ => Reg.HDM_ENABLE
  | .t3w _ => Reg.T3W_ENABLE
  | .ring _ => Reg.RING_ENABLE
/-- Its STATUS field; TRS_ADDRESS has none (10 R282). -/
def ObjRef.status : ObjRef → Option Field
  | .ctx _ => some Reg.CTX_STATUS
  | .queue _ _ => some Reg.WWY_STATUS
  | .port _ => some Reg.TRS_STATUS
  | .address => none
  | .stream _ => some Reg.ST_STATUS
  | .slot _ => some Reg.SLOT_STATUS
  | .store _ => some Reg.STORE_STATUS
  | .hdm _ => some Reg.HDM_STATUS
  | .t3w _ => some Reg.T3W_STATUS
  | .ring _ => some Reg.RING_STATUS

/-- Post a code in a port's STATUS; a change is an event (18 Table 18-3). -/
def State.portStatus (s : State) (p code : Nat) : State :=
  let b := Reg.trsPort p
  let s1 := s.wr b Reg.TRS_STATUS code
  if s.rd b Reg.TRS_STATUS = code then s1 else s1.event Reg.HIF_EV_TRUSS
/-- Set a port's LINK_STATE; a change is an event. -/
def State.setLink (s : State) (p v : Nat) : State :=
  let b := Reg.trsPort p
  let s1 := s.wr b Reg.TRS_LINK_STATE v
  if s.rd b Reg.TRS_LINK_STATE = v then s1 else s1.event Reg.HIF_EV_TRUSS

def State.objOn (s : State) (o : ObjRef) : Bool := s.flag o.base o.enable
def State.objPost (s : State) (o : ObjRef) (code : Nat) : State :=
  match o, o.status with
  | .port p, _ => s.portStatus p.val code
  | _, some f => s.wr o.base f code
  | _, none => s
/-- The object's check has not ended; for a slot, its staging also (13 R366). -/
def State.checking (s : State) (o : ObjRef) : Bool :=
  s.checks.contains o || (match o with | .slot n => s.staging.contains n | _ => false)
/-- A write of 1 to ENABLE: on a clear ENABLE with no check running it starts the check, which waits its turn. -/
def State.requestEnable (s : State) (o : ObjRef) : State :=
  if s.objOn o || s.checking o then s
  else { s.objPost o 0x1001 with checks := (s.objPost o 0x1001).checks ++ [o] }
/-- A write of 0 during the check ends it: the object stays disabled and 0x1002 is posted. -/
def State.cancelCheck (s : State) (o : ObjRef) : State :=
  { s.objPost o 0x1002 with checks := (s.objPost o 0x1002).checks.filter (fun p => decide (p ≠ o)) }
/-- The object reads ENABLE 1 and STATUS 0. -/
def State.objEnable (s : State) (o : ObjRef) : State := (s.wr o.base o.enable 1).objPost o 0
/-- The object reads ENABLE 0, with a code posted. -/
def State.objDisable (s : State) (o : ObjRef) (code : Nat) : State := (s.wr o.base o.enable 0).objPost o code

/-! ## Register writes -/

/-- BAR0 and BAR2 respond only once Memory_Active is set (19 R501), and in D0: otherwise a register write does nothing. -/
def State.bar (s : State) (f : State → State) : State := if s.memActive && decide (s.dstate = 0) then f s else s

/-! ## Commands as they start (18 R493, R494) -/

/-- What a command entry may hold: which bits of its ARGS words and of CMD_FLAGS its row of Table 18-10 uses, which words
are host addresses, and which are the lengths of buffers the command reads. -/
structure CmdShape where
  used : List (Nat × Nat)
  flags : Nat
  addrs : List Nat
  lens : List Nat

def allBits : Nat := 2 ^ 64 - 1
/-- Table 18-10, by opcode; words are numbered from 0 at 0x08. -/
def cmdShape (op : Nat) : Option CmdShape :=
  match op with
  | 0x00 | 0x03 | 0x04 | 0x05 | 0x06 | 0x25 => some ⟨[], 0, [], []⟩
  | 0x01 => some ⟨[(0, allBits), (1, allBits), (2, allBits), (3, allBits), (4, allBits)], 0, [0, 4], [1]⟩
  | 0x02 => some ⟨[(0, allBits), (1, allBits)], 3, [], []⟩
  | 0x07 | 0x08 | 0x09 => some ⟨[(0, allBits)], 0, [], []⟩
  | 0x0A => some ⟨[(0, allBits), (1, allBits), (2, allBits)], 0, [], []⟩
  | 0x20 => some ⟨[(0, 0xF7), (1, allBits), (2, allBits), (3, allBits)], 0, [1, 3], [2]⟩
  | 0x21 => some ⟨[(0, 7)], 0, [], []⟩
  | 0x22 => some ⟨[(0, allBits), (1, allBits), (2, allBits), (3, allBits), (4, allBits)], 0, [4], []⟩
  | 0x23 | 0x24 | 0x26 | 0x28 => some ⟨[(0, allBits), (1, allBits)], 0, [0], [1]⟩
  | 0x27 => some ⟨[(0, 0xFF03)], 0, [], []⟩
  | _ => none
def CmdShape.usedBits (c : CmdShape) (w : Nat) : Nat := ((c.used.find? (fun p => decide (p.1 = w))).map (fun p => p.2)).getD 0
/-- A Reserved bit of the entry is set. -/
def entryReserved (c : CmdShape) (e : Entry) : Bool :=
  decide (e.reserved ≠ 0) || decide (e.flags.toNat &&& (31 - c.flags) ≠ 0) ||
  (upto 7).any (fun w => decide (entryArg e w &&& (allBits - c.usedBits w) ≠ 0))
def isManagement (op : Nat) : Bool := decide (0x20 ≤ op)
/-- The refusals of R493 in their order, then 0x5001 for a context that is not enabled. -/
def State.entryRefusal (s : State) (e : Entry) (op : Nat) : Option Nat :=
  let b := Reg.ring e.ring.val
  let ctxRing := decide (s.rd b Reg.RING_KIND = 1)
  match cmdShape op with
  | none => some 0x1E01
  | some c => firstCode
    [(entryReserved c e || (decide (op = 0x27) && decide (entryArg e 0 % 4 = 3)), 0x1E01),
     (ctxRing && isManagement op, 0x1E02),
     (ctxRing && decide (e.ctx.val ≠ s.rd b Reg.RING_CONTEXT), 0x1E03),
     (c.addrs.any (fun w => decide (entryArg e w % 64 ≠ 0)) || c.lens.any (fun w => decide (entryArg e w = 0)), 0x1E04),
     (decide (1 ≤ op) && decide (op ≤ 0x0A) && !s.ctxOn e.ctx.val, 0x5001)]

/-- An entry starts: a fetched one only in its turn, and one with WAIT_PRIOR only when no earlier command of its ring is
still running. An entry the ring has not listed is taken as fetched just now. -/
def State.startEntry (s : State) (op : Nat) (e : Entry) : Option State :=
  let r := s.ring e.ring.val
  let me : Fetched := ⟨BitVec.ofNat 8 op, e⟩
  let mine := r.fetched.contains me
  if (mine && decide (r.fetched.head? ≠ some me)) || (e.waitPrior && decide (r.running ≠ 0)) then none
  else some (s.setRing e.ring.val { r with fetched := if mine then r.fetched.tail else r.fetched, running := r.running + 1 })
/-- A host command: it waits its turn, is refused with its code, or acts. -/
def State.command (s : State) (op : Nat) (e : Entry) (act : State → State) : State :=
  match s.startEntry op e with
  | none => s
  | some s1 => match s1.entryRefusal e op with
    | some code => s1.done e op code
    | none => act s1
/-- The command stays outstanding with its context. -/
def State.hold (s : State) (op : Nat) (e : Entry) : State :=
  let k := s.ctx e.ctx.val
  s.setCtx e.ctx.val { k with tickets := k.tickets ++ [entryTicket e op] }

/-! ## Members (01 R14 to R22) -/

/-- FENCE_STATE of a physical core (Table 01-2). -/
def State.coreFence (s : State) (c : Nat) : Nat := mapGet 0 s.fences c
/-- The physical cores at the four positions of bay b. -/
def ownCores (b : Nat) : List Nat := (upto 4).map (fun j => 17 * (b / 4) + 4 * (b % 4) + j)
/-- FENCE_STATE of a quad (R17). -/
def State.bayFence (s : State) (b : Nat) : Nat :=
  let serving := ((upto 4).map (fun j => s.physOf (4 * b + j))).filter (fun c => decide (c < noCore))
  let own := ownCores b
  if (own ++ serving).any (fun c => decide (s.coreFence c = 1)) then 1
  else if s.activeCores b < 3 then 2
  else if own.any (fun c => decide (s.coreFence c = 2) || decide (s.coreFence c = 3)) then 3
  else 0
/-- DEGRADED of a quad (R16). -/
def State.degraded (s : State) (b : Nat) : Bool := decide (s.activeCores b < 4)
/-- CAPS of a quad (R20, Table 01-3): bits 0 to 3 hold for every core. -/
def bayCaps : Nat := 15
/-- Each change to an entry adds 2 to its SEQUENCE (R22). -/
def State.bumpEntries (s : State) : List Nat → State
  | [] => s
  | i :: is => { s.bumpEntries is with
      memberSeq := mapSet 0 (s.bumpEntries is).memberSeq i ((mapGet 0 (s.bumpEntries is).memberSeq i + 2) % 2 ^ 64) }

end Sys2Proof.Machine
end

