-- ==== Sys2Proof/Machine/Image.lean ====
section
/-! DEFINITION. Program images and the load-time fit check (05 R144 to R149; 08 R240, R241). -/
namespace Sys2Proof.Machine

/-! ## The image as bytes -/

def imgAt (bs : List Byte) (off n : Nat) : Nat := leNat ((bs.drop off).take n)
def imgSegCount (bs : List Byte) : Nat := imgAt bs 6 2
def imgEntry (bs : List Byte) : Nat := imgAt bs 8 8
/-- Entry i of the segment table (Table 05-9). -/
def imgSeg (bs : List Byte) (i : Nat) : Segment :=
  let o := 0xA0 + 24 * i
  ⟨imgAt bs o 6, bitsAt (imgAt bs o 8) 48 4, imgAt bs (o + 8) 6, imgAt bs (o + 16) 6⟩
def imgSegs (bs : List Byte) : List Segment := (upto (imgSegCount bs)).map (imgSeg bs)
/-- The resource declaration (Table 05-10). -/
def imgDecl (bs : List Byte) : Decl :=
  let w (i : Nat) : Nat := imgAt bs (0x20 + 8 * i) 8
  { scratch := bitsAt (w 0) 0 32, tiles := bitsAt (w 0) 32 16, side := bitsAt (w 0) 48 13, pegs := bitsAt (w 1) 0 32,
    credits := bitsAt (w 1) 32 32, streams := bitsAt (w 2) 0 32, bays := bitsAt (w 2) 32 7, minCores := bitsAt (w 2) 39 3,
    legacy := (w 2).testBit 42, nvw := (w 2).testBit 43, tier1 := w 3, tier3 := w 4, caps := w 5,
    preloadOff := bitsAt (w 6) 0 32, preloadBytes := bitsAt (w 6) 32 32, offload := w 7 }
/-- The image with its DIGEST field zero, over which DIGEST is computed (Table 05-8). -/
def imgForDigest (bs : List Byte) : List Byte := bs.take 0x60 ++ List.replicate 64 0 ++ bs.drop 0xA0

/-! ## Segments and ENTRY (R145) -/

def segOk (bs : List Byte) (total i : Nat) : Bool :=
  let g := imgSeg bs i
  let o := 0xA0 + 24 * i
  let align := match g.kind with | 1 => 32 | 2 => 4096 | _ => 1
  let table := 0xA0 + 24 * imgSegCount bs
  decide (1 ≤ g.kind) && decide (g.kind ≤ 5) && decide (imgAt bs (o + 6) 2 / 16 = 0) && decide (imgAt bs (o + 14) 2 = 0) &&
  decide (imgAt bs (o + 22) 2 = 0) && decide (g.off % align = 0) && decide (g.bytes % align = 0) &&
  decide (g.off + g.bytes ≤ total) && (decide (g.kind = 4) || decide (g.kind = 5) || decide (g.dest = 0)) &&
  !overlap g.off g.bytes 0 table &&
  (upto (imgSegCount bs)).all (fun j => decide (j = i) || !overlap g.off g.bytes (imgSeg bs j).off (imgSeg bs j).bytes)
/-- The first segment at fault, SEGMENTS where only ENTRY is (check 3); a KIND 0x4 segment must stay in the region. -/
def segFault (bs : List Byte) (total region : Nat) : Option Nat :=
  match (upto (imgSegCount bs)).find? (fun i => !segOk bs total i ||
      (decide ((imgSeg bs i).kind = 4) && decide (region < (imgSeg bs i).dest + (imgSeg bs i).bytes))) with
  | some i => some i
  | none =>
    let e := imgEntry bs
    if e % 32 = 0 && (imgSegs bs).any (fun g => decide (g.kind = 1) && decide (g.off ≤ e) && decide (e < g.off + g.bytes)) then none
    else some (imgSegCount bs)

/-! ## The declaration (R147, R241) -/

/-- Bytes of [a, a + n) that lie in code segments. -/
def codeBytes (segs : List Segment) (a n : Nat) : Nat :=
  ((segs.filter (fun g => decide (g.kind = 1) || decide (g.kind = 2))).map (fun g =>
    min (a + n) (g.off + g.bytes) - max a g.off)).foldl (· + ·) 0
/-- The off-load plan at an image offset breaks a rule of R240 and R241. -/
def planBad (bs : List Byte) (total off : Nat) (long : Bool) : Bool :=
  let layers := imgAt bs off 2
  let mbs := imgAt bs (off + 2) 2
  !long || decide (total < off + 32) || decide (layers = 0) || decide (4096 < layers) || decide (mbs = 0) || decide (1024 < mbs) ||
  decide (imgAt bs (off + 4) 4 ≠ 0) || decide (imgAt bs (off + 0x18) 8 ≠ 0) || decide (total < off + 32 + 32 * layers) ||
  (upto layers).any (fun l => decide (imgAt bs (off + 0x20 + 32 * l) 8 % 512 ≠ 0) || decide (imgAt bs (off + 0x38 + 32 * l) 8 ≠ 0))
/-- The byte offset of the first declaration field at fault (check 4). -/
def declFault (bs : List Byte) (total : Nat) (long : Bool) : Option Nat :=
  let d := imgDecl bs
  let segs := imgSegs bs
  firstCode
    [(decide (imgAt bs 0x18 8 ≠ 0), 0x18),
     (decide (d.scratch % 4096 ≠ 0) || decide (2097152 < d.scratch), 0x20),
     (decide (4096 < d.side), 0x26), (decide (imgAt bs 0x27 1 / 32 ≠ 0), 0x27),
     (decide (d.bays = 0) || decide (64 < d.bays), 0x34), (decide (d.minCores ≠ 3) && decide (d.minCores ≠ 4), 0x34),
     (decide (d.legacy ≠ segs.any (fun g => decide (g.kind = 2))), 0x35), (decide (imgAt bs 0x35 3 / 16 ≠ 0), 0x35),
     (decide (d.preloadOff % 256 ≠ 0) || (decide (d.preloadBytes % 256 = 0) && decide (d.preloadBytes ≤ 262144) &&
       decide (codeBytes segs d.preloadOff d.preloadBytes ≠ d.preloadBytes)), 0x50),
     (decide (d.preloadBytes % 256 ≠ 0) || decide (262144 < d.preloadBytes), 0x54),
     (decide (d.offload ≠ 0) && planBad bs total d.offload long, 0x58)]

/-! ## Pacing (R241) -/

structure Pace where
  moved : Nat
  time : Nat
  bad : Option Nat

/-- Forward over the layers of one micro-batch; w is the rate in bytes per ns. -/
def paceForward (bs : List Byte) (off w stage : Nat) : List Nat → Pace → Pace
  | [], a => a
  | l :: ls, a =>
    let ob := imgAt bs (off + 0x20 + 32 * l) 8
    let t := a.time + imgAt bs (off + 0x28 + 32 * l) 8
    let m := a.moved + ob
    let b := match a.bad with
      | some x => some x
      | none => if 0 < ob ∧ w * t + stage < m then some l else none
    paceForward bs off w stage ls ⟨m, t, b⟩
def paceBackward (bs : List Byte) (off w lead : Nat) : List Nat → Pace → Pace
  | [], a => a
  | l :: ls, a =>
    let ob := imgAt bs (off + 0x20 + 32 * l) 8
    let m := a.moved + ob
    let b := match a.bad with
      | some x => some x
      | none => if 0 < ob ∧ lead + w * a.time < m then some l else none
    paceBackward bs off w lead ls ⟨m, a.time + imgAt bs (off + 0x30 + 32 * l) 8, b⟩
def repeatPace (f : Pace → Pace) : Nat → Pace → Pace
  | 0, a => a
  | n + 1, a => repeatPace f n (f a)
/-- The first layer that cannot keep pace over p ports. -/
def planPace (bs : List Byte) (off p : Nat) : Option Nat :=
  let layers := imgAt bs off 2
  let mbs := imgAt bs (off + 2) 2
  let stage := imgAt bs (off + 8) 8
  let w := 120 * p
  let start : Pace := ⟨0, 0, none⟩
  if p = 0 then (upto layers).find? (fun l => decide (0 < imgAt bs (off + 0x20 + 32 * l) 8))
  else match (repeatPace (paceForward bs off w stage (upto layers)) mbs start).bad with
    | some l => some l
    | none =>
      (repeatPace (paceBackward bs off w (min (w * imgAt bs (off + 0x10) 8) stage) (upto layers).reverse) mbs start).bad
/-- The ports that carry a context's tier-3 window and are trained at x16 and 64 GT/s. -/
def State.fastPorts (s : State) (x : Nat) : Nat :=
  if s.flag (Reg.t3w x) Reg.T3W_ENABLE then
    ((maskList 2 (s.rd (Reg.t3w x) Reg.T3W_PORTS)).filter (fun p =>
      decide (s.rd (Reg.hifPort p) Reg.HIF_WIDTH = 16) && s.flag (Reg.hifPort p) Reg.HIF_RATE_64)).length
  else 0

/-! ## The fit check (R149) -/

/-- The physical bays that named context bays map to, while the context holds bays. -/
def State.mapped (s : State) (x : Nat) (named : List Nat) : List (Nat × Nat) :=
  named.filterMap (fun c => ((s.ctx x).bayMap[c]?).map (fun b => (c, b.val)))
/-- The first check of Table 05-11 that fails, with its Detail. -/
def State.fitCheck (s : State) (x : Nat) (bs : List Byte) (length copyAt mask : Nat) : Option (Nat × Nat) :=
  let d := imgDecl bs
  let named := maskList 64 mask
  let region := s.regionBytes x
  let long := s.flag (Reg.ctx x) Reg.CTX_LONG_SEQ
  let badBay (b : Nat) : Bool := decide (s.rd (Reg.ctx x) Reg.CTX_BAYS ≤ b) || ((s.ctx x).programOn b).isSome
  let one (b : Bool) (c det : Nat) : Option (Nat × Nat) := if b then some (c, det) else none
  let checks : List (Option (Nat × Nat)) :=
    [one (decide (imgAt bs 0 4 ≠ 0x49325751) || decide (imgAt bs 4 2 ≠ 2) || decide (imgSegCount bs = 0) || decide (256 < imgSegCount bs) ||
       decide (imgAt bs 0x10 8 ≠ length)) 0x2001 0,
     one (decide (shake256 (imgForDigest bs) ≠ (bs.drop 0x60).take 64)) 0x2002 0,
     (segFault bs length region).map (fun i => (0x2003, i)),
     (declFault bs length long).map (fun o => (0x2004, o)),
     (if s.mapped x named = [] then none else (upto 64).find? (fun i => d.caps.testBit i && !bayCaps.testBit i)).map (fun i => (0x2005, i)),
     (if d.bays ≠ named.length then some (0x2006, 0x100 + d.bays) else (named.find? badBay).map (fun b => (0x2006, b))),
     ((s.mapped x named).find? (fun cb => decide (s.activeCores cb.2 < d.minCores))).map (fun cb => (0x2007, cb.1)),
     ((upto (imgSegCount bs)).find? (fun i => decide ((imgSeg bs i).kind = 5) &&
       decide (d.scratch < (imgSeg bs i).dest + (imgSeg bs i).bytes))).map (fun i => (0x2008, i)),
     one (d.nvw && ((s.teacherHead x).isNone || named.any (fun b => !s.isDrone x b))) 0x2009 0,
     one (decide (s.rd (Reg.ctx x) Reg.CTX_PEG_COUNT < d.pegs)) 0x200A 0,
     one (decide (((s.ctxQueues x).map (fun q => s.queueCapacity x q)).foldl (· + ·) 0 < d.credits)) 0x200B 0,
     one (decide ((if s.flag (Reg.streamTable x) Reg.ST_ENABLE then s.rd (Reg.streamTable x) Reg.ST_STREAMS else 0) < d.streams)) 0x200C 0,
     one (decide (region < d.tier1) || decide (copyAt % 4096 ≠ 0) || decide (region < copyAt + length)) 0x200D 0,
     one (decide (s.windowBytes x < d.tier3)) 0x200E 0,
     (if d.offload = 0 then none else planPace bs d.offload (s.fastPorts x)).map (fun l => (0x200F, l))]
  checks.findSome? id

end Sys2Proof.Machine
end

