-- ==== Sys2Proof/Machine/TrussOps.lean ====
section
/-! DEFINITION. The Truss: flits and links, routes, packets and channels (10 R273 to R293). -/
namespace Sys2Proof.Machine

/-! ## Links (R273, R274, R280) -/

def portUp (s : State) (p : Nat) : Bool :=
  let st := s.rd (Reg.trsPort p) Reg.TRS_LINK_STATE
  decide (st = 2) || decide (st = 3)
/-- What trained lanes give a port of a WIDTH: its LINK_STATE and the lanes in use; none where the width cannot run. -/
def trainResult (width lanes : Nat) : Option (Nat × Nat) :=
  let lo := decide (lanes % 16 = 15)
  let hi := decide (lanes / 16 % 16 = 15)
  match width with
  | 0 => if lo && hi then some (2, 0xFF) else if lo then some (3, 0x0F) else if hi then some (3, 0xF0) else none
  | 1 => if lo && hi then some (2, 0xFF) else none
  | 2 => if lo then some (3, 0x0F) else none
  | _ => if hi then some (3, 0xF0) else none
/-- A port comes up on its lanes; four lanes after the fallback of WIDTH 0b00 post 0x6004. -/
def State.linkUp (s : State) (p : Nat) (r : Nat × Nat) : State :=
  let b := Reg.trsPort p
  let s1 := (s.setLink p r.1).wr b Reg.TRS_LANES_GOOD r.2
  if s.rd b Reg.TRS_WIDTH = 0 ∧ r.1 = 3 then s1.portStatus p 0x6004 else s1
/-- A port's SPAN_OK clears, which is an event (18 Table 18-3). -/
def State.clearSpan (s : State) (p : Nat) : State :=
  let b := Reg.trsPort p
  if s.flag b Reg.TRS_SPAN_OK then (s.wr b Reg.TRS_SPAN_OK 0).event Reg.HIF_EV_SECURITY else s
/-- The times of a list that lie less than a window back. -/
def State.within (s : State) (us : Nat) (l : List Nat) : List Nat := l.filter (fun t => decide (s.nowUs ≤ t + us))

/-! ## Flits (R277 to R279, R293) -/

/-- The retry buffer holds 2,048 flits, and a payload 232 bytes. -/
def retryMax : Nat := 2048
def flitPayload : Nat := 232
def listAt {α : Type} (d : α) (l : List α) (i : Nat) : α := l.getD i d
def zeros (n : Nat) : List Byte := List.replicate n 0
/-- An idle flit: the next unused FLIT_SEQ, which it does not use up. -/
def Port.idle (k : Port) (nak : Bool) : Flit :=
  ⟨0, 0, BitVec.ofNat 16 k.txSeq, BitVec.ofNat 16 k.rxSeq, nak, BitVec.ofNat 8 k.txGen, 0, zeros flitPayload⟩
/-- The header bytes 0x00 to 0x07 (Table 10-4). -/
def flitHeader (f : Flit) : List Byte :=
  leBytes 8 (f.type.toNat + f.cls.toNat * 2 ^ 4 + f.seq.toNat * 2 ^ 8 + f.ack.toNat * 2 ^ 24 + (if f.nak then 2 ^ 40 else 0) +
    f.epoch.toNat * 2 ^ 48 + f.credits.toNat * 2 ^ 56)
/-- A sequenced flit goes out, sealed under the sender's generation: it is kept until acknowledged, and reports what its
class has freed. The flits after a key change flit are of the next generation (R278). -/
def State.putFlit (s : State) (p type cls : Nat) (payload : List Byte) : State :=
  let k := s.port p
  let f : Flit := ⟨BitVec.ofNat 4 type, BitVec.ofNat 2 cls, BitVec.ofNat 16 k.txSeq, BitVec.ofNat 16 k.rxSeq, false,
    BitVec.ofNat 8 k.txGen, BitVec.ofNat 8 (min 255 (listAt 0 k.freed cls)), payload⟩
  let k1 := { k with
    txSeq := (k.txSeq + 1) % 65536, retry := k.retry ++ [(f, 0)], sealedCount := k.sealedCount + 1, out := k.out ++ [f]
    freed := k.freed.set cls (listAt 0 k.freed cls - 255) }
  s.setPort p (if type = 3 then { k1 with txGen := k.txGen + 1, sealedCount := 0, rekeyDue := false } else k1)
/-- A class has packet bytes waiting, and link credits of its own. -/
def Port.ready (k : Port) (c : Nat) : Bool := decide (listAt [] k.data c ≠ []) && decide (0 < listAt 0 k.credits c)
/-- The class that sends next (R293): management first, one flit in 64 while another class waits; then ordered and adaptive
in alternation. -/
def Port.nextClass (k : Port) : Option Nat :=
  if k.ready 0 && (decide (63 ≤ k.sinceMgmt) || !(k.ready 1 || k.ready 2)) then some 0
  else if k.ready 1 && (!k.lastOrdered || !k.ready 2) then some 1
  else if k.ready 2 then some 2 else none
/-- The next 232 bytes of a class leave in a data flit, filled with zeros where they are fewer, for one credit. -/
def State.putData (s : State) (p c : Nat) : State :=
  let k := s.port p
  let bs := listAt [] k.data c
  let pl := bs.take flitPayload
  (s.setPort p { k with
    data := k.data.set c (bs.drop flitPayload), credits := k.credits.set c (listAt 0 k.credits c - 1)
    sinceMgmt := if c = 0 then 0 else k.sinceMgmt + 1, lastOrdered := if c = 0 then k.lastOrdered else decide (c = 1) }).putFlit
    p 1 c (pl ++ zeros (flitPayload - pl.length))
/-- Up to n flits leave an up port: control flits, then data once the keys are set (15 R412). With the retry buffer full it
sends idle flits; DESIGN CHOICE (log entry 106): one in a row stands for them all. -/
def State.sendSome (s : State) (p : Nat) : Nat → State
  | 0 => s
  | n + 1 =>
    let k := s.port p
    if portUp s p = false ∨ (k.ctl = [] ∧ (k.keyed = false ∨ k.nextClass = none)) then s
    else if retryMax ≤ k.retry.length then
      (if k.out.getLast? = some (k.idle false) then s else s.setPort p { k with out := k.out ++ [k.idle false] })
    else match k.ctl with
      | f :: rest => ((s.setPort p { k with ctl := rest }).putFlit p f.1 f.2.1 f.2.2).sendSome p n
      | [] => match k.nextClass with
        | none => s
        | some c => (s.putData p c).sendSome p n
/-- Everything that may leave a port now leaves it. -/
def State.sendOut (s : State) (p : Nat) : State :=
  let k := s.port p
  s.sendSome p (k.ctl.length + sumOf (k.data.map (fun bs => bs.length / flitPayload + 1)) + 1)
/-- A control flit of a type and class joins those that wait. -/
def State.sendCtl (s : State) (p type cls : Nat) (payload : List Byte) : State :=
  let k := s.port p
  (s.setPort p { k with ctl := k.ctl ++ [(type, cls, payload)] }).sendOut p
/-- Everything up to ACK_SEQ has been received whole. -/
def ackedBy (ack seq : Nat) : Bool := decide ((ack + 65536 - seq) % 65536 < 32768)
def State.takeAck (s : State) (p ack : Nat) : State :=
  let k := s.port p
  (s.setPort p { k with retry := k.retry.filter (fun e => !ackedBy ack e.1.seq.toNat) }).sendOut p
/-- A flit is discarded: an idle flit carries NAK, and later ones are dropped until the resent one comes (R279). DESIGN CHOICE
(log entry 107): each discarded flit sends a NAK, one met while dropping too, for it may be the resent one. -/
def State.sendNak (s : State) (p : Nat) : State :=
  let k := s.port p
  s.setPort p { k with dropping := true, out := k.out ++ [k.idle true] }
/-- Resend every unacknowledged flit, byte for byte. -/
def State.resendAll (s : State) (p : Nat) (count : Bool) : State :=
  let k := s.port p
  let s1 := s.setPort p { k with
    out := k.out ++ k.retry.map (fun e => e.1), retry := k.retry.map (fun e => (e.1, if count then e.2 + 1 else 0)) }
  if count then s1.incBy (Reg.trsPort p) Reg.TRS_RETRIES k.retry.length else s1
/-- A retrain, a narrowing or a widening has ended: the link goes on from the last acknowledged flit (R280, R296). -/
def State.linkGoesOn (s : State) (p : Nat) : State := (s.resendAll p false).sendOut p

/-! ## Packets in flits (R285) -/

/-- The 16 bytes of Table 10-6. -/
def packetHeader (k : Packet) : List Byte :=
  leBytes 8 (k.key.dest.toNat + k.key.src.toNat * 2 ^ 16 + k.key.channel.toNat * 2 ^ 32 + (if k.ordered then 2 ^ 44 else 0) +
    k.type.toNat * 2 ^ 48 + ceilDiv k.body.length 4 * 2 ^ 52) ++
  leBytes 8 (k.seq.toNat + k.key.ctx.toNat * 2 ^ 32 + k.key.srcCtx.toNat * 2 ^ 44)
def packetBytes (k : Packet) : List Byte :=
  packetHeader k ++ k.body ++ zeros (4 * ceilDiv k.body.length 4 - k.body.length)
/-- The packets that lie whole at the head of received bytes, and what is left. DEDUCED (log entry 106): a word of zeros where a
header would begin is filling, since SRC and DEST of a packet that travels differ. -/
def parsePackets : Nat → List Byte → List Packet × List Byte
  | 0, bs => ([], bs)
  | n + 1, bs =>
    if bs.length < 4 then ([], bs)
    else if leNat (bs.take 4) = 0 then parsePackets n (bs.drop 4)
    else if bs.length < 16 then ([], bs)
    else
      let w0 := leNat (bs.take 8)
      let w1 := leNat ((bs.drop 8).take 8)
      let len := 4 * bitsAt w0 52 12
      if bs.length < 16 + len then ([], bs)
      else
        let key : ChannelKey := ⟨BitVec.ofNat 16 (bitsAt w0 16 16), BitVec.ofNat 12 (bitsAt w1 44 12), BitVec.ofNat 16 w0,
          BitVec.ofNat 12 (bitsAt w1 32 12), BitVec.ofNat 12 (bitsAt w0 32 12)⟩
        let pk : Packet := ⟨key, w0.testBit 44, BitVec.ofNat 4 (bitsAt w0 48 4), BitVec.ofNat 32 w1, (bs.drop 16).take len⟩
        let (ps, rest) := parsePackets n (bs.drop (16 + len))
        (pk :: ps, rest)
/-- The class of a packet's flits: 0 management, 1 ordered, 2 adaptive. -/
def packetClass (k : Packet) : Nat := if k.type = 6 ∨ k.type = 7 then 0 else if k.ordered then 1 else 2
/-- A packet enters a port's queue behind those of its class, and what may leave leaves. -/
def State.sendOn (s : State) (p : Nat) (pk : Packet) : State :=
  let k := s.port p
  let c := packetClass pk
  (s.setPort p { k with data := k.data.set c (listAt [] k.data c ++ packetBytes pk) }).sendOut p
/-- A granule as it travels: 512 bytes and their check value (16 R430). -/
def granuleBody (bs : List Byte) : List Byte := bs ++ leBytes 4 (crc32c bs).toNat
def granuleBodies (bs : List Byte) : List (List Byte) := (upto (ceilDiv bs.length 512)).map (fun i =>
  let g := (bs.drop (512 * i)).take 512
  granuleBody (g ++ zeros (512 - g.length)))
def isGranuleBody (bs : List Byte) : Bool := decide (bs.length = 516)
/-- A granule packet's check value does not verify at the package it reaches (16 R436). -/
def badGranule (pk : Packet) : Bool :=
  (decide (pk.type = 4) || decide (pk.type = 5)) && isGranuleBody pk.body && decide (granuleBody (pk.body.take 512) ≠ pk.body)

/-! ## Channels (R288 to R291) -/

def sameChannel (k : ChannelKey) (c : Channel) : Bool := decide (c.key = k)
def State.channel (s : State) (k : ChannelKey) : Option Channel := s.channels.find? (sameChannel k)
def freshChannel (k : ChannelKey) (o : Bool) : Channel := ⟨k, o, 0, [], 0, [], false⟩
/-- The channel's record becomes c, joining the list where it is new. -/
def State.setChannel (s : State) (c : Channel) : State :=
  if s.channels.any (sameChannel c.key) then
    { s with channels := s.channels.map (fun d => if sameChannel c.key d then c else d) }
  else { s with channels := s.channels ++ [c] }
def State.channelOr (s : State) (k : ChannelKey) (o : Bool) : Channel := (s.channel k).getD (freshChannel k o)
/-- A channel opens; one that was declared down opens afresh. -/
def State.openChannel (s : State) (k : ChannelKey) (o : Bool) : State :=
  match s.channel k with
  | some c => if c.down then s.setChannel (freshChannel k o) else s
  | none => s.setChannel (freshChannel k o)
/-- A key from this package's context x to context y at an address. -/
def State.keyTo (s : State) (x dest y channel : Nat) : ChannelKey :=
  ⟨BitVec.ofNat 16 (s.ownAddress.getD 0xFFFF), BitVec.ofNat 12 x, BitVec.ofNat 16 dest, BitVec.ofNat 12 y, BitVec.ofNat 12 channel⟩
/-- The channel number of a context's adaptive packets. DESIGN CHOICE (log entry 104): 4,095, or 256 where the context's
exchange uses that one; neither is then a Windway pair's or the exchange's. -/
def State.sideChannel (s : State) (x : Nat) : Nat :=
  if s.trains x && decide (4095 < s.rd (Reg.ctx x) Reg.CTX_CHANNEL_BASE + s.rd (Reg.ctx x) Reg.CTX_CHANNELS + 2) then 256 else 4095
def State.sideKey (s : State) (x dest y : Nat) : ChannelKey := s.keyTo x dest y (s.sideChannel x)
/-- A packet with its channel's next number, modulo 2^32, joins those that wait to be sent. -/
def State.queuePacket (s : State) (k : ChannelKey) (ordered : Bool) (type : Nat) (body : List Byte) : State :=
  let c := s.channelOr k ordered
  let pk : Packet := ⟨k, ordered, BitVec.ofNat 4 type, BitVec.ofNat 32 c.next, body⟩
  let s1 := s.setChannel { c with next := (c.next + 1) % 2 ^ 32 }
  { s1 with outbox := s1.outbox ++ [pk] }
def State.queueBodies (s : State) (k : ChannelKey) (ordered : Bool) (type : Nat) : List (List Byte) → State
  | [] => s
  | b :: bs => (s.queuePacket k ordered type b).queueBodies k ordered type bs
/-- Management bodies begin with a word that tells them apart. DESIGN CHOICE (log entry 104): 1 a cleared queue, its channel and
whether its side put; 2 an identity, which asks for the other end's; 3 an identity in answer; 4 an attestation report; 5 an abort. -/
def mgmtBody (kind : Nat) (rest : List Byte) : List Byte := leBytes 4 kind ++ rest
def clearedBody (channel : Nat) (putSide : Bool) : List Byte :=
  mgmtBody 1 (leBytes 4 channel ++ leBytes 4 (if putSide then 1 else 0))
def identityBody (kind : Nat) : List Byte := mgmtBody kind (leBytes 8 Config.deviceIdentity.toNat)
/-- A packet this package refuses to leave waiting: its numbers would pass the window of the far end (R288). -/
def State.windowShut (s : State) (pk : Packet) : Bool :=
  !pk.ordered && decide (pk.type ≠ 7) &&
  ((s.outbox.filter (fun o => decide (o.key = pk.key) && decide (o.type ≠ 7))).map (fun o => o.seq) ++
    (match s.channel pk.key with | some c => c.unacked.map (fun e => e.1.seq) | none => [])).any
    (fun n => let d := (pk.seq - n).toNat
              decide (4096 ≤ d) && decide (d < 2 ^ 31))

/-! ## Routes (R286 to R288) -/

def State.routeValid (s : State) (dest : Nat) : Bool := s.flag (Reg.route dest) Reg.ROUTE_VALID
/-- Of ports that are up, the one with the most credits of a class; the lowest of equals. -/
def mostCredits (s : State) (cls : Nat) : List Nat → Option Nat
  | [] => none
  | p :: ps => match mostCredits s cls ps with
    | none => some p
    | some q => if listAt 0 (s.port p).credits cls < listAt 0 (s.port q).credits cls then some q else some p
/-- The port a packet leaves by, if its route is VALID and that port is not down. -/
def State.portFor (s : State) (k : Packet) : Option Nat :=
  let dest := k.key.dest.toNat
  if k.ordered then s.orderedRoute dest
  else if s.routeValid dest then
    mostCredits s (packetClass k) ((maskList 16 (s.rd (Reg.route dest) Reg.ROUTE_PORT_SET)).filter (fun p => s.portAlive p))
  else none

/-! ## Queues cleared (08 R220, R234) -/

/-- The WWPUTs and WWGETs a queue still holds leave it without effect; each core takes a deferred trap 0x2107 (08 R220). -/
def State.withdrawRefs (s : State) (q : Nat) : List WRef → State
  | [] => s
  | r :: rs =>
    let c := r.core.val
    let s1 := match (s.core c).flight.find? (fun i => decide (i.id = r.id)) with
      | none => s
      | some i => (s.dropFlight c r.id).deferTrap c i { code := 0x2107, detail := q } false
    s1.withdrawRefs q rs
/-- The ranges a queue starts to clear; a sender holds no ring. -/
def State.clearingOf (s : State) (x q : Nat) : Clearing :=
  ⟨s.wq x q Reg.WWY_SEGMENT, if s.isSender x q then (0, 0) else s.ringRange x q, ((s.spillArea x q).head?).getD (0, 0)⟩
/-- A queue stops and is cleared (08 R220): its records are discarded, its waiters withdrawn, its ring and spill area start
clearing, behind any it still clears. A code is posted where the cause gives one. -/
def State.clearQueue (s : State) (x q : Nat) (code : Option Nat) : State :=
  if s.queueOn x q then
    let k := s.queue x q
    let held := k.puts ++ k.gets ++ (k.delivering.map (fun d => d.ref)).foldl (fun l r => if l.contains r then l else l ++ [r]) []
    let s1 := s.withdrawRefs q held
    let s2 := (s1.setQueue x q { k with
      recs := [], puts := [], gets := [], delivering := [], outstanding := 0, clearing := k.clearing ++ [s.clearingOf x q] }).wr
      (Reg.wwy x q) Reg.WWY_ENABLE 0
    match code with | some c => s2.wr (Reg.wwy x q) Reg.WWY_STATUS c | none => s2
  else s
/-- The channel of a remote queue's records: its number is what REMOTE_QUEUE of the getter's side holds (R295), which names
the putter's queue. -/
def State.queueKey (s : State) (x q : Nat) : ChannelKey :=
  let dev := s.wq x q Reg.WWY_REMOTE_DEVICE
  if s.isSender x q then s.keyTo x dev x q
  else ⟨BitVec.ofNat 16 dev, BitVec.ofNat 12 x, BitVec.ofNat 16 (s.ownAddress.getD 0xFFFF), BitVec.ofNat 12 x,
    BitVec.ofNat 12 (s.wq x q Reg.WWY_REMOTE_QUEUE)⟩
/-- The other direction of a channel. -/
def reverseKey (k : ChannelKey) : ChannelKey := ⟨k.dest, k.ctx, k.src, k.srcCtx, k.channel⟩
/-- Clear a queue and, of a remote pair, its partner: the partner's package is told by a management packet. -/
def State.clearPair (s : State) (x q : Nat) (code : Option Nat) : State :=
  let remote := s.queueOn x q && (s.isSender x q || s.isReceiver x q)
  let s1 := s.clearQueue x q code
  if remote then
    s1.queuePacket (s.sideKey x (s.wq x q Reg.WWY_REMOTE_DEVICE) x) false 6 (clearedBody (s.queueKey x q).channel.toNat (s.isSender x q))
  else s1
def State.clearPairs (s : State) (x : Nat) (code : Option Nat) : List Nat → State
  | [] => s
  | q :: qs => (s.clearPair x q code).clearPairs x code qs
/-- The partner at an address cleared its queue on a channel. -/
def State.partnerCleared (s : State) (x dev channel : Nat) (putSide : Bool) : State :=
  ((s.ctxQueues x).filter (fun q => (if putSide then s.isReceiver x q else s.isSender x q) &&
    decide (s.wq x q Reg.WWY_REMOTE_DEVICE = dev) && decide ((s.queueKey x q).channel.toNat = channel))).foldl
    (fun a q => a.clearQueue x q none) s
/-- The queues of a context whose putter or getter has become absent: the code is posted, the queue keeps its records, and
the other side's waiters are withdrawn (08 Table 08-7). -/
def State.absentQueue (s : State) (x q : Nat) : State :=
  let putGone := !s.isReceiver x q && s.isAbsent x (s.wq x q Reg.WWY_PUT_CORE)
  let getGone := !s.isSender x q && s.isAbsent x (s.wq x q Reg.WWY_GET_CORE)
  let k := s.queue x q
  let out := (if putGone then k.gets else []) ++ (if getGone then k.puts else [])
  let s1 := s.withdrawRefs q out
  let k1 := s1.queue x q
  let s2 := s1.setQueue x q { k1 with
    puts := k1.puts.filter (fun r => !out.contains r)
    gets := k1.gets.filter (fun r => !out.contains r) }
  if putGone || getGone then s2.wr (Reg.wwy x q) Reg.WWY_STATUS 0x1405 else s
def State.absentQueues (s : State) (x : Nat) : List Nat → State
  | [] => s
  | q :: qs => (s.absentQueue x q).absentQueues x qs

/-! ## Span neighbours (R294) -/

/-- The ports to the neighbour that port p joins. -/
def State.portsToPeer (s : State) (p : Nat) : List Nat :=
  (upto 16).filter (fun q => decide (s.rd (Reg.trsPort q) Reg.TRS_PEER_IDENTITY = s.rd (Reg.trsPort p) Reg.TRS_PEER_IDENTITY))
/-- The span pairs to an address are cleared and their contexts halt with 0x600A (10 Table 10-8). -/
def State.dropSpanPairs (s : State) : List (Nat × Nat) → State
  | [] => s
  | (x, q) :: l => ((s.clearPair x q none).haltCtx x 0x600A).dropSpanPairs l
/-- The neighbour of port p is a span neighbour no more (10 R294, Table 10-8). -/
def State.loseSpan (s : State) (p : Nat) : State :=
  let dev := s.rd (Reg.trsPort p) Reg.TRS_PEER_ADDRESS
  let pairs := s.enabledQueues.filter (fun xq => decide (s.wq xq.1 xq.2 Reg.WWY_REMOTE_DEVICE = dev) && (s.queue xq.1 xq.2).spanPair)
  ((s.portsToPeer p).foldl (fun a q => a.clearSpan q) s).dropSpanPairs pairs
/-- A neighbour joined by a manifest that this package no longer holds enabled is no span neighbour (10 R294). -/
def State.spanRecheck (s : State) : State :=
  (upto 16).foldl (fun a p =>
    if a.flag (Reg.trsPort p) Reg.TRS_SPAN_OK &&
        !a.enabledSlots.any (fun n => decide (a.rd (Reg.nvwSlot n) Reg.SLOT_MANIFEST_ID = (a.port p).spanId)) then a.loseSpan p else a) s

/-! ## A channel or a port goes down (R280, R291; 08 Table 08-7) -/

/-- The captures of context x that have started are not secured, and what waits to be sent of them is not sent. -/
def State.dropTaken (s : State) (x : Nat) : State :=
  let k := s.ctx x
  ({ s with outbox := s.outbox.filter (fun o => !(decide (o.type = 4) && decide (o.key.srcCtx.toNat = x))) } : State).setCtx x
    { k with captures := k.captures.filter (fun d => d.taken.isNone) }
/-- A channel is declared down: its packets are given up (a checkpoint among them is not secured), a Windway pair on it is
cleared, and its context halts with 0x6007. -/
def State.channelDown (s : State) (c : Channel) : State :=
  let s1 := { s.setChannel { c with down := true, unacked := [] } with outbox := s.outbox.filter (fun o => decide (o.key ≠ c.key)) }
  let x := c.key.srcCtx.toNat
  let qs := (s1.ctxQueues x).filter (fun q => decide (s1.queueKey x q = c.key) || decide (reverseKey (s1.queueKey x q) = c.key))
  let s2 := if c.key = s.sideKey x (s.rd (Reg.ctx x) Reg.CTX_BUDDY_DEVICE) x then s1.dropTaken x else s1
  (s2.clearPairs x (some 0x6007) qs).haltCtx x 0x6007
def State.channelsDown (s : State) : List Channel → State
  | [] => s
  | c :: cs => (s.channelDown c).channelsDown cs
/-- The channels this package sends on that satisfy a test, and that are not down yet. -/
def State.sendChannels (s : State) (p : Channel → Bool) : List Channel :=
  s.channels.filter (fun c => !c.down && decide (s.ownAddress = some c.key.src.toNat) && p c)
/-- The ordered channels whose ORDERED_PORT is p. -/
def State.channelsBy (s : State) (p : Nat) : List Channel :=
  s.sendChannels (fun c => c.ordered && decide (s.rd (Reg.route c.key.dest.toNat) Reg.ROUTE_ORDERED_PORT = p))
/-- No retrain can bring port p back: the ordered channels that leave by it, idle ones too, are declared down (R291). -/
def State.portGone (s : State) (p : Nat) : State := s.channelsDown (s.channelsBy p)
/-- A port goes down (0) or fails (5) with a code; it stays so until ENABLE is cleared and set again. -/
def State.linkLost (s : State) (p state code : Nat) : State :=
  let b := Reg.trsPort p
  ((((s.setLink p state).wr b Reg.TRS_LANES_GOOD 0).clearSpan p).portStatus p code).portGone p

end Sys2Proof.Machine
end

