-- ==== Sys2Proof/Machine/ContextOps.lean ====
section
/-! DEFINITION. Contexts: program start (05 Table 05-1, R149; 07 R197), the scheduler (14 R386 to R390), switches
(R391 to R395), stops and teardown (R398, R399). -/
namespace Sys2Proof.Machine

/-! ## A program starts (05 Table 05-1) -/

/-- The scratchpad a program finds: its KIND 0x5 segments, read from the image copy. -/
def State.startScratch (s : State) (x : Nat) (p : Program) : Map Byte :=
  (p.segs.filter (fun g => decide (g.kind = 5))).foldl
    (fun m g => mapWrite 0 m g.dest (s.bytesAt (.tier1 x) (p.base + g.off) g.bytes)) []
/-- The argument words in s1 to s8. -/
def startScalars (args : List Word) : Map Word :=
  ((upto 8).map (fun i => (i + 1, args.getD i 0))).foldl (fun m kv => mapSet 0 m kv.1 kv.2) []
/-- The lanes of logical core k: seeded with stream 0, or as a restore left them (09 R266). -/
def State.startLanes (s : State) (x k : Nat) : Map Lane :=
  let r := (s.ctx x).restoredLanes
  let seed := BitVec.ofNat 64 (s.rd (Reg.ctx x) Reg.CTX_SEED)
  (upto 64).foldl (fun m j =>
    let fresh := Lane.seeded seed 0 k j
    setLane m j (mapGet fresh r (64 * k + j))) []
/-- The values of Table 05-1's last column, and the preload range in the cache (05 R152). -/
def State.startCore (s : State) (x : Nat) (p : Program) (kc : Nat × Nat) : State :=
  let old := s.core kc.2
  (s.setCore kc.2 { Core.start with
    regs := { RegFile.zero with s := startScalars p.args, lanes := s.startLanes x kc.1 }
    scratch := s.startScratch x p, counters := old.counters, icacheMisses := old.icacheMisses, icache := old.icache
    pc := BitVec.ofNat 64 p.entry, run := .running }).preload kc.2 p
def State.startCores (s : State) (x : Nat) (p : Program) : List (Nat × Nat) → State
  | [] => s
  | kc :: l => (s.startCore x p kc).startCores x p l
/-- The cores of a context that can run: a position whose core is fenced waits for its bent's free core (16 R442). -/
def State.servingKcs (s : State) (x : Nat) : List (Nat × Nat) := (s.ctxCores x).filter (fun kc => decide (s.coreFence kc.2 < 2))
/-- The logical and physical cores of a program. -/
def State.programKcs (s : State) (x : Nat) (p : Program) : List (Nat × Nat) :=
  (s.servingKcs x).filter (fun kc => p.bays.getLsbD (kc.1 / 4))
/-- The physical bays a program runs on, as a mask. -/
def State.programBayMask (s : State) (x : Nat) (p : Program) : Nat :=
  (maskList 64 p.bays.toNat).foldl (fun m b => match (s.ctx x).bayMap[b]? with | some y => m ||| 2 ^ y.val | none => m) 0
/-- A program starts on the bays its context holds: its cores take the start state, and REPORT_START is answered. -/
def State.startProgram (s : State) (x : Nat) (p : Program) : State :=
  let s1 := s.startCores x p (s.programKcs x p)
  let k := s1.ctx x
  let s2 := s1.setCtx x { k with
    programs := k.programs.map (fun q => if q.bays = p.bays then { q with started := true } else q)
    replayed := if s1.tracing x then
        k.replayed ++ [{ p with started := k.restoredLanes.any (fun kv => p.bays.getLsbD (kv.1 / 256)) }] else k.replayed
    restoredLanes := mapClear (fun i => p.bays.getLsbD (i / 256)) k.restoredLanes }
  match p.ticket with
  | some t => if p.reportStart then s2.post t false 0 (s.programBayMask x p) 0 else s2
  | none => s2
/-- Every loaded program that has not started starts. -/
def State.startPending (s : State) (x : Nat) : List Program → State
  | [] => s
  | p :: ps => (if p.started then s else s.startProgram x p).startPending x ps

/-! ## Waiting (14 R386, R387) -/

/-- A context becomes Waiting under a new sequence number. -/
def State.enterWaiting (s : State) (x : Nat) : State :=
  (({ s with runSeq := s.runSeq + 1 } : State).wr (Reg.ctx x) Reg.CTX_RUN_SEQ (s.runSeq + 1)).setCtxState x stWaiting
def State.isLc (s : State) (x : Nat) : Bool := s.flag (Reg.ctx x) Reg.CTX_CLASS
def State.priority (s : State) (x : Nat) : Nat := s.rd (Reg.ctx x) Reg.CTX_PRIORITY
def State.runSeqOf (s : State) (x : Nat) : Nat := s.rd (Reg.ctx x) Reg.CTX_RUN_SEQ
/-- R387: LC first, then higher priority, then lower sequence number. -/
def State.runsBefore (s : State) (x y : Nat) : Bool :=
  if s.isLc x != s.isLc y then s.isLc x
  else if s.priority x ≠ s.priority y then decide (s.priority y < s.priority x)
  else decide (s.runSeqOf x < s.runSeqOf y)
def State.inState (s : State) (st : Nat) : List Nat := s.enabledCtxs.filter (fun x => decide (s.ctxState x = st))
def State.waitingOrder (s : State) : List Nat := sortBy s.runsBefore (s.inState stWaiting)

/-! ## Candidates (R388) -/

def Ctx.capsNeeded (k : Ctx) : Nat := k.programs.foldl (fun a p => a ||| p.decl.caps) 0
def Ctx.coresNeeded (k : Ctx) : Nat :=
  maxOf (k.programs.map (fun p => p.decl.minCores) ++ (if k.hasSaved then k.savedActive else []))
/-- A bay is held back by a tripped stack of its half (13 R362) or a tripped island of its cores (19 R509). -/
def State.bayBarred (s : State) (b : Nat) : Bool :=
  (upto 4).any (fun i => let g := 4 * (b / 32) + i
    mapGet false s.stackHot g || s.flag (Reg.safDram g) Reg.DRAM_TRIPPED) ||
  (ownCores b ++ (upto 4).map (fun j => s.physOf (4 * b + j))).any (fun c => mapGet false s.coreHot c)
def capsHold (have' need : Nat) : Bool := decide (have' &&& need = need)
/-- The needs that CTX_ALLOWED_BAYS can meet as the member table stands; a retest may give its core back. -/
def State.couldServe (s : State) (x b : Nat) : Bool :=
  (s.rd (Reg.ctx x) Reg.CTX_ALLOWED_BAYS).testBit b && capsHold bayCaps (s.ctx x).capsNeeded &&
  decide (3 ≤ s.mannedCores b) && decide ((s.ctx x).coresNeeded ≤ s.mannedCores b) &&
  (decide (s.mannedCores b = 4) || s.flag (Reg.ctx x) Reg.CTX_ELASTIC)
def State.candidate (s : State) (x b : Nat) : Bool :=
  (s.rd (Reg.ctx x) Reg.CTX_ALLOWED_BAYS).testBit b && capsHold bayCaps (s.ctx x).capsNeeded &&
  decide (s.bayFence b ≠ 1) && decide (s.bayFence b ≠ 2) && decide ((s.ctx x).coresNeeded ≤ s.activeCores b) &&
  (!s.degraded b || s.flag (Reg.ctx x) Reg.CTX_ELASTIC) && !s.bayBarred b
def State.candidates (s : State) (x : Nat) : List Nat := (upto 64).filter (s.candidate x)
def State.bayFree (s : State) (b : Nat) : Bool := (s.bayHolder b).isNone
def State.neverPlaceable (s : State) (x : Nat) : Bool :=
  decide (((upto 64).filter (s.couldServe x)).length < s.rd (Reg.ctx x) Reg.CTX_BAYS)
/-- The score of a candidate (R388). -/
def State.bayScore (s : State) (x b : Nat) : Nat :=
  (if (s.rd (Reg.ctx x) Reg.CTX_LAST_BAYS).testBit b then 4 else 0) +
  (if (s.ctxQueues x).any (fun q => !s.isSender x q && decide (s.wq x q Reg.WWY_SEGMENT = b / 4)) then 2 else 0) +
  (if (s.groups x).length ≤ 2 * ((s.groups x).filter (fun g => decide (g / 16 = b / 32))).length then 1 else 0)
/-- The CTX_BAYS free candidates with the highest scores, ties to the lower number, ascending. -/
def State.chosenBays (s : State) (x : Nat) : Option (List Nat) :=
  let n := s.rd (Reg.ctx x) Reg.CTX_BAYS
  let free := (s.candidates x).filter s.bayFree
  if free.length < n then none
  else some (sortBy (fun a b => decide (a < b)) ((sortBy (fun a b => decide (s.bayScore x b < s.bayScore x a)) free).take n))

/-! ## Placement and preemption (R387 to R390) -/

/-- Context x, at its step, is one that core c serves from now on (16 R448). -/
def State.noteServed (s : State) (c x : Nat) : State :=
  let l := mapGet [] s.served c
  let n := (s.ctx x).nonce
  if l.any (fun e => decide (e.1 = x) && decide (e.2.2 = n)) then s
  else { s with served := mapSet [] s.served c (l ++ [(x, BitVec.ofNat 64 (s.rd (Reg.ctx x) Reg.CTX_STEP), n)]) }
def State.noteServedAll (s : State) (x : Nat) : List Nat → State
  | [] => s
  | c :: cs => (s.noteServed c x).noteServedAll x cs
def maskOf (l : List Nat) : Nat := l.foldl (fun m b => m ||| 2 ^ b) 0
/-- The context takes its bays and is Switching until its cores are restored or loaded. -/
def State.placeCtx (s : State) (x : Nat) (bays : List Nat) : State :=
  let k := s.ctx x
  let s1 := (({ s with placeSeq := s.placeSeq + 1 } : State).setCtx x { k with
    bayMap := bays.map (fun b => Fin.ofNat 64 b)
    placedAt := s.placeSeq, placedUs := s.nowUs, goal := some .place, phase := .restore }).setCtxState x stSwitching
  let s2 := s1.wr (Reg.ctx x) Reg.CTX_LAST_BAYS (maskOf bays)
  (s2.noteServedAll x ((s2.ctxCores x).map (fun kc => kc.2))).absentQueues x (s2.ctxQueues x)
/-- A Waiting context that CTX_ALLOWED_BAYS can never serve enters Stopped and does not wait (R390). -/
def State.stopHopeless (s : State) : List Nat → State
  | [] => s
  | x :: xs => (if s.neverPlaceable x then s.enterStopped x 0x5003 else s).stopHopeless xs
/-- The first context in the order that can be placed is placed; an LC context that cannot be placed now holds back those
after it (R387). -/
def State.placeFirst (s : State) : List Nat → State
  | [] => s
  | x :: xs => match s.chosenBays x with
    | some bays => s.placeCtx x bays
    | none => if s.isLc x then s else s.placeFirst xs
/-- Nothing is placed while JNR_REFCLK is lost (19 R505) or the device is not in D0 (19 R512). -/
def State.mayPlace (s : State) : Bool := !mapGet false s.clkLost 3 && decide (s.dstate = 0)
def State.placement (s : State) : State :=
  let s1 := s.stopHopeless s.waitingOrder
  if s1.mayPlace then s1.placeFirst s1.waitingOrder else s1

/-- A Running context leaves its bays: its cores stop issue and drain (R391). -/
def State.preempt (s : State) (x : Nat) : State :=
  ((s.setCtx x { s.ctx x with goal := some .preempt, phase := .drain }).setCtxState x stSwitching).drainCores (s.ctxCores x)
def State.preemptAll (s : State) : List Nat → State
  | [] => s
  | x :: xs => (s.preempt x).preemptAll xs
/-- The bay is free, or its context is already giving it up. -/
def State.bayLeaving (s : State) (b : Nat) : Bool :=
  match s.bayHolder b with
  | none => true
  | some (y, _) => decide (s.ctxState y = stTearing) || (match (s.ctx y).goal with | some .preempt => true | some (.stop _) => true | _ => false)
def Ctx.bayNums (k : Ctx) : List Nat := k.bayMap.map Fin.val
/-- The victims taken in turn until enough candidates would be free. -/
def takeVictims (s : State) (cands : List Nat) (need : Nat) : List Nat → List Nat → Option (List Nat)
  | got, [] => if need ≤ got.length then some [] else none
  | got, y :: ys =>
    if need ≤ got.length then some []
    else (takeVictims s cands need (got ++ (s.ctx y).bayNums.filter (fun b => cands.contains b)) ys).map (fun l => y :: l)
def State.victimBefore (s : State) (x y : Nat) : Bool :=
  if s.priority x ≠ s.priority y then decide (s.priority x < s.priority y)
  else if (s.ctx x).placedAt ≠ (s.ctx y).placedAt then decide ((s.ctx y).placedAt < (s.ctx x).placedAt)
  else decide (y < x)
/-- R389, for the first LC context in the order that cannot be placed. -/
def State.preemption (s : State) : State :=
  match s.waitingOrder with
  | [] => s
  | x :: _ =>
    if !s.mayPlace || !s.isLc x || s.neverPlaceable x || (s.chosenBays x).isSome then s
    else
      let cands := s.candidates x
      let be := (s.inState stRunning).filter (fun y => !s.isLc y && (s.ctx y).bayNums.any (fun b => cands.contains b))
      match takeVictims s cands (s.rd (Reg.ctx x) Reg.CTX_BAYS) (cands.filter s.bayLeaving) (sortBy s.victimBefore be) with
      | some l => s.preemptAll l
      | none => s
/-- R390: a BE context has run for its quantum since placement, and another BE context of equal or higher priority waits. -/
def State.sliceExpire (s : State) (x : Nat) : State :=
  let ms := s.rd (Reg.ctx x) Reg.CTX_QUANTUM_MS
  if s.ctxState x = stRunning && !s.isLc x && decide (ms ≠ 0) && decide ((s.ctx x).placedUs + 1000 * ms ≤ s.nowUs) &&
      (s.inState stWaiting).any (fun y => !s.isLc y && decide (s.priority x ≤ s.priority y)) then s.preempt x
  else s

/-! ## Teardown (R399) -/

/-- The lines of a window that the host holds are back-invalidated (13 R379). -/
def State.recallWindow (s : State) (w : Nat) : State :=
  let b := Reg.hdm w
  s.backInvalidate (s.meetsRegion (s.rd b Reg.HDM_CONTEXT) (s.rd b Reg.HDM_OFFSET) (s.rd b Reg.HDM_BYTES) hostLine)
def State.disableHdms (s : State) (x : Nat) : List Nat → State
  | [] => s
  | w :: ws => (if s.rd (Reg.hdm w) Reg.HDM_CONTEXT = x then
      ((s.recallWindow w).wr (Reg.hdm w) Reg.HDM_ENABLE 0).wr (Reg.hdm w) Reg.HDM_STATUS 0x1003 else s).disableHdms x ws
/-- The teacher is unbound: its head's ENABLE reads 0. -/
def State.unbind (s : State) (x : Nat) : State :=
  match s.teacherHead x with
  | some n => (s.wr (Reg.nvwSlot n) Reg.SLOT_ENABLE 0).spanRecheck
  | none => s
/-- Every outstanding command of a context completes with a code. -/
def State.finishAll (s : State) (x code : Nat) : State :=
  let k := s.ctx x
  let loads := k.programs.filterMap (fun p => p.ticket)
  let s1 := s.setCtx x { k with
    programs := k.programs.map (fun p => { p with ticket := none })
    tickets := [], told := k.told || !(loads ++ k.tickets).isEmpty }
  (loads ++ k.tickets).foldl (fun a t => a.post t true code 0 0) s1
/-- The check of an object of the context that has not ended ends without it. -/
def State.dropChecks (s : State) (x : Nat) : State :=
  { s with checks := s.checks.filter (fun o => match o with
      | .queue y _ => decide (y.val ≠ x)
      | .stream y => decide (y.val ≠ x)
      | .t3w y => decide (y.val ≠ x)
      | _ => true) }
/-- The table is disabled: every stream is gone without completions (R353). -/
def State.stopTable (s : State) (x : Nat) : State :=
  let t := Reg.streamTable x
  let s1 := s.setCtx x { s.ctx x with streams := Streams.start, cmdCount := 0, cmdNext := 0, cmdDone := 0 }
  s1.resetFields t [Reg.ST_ENABLE, Reg.ST_STREAMS_OPEN, Reg.ST_FREE_C, Reg.ST_FREE_D]
/-- Teardown begins (R399, 18 R483): the cores drain, commands complete with 0x5007, the context's objects are
disabled and its teacher unbound. -/
def State.beginTeardown (s : State) (x : Nat) : State :=
  let st := s.ctxState x
  if st = stDisabled ∨ st = stTearing then s else
  let s1 := (s.setCtx x { s.ctx x with goal := none, phase := .drain }).setCtxState x stTearing
  let s2 := (s1.drainCores (s1.ctxCores x)).finishAll x 0x5007
  let s3 := s2.clearPairs x (some 0x1003) (s2.ctxQueues x)
  let s4 := if s3.flag (Reg.streamTable x) Reg.ST_ENABLE then
    (s3.stopTable x).wr (Reg.streamTable x) Reg.ST_STATUS 0x1003 else s3
  let s5 := s4.disableHdms x s4.enabledHdms
  let s6 := if s5.flag (Reg.t3w x) Reg.T3W_ENABLE then
    (s5.wr (Reg.t3w x) Reg.T3W_ENABLE 0).wr (Reg.t3w x) Reg.T3W_STATUS 0x1003 else s5
  (s6.unbind x).dropChecks x
/-- A context is torn down for a cause of its own: STATUS takes the code. -/
def State.teardownWith (s : State) (x code : Nat) : State := (s.ctxStatus x code).beginTeardown x
def State.zeroPegs (s : State) (base n : Nat) : State :=
  { s with pegs := mapClear (fun p => decide (base ≤ p) && decide (p < base + n)) s.pegs,
           pegSignals := s.pegSignals.filter (fun g => !(decide (base ≤ g.peg) && decide (g.peg < base + n))) }
/-- Each enabled ring of the context is disabled: its records are discarded (18 R483, R492). -/
def State.disableRings (s : State) (x : Nat) : List Nat → State
  | [] => s
  | r :: rs => (if s.rd (Reg.ring r) Reg.RING_KIND = 1 ∧ s.rd (Reg.ring r) Reg.RING_CONTEXT = x then
      (((s.setRing r Ring.start).wr (Reg.ring r) Reg.RING_ENABLE 0).wr (Reg.ring r) Reg.RING_STOPPED 0).wr (Reg.ring r)
        Reg.RING_STATUS 0x1003 else s).disableRings x rs
def isRo (f : Field) : Bool := f.acc = .ro
/-- Every core of the context stands still with nothing of its own outstanding. -/
def State.settled (s : State) (x : Nat) : Bool :=
  (s.ctxCores x).all (fun kc =>
    decide ((s.core kc.2).run ≠ .running) && decide ((s.core kc.2).run ≠ .draining) && decide ((s.core kc.2).deferred = []) &&
    s.quiet kc.2)
/-- The zeroing finishes and the context is Disabled. -/
def State.teardownDone (s : State) (x : Nat) : State :=
  if s.ctxState x = stTearing && s.settled x && !((s.clearings).any (fun yc => decide (yc.1 = x))) then
    let b := Reg.ctx x
    let told := (s.ctx x).told
    let g := s.groups x
    let s1 := (s.releaseBays x).zeroPegs (s.rd b Reg.CTX_PEG_BASE) (s.rd b Reg.CTX_PEG_COUNT)
    let s2 := s1.zeroTier1 (fun a => inStripe g (s.rd b Reg.CTX_GROUP_BASE) (s.rd b Reg.CTX_GROUP_BYTES) a ||
      inStripe g (s.rd b Reg.CTX_SAVE_BASE) (s.savePerGroup x) a)
    let s3 := (s2.disableRings x s2.enabledRings).setCtx x Ctx.start
    let s4 := s3.resetFields b ((Reg.ctxTrainFields ++ Reg.ctxExchFields).filter isRo)
    let s5 := (s4.wr b Reg.CTX_ENABLE 0).setCtxState x stDisabled
    if told then s5 else s5.event Reg.HIF_EV_CONTEXT
  else s

/-! ## Switches (R391 to R395) -/

/-- The save window of context x holds an address. -/
def State.inSaveWindow (s : State) (x a : Nat) : Bool := inStripe (s.groups x) (s.rd (Reg.ctx x) Reg.CTX_SAVE_BASE) (s.savePerGroup x) a
/-- The granules of the save window are written whole: their marks go, and they take the current generation (13 R358, 15
R408). -/
def State.writeWindow (s : State) (x : Nat) : State :=
  let s1 : State := { s with
    poison := mapClear (fun g => s.inSaveWindow x (g * granule)) s.poison
    drone := mapClear (fun g => s.inSaveWindow x (g * granule)) s.drone }
  if s.flag Reg.jnrKeys Reg.KEYS_SWEEP_ACTIVE then
    s1.renewRange ((s.saveRanges x).flatMap (fun r => (upto (r.2 / granule)).map (fun i => r.1 / granule + i)))
  else s1
/-- A granule of the save window is poisoned. -/
def State.windowBad (s : State) (x : Nat) : Bool := s.poison.any (fun kv => s.inSaveWindow x (kv.1 * granule))
/-- A bay's record has been written to the save window (R385), which reads as what is saved (State.dramByte); a failure tears the
context down (R394). -/
def State.switchSaved (s : State) (x : Nat) (ok : Bool) : State :=
  let k := s.ctx x
  let out := match k.goal with | some .preempt => true | some (.stop _) => true | _ => false
  if s.ctxState x = stSwitching && out && decide (k.phase = .drain) && s.settled x then
    if !ok then s.teardownWith x 0x5006
    else ((s.writeWindow x).setCtx x { k with
      saved := s.coresOf x, hasSaved := true, savedActive := k.bayNums.map s.activeCores, phase := .scrub }).inc
        (Reg.ctx x) Reg.CTX_SWITCHES
  else s
/-- The bays have been scrubbed: a preempted context waits again, a stopped one is Stopped. -/
def State.switchScrubbed (s : State) (x : Nat) : State :=
  let k := s.ctx x
  if s.ctxState x = stSwitching && decide (k.phase = .scrub) then
    match k.goal with
    | some .preempt => (s.releaseBays x).enterWaiting x
    | some (.stop code) => (s.releaseBays x).enterStopped x code.toNat
    | _ => s
  else s
/-- A logical core as it comes back: one that had trapped or drained stands drained, and its instructions are reissued at
its saved address; a halted one stays halted. -/
def restoredCore (k : Ctx) (i : Nat) : Core :=
  if k.hasSaved then
    let c := { mapGet Core.start k.saved i with icache := [] }
    match c.run with
    | .trapped => { c with run := .drained }
    | _ => c
  else
    let c := mapGet Core.start k.kept i
    { Core.start with counters := c.counters, icacheMisses := c.icacheMisses }
/-- A core that a context comes back to: its cache takes the preload range of a program that has started (05 R152), and an
instruction address in a legacy segment resumes in legacy mode (07 R207). -/
def State.resumeCore (s : State) (c : Nat) : State :=
  match s.programOf c with
  | some p => if p.started then (s.goTo c (s.core c).pc).preload c p else s
  | none => s
def State.restoreCores (s : State) (k : Ctx) : List (Nat × Nat) → State
  | [] => s
  | kc :: l => (((s.setCore kc.2 (restoredCore k kc.1)).resumeCore kc.2)).restoreCores k l
/-- Some bay of the context still sleeps (19 R511). -/
def State.asleep (s : State) (x : Nat) : Bool :=
  (s.ctx x).bayNums.any (fun b => s.flag (Reg.pwrBay b) Reg.PWR_SLEEPING)
/-- The restore checks (R394) and, when they pass, issue. -/
def State.switchRestored (s : State) (x : Nat) (ok : Bool) : State :=
  let k := s.ctx x
  if s.ctxState x = stSwitching && decide (k.phase = .restore) && !s.asleep x then
    if (!ok || s.windowBad x) && k.hasSaved then (s.releaseBays x).teardownWith x 0x5006
    else match k.goal with
      | some (.stop code) => (s.releaseBays x).enterStopped x code.toNat
      | some .place =>
        if k.bayNums.any (fun b => decide (s.activeCores b < k.coresNeeded)) then (s.releaseBays x).enterStopped x 0x5008
        else
          let s1 := (s.restoreCores k (s.servingKcs x)).setCtx x { k with
            saved := [], hasSaved := false, savedActive := [], goal := none, phase := .drain }
          (s1.setCtxState x stRunning).startPending x k.programs
      | _ => s
  else s

/-! ## Host commands (05 R149, 14 R386) -/

/-- The KIND 0x4 segments go to their places in the region. DESIGN CHOICE (log entry 89): a destination that meets an image
copy is written there, the spec giving it no refusal. -/
def State.copySegments (s : State) (x : Nat) (bs : List Byte) : List Segment → State
  | [] => s
  | g :: gs => (if g.kind = 4 then s.store (.tier1 x) g.dest 0 ((bs.drop g.off).take g.bytes) else s).copySegments x bs gs
/-- A first program zeroes its pegs, and the engines of the context start their counts over (07 R197). -/
def State.zeroProgramPegs (s : State) (x n : Nat) : State :=
  let k := s.ctx x
  let base := s.rd (Reg.ctx x) Reg.CTX_PEG_BASE
  let within (f : Nat) : Bool := decide (f < n)
  let s1 : State := { s with pegs := mapClear (fun p => decide (base ≤ p) && decide (p < base + n)) s.pegs }
  let e := k.exch
  s1.setCtx x { k with
    exch := { e with
      fillCount := if within (s.rd (Reg.ctx x) Reg.CTX_FILL_PEG) then 0 else e.fillCount
      gatherCount := if within (s.rd (Reg.ctx x) Reg.CTX_GATHER_PEG) then 0 else e.gatherCount
      doneSignals := if within (s.rd (Reg.ctx x) Reg.CTX_DONE_PEG) then 0 else e.doneSignals
      closed := if within (s.rd (Reg.ctx x) Reg.CTX_FILL_PEG) then 0 else e.closed }
    cmdCount := if within (s.rd (Reg.streamTable x) Reg.ST_CMD_PEG) then 0 else k.cmdCount
    cmdNext := if within (s.rd (Reg.streamTable x) Reg.ST_CMD_PEG) then 0 else k.cmdNext
    cmdDone := if within (s.rd (Reg.streamTable x) Reg.ST_DONE_PEG) then 0 else k.cmdDone }
/-- LOAD once its command starts. A context whose step is torn stays halted (09 R252); one that a fault halted takes the
load (Table 14-3), CTX_RESUME alone being refused to it (16 R441). -/
def State.load (s : State) (e : Entry) : State :=
  let x := e.ctx.val
  let st := s.ctxState x
  if st ≠ stIdle ∧ st ≠ stWaiting ∧ st ≠ stRunning ∧ st ≠ stStopped then s.done e 1 0x5002
  else if s.rd (Reg.ctx x) Reg.CTX_STEP_STATE = 6 then s.done e 1 0x9201 else
  let n := entryArg e 1
  let copyAt := entryArg e 2
  let bs := s.bytesAt (.host (entryArg e 0)) 0 n
  match s.fitCheck x bs n copyAt (entryArg e 3) with
  | some (code, det) => s.post (entryTicket e 1) true code det 0
  | none =>
    let d := imgDecl bs
    let p : Program := { bays := e.args.getD 3 0, base := copyAt, bytes := n, entry := imgEntry bs, segs := imgSegs bs, decl := d,
                         args := (upto 8).map (fun i => BitVec.ofNat 64 (s.natAt (.host (entryArg e 4)) (8 * i) 8)),
                         ticket := some (entryTicket e 1), reportStart := e.reportStart, started := false }
    let s1 := (s.store (.tier1 x) copyAt 0 bs).copySegments x bs (imgSegs bs)
    let s2 := if (s.ctx x).programs = [] then s1.zeroProgramPegs x d.pegs else s1
    let s3 := s2.setCtx x { s2.ctx x with programs := (s2.ctx x).programs ++ [p], faulted := false }
    if st = stRunning then s3.startProgram x p
    else if st = stWaiting then s3
    else s3.enterWaiting x
/-- CTX_STOP. -/
def State.ctxStop (s : State) (e : Entry) : State :=
  let x := e.ctx.val
  let st := s.ctxState x
  if st = stWaiting ∨ st = stRunning then (s.hold 4 e).haltCtx x 0x5005 else s.done e 4 0x5002
/-- CTX_RESUME; a context that a data-path, fence or latent event halted does not resume (16 R441), nor one whose step is
torn (09 R252). -/
def State.ctxResume (s : State) (e : Entry) : State :=
  let x := e.ctx.val
  if s.ctxState x ≠ stStopped then s.done e 5 0x5002
  else if (s.ctx x).faulted then s.done e 5 0x8004
  else if s.rd (Reg.ctx x) Reg.CTX_STEP_STATE = 6 then s.done e 5 0x9201
  else (s.enterWaiting x).done e 5 0
/-- CTX_UNLOAD. -/
def State.ctxUnload (s : State) (e : Entry) : State :=
  let x := e.ctx.val
  let k := s.ctx x
  if s.ctxState x ≠ stStopped then s.done e 6 0x5002
  else ((s.setCtx x { k with saved := [], hasSaved := false, savedActive := [], programs := [], faulted := false }).setCtxState x stIdle).done e 6 0

end Sys2Proof.Machine
end

