-- ==== Sys2Proof/Machine/ExchangeOps.lean ====
section
/-! DEFINITION. The gradient exchange engine (11 R299 to R321): geometry, the B8 format, the work on buckets, delivery,
summaries, carry, aborts and the all-gather. -/
namespace Sys2Proof.Machine

/-! ## Geometry (R301, R304) -/

def State.cf (s : State) (x : Nat) (f : Field) : Nat := s.rd (Reg.ctx x) f
def State.ranks (s : State) (x : Nat) : Nat := s.cf x Reg.CTX_RANKS
def State.rank (s : State) (x : Nat) : Nat := s.cf x Reg.CTX_RANK
def State.exch (s : State) (x : Nat) : Exchange := (s.ctx x).exch
def State.setExch (s : State) (x : Nat) (e : Exchange) : State := s.setCtx x { s.ctx x with exch := e }
/-- S(m) = ceil(log2 m). -/
def ceilLog2 (m : Nat) : Nat := if m ≤ 1 then 0 else Nat.log2 (m - 1) + 1
/-- The first block of segment g of a bucket of kb blocks over n ranks, and its length. -/
def segFirst (kb n g : Nat) : Nat := g * kb / n
def segLen (kb n g : Nat) : Nat := segFirst kb n (g + 1) - segFirst kb n g
/-- Packets of a segment: up to 224 blocks each, one for an empty segment. -/
def packetBlocks : Nat := 224
def segPackets (len : Nat) : Nat := max 1 (ceilDiv len packetBlocks)
/-- The segment that rank r holds at position h: r = (g + 1 + h) mod n. -/
def segAt (n r h : Nat) : Nat := (r + n + n - 1 - h % n) % n
/-- What a rank does for one bucket, in order: by position, then by packet of the segment. -/
def workList (kb n r : Nat) : List (Nat × Nat) :=
  (upto n).flatMap (fun h => (upto (segPackets (segLen kb n (segAt n r h)))).map (fun j => (h, j)))
def State.workItems (s : State) (x : Nat) : List (Nat × Nat) := workList (s.blocksPerBucket x) (s.ranks x) (s.rank x)
/-- The step number of the open step, its exponent, and whether it exchanges (R314). -/
def State.stepNo (s : State) (x : Nat) : Nat := s.cf x Reg.CTX_STEP + 1
def State.stepE (s : State) (x : Nat) : Int := match (s.ctx x).step with | some o => signed 8 o.lsExp.toNat | none => signed 8 (s.cf x Reg.CTX_LS_EXP)
def State.stepEByte (s : State) (x : Nat) : BitVec 8 := match (s.ctx x).step with | some o => o.lsExp | none => BitVec.ofNat 8 (s.cf x Reg.CTX_LS_EXP)
def State.exchanges (s : State) (x : Nat) : Bool := decide (s.stepNo x % s.cf x Reg.CTX_THIN_N = 0)
def State.stepState (s : State) (x : Nat) : Nat := s.cf x Reg.CTX_STEP_STATE

/-! ## Blocks (R303, R305) -/

/-- The base exponent of block k of bucket b. -/
def State.baseExp (s : State) (x b k : Nat) : Nat :=
  let t := (s.byteAt (.tier1 x) (s.cf x Reg.CTX_SCALE_BASE + b * s.blocksPerBucket x + k)).toNat
  (min (max ((t : Int) + s.stepE x) 1) (254 - (ceilLog2 (s.ranks x) : Int))).toNat
/-- The slot a bucket is closed in, and the 64 binary16 values of one of its blocks. -/
def State.slotBase (s : State) (x b : Nat) : Nat := s.cf x Reg.CTX_BUCKET_BASE + b % s.cf x Reg.CTX_SLOTS * s.bucketBytes x
def State.blockValues (s : State) (x b k : Nat) : List Num :=
  (upto 64).map (fun i => decodeFloat .b16 (s.natAt (.tier1 x) (s.slotBase x b + 128 * k + 2 * i) 2))
def clampCode (i : Int) : Int := max (-127) (min 127 i)
/-- num / den rounded half to even, with a sign. -/
def rneInt (neg : Bool) (num den : Nat) : Int :=
  let q : Int := ((roundNat .rne neg num den 0).1 : Nat)
  if neg then -q else q
/-- The code of a value under exponent e; a non-finite value encodes as 0. -/
def codeOf (e : Nat) : Num → Int
  | .fin q => clampCode (let nd := q.over ((e : Int) - 127); rneInt q.neg nd.1 nd.2)
  | _ => 0
/-- The code that had to be clamped. -/
def codeSat (e : Nat) : Num → Bool
  | .fin q => let nd := q.over ((e : Int) - 127); decide (127 < (rneInt q.neg nd.1 nd.2).natAbs)
  | _ => false
def isNonfinite : Num → Bool
  | .fin _ => false
  | _ => true
/-- MAXEXP of a contribution. -/
def maxExpOf (vs : List Num) : Nat :=
  maxOf (vs.map (fun v => match v with | .fin q => if q.n = 0 then 0 else (q.log2 + 127).toNat | _ => 0))
def sumInts (l : List Int) : Int := l.foldl (· + ·) 0
def codeByte (i : Int) : BitVec 8 := BitVec.ofInt 8 i
def byteCode (b : BitVec 8) : Int := b.toInt
/-- The CRC over bytes 0x00 to 0x43. -/
def blockCrc (codes : List (BitVec 8)) (exp maxExp : BitVec 8) (sum : BitVec 16) : BitVec 32 :=
  crc32c (codes ++ [exp, maxExp] ++ leBytes 2 sum.toNat)
def mkBlock (codes : List Int) (exp maxExp : Nat) : Block :=
  let cs := codes.map codeByte
  let sum : BitVec 16 := BitVec.ofInt 16 (sumInts codes)
  ⟨cs, BitVec.ofNat 8 exp, BitVec.ofNat 8 maxExp, sum, blockCrc cs (BitVec.ofNat 8 exp) (BitVec.ofNat 8 maxExp) sum⟩

/-- A package's own share of a block: its codes and MAXEXP, none of them while it is excluded (R306, R315). -/
structure OwnBlock where
  codes : List Int
  maxExp : Nat
  sat : Bool
def State.ownBlock (s : State) (x b k e : Nat) (excluded : Bool) : OwnBlock :=
  if excluded then ⟨List.replicate 64 0, 0, false⟩
  else
    let vs := s.blockValues x b k
    ⟨vs.map (codeOf e), maxExpOf vs, vs.any (codeSat e)⟩

/-! ## Packets as bytes (Tables 11-4 and 11-5) -/

def blockBytes (b : Block) : List Byte := b.codes ++ [b.exp, b.maxExp] ++ leBytes 2 b.sumCheck.toNat ++ leBytes 4 b.crc.toNat
def exchHeader (kind : Nat) (attempt lsExp : BitVec 8) (nonfinite : Bool) (step bucket seg hop first count contrib risk sat : Nat) : List Byte :=
  leBytes 8 (kind + attempt.toNat * 2 ^ 8 + lsExp.toNat * 2 ^ 16 + (if nonfinite then 2 ^ 24 else 0) + step % 2 ^ 32 * 2 ^ 32) ++
  leBytes 8 (bucket % 2 ^ 32 + seg * 2 ^ 32 + hop * 2 ^ 48) ++ leBytes 8 (first + count * 2 ^ 32 + contrib * 2 ^ 40) ++
  leBytes 8 (risk + sat * 2 ^ 16)
def reduceBody (p : ReducePacket) : List Byte :=
  exchHeader 1 p.attempt p.lsExp p.nonfinite p.step.toNat p.bucket.toNat p.segment.toNat p.hop.toNat p.firstBlock.toNat
    p.blocks.length p.contrib.toNat p.risk.toNat p.satCount.toNat ++ p.blocks.flatMap blockBytes
def summaryBody (r : Summary) : List Byte :=
  exchHeader 2 r.attempt r.lsExp r.nonfinite r.step.toNat 0 0 0 0 0 0 r.risk.toNat 0 ++ leBytes 8 r.step.toNat ++
  leBytes 8 (r.lsExp.toNat + (if r.nonfinite then 2 ^ 8 else 0) + (if r.broadcast then 2 ^ 9 else 0) + r.risk.toNat * 2 ^ 32) ++
  leBytes 8 r.q.toNat ++ leBytes 4 r.late.toNat ++ leBytes 4 r.buckets.toNat ++
  r.maxs.flatMap (fun m => leBytes 4 m.toNat) ++ r.sums.flatMap (fun m => leBytes 8 m.toNat)
def chunkBody (c : Chunk) : List Byte :=
  exchHeader (if c.scales then 4 else 3) c.attempt c.lsExp false c.step.toNat 0 c.owner.toNat c.hop.toNat c.offset.toNat
    c.checks.length 0 0 0 ++
  (upto c.checks.length).flatMap (fun i => (c.data.drop (512 * i)).take 512 ++ leBytes 4 (c.checks.getD i 0).toNat)
/-- A packet of TYPE 0x3 on the i-th of the context's channels to the successor (R307). -/
def State.exchSend (s : State) (x i : Nat) (body : List Byte) : State :=
  s.queuePacket (s.keyTo x (s.successor x) x (s.cf x Reg.CTX_CHANNEL_BASE + i)) true 3 body
/-- At ENABLE the engine opens its ordered channels to the successor (R307), and the identities of both ends are exchanged (10
R284). -/
def State.openExchange (s : State) (x : Nat) : State :=
  if s.trains x && decide (1 < s.ranks x) then
    let s1 := (upto (s.cf x Reg.CTX_CHANNELS + 2)).foldl
      (fun a i => a.openChannel (a.keyTo x (a.successor x) x (a.cf x Reg.CTX_CHANNEL_BASE + i)) true) s
    s1.queuePacket (s1.sideKey x (s1.successor x) x) false 6 (identityBody 2)
  else s

/-! ## Aborts and signals (R302, R317) -/

/-- The engine signals a program peg of its context. -/
def State.engineSignal (s : State) (x : Nat) (f : Field) : State := s.signal x (s.cf x f) 1 none
def State.signalDone (s : State) (x : Nat) : State :=
  let e := s.exch x
  (s.setExch x { e with doneSignals := e.doneSignals + 1 }).engineSignal x Reg.CTX_DONE_PEG
/-- The abort packets go to every other address of the rank table. -/
def State.sendAborts (s : State) (x code : Nat) : List Nat → State
  | [] => s
  | r :: rs =>
    let body := leBytes 8 (s.stepNo x) ++ leBytes 1 (s.cf x Reg.CTX_ATTEMPT) ++ leBytes 2 code ++ [0]
    (s.queuePacket (s.sideKey x (s.rankAddress x r) x) false 6 (mgmtBody 5 body)).sendAborts x code rs
def State.otherRanks (s : State) (x : Nat) : List Nat := (upto (s.ranks x)).filter (fun r => decide (r ≠ s.rank x))
/-- The package aborts the attempt: its gate decides REPEAT with the code. One that has merged never aborts. -/
def State.abortAttempt (s : State) (x code : Nat) : State :=
  let e := s.exch x
  if e.merged || e.abort.isSome then s
  else (s.setExch x { e with abort := some (BitVec.ofNat 16 code) }).sendAborts x code (s.otherRanks x)

/-! ## Work on a bucket (R305, R306, R308 to R310) -/

def freshBucket (b : Nat) : Bucket := ⟨b, false, false, false, 0, 0, 0, [], 0⟩
def Exchange.bucket (e : Exchange) (b : Nat) : Bucket := (e.buckets.find? (fun k => decide (k.number = b))).getD (freshBucket b)
def Exchange.setBucket (e : Exchange) (k : Bucket) : Exchange :=
  if e.buckets.any (fun j => decide (j.number = k.number)) then
    { e with buckets := e.buckets.map (fun j => if j.number = k.number then k else j) }
  else { e with buckets := e.buckets ++ [k] }
def State.setBucket (s : State) (x : Nat) (k : Bucket) : State := s.setExch x ((s.exch x).setBucket k)

/-- T of R306 for one block: the incoming codes, shifted, plus the own codes. -/
def combine (sh : Nat) (inc own : List Int) : List Int := (upto 64).map (fun i => inc.getD i 0 * 2 ^ sh + own.getD i 0)
/-- The value a T stands for: binary32, RNE. -/
def valueOf (e : Nat) (t : Int) : Nat := (roundFin .b32 .rne false 0 ⟨decide (t < 0), t.natAbs, 1, (e : Int) - 127⟩).bits
/-- A T re-encoded for the next hop, and whether it saturated. -/
def recode (k : Nat) (t : Int) : Int × Bool :=
  let r := rneInt (decide (t < 0)) t.natAbs (2 ^ k)
  (clampCode r, decide (127 < r.natAbs))
/-- What is wrong with an incoming block (R306, R319): its CRC, its code sum, its exponent. -/
def blockFault (e sh : Nat) (b : Block) : Option Nat :=
  if blockCrc b.codes b.exp b.maxExp b.sumCheck ≠ b.crc ∨ b.codes.length ≠ 64 then some 0x3201
  else if b.exp.toNat ≠ e + sh then some 0x3205
  else if sumInts (b.codes.map byteCode) ≠ b.sumCheck.toInt then some 0x3202
  else none
/-- The table entry for the next step (R310). -/
def nextEntry (e : Int) (maxExp : Nat) : Nat := (min (max ((maxExp : Int) - 6 - e) 0) 255).toNat

/-- The owner's share of one packet: values into the shard area, entries held. -/
def State.ownBlocks (s : State) (x b first : Nat) : List (Nat × List Int × Nat × Nat) → State
  | [] => s
  | (i, ts, e, me) :: rest =>
    let kb := s.blocksPerBucket x
    let span := ceilDiv kb (s.ranks x) * 256
    let seg0 := segFirst kb (s.ranks x) (s.rank x)
    let s1 := s.store (.tier1 x) (s.cf x Reg.CTX_SHARD_BASE + b * span + 256 * (first + i)) 0 (ts.flatMap (fun t => leBytes 4 (valueOf e t)))
    let ex := s1.exch x
    let s2 := if me = 0 then s1 else
      s1.setExch x { ex with heldScales := mapInsert (mapErase ex.heldScales (b * kb + seg0 + first + i)) (b * kb + seg0 + first + i) (BitVec.ofNat 8 (nextEntry (s.stepE x) me)) }
    s2.ownBlocks x b first rest

/-- One item of a bucket's work: the packet at position h, number j, with what came in for it. -/
def State.workOne (s : State) (x : Nat) (k : Bucket) (h j : Nat) (inc : Option ReducePacket) : State :=
  let n := s.ranks x
  let r := s.rank x
  let kb := s.blocksPerBucket x
  let g := segAt n r h
  let len := segLen kb n g
  let first := packetBlocks * j
  let count := min packetBlocks (len - first)
  let sh := if h = 0 then 0 else ceilLog2 h
  let owner := decide (h + 1 = n)
  let es := (upto count).map (fun i => s.baseExp x k.number (segFirst kb n g + first + i))
  let faults := match inc with
    | none => []
    | some p => (upto count).filterMap (fun i => blockFault (es.getD i 0) sh (p.blocks.getD i ⟨[], 0, 0, 0, 0⟩))
  match faults with
  | code :: _ => if code = 0x3205 then s.haltCtx x code else s.abortAttempt x code
  | [] =>
    let own := (upto count).map (fun i => s.ownBlock x k.number (segFirst kb n g + first + i) (es.getD i 0) k.excluded)
    let incB (i : Nat) : List Int := match inc with | some p => (p.blocks.getD i ⟨[], 0, 0, 0, 0⟩).codes.map byteCode | none => []
    let incM (i : Nat) : Nat := match inc with | some p => (p.blocks.getD i ⟨[], 0, 0, 0, 0⟩).maxExp.toNat | none => 0
    let o (i : Nat) : OwnBlock := own.getD i ⟨[], 0, false⟩
    let ts := (upto count).map (fun i => if h = 0 then (o i).codes else combine sh (incB i) (o i).codes)
    let me := (upto count).map (fun i => max (incM i) (o i).maxExp)
    let sh' := ceilLog2 (h + 1)
    let outs := (upto count).map (fun i => (ts.getD i []).map (recode (if h = 0 then 0 else sh')))
    let sats := (upto count).filter (fun i => (o i).sat || (!owner && (outs.getD i []).any (fun c => c.2)))
    let inSat := match inc with | some p => p.satCount.toNat | none => 0
    let mySat := (if j = 0 then 0 else k.sat) + sats.length
    let sat := min 65535 (inSat + mySat)
    let k1 : Bucket := { k with worked := k.worked + 1, sat := mySat, waiting := if h = 0 then k.waiting else k.waiting.tail }
    let s1 := s.setBucket x k1
    if owner then
      let s2 := s1.afterPoison x [] [(s.cf x Reg.CTX_SHARD_BASE + k.number * (ceilDiv kb n * 256) + 256 * first, 256 * count)]
        (s1.ownBlocks x k.number first ((upto count).map (fun i => (i, ts.getD i [], es.getD i 0, me.getD i 0))))
      if first + packetBlocks < len then s2
      else
        let pad := ceilDiv kb n - len
        let span := ceilDiv kb n * 256
        (s2.store (.tier1 x) (s.cf x Reg.CTX_SHARD_BASE + k.number * span + 256 * len) 0 (List.replicate (256 * pad) 0)).incBy
          (Reg.ctx x) Reg.CTX_SAT_BLOCKS sat
    else
      let ownRisk := if k.excluded then 0 else k.risk
      let p : ReducePacket :=
        { attempt := BitVec.ofNat 8 (s.cf x Reg.CTX_ATTEMPT), lsExp := s.stepEByte x
          nonfinite := (match inc with | some q => q.nonfinite | none => false) || (!k.excluded && k.nonfinite)
          step := BitVec.ofNat 32 (s.stepNo x), bucket := BitVec.ofNat 32 k.number, segment := BitVec.ofNat 14 g
          hop := BitVec.ofNat 14 h, firstBlock := BitVec.ofNat 32 first
          contrib := BitVec.ofNat 15 ((match inc with | some q => q.contrib.toNat | none => 0) + (if k.excluded then 0 else 1))
          risk := BitVec.ofNat 16 (max (match inc with | some q => q.risk.toNat | none => 0) ownRisk)
          satCount := BitVec.ofNat 16 sat
          blocks := (upto count).map (fun i => mkBlock ((outs.getD i []).map (fun c => c.1))
            (es.getD i 0 + (if h = 0 then 0 else sh')) (me.getD i 0)) }
      s1.exchSend x (k.number % s.cf x Reg.CTX_CHANNELS) (reduceBody p)

/-- The bucket's next item can be worked: the bucket is closed or excluded, the one before it on its channel is through,
and what must come in has come. -/
def State.mayWork (s : State) (x b : Nat) : Option (Nat × Nat × Option ReducePacket) :=
  let e := s.exch x
  let k := e.bucket b
  let items := s.workItems x
  let c := s.cf x Reg.CTX_CHANNELS
  let clear := decide (b < c) || decide (items.length ≤ (e.bucket (b - c)).worked)
  if (k.closed || k.excluded) && clear && e.abort.isNone && decide (s.stepState x = 1) then
    match items[k.worked]? with
    | none => none
    | some (h, j) => if h = 0 then some (h, j, none) else match k.waiting with | p :: _ => some (h, j, some p) | [] => none
  else none
def State.workBucket (s : State) (x b : Nat) : Nat → State
  | 0 => s
  | n + 1 => match s.mayWork x b with
    | none => s
    | some (h, j, inc) => (s.workOne x ((s.exch x).bucket b) h j inc).workBucket x b n
def State.workBuckets (s : State) (x : Nat) : List Nat → State
  | [] => s
  | b :: bs => (s.workBucket x b (s.workItems x).length).workBuckets x bs

/-- The sum of squares of one delivered bucket's shard (R309). -/
def State.addSquares (s : State) (x b : Nat) (q0 : Nat) : Nat :=
  let kb := s.blocksPerBucket x
  let span := ceilDiv kb (s.ranks x) * 256
  let len := segLen kb (s.ranks x) (s.rank x)
  (upto (64 * len)).foldl (fun q i =>
    let v := f32to64 { bits := s.natAt (.tier1 x) (s.cf x Reg.CTX_SHARD_BASE + b * span + 4 * i) 4 }
    (fma64 v v { bits := q }).bits) q0
/-- Buckets that are through are delivered in order: the norm grows, and each but the last is signalled. -/
def State.deliverBuckets (s : State) (x : Nat) : Nat → State
  | 0 => s
  | n + 1 =>
    let e := s.exch x
    let b := e.delivered
    let total := s.cf x Reg.CTX_BUCKETS
    if b < total ∧ (s.workItems x).length ≤ (e.bucket b).worked then
      let kb := s.blocksPerBucket x
      let span := ceilDiv kb (s.ranks x) * 256
      let s1 := s.setExch x { e with delivered := b + 1, q := s.addSquares x b e.q }
      let s2 := s1.importBytes x none 0 .S 0 (s1.bytesAt (.tier1 x) (s.cf x Reg.CTX_SHARD_BASE + b * span) span)
      (if b + 1 < total then s2.signalDone x else s2).deliverBuckets x n
    else s
/-- Everything the engine can do now with the open step's buckets. -/
def State.pump (s : State) (x : Nat) : State :=
  let total := s.cf x Reg.CTX_BUCKETS
  (s.workBuckets x (upto total)).deliverBuckets x total

/-! ## Closing (R302, R314 to R316) -/

def State.scanNonfinite (s : State) (x b : Nat) : Bool :=
  (upto (s.blocksPerBucket x)).any (fun k => (s.blockValues x b k).any isNonfinite)
/-- A carried value folded into a new one: binary32 sum, then binary16 (R316). -/
def foldValue (shift : Int) (new carry : Nat) : Nat :=
  let b32 (bits : Nat) : FV := FV.of .b32 .rne 0 [] { v := decodeFloat .b16 bits }
  let c := FV.of .b32 .rne 0 [] { v := (FV.num .b32 (b32 carry)).scale ⟨false, 1, 1, shift⟩ }
  (finish .b16 .rne 0 { v := FV.num .b32 (add32 (b32 new) c) }).bits
def State.foldCarry (s : State) (x b : Nat) (c : Carry) : State :=
  let size := s.bucketBytes x
  let shift := s.stepE x - signed 8 c.lsExp.toNat
  let from' := s.cf x Reg.CTX_CARRY_BASE + b * size
  s.store (.tier1 x) (s.slotBase x b) 0 ((upto (size / 2)).flatMap (fun i =>
    leBytes 2 (foldValue shift (s.natAt (.tier1 x) (s.slotBase x b + 2 * i) 2) (s.natAt (.tier1 x) (from' + 2 * i) 2))))
/-- The contribution of a late bucket, now closed, is carried or dropped; one carried from a step that has decided SKIP is
discarded at once (R316). -/
def State.lateClose (s : State) (x b : Nat) (nonfinite : Bool) (risk : Nat) : State :=
  let e := s.exch x
  let drop (t : State) : State :=
    let t1 := t.inc (Reg.ctx x) Reg.CTX_DROPPED
    if nonfinite then t1.inc (Reg.ctx x) Reg.CTX_DROPPED_NONFINITE else t1
  if s.flag (Reg.ctx x) Reg.CTX_CARRY then
    let size := s.bucketBytes x
    let s1 := (s.store (.tier1 x) (s.cf x Reg.CTX_CARRY_BASE + b * size) 0 (s.bytesAt (.tier1 x) (s.slotBase x b) size)).inc
      (Reg.ctx x) Reg.CTX_CARRIED
    if s.stepState x = 3 then drop s1
    else s1.setExch x { e with
      carries := e.carries.filter (fun c => decide (c.bucket ≠ b)) ++ [⟨b, s.stepEByte x, nonfinite, risk, true, false⟩] }
  else drop s
/-- The statistics inputs, read when the last bucket closes (R313). -/
def State.readStats (s : State) (x : Nat) : List Nat × List Nat :=
  let b := s.cf x Reg.CTX_STAT_BASE
  ((upto 32).map (fun i => s.natAt (.tier1 x) (b + 4 * i) 4), (upto 32).map (fun i => s.natAt (.tier1 x) (b + 0x80 + 8 * i) 8))
/-- What the engine reads of the region when bucket b closes. -/
def State.closeReads (s : State) (x b : Nat) : List (Nat × Nat) :=
  (s.slotBase x b, s.bucketBytes x) ::
    ((if (s.exch x).carries.any (fun c => decide (c.bucket = b) && !c.formed) then
        [(s.cf x Reg.CTX_CARRY_BASE + b * s.bucketBytes x, s.bucketBytes x)] else []) ++
     (if b + 1 = s.cf x Reg.CTX_BUCKETS then [(s.cf x Reg.CTX_STAT_BASE, 0x180)] else []))
/-- BUCKET_CLOSE: the engine takes the next close it has counted. -/
def State.bucketClose (s : State) (x : Nat) : State :=
  let e := s.exch x
  let st := s.stepState x
  if !s.trains x || decide (e.fillCount = 0) || !(decide (st = 1) || decide (st = 2) || decide (st = 3)) then s
  else
    let b := e.closed
    let s0 := s.setExch x { e with fillCount := e.fillCount - 1 }
    let total := s.cf x Reg.CTX_BUCKETS
    if total ≤ b then s0.haltCtx x 0x2109
    else if s.droneInRange x (s.slotBase x b) (s.bucketBytes x) then s0.haltCtx x 0x4202
    else match s0.poisonMet x (s.closeReads x b) [] with
    | some (code, g) => s0.poisonFault x code g
    | none =>
      let carry := if s.exchanges x then e.carries.find? (fun c => decide (c.bucket = b) && !c.formed) else none
      let s1 := match carry with | some c => s0.foldCarry x b c | none => s0
      let bad := s1.scanNonfinite x b
      let risk := max s.risk (match carry with | some c => c.risk | none => 0)
      let e1 := s1.exch x
      let k := e1.bucket b
      let s2 := s1.setExch x { e1.setBucket { k with closed := true, nonfinite := bad, risk := risk } with
        closed := b + 1
        carries := e1.carries.map (fun c => if c.bucket = b ∧ c.formed = false then { c with folded := true } else c) }
      let s3 := if b + 1 = total then s2.setExch x { s2.exch x with stats := some (s2.readStats x) } else s2
      if s.exchanges x then
        (if k.excluded then s3.lateClose x b bad risk else s3).pump x
      else if b + 1 < total then s3.signalDone x else s3

/-! ## Packets in (R306, R318, R319) -/

/-- An attempt number is ahead of this package's. -/
def attemptAhead (a mine : Nat) : Bool := decide ((a + 256 - mine) % 256 ≠ 0) && decide ((a + 256 - mine) % 256 < 128)
/-- The bucket that the next packet of b's channel must belong to: the lowest that still expects one. -/
def State.expectedBucket (s : State) (x b : Nat) : Option Nat :=
  let e := s.exch x
  let items := s.workItems x
  let own := (items.filter (fun hj => decide (hj.1 = 0))).length
  let c := s.cf x Reg.CTX_CHANNELS
  (upto (s.cf x Reg.CTX_BUCKETS)).find? (fun k => decide (k % c = b % c) && decide ((e.bucket k).arrived < items.length - own))
/-- Where a packet of another step or attempt belongs: it is of the open attempt, to be kept for a later step or attempt, or
of an earlier one, which is discarded. -/
inductive Turn where | now | later | past
deriving DecidableEq, Repr
def State.turnOf (s : State) (x step w attempt : Nat) : Turn :=
  let mine := s.cf x Reg.CTX_ATTEMPT
  let st := s.stepState x
  let d := (step + 2 ^ w - s.stepNo x % 2 ^ w) % 2 ^ w
  if d = 0 then
    if attemptAhead attempt mine then .later
    else if attempt ≠ mine then .past
    else if st = 1 then .now
    else if st = 0 ∨ st = 4 then .later else .past
  else if st = 1 then .now
  else if d < 2 ^ (w - 1) then .later else .past
def State.reduceIn (s : State) (x : Nat) (p : ReducePacket) : State :=
  let e := s.exch x
  let keep := s.setExch x { e with early := e.early ++ [p] }
  if !s.trains x || decide (s.ranks x ≤ 1) then s
  else match s.turnOf x p.step.toNat 32 p.attempt.toNat with
  | .past => s
  | .later => keep
  | .now =>
  if e.abort.isSome then s
  else if !s.exchanges x then keep
  else match s.expectedBucket x p.bucket.toNat with
    | none => keep
    | some b =>
      let items := s.workItems x
      let own := (items.filter (fun hj => decide (hj.1 = 0))).length
      let k := e.bucket b
      match items[own + k.arrived]? with
      | none => s
      | some (h, j) =>
        let n := s.ranks x
        let g := segAt n (s.rank x) h
        let count := min packetBlocks (segLen (s.blocksPerBucket x) n g - packetBlocks * j)
        if p.step.toNat ≠ s.stepNo x % 2 ^ 32 ∨ p.bucket.toNat ≠ b ∨ p.hop.toNat + 1 ≠ h ∨ p.segment.toNat ≠ g ∨ p.lsExp ≠ s.stepEByte x ∨
            p.firstBlock.toNat ≠ packetBlocks * j ∨ p.blocks.length ≠ count then s.haltCtx x 0x3205
        else (s.setBucket x { k with arrived := k.arrived + 1, waiting := k.waiting ++ [p] }).pump x
/-- BUCKET_DEADLINE_EXPIRE (R315). -/
def State.deadlineExpire (s : State) (x b : Nat) : State :=
  let e := s.exch x
  let k := e.bucket b
  if s.trains x && decide (s.stepState x = 1) && s.exchanges x && decide (s.cf x Reg.CTX_DEADLINE_US ≠ 0) && decide (0 < k.arrived) &&
      !k.closed && !k.excluded then
    (((s.setExch x { e.setBucket { k with excluded := true } with late := e.late + 1 }).inc (Reg.ctx x) Reg.CTX_LATE_EXCLUDED)).pump x
  else s

/-! ## The summary (R312, R313) -/

/-- The package's own share of the step is complete (R317). -/
def State.shardComplete (s : State) (x : Nat) : Bool :=
  let e := s.exch x
  if s.exchanges x then decide (s.cf x Reg.CTX_BUCKETS ≤ e.delivered) else decide (s.cf x Reg.CTX_BUCKETS ≤ e.closed)
/-- CUTOFF_EXPIRE (R317). -/
def State.cutoff (s : State) (x : Nat) : State :=
  if s.trains x && decide (s.stepState x = 1) && s.exchanges x && !s.shardComplete x then s.abortAttempt x 0x3204 else s
/-- ABORT_PACKET_RECEIVE (R317). -/
def State.abortIn (s : State) (x : Nat) (step : Word) (attempt : BitVec 8) (code : BitVec 16) : State :=
  let e := s.exch x
  if s.trains x && decide (s.stepState x = 1) && decide (step.toNat = s.stepNo x) && decide (attempt.toNat = s.cf x Reg.CTX_ATTEMPT) &&
      e.totals.isNone && e.abort.isNone then s.setExch x { e with abort := some code }
  else s
/-- This package's values for the step. -/
def State.ownSummary (s : State) (x : Nat) : Summary :=
  let e := s.exch x
  let st := e.stats.getD (s.readStats x)
  let live := e.buckets.filter (fun k => !k.excluded)
  { attempt := BitVec.ofNat 8 (s.cf x Reg.CTX_ATTEMPT), step := BitVec.ofNat 64 (s.stepNo x), lsExp := s.stepEByte x
    nonfinite := live.any (fun k => k.nonfinite), broadcast := false
    risk := BitVec.ofNat 16 (if s.exchanges x then maxOf (live.map (fun k => k.risk)) else s.risk)
    q := BitVec.ofNat 64 (if s.exchanges x then e.q else 0), late := BitVec.ofNat 32 e.late
    buckets := BitVec.ofNat 32 (if s.exchanges x then s.cf x Reg.CTX_BUCKETS else 0)
    maxs := st.1.map (BitVec.ofNat 32), sums := st.2.map (BitVec.ofNat 64) }
def joinSummary (a o : Summary) : Summary :=
  { a with
    nonfinite := a.nonfinite || o.nonfinite, risk := if a.risk.toNat < o.risk.toNat then o.risk else a.risk
    q := BitVec.ofNat 64 (add64 { bits := a.q.toNat } { bits := o.q.toNat }).bits, late := a.late + o.late
    maxs := (upto 32).map (fun i => BitVec.ofNat 32 (max32 { bits := (a.maxs.getD i 0).toNat } { bits := (o.maxs.getD i 0).toNat }).bits)
    sums := (upto 32).map (fun i => BitVec.ofNat 64 (add64 { bits := (a.sums.getD i 0).toNat } { bits := (o.sums.getD i 0).toNat }).bits) }
/-- The totals are taken and written to the statistics area. -/
def State.takeTotals (s : State) (x : Nat) (r : Summary) : State :=
  let s1 := s.setExch x { s.exch x with totals := some r }
  s1.store (.tier1 x) (s.cf x Reg.CTX_STAT_BASE + 0x180) 0
    (r.maxs.flatMap (fun m => leBytes 4 m.toNat) ++ r.sums.flatMap (fun m => leBytes 8 m.toNat))
def State.sendSummary (s : State) (x : Nat) (r : Summary) : State := s.exchSend x (s.cf x Reg.CTX_CHANNELS) (summaryBody r)
/-- SUMMARY_MERGE: the rank's values join the summary once it may. -/
def State.summaryMerge (s : State) (x : Nat) : State :=
  let e := s.exch x
  let r := s.rank x
  let n := s.ranks x
  let stopped := match (s.ctx x).step with | some o => o.stopEvent.isSome | none => true
  if !s.trains x || decide (s.stepState x ≠ 1) || e.merged || e.abort.isSome || stopped || !s.shardComplete x then s
  else
    let merged := match e.soFar with
      | some a => some (joinSummary a (s.ownSummary x))
      | none => if r = 0 then some (s.ownSummary x) else none
    match merged with
    | none => s
    | some m =>
      let s1 := s.setExch x { e with merged := true, soFar := none }
      if r + 1 = n then
        let t := { m with broadcast := true }
        let s2 := s1.takeTotals x t
        if 1 < n then s2.sendSummary x t else s2
      else s1.sendSummary x m
/-- SUMMARY_RECEIVE. A package that a stop event halted after its merge still passes the totals on (R320). -/
def State.summaryIn (s : State) (x : Nat) (r : Summary) : State :=
  let e := s.exch x
  let own := decide (r.step.toNat = s.stepNo x) && decide (r.attempt.toNat = s.cf x Reg.CTX_ATTEMPT)
  if !s.trains x || decide (s.ranks x ≤ 1) then s
  else if decide (s.stepState x = 5) && e.merged && r.broadcast && own then
    (if s.rank x + 2 < s.ranks x then s.sendSummary x r else s)
  else match s.turnOf x r.step.toNat 64 r.attempt.toNat with
  | .past => s
  | .later => s.setExch x { e with earlySummaries := e.earlySummaries ++ [r] }
  | .now =>
  if e.abort.isSome then s
  else if r.step.toNat ≠ s.stepNo x ∨ r.lsExp ≠ s.stepEByte x ∨ r.buckets ≠ (s.ownSummary x).buckets then s.haltCtx x 0x3205
  else if r.broadcast then
    let s1 := s.takeTotals x r
    if s.rank x + 2 < s.ranks x then s1.sendSummary x r else s1
  else s.setExch x { e with soFar := some r }

/-! ## The all-gather (R311) -/

def State.pieceBytes (s : State) (x : Nat) : Nat := s.cf x Reg.CTX_WORKCOPY_BYTES / s.ranks x
def State.workcopyAt (s : State) (x : Nat) : Nat := s.cf x Reg.CTX_STATE_BASE + s.cf x Reg.CTX_WORKCOPY_OFFSET
/-- The blocks whose scale entries rank r owns, in the order of its piece. -/
def State.ownedBlocks (s : State) (x r : Nat) : List Nat :=
  let kb := s.blocksPerBucket x
  (upto (s.cf x Reg.CTX_BUCKETS)).flatMap (fun b =>
    (upto (segLen kb (s.ranks x) r)).map (fun i => b * kb + segFirst kb (s.ranks x) r + i))
def chunkBytes : Nat := 30 * 512
/-- A piece cut into chunks of up to 30 granules, the last granule zero-padded. -/
def cutChunks (mk : Nat → List Byte → Chunk) : Nat → Nat → List Byte → List Chunk
  | 0, _, _ => []
  | n + 1, off, bs => if bs = [] then [] else mk off (bs.take chunkBytes) :: cutChunks mk n (off + chunkBytes) (bs.drop chunkBytes)
def padGranule (bs : List Byte) : List Byte := bs ++ List.replicate (512 * ceilDiv bs.length 512 - bs.length) 0
def granuleChecks (bs : List Byte) : List (BitVec 32) := (upto (bs.length / 512)).map (fun i => crc32c ((bs.drop (512 * i)).take 512))
def State.mkChunk (s : State) (x : Nat) (scales : Bool) (off : Nat) (bs : List Byte) : Chunk :=
  let p := padGranule bs
  { scales := scales, attempt := BitVec.ofNat 8 (s.cf x Reg.CTX_ATTEMPT), lsExp := s.stepEByte x, step := BitVec.ofNat 32 (s.stepNo x)
    owner := BitVec.ofNat 14 (s.rank x), hop := 0, offset := BitVec.ofNat 32 off, data := p, checks := granuleChecks p }
def chunkCount (n : Nat) : Nat := ceilDiv n chunkBytes
/-- The chunks that come in over the whole all-gather. -/
def State.chunksDue (s : State) (x : Nat) : Nat :=
  sumOf ((s.otherRanks x).map (fun r => chunkCount (s.pieceBytes x) + chunkCount (s.ownedBlocks x r).length))
def State.sendChunk (s : State) (x : Nat) (c : Chunk) : State :=
  s.exchSend x (s.cf x Reg.CTX_CHANNELS + 1) (chunkBody c)
def State.sendChunks (s : State) (x : Nat) : List Chunk → State
  | [] => s
  | c :: cs => (s.sendChunk x c).sendChunks x cs
/-- Scale entries go into the wire-scale table. -/
def State.writeEntries (s : State) (x : Nat) : List (Nat × Byte) → State
  | [] => s
  | (k, v) :: l => (s.store (.tier1 x) (s.cf x Reg.CTX_SCALE_BASE + k) 0 [v]).writeEntries x l
/-- The last piece and entry have arrived: the engine signals once more. -/
def State.gatherEnd (s : State) (x : Nat) : State :=
  let e := s.exch x
  if e.gathering && decide (s.chunksDue x ≤ e.gathered) then (s.setExch x { e with gathering := false }).signalDone x else s
/-- GATHER_CHUNK_RECEIVE: a chunk of another rank is written and forwarded; one whose STEP, HOP or LS_EXP is not what this
package expects stops its context (R319), as does one that fails its check (16 R436). -/
def State.chunkIn (s : State) (x : Nat) (c : Chunk) : State :=
  let e := s.exch x
  let n := s.ranks x
  let here := decide (c.step.toNat = s.stepNo x % 2 ^ 32)
  let st := s.stepState x
  if !s.trains x || decide (n ≤ 1) || !(decide (st = 1) || decide (st = 2)) then s
  else if here && decide (c.attempt.toNat ≠ s.cf x Reg.CTX_ATTEMPT) then
    (if decide (st = 1) && attemptAhead c.attempt.toNat (s.cf x Reg.CTX_ATTEMPT) then s.setExch x { e with earlyChunks := e.earlyChunks ++ [c] } else s)
  else if !here || decide (n ≤ c.hop.toNat + 1) || decide ((c.owner.toNat + c.hop.toNat + 1) % n ≠ s.rank x) || decide (c.lsExp ≠ s.stepEByte x) then
    s.haltCtx x 0x3205
  else if st = 1 then s.setExch x { e with earlyChunks := e.earlyChunks ++ [c] }
  else if granuleChecks c.data ≠ c.checks then s.haltCtx x 0x3002
  else
    let off := c.offset.toNat
    let s1 := if c.scales then
        let ks := ((s.ownedBlocks x c.owner.toNat).drop off).take c.data.length
        s.writeEntries x ((upto ks.length).map (fun i => (ks.getD i 0, c.data.getD i 0)))
      else s.store (.tier1 x) (s.workcopyAt x + c.owner.toNat * s.pieceBytes x + off) 0 (c.data.take (s.pieceBytes x - off))
    let s2 := if c.hop.toNat + 2 < n then s1.sendChunk x { c with hop := c.hop + 1 } else s1
    (s2.setExch x { s2.exch x with gathered := (s2.exch x).gathered + 1 }).gatherEnd x
/-- GATHER_START: a signal on CTX_GATHER_PEG releases the package's own piece and entries. -/
def State.gatherStart (s : State) (x : Nat) : State :=
  let e := s.exch x
  if !s.trains x || decide (e.gatherCount = 0) || decide (s.stepState x ≠ 2) || e.gathering then s
  else if s.droneInRange x (s.workcopyAt x + s.rank x * s.pieceBytes x) (s.pieceBytes x) then s.haltCtx x 0x4202
  else match s.poisonMet x [(s.workcopyAt x + s.rank x * s.pieceBytes x, s.pieceBytes x)] [] with
  | some (code, g) => s.poisonFault x code g
  | none =>
    let table (k : Nat) : Byte := s.byteAt (.tier1 x) (s.cf x Reg.CTX_SCALE_BASE + k)
    let own := s.ownedBlocks x (s.rank x)
    let entry (k : Nat) : Byte := mapGet (table k) e.heldScales k
    let piece := s.bytesAt (.tier1 x) (s.workcopyAt x + s.rank x * s.pieceBytes x) (s.pieceBytes x)
    let s1 := s.setExch x { e with gatherCount := e.gatherCount - 1, gathering := true }
    let s2 := s1.writeEntries x (own.map (fun k => (k, entry k)))
    let s3 := if s.ranks x ≤ 1 then s2 else
      s2.sendChunks x (cutChunks (s.mkChunk x false) (chunkCount piece.length) 0 piece ++
        cutChunks (s.mkChunk x true) (chunkCount own.length) 0 (own.map entry))
    s3.gatherEnd x

/-! ## Between steps and attempts (R316, R318) -/

/-- The engine starts the step's buckets over; the peg counts, the carries and what came early stay. -/
def Exchange.fresh (e : Exchange) : Exchange :=
  { Exchange.idle with
    fillCount := e.fillCount, gatherCount := e.gatherCount, doneSignals := e.doneSignals, carries := e.carries
    early := e.early, earlySummaries := e.earlySummaries, earlyChunks := e.earlyChunks }
/-- Packets that came early are taken again. -/
def State.takeEarly (s : State) (x : Nat) : State :=
  let e := s.exch x
  let s1 := s.setExch x { e with early := [], earlySummaries := [] }
  e.earlySummaries.foldl (fun a r => a.summaryIn x r) (e.early.foldl (fun a p => a.reduceIn x p) s1)
def State.takeEarlyChunks (s : State) (x : Nat) : State :=
  let e := s.exch x
  e.earlyChunks.foldl (fun a c => a.chunkIn x c) (s.setExch x { e with earlyChunks := [] })
/-- A carry formed in a step that does not commit is discarded and counted. -/
def State.dropFormed (s : State) (x : Nat) : State :=
  let e := s.exch x
  let gone := e.carries.filter (fun c => c.formed)
  let s1 := s.setExch x { e with carries := e.carries.filter (fun c => !c.formed) }
  (s1.incBy (Reg.ctx x) Reg.CTX_DROPPED gone.length).incBy (Reg.ctx x) Reg.CTX_DROPPED_NONFINITE
    (gone.filter (fun c => c.nonfinite)).length
/-- REPEAT: every packet and partial sum of the attempt is discarded. -/
def State.exchRepeat (s : State) (x : Nat) : State :=
  let s1 := s.dropFormed x
  let e := s1.exch x
  let s2 := s1.setExch x { e.fresh with fillCount := 0, gatherCount := 0, earlyChunks := [], carries := e.carries.map (fun c => { c with folded := false }) }
  (s2.bump (Reg.ctx x) Reg.CTX_ATTEMPT 1).inc (Reg.ctx x) Reg.CTX_REPEATS
/-- Step-commit: folded carries are cleared with their area, and the next step starts with attempt 0. -/
def State.exchCommit (s : State) (x : Nat) : State :=
  let e := s.exch x
  let size := s.bucketBytes x
  let done := e.carries.filter (fun c => c.folded)
  let s1 := done.foldl (fun a c => a.zeroRegion x (s.cf x Reg.CTX_CARRY_BASE + c.bucket * size) size) s
  let s2 := s1.setExch x { e.fresh with carries := (e.carries.filter (fun c => !c.folded)).map (fun c => { c with formed := false }) }
  s2.wr (Reg.ctx x) Reg.CTX_ATTEMPT 0

end Sys2Proof.Machine
end

