-- ==== Sys2Proof/Machine/IntegrityOps.lean ====
section
/-! DEFINITION. Faults and their responses (16 R440 to R443), fences and degraded quads (R442, R452, R453), the rolling
self-test (R444 to R449) and test requests (R451). -/
namespace Sys2Proof.Machine

/-! ## What a fault does to contexts -/

/-- A suspected or fenced core during reduction aborts the attempt, unless its package has merged (R460, 11 R317). -/
def State.stopExchange (s : State) (x code : Nat) : State :=
  if s.trains x && decide (s.stepState x = 1) && s.exchanges x then s.abortAttempt x code else s
def State.haltOpt (s : State) (x : Option Nat) (code : Nat) : State :=
  match x with | some y => s.haltCtx y code | none => s

/-! ## The bents' maps -/

def State.bentLogical (h : Nat) : List Nat := (upto 16).map (fun j => 16 * h + j)
/-- The positions of a bent that wait for its free core: each still names its fenced core. -/
def State.vacancies (s : State) (h : Nat) : List Nat :=
  (State.bentLogical h).filter (fun l => decide (s.physOf l < noCore) && decide (s.coreFence (s.physOf l) = 2))
def posIn (c : Nat) : Option (Fin 17) := if c < noCore then some (Fin.ofNat 17 (c % 17)) else none
/-- A bent's whole map and its free position, as the Ledger records them (R445). -/
def State.spareRecord (s : State) (h : Nat) : LedgerRec :=
  .spare (Fin.ofNat 16 h) ((State.bentLogical h).map (fun l => posIn (s.physOf l))) (posIn (s.freeOf h))
def State.ledger (s : State) (rs : List LedgerRec) : State := { s with ledgerWait := s.ledgerWait ++ [rs] }
/-- FREE_POSITION and UNCOVERED follow the map (Table 16-6, R444). -/
def State.showFree (s : State) (h : Nat) : State :=
  let f := s.freeOf h
  let b := Reg.safBent h
  (s.wr b Reg.BENT_FREE_POSITION (if f < noCore then f % 17 else 0x1F)).wr b Reg.BENT_UNCOVERED (if f < noCore then 0 else 1)
/-- The bent has lost its free core: 0x8201 is posted, and no slot runs (R449). -/
def State.uncover (s : State) (h c detect : Nat) : State :=
  let s1 := ((s.setFree h noCore).showFree h).wr (Reg.safBent h) Reg.BENT_SLOT_ACTIVE 0
  s1.logFault { detect := detect, action := 0x8201, island := c, core := c }

/-! ## Microcode (17 R468) -/

/-- A core has loaded the staged microcode; MEAS1 changes when the last has (image 2 runs, image 3 is staged). -/
def State.ucodeLess (s : State) (c : Nat) : State :=
  let n := s.rd Reg.jnrStatus Reg.JNR_UCODE_PENDING
  if n = 0 ∨ mapGet false s.ucodeTaken c = true then s
  else
    let s1 := ({ s with ucodeTaken := mapSet false s.ucodeTaken c true } : State).wr Reg.jnrStatus Reg.JNR_UCODE_PENDING (n - 1)
    if n = 1 then { s1 with images := mapSet [] s1.images 2 (mapGet [] s1.images 3), ucodeTaken := [] } else s1

/-! ## Requested tests (R451) -/

/-- The test a request waits for has ended. -/
def State.postTest (s : State) (c : Nat) (passed : Bool) : State :=
  if s.testAsked.map Fin.val = some c then
    (({ s with testAsked := none } : State).wr Reg.safTest Reg.TEST_PENDING 0).wr Reg.safTest Reg.TEST_PASSED (if passed then 1 else 0)
  else s

/-! ## Fences (R442, R452, R453) -/

/-- A context halted on a bay that has degraded: an elastic one keeps its code; another is Stopped with 0x8003, and its
last step is captured first if no checkpoint holds it (R453). -/
def State.degradeCtx (s : State) (c detect x : Nat) : State :=
  if s.flag (Reg.ctx x) Reg.CTX_ELASTIC then s
  else
    let k := s.ctx x
    let st := s.ctxState x
    let sst := s.stepState x
    let stopping := match k.goal with | some (.stop _) => true | _ => false
    if st ≠ stStopped ∧ stopping = false then s
    else
      let due := s.trains x && (decide (sst = 0) || decide (sst = 1) || decide (sst = 4)) &&
        decide (s.cf x Reg.CTX_LAST_CKPT_STEP < s.cf x Reg.CTX_STEP)
      let d : Due := { step := BitVec.ofNat 64 (s.cf x Reg.CTX_STEP), dataNext := k.lastDataNext, drain := false, taken := none, first := 0, packets := 0 }
      let s1 := s.setCtx x { k with
        goal := if stopping then some (.stop 0x8003) else k.goal
        captures := if due then k.captures ++ [d] else k.captures }
      let s2 := if sst = 6 then s1 else s1.ctxStatus x 0x8003
      s2.logFault { detect := detect, action := 0x8003, island := c, ctx := some x, core := c }
def State.degradeCtxs (s : State) (c detect : Nat) : List Nat → State
  | [] => s
  | x :: xs => (s.degradeCtx c detect x).degradeCtxs c detect xs
def State.setPositions (s : State) (b : Nat) (cores : List Nat) : List Nat → State
  | [] => s
  | j :: js => (s.setPhys (4 * b + j) (cores.getD j noCore)).setPositions b cores js
/-- A quad without a spare keeps its survivors at the low positions, in their order; the rest are absent (R452). -/
def State.degrade (s : State) (b c detect : Nat) (ctxs : List Nat) : State :=
  let cores := ((upto 4).map (fun j => s.physOf (4 * b + j))).filter (fun p => decide (p ≠ c) && decide (p < noCore))
  let s1 := s.setPositions b cores (upto 4)
  let s2 := s1.ledger [s1.spareRecord (b / 4)]
  let held := match s2.bayHolder b with | some (x, _) => [x] | none => []
  let s3 := held.foldl (fun a x => a.absentQueues x (a.ctxQueues x)) s2
  s3.degradeCtxs c detect (ctxs ++ held.filter (fun x => !ctxs.contains x))
/-- A core is fenced for good (R442): the Ledger records it. The free core will take its position when its slot ends;
without one, the quad degrades. -/
def State.fenceCore (s : State) (c : Nat) : State :=
  let h := c / 17
  let sus := mapGet Suspect.none s.suspects c
  let ctxs := match sus.ctx with | some x => [x.val] | none => []
  let s1 := ({ s with fences := mapSet 0 s.fences c 2 } : State).bump Reg.safSafety Reg.SAF_FENCES 1
  let s2 := s1.ledger [.fence (Fin.ofNat 272 c), .counter 1 (s1.rd Reg.safSafety Reg.SAF_FENCES)]
  let s3 := (s2.postTest c false).ucodeLess c
  let s4 := if s3.freeOf h = c then
      let s5 := s3.uncover h c sus.code
      s5.ledger [s5.spareRecord h]
    else match s3.logicalOf c with
      | none => s3
      | some l =>
        if s3.freeOf h < noCore ∧ (s3.vacancies h).filter (fun v => decide (v ≠ l)) = [] then s3
        else s3.degrade (l / 4) c sus.code ctxs
  s4
/-- A core has this many transients behind it in the window (R442). -/
def State.recentTransients (s : State) (c : Nat) : Nat :=
  let w := s.rd Reg.safSafety Reg.SAF_TRANSIENT_WINDOW_H * 3600000000
  ((mapGet [] s.transients c).filter (fun t => decide (s.nowUs ≤ t + w))).length
/-- A core is implicated (Table 16-3): its bay's context halts, and it is suspected, or fenced at the limit. -/
def State.suspect (s : State) (c code : Nat) (f : FaultInfo) : State :=
  let x := (s.place c).map (fun p => p.1)
  let s1 := s.logFault { f with detect := code, action := 0x8001, ctx := x, core := c }
  let s2 := (match x with | some y => s1.stopExchange y 0x8001 | none => s1).haltOpt x 0x8001
  if s.coreFence c ≠ 0 then s2
  else
    let s3 := { s2 with suspects := mapSet Suspect.none s2.suspects c ⟨code, x.map (fun y => Fin.ofNat 4096 y), s2.nowUs⟩ }
    if s.rd Reg.safSafety Reg.SAF_TRANSIENT_LIMIT ≤ s.recentTransients c then s3.fenceCore c
    else ({ s3 with fences := mapSet 0 s3.fences c 1 } : State)

/-! ## FAULT_DETECT (R440, R443) -/

/-- The code of Table 16-11 that a fault is recorded under. -/
def faultCode : FaultKind → Nat
  | .granuleCompare => 0x3002
  | .residue => 0x3005
  | .shadow => 0x3006
  | .tier0Ecc => 0x3008
  | .control => 0x3009
  | .checkOnRead => 0x3002
  | .egress => 0x3001
  | .poison => 0x3003
  | .partialPoison => 0x3004
  | .sealedTag => 0x3007
  | .sharedIsland => 0x300A
  | .exchangeAdder => 0x3203
  | .tier0Corrected => 0
/-- The unit that found it lies in a core, whose own check failed (R440). -/
def implicates (f : FaultEvent) : Bool :=
  match f.kind with
  | .residue | .shadow | .tier0Ecc | .control => true
  | .granuleCompare => decide (f.island.toNat / 4096 = 0)
  | _ => false
/-- A shared island's faults in the window reach the limit: 0x8202 (R443). -/
def State.islandFault (s : State) (id : Nat) : State :=
  let w := s.rd Reg.safSafety Reg.SAF_TRANSIENT_WINDOW_H * 3600000000
  let l := (mapGet [] s.islandFaults id ++ [s.nowUs]).filter (fun t => decide (s.nowUs ≤ t + w))
  let s1 := { s with islandFaults := mapSet [] s.islandFaults id l }
  if s.rd Reg.safSafety Reg.SAF_TRANSIENT_LIMIT ≤ l.length then s1.wr Reg.safSafety Reg.SAF_STATUS 0x8202 else s1
def State.faultDetect (s : State) (f : FaultEvent) : State :=
  match f.kind with
  | .tier0Corrected => { s with corrected := s.corrected + 1 }
  | kind =>
    let s0 := s.bump Reg.safSafety Reg.SAF_DATA_PATH_FAULTS 1
    let info : FaultInfo := { detect := faultCode kind, island := f.island.toNat, row := f.row.toNat, col := f.col.toNat, addr := f.addr.toNat }
    if implicates f then s0.suspect f.core.val (faultCode kind) info
    else
      let x := f.ctx.val
      let read := decide (kind = .poison) && decide (f.island.toNat / 4096 = 6)
      let s1 := (if read then s0.bump (Reg.t3w x) Reg.T3W_POISON_READS 1 else s0).logFault
        { info with ctx := if s0.ctxOn x then some x else none }
      let s2 := match kind with | .sharedIsland => s1.islandFault f.island.toNat | .exchangeAdder => s1.islandFault f.island.toNat | _ => s1
      let s3 := f.others.foldl (fun a y => a.haltCtx y.val (faultCode kind)) (match kind with | .exchangeAdder => s2.stopExchange x 0x3203 | _ => s2)
      s3.haltCtx x (faultCode kind)

/-! ## Retests (R442) -/

def State.countTest (s : State) (h : Nat) (passed : Bool) : State :=
  s.bump (Reg.safBent h) (if passed then Reg.BENT_PASSES else Reg.BENT_FAILS) 1
/-- FAILS is kept in the Ledger. -/
def State.failLedger (s : State) (h : Nat) : State :=
  s.ledger [.counter 6 (h * 2 ^ 32 + s.rd (Reg.safBent h) Reg.BENT_FAILS)]
def State.retestDone (s : State) (c : Nat) (passed : Bool) : State :=
  if s.coreFence c = 1 then
    let s1 := (s.countTest (c / 17) passed).postTest c passed
    if passed then
      (({ s1 with fences := mapSet 0 s1.fences c 0, suspects := mapSet Suspect.none s1.suspects c Suspect.none
                  served := mapSet [] s1.served c []
                  transients := mapSet [] s1.transients c (mapGet [] s1.transients c ++ [s1.nowUs]) } : State).bump
        Reg.safSafety Reg.SAF_TRANSIENTS 1)
    else (s1.failLedger (c / 17)).fenceCore c
  else s

/-! ## The rotation (R445 to R449) -/

/-- A core the rotation passes over: suspected or fenced (R447), or asleep with its bay (19 R511). -/
def State.restsNow (s : State) (c : Nat) : Bool :=
  decide (s.coreFence c ≠ 0) || (match s.logicalOf c with | some l => s.flag (Reg.pwrBay (l / 4)) Reg.PWR_SLEEPING | none => false)
/-- The next serving core after the free core, in cyclic physical order, and its position. -/
def State.nextServing (s : State) (h f : Nat) : Option (Nat × Nat) :=
  ((upto 16).map (fun i => 17 * h + (f % 17 + 1 + i) % 17)).findSome? (fun c =>
    if s.restsNow c then none else (s.logicalOf c).map (fun l => (c, l)))
/-- What the free core will take: a vacancy, else the next serving core's position. -/
def State.migrationTarget (s : State) (h f : Nat) : Option (Nat × Nat) :=
  match s.vacancies h with
  | l :: _ => some (s.physOf l, l)
  | [] => s.nextServing h f
/-- The position's bay is switching or being torn down: the migration waits (R447). -/
def State.bayBusy (s : State) (b : Nat) : Bool :=
  match s.bayHolder b with
  | some (x, _) => decide (s.ctxState x = stSwitching) || decide (s.ctxState x = stTearing)
  | none => false
/-- The free core f takes position l from core t, whose state it copies where a context holds the bay. A fenced core's place is final: its bent has no free core any more. -/
def State.migrate (s : State) (h f t l : Nat) : State :=
  let s1 := if s.coreFence t = 2 ∨ (s.bayHolder (l / 4)).isNone = true then s
    else (s.setCore f { s.core t with icache := [] }).setCore t Core.start
  let s2 := s1.setPhys l f
  let s2 := if s.coreFence t = 2 then s2 else s2.resumeCore f
  let s3 := match s2.bayHolder (l / 4) with | some (x, _) => s2.noteServed f x | none => s2
  let s4 := { s3 with migrating := mapSet false s3.migrating h false }
  let s5 := if s.coreFence t = 2 then
      let code := (mapGet Suspect.none s4.suspects t).code
      let s6 := ({ s4 with fences := mapSet 0 s4.fences t 3 } : State).logFault { detect := code, action := 0x8002, island := t, core := t }
      s6.uncover h t code
    else (((s4.setFree h t).showFree h).ucodeLess t).wr (Reg.safBent h) Reg.BENT_SLOT_ACTIVE 1
  s5.ledger [s5.spareRecord h]
/-- A migration goes on once its bay is not switching and the outgoing core has drained. -/
def State.tryMigrate (s : State) (h : Nat) : State :=
  let f := s.freeOf h
  if mapGet false s.migrating h = false ∨ noCore ≤ f then s
  else match s.migrationTarget h f with
    | none => ({ s with migrating := mapSet false s.migrating h false } : State).wr (Reg.safBent h) Reg.BENT_SLOT_ACTIVE 1
    | some (t, l) =>
      if s.bayBusy (l / 4) then s
      else if s.coreFence t = 2 then s.migrate h f t l
      else match (s.core t).run with
        | .running => s.drainCore t
        | .draining => s
        | _ => s.migrate h f t l
def State.tryMigrations (s : State) : List Nat → State
  | [] => s
  | h :: hs => (s.tryMigrate h).tryMigrations hs
/-- The contexts a failing core served since its last pass are exposed (R448). -/
def State.expose (s : State) (c : Nat) : List (Nat × Word × Option Nat) → State
  | [] => s
  | (x, step, n) :: rest =>
    let s1 := s.logFault { detect := 0x8101, action := 0x8102, island := c, ctx := some x, core := c, exposed := step.toNat + 1 }
    let st := s1.ctxState x
    let live := decide ((s1.ctx x).nonce = n) && (decide (st = stWaiting) || decide (st = stRunning) || decide (st = stSwitching))
    (if live then s1.haltCtx x 0x8102 else s1).expose c rest
/-- A core fails a rotation test: 0x8101 is the DETECT_CODE of the records of its exposed contexts (R448) and of 0x8201;
a failure with neither has a record of its own. -/
def State.latent (s : State) (c : Nat) : State :=
  let h := c / 17
  let s1 := (s.bump Reg.safSafety Reg.SAF_LATENT_FAULTS 1).failLedger h
  let s2 := s1.ledger [.counter 0 (s1.rd Reg.safSafety Reg.SAF_LATENT_FAULTS)]
  let told := decide (s2.freeOf h = c) || !(mapGet [] s2.served c).isEmpty
  let s3 := (if told then s2 else s2.logFault { detect := 0x8101, island := c, core := c }).expose c (mapGet [] s2.served c)
  ({ s3 with served := mapSet [] s3.served c [], suspects := mapSet Suspect.none s3.suspects c ⟨0x8101, none, s3.nowUs⟩ } : State).fenceCore c
/-- A position that waited for a free core that will not come: its quad degrades. -/
def State.fillNone (s : State) : List Nat → State
  | [] => s
  | l :: ls =>
    let c := s.physOf l
    let sus := mapGet Suspect.none s.suspects c
    (s.degrade (l / 4) c sus.code (match sus.ctx with | some x => [x.val] | none => [])).fillNone ls
/-- SLOT_END: the next slot starts at once (R447), though its test starts only when a core has become free. -/
def State.slotEnd (s : State) (h : Nat) (passed : Bool) : State :=
  let f := s.freeOf h
  if noCore ≤ f ∨ mapGet false s.migrating h = true then s
  else
    let b := Reg.safBent h
    let s1 := ((s.bump b Reg.BENT_SLOTS 1).countTest h passed).postTest f passed
    if passed then
      ((({ s1 with
        served := mapSet [] s1.served f []
        migrating := mapSet false s1.migrating h true
        slotAt := mapSet 0 s1.slotAt h s1.nowUs } : State).wr b Reg.BENT_SLOT_ACTIVE 0).wr b Reg.BENT_SLOT_MS 0).tryMigrate h
    else
      let s2 := s1.latent f
      s2.fillNone (s2.vacancies h)
/-- UNCOVERED_TEST (R449): the next core in ascending order whose bay holds no context. -/
def State.uncoveredNext (s : State) (h : Nat) : Option Nat :=
  let at' := mapGet 0 s.uncovNext h
  let order := (upto 17).map (fun i => 17 * h + (at' + i) % 17)
  order.find? (fun c => !s.restsNow c &&
    (match s.logicalOf c with | some l => (s.bayHolder (l / 4)).isNone | none => false))
def State.uncoveredTest (s : State) (h : Nat) (passed : Bool) : State :=
  if s.flag (Reg.safBent h) Reg.BENT_UNCOVERED then
    match s.uncoveredNext h with
    | none => s
    | some c =>
      let s0 := ({ s with uncovNext := mapSet 0 s.uncovNext h ((c % 17 + 1) % 17) } : State).ucodeLess c
      let s1 := (s0.countTest h passed).postTest c passed
      if passed then { s1 with served := mapSet [] s1.served c [] } else s1.latent c
  else s

/-! ## Requests (R451, R454) -/

def slotUs : Nat := 70500
/-- The number of slots that end up to and with core c's own, or the tests in place before and with it. -/
def State.slotsUntil (s : State) (c : Nat) : Option Nat :=
  let h := c / 17
  let f := s.freeOf h
  if f < noCore then
    if f = c then some 1
    else
      let order := ((upto 16).map (fun i => 17 * h + (f % 17 + 1 + i) % 17)).filter
        (fun d => !s.restsNow d && (s.logicalOf d).isSome)
      (firstIdx (fun d => decide (d = c)) order 0).map (fun i => i + 2)
  else
    let at' := mapGet 0 s.uncovNext h
    let order := ((upto 17).map (fun i => 17 * h + (at' + i) % 17)).filter (fun d => !s.restsNow d &&
      (match s.logicalOf d with | some l => (s.bayHolder (l / 4)).isNone | none => false))
    (firstIdx (fun d => decide (d = c)) order 0).map (fun i => i + 1)
/-- The longest a test of core c may still take, in µs, by R451. -/
def State.testEnd (s : State) (c : Nat) : Option Nat :=
  if s.coreFence c = 1 then some (slotUs - (s.nowUs - (mapGet Suspect.none s.suspects c).since))
  else (s.slotsUntil c).map (fun n =>
    n * slotUs - (if s.freeOf (c / 17) < noCore then min slotUs (s.nowUs - mapGet 0 s.slotAt (c / 17)) else 0))
def State.testPost (s : State) (code expected : Nat) (asked : Option CoreId) : State :=
  let s1 := (s.wr Reg.safTest Reg.TEST_STATUS code).wr Reg.safTest Reg.TEST_EXPECTED_MS expected
  match asked with
  | some c => ({ s1 with testAsked := some c } : State).wr Reg.safTest Reg.TEST_PENDING 1
  | none => s1
/-- TEST_REQUEST_GO. -/
def State.testRequest (s : State) : State :=
  let c := s.rd Reg.safTest Reg.TEST_CORE
  if 271 < c ∨ s.coreFence c = 2 ∨ s.coreFence c = 3 ∨ s.testAsked.isSome = true then
    s.wr Reg.safTest Reg.TEST_STATUS 0x8104
  else match s.testEnd c with
    | none => s.testPost 0x8103 0 none
    | some us =>
      let late := decide (s.rd Reg.safTest Reg.TEST_DEADLINE_MS * 1000 < us)
      s.testPost (if late then 0x8103 else 0) (ceilDiv us 1000) (some (Fin.ofNat 272 c))
/-- FENCE_GO. -/
def State.fenceGo (s : State) : State :=
  let c := s.rd Reg.safSafety Reg.SAF_FENCE_CORE
  if 271 < c ∨ s.coreFence c = 2 ∨ s.coreFence c = 3 then s.wr Reg.safSafety Reg.SAF_STATUS 0x8104
  else
    let x := (s.place c).map (fun p => p.1)
    let old := mapGet Suspect.none s.suspects c
    let s1 := (s.wr Reg.safSafety Reg.SAF_STATUS 0).logFault { detect := old.code, action := 0x8005, island := c, ctx := x, core := c }
    let s2 := (match x with | some y => s1.stopExchange y 0x8005 | none => s1).haltOpt x 0x8005
    let ctx' := match x with | some y => some (Fin.ofNat 4096 y) | none => old.ctx
    ({ s2 with suspects := mapSet Suspect.none s2.suspects c ⟨old.code, ctx', s2.nowUs⟩ } : State).fenceCore c

end Sys2Proof.Machine
end

