-- ==== Sys2Proof/Machine/Members.lean ====
section
/-! DEFINITION. The member table (01 R9 to R23): the descriptors as the device derives them, frame entries, and SEQUENCE. -/
namespace Sys2Proof.Machine

/-! ## Member descriptors (01 Table 01-2) -/

/-- The level of an entry, and its number within the level (R18). -/
def memberLevel (i : Nat) : Nat × Nat :=
  if i < 272 then (0, i) else if i < 336 then (1, i - 272) else if i < 352 then (2, i - 336) else if i < 354 then (3, i - 352) else (4, 0)
/-- The physical cores an entry contains, and its quads. -/
def memberCores (i : Nat) : List Nat :=
  let (l, n) := memberLevel i
  match l with
  | 0 => [n]
  | 1 => ownCores n
  | 2 => (upto 17).map (fun j => 17 * n + j)
  | 3 => (upto 136).map (fun j => 136 * n + j)
  | _ => upto 272
def memberBays (i : Nat) : List Nat :=
  let (l, n) := memberLevel i
  match l with
  | 0 => []
  | 1 => [n]
  | 2 => (upto 4).map (fun j => 4 * n + j)
  | 3 => (upto 32).map (fun j => 32 * n + j)
  | _ => upto 64
/-- A core in its slot or under retest (16 R450). -/
def State.underTest (s : State) (c : Nat) : Bool :=
  decide (s.coreFence c = 1) || (decide (s.freeOf (c / 17) = c) && s.flag (Reg.safBent (c / 17)) Reg.BENT_SLOT_ACTIVE)
def State.memberActive (s : State) (i : Nat) : Nat :=
  if i < 272 then (if (s.logicalOf i).isSome && decide (s.coreFence i = 0) then 1 else 0)
  else sumOf ((memberBays i).map s.activeCores)
def State.memberSpares (s : State) (i : Nat) : Nat :=
  let (l, n) := memberLevel i
  match l with
  | 0 => if s.freeOf (n / 17) = n || s.underTest n then 1 else 0
  | 1 => 0
  | _ => ((upto 16).filter (fun h => (memberBays i).contains (4 * h) && decide (s.freeOf h < noCore))).length
/-- FENCE_STATE (R17). -/
def State.memberFence (s : State) (i : Nat) : Nat :=
  if i < 272 then s.coreFence i
  else if i < 336 then s.bayFence (i - 272)
  else if (memberCores i).any (fun c => decide (s.coreFence c = 1)) then 1
  else if (memberCores i).any (fun c => decide (2 ≤ s.coreFence c)) then 3 else 0
/-- CAPS (R20, Table 01-3). -/
def memberCaps (l : Nat) : Nat := bayCaps + (if 2 ≤ l then 0x30 else 0) + (if 3 ≤ l then 0xC0 else 0) + (if 4 ≤ l then 0x700 else 0)
/-- A level's figure of Table 01-1, from level 0 up. -/
def perLevel (l : List Nat) (n : Nat) : Nat := l.getD n 0
/-- CLOCK_MHZ. DESIGN CHOICE (log entry 88): a group with no active core reads 600. -/
def State.memberClock (s : State) (i : Nat) : Nat :=
  if i < 272 then s.coreMhz i
  else match (memberBays i).filter (fun b => decide (s.activeCores b ≠ 0)) with
    | [] => 600
    | l => l.foldl (fun m b => min m (s.currentMhz b)) 600
/-- RISK_ELEVATED: a bent without its free core (16 R449); the package, while the estimate stands above the threshold of a
context that trains (09 R261). -/
def State.memberRisk (s : State) (i : Nat) : Bool :=
  let (l, n) := memberLevel i
  match l with
  | 2 => s.flag (Reg.safBent n) Reg.BENT_UNCOVERED
  | 4 => s.enabledCtxs.any (fun x => s.trains x && decide (s.cf x Reg.CTX_RISK_THRESHOLD < s.risk))
  | _ => false
def memberParent (i : Nat) : Nat :=
  let (l, n) := memberLevel i
  match l with
  | 0 => if n % 17 = 16 then n / 17 else 4 * (n / 17) + n % 17 / 4
  | 1 => n / 4
  | 2 => n / 8
  | 3 => 0
  | _ => 0xFFFF
def bit (b : Bool) (i : Nat) : Nat := if b then 2 ^ i else 0
/-- The words of an entry of this package before its SEQUENCE. -/
def State.memberWords (s : State) (i : Nat) : List Nat :=
  let (l, n) := memberLevel i
  let cores := memberCores i
  let active := s.memberActive i
  let fenced := (cores.filter (fun c => decide (2 ≤ s.coreFence c))).length
  let parent := if l = 4 then (match mapGet [] s.frames 0 with | [] => 0xFFFF | w :: _ => bitsAt w.toNat 32 16) else memberParent i
  [l + 16 + s.ownAddress.getD 0xFFFF * 2 ^ 16 + n * 2 ^ 32 + parent * 2 ^ 48,
   memberCaps l,
   perLevel [0, 4, 5, 8, 2] l + bit (decide (l ≠ 0) && decide (active < perLevel [1, 4, 16, 128, 256] l)) 32 +
     bit (cores.any (fun c => decide (s.coreFence c = 3))) 33 + bit (cores.any s.underTest) 34 + bit (s.memberRisk i) 35 + s.memberFence i * 2 ^ 40,
   active + s.memberSpares i * 2 ^ 32,
   perLevel [0, 1, 4, 32, 64] l + fenced * 2 ^ 32,
   perLevel [0, 0, 0, 0, 65536] l,
   perLevel [0, 0, 0, 0, 65536] l,
   active * 3216 * 1024,
   perLevel [0, 0, 0, 64 * mib, 128 * mib] l,
   perLevel [0, 0, 4 * mib, 32 * mib, 64 * mib] l,
   perLevel [0, 0, 0, 2 ^ 38, 2 ^ 39] l,
   perLevel [0, 0, 0, 2 ^ 40, 2 ^ 41] l,
   perLevel [0, 0, 0, 24000, 48000] l + perLevel [0, 0, 0, 4000, 8000] l * 2 ^ 32,
   s.memberClock i + 600 * 2 ^ 16,
   perLevel [0, 0, 0, 0, 16] l]
/-- Word w of entry i of the member table: frames as the Joiners' exchange left them, all zero where there is none. -/
def State.memberWord (s : State) (i w : Nat) : Nat :=
  if 366 ≤ i then 0
  else if 355 ≤ i ∧ mapGet [] s.frames (i - 355) = [] then 0
  else if w = 15 then mapGet 0 s.memberSeq i
  else if 355 ≤ i then ((mapGet [] s.frames (i - 355)).getD w 0).toNat
  else (s.memberWords i).getD w 0

/-! ## SEQUENCE (R21, R22) -/

/-- The entries of a bent's cores and quads, of the bent, its half and the package. -/
def bentEntries (h : Nat) : List Nat :=
  (upto 17).map (fun i => 17 * h + i) ++ (upto 4).map (fun q => 272 + 4 * h + q) ++ [336 + h, 352 + h / 8, 354]
/-- An operation that ends in t has written each descriptor of a list that it changed: SEQUENCE has gone up by 2 there, and
nowhere else. -/
def State.sequenced (s : State) (es : List Nat) (t : State) : State :=
  t.bumpEntries (es.filter (fun i => decide (s.memberWords i ≠ t.memberWords i)))
/-- What an operation on bent h does to its descriptors. -/
def State.sequencedBent (s : State) (h : Nat) (t : State) : State := s.sequenced (bentEntries h) t
/-- The bents whose migrations may go on. -/
def State.movingEntries (s : State) : List Nat := dedup ((s.migrating.map (fun kv => kv.1)).flatMap bentEntries)
/-- The migrations that waited on a switch or a drain go on. -/
def State.goOn (s : State) : State :=
  s.sequenced s.movingEntries (s.tryMigrations (s.migrating.map (fun kv => kv.1)))

/-! ## Frame entries (R18, R23) -/

/-- The words of a frame entry as it is held: FORMAT 0 is an absent entry, all zero; LEVEL is the entry's, DEVICE_ADDRESS
0xFFFF, CAPS without the bits that are never set, Reserved bits zero (00 R7); SEQUENCE is the device's own. -/
def frameWords (level : Nat) (ws : List Word) : List Word :=
  let w (i : Nat) : Nat := (ws.getD i 0).toNat
  if bitsAt (w 0) 4 4 = 0 then [] else
    ([5 + level + 16 + 0xFFFF * 2 ^ 16 + bitsAt (w 0) 32 32 * 2 ^ 32, w 1 % 2 ^ 12, w 2 % 2 ^ 36 + bitsAt (w 2) 40 4 * 2 ^ 40] ++
      ((upto 10).map (fun i => w (3 + i)) ++ [w 13 % 2 ^ 32, w 14 % 2 ^ 32])).map (BitVec.ofNat 64)
/-- The Joiners' exchange gives the entry of a frame level its words; the package's PARENT_INDEX names the frame of level
5. -/
def State.frameUpdate (s : State) (level : Nat) (ws : List Word) : State :=
  let t := { s with frames := mapSet [] s.frames level (frameWords level ws) }
  let t1 := if mapGet [] s.frames level = mapGet [] t.frames level then t else t.bumpEntries [355 + level]
  s.sequenced [354] t1

end Sys2Proof.Machine
end

