-- ==== Sys2Proof/Machine/Contexts.lean ====
section
/-! DEFINITION. The rows of 14: contexts, bays and scheduling. -/
namespace Sys2Proof.Machine

/-- CTX_ENABLE (R383, 18 R481): a write of 1 to ENABLE; the check waits its turn. -/
def execCtxEnable (x : CtxId) (s : State) : Out := .next (s.bar (fun t => t.requestEnable (.ctx x)))
/-- CTX_DISABLE (R399): a write of 0 to ENABLE ends a running check, or begins teardown. -/
def execCtxDisable (x : CtxId) (s : State) : Out :=
  .next (s.bar (fun t => if t.checking (.ctx x) then t.cancelCheck (.ctx x) else t.beginTeardown x.val))
/-- TEARDOWN_DONE (R399). -/
def execTeardownDone (x : CtxId) (s : State) : Out := .next (s.sequenced [354] (s.teardownDone x.val)).goOn
/-- LOAD (05 R149). -/
def execLoad (e : Entry) (s : State) : Out := .next (s.command 1 e (fun t => t.load e))
/-- PLACEMENT (R387, R388, R390). -/
def execPlacement (s : State) : Out := .next s.placement
/-- PREEMPTION (R389). -/
def execPreemption (s : State) : Out := .next s.preemption
/-- SLICE_EXPIRE (R390). -/
def execSliceExpire (x : CtxId) (s : State) : Out := .next (s.sliceExpire x.val)
/-- SWITCH_SAVE_DONE (R391, R394). A migration that waits for a switch goes on when it ends (16 R447). -/
def execSwitchSaveDone (x : CtxId) (ok : Bool) (s : State) : Out := .next (s.switchSaved x.val ok).goOn
/-- SWITCH_SCRUB_DONE (R395). -/
def execSwitchScrubDone (x : CtxId) (s : State) : Out := .next (s.switchScrubbed x.val).goOn
/-- SWITCH_RESTORE_DONE (R394). -/
def execSwitchRestoreDone (x : CtxId) (ok : Bool) (s : State) : Out := .next (s.switchRestored x.val ok).goOn
/-- CTX_STOP (R386, R398). -/
def execCtxStop (e : Entry) (s : State) : Out := .next (s.command 4 e (fun t => t.ctxStop e))
/-- CTX_RESUME (R386). -/
def execCtxResume (e : Entry) (s : State) : Out := .next (s.command 5 e (fun t => t.ctxResume e))
/-- CTX_UNLOAD (R386). -/
def execCtxUnload (e : Entry) (s : State) : Out := .next (s.command 6 e (fun t => t.ctxUnload e))
/-- BW_REGULATOR_WINDOW (R396): a window of the bay ends, and requests held back may proceed. -/
def execBwRegulatorWindow (b : BayId) (s : State) : Out :=
  .next (match s.bayHolder b.val with
    | some (x, i) => s.setCtx x { s.ctx x with bwUsed := mapSet 0 (s.ctx x).bwUsed i 0 }
    | none => s)

end Sys2Proof.Machine
end

