-- ==== Sys2Proof/Machine/Exchange.lean ====
section
/-! DEFINITION. The rows of 11: gradient exchange and collectives. -/
namespace Sys2Proof.Machine

/-- BUCKET_CLOSE (R302). -/
def execBucketClose (x : CtxId) (s : State) : Out := .next (s.bucketClose x.val)
/-- REDUCE_PACKET_RECEIVE (R306). -/
def execReducePacketReceive (x : CtxId) (r : ReducePacket) (s : State) : Out := .next (s.reduceIn x.val r)
/-- BUCKET_DEADLINE_EXPIRE (R315). -/
def execBucketDeadlineExpire (x : CtxId) (b : BitVec 16) (s : State) : Out := .next (s.deadlineExpire x.val b.toNat)
/-- CUTOFF_EXPIRE (R317). -/
def execCutoffExpire (x : CtxId) (s : State) : Out := .next (s.cutoff x.val)
/-- ABORT_PACKET_RECEIVE (R317). -/
def execAbortPacketReceive (x : CtxId) (step : Word) (attempt : BitVec 8) (code : BitVec 16) (s : State) : Out :=
  .next (s.abortIn x.val step attempt code)
/-- SUMMARY_MERGE (R312, R317). -/
def execSummaryMerge (x : CtxId) (s : State) : Out := .next (s.summaryMerge x.val)
/-- SUMMARY_RECEIVE (R312). -/
def execSummaryReceive (x : CtxId) (r : Summary) (s : State) : Out := .next (s.summaryIn x.val r)
/-- GATHER_START (R311). -/
def execGatherStart (x : CtxId) (s : State) : Out := .next (s.gatherStart x.val)
/-- GATHER_CHUNK_RECEIVE (R311). -/
def execGatherChunkReceive (x : CtxId) (r : Chunk) (s : State) : Out := .next (s.chunkIn x.val r)

end Sys2Proof.Machine
end

