-- ==== Sys2Proof/Machine/Gather.lean ====
section
/-! DEFINITION. The rows of the gather engine (04 R123 to R128; 06 R191). -/
namespace Sys2Proof.Machine

/-- GATH (R125): Gather table rows by index. -/
def execGath (c : CoreId) (a : SlotArgs) (s : State) : Out := .next (s.runSlot c .V 0x90 a)

/-- SCAT (R126): Scatter rows into a table with a combine mode, in list order. -/
def execScat (c : CoreId) (a : SlotArgs) (s : State) : Out := .next (s.runSlot c .V 0x91 a)

/-- SEGR (R127): Reduce source rows into segments. -/
def execSegr (c : CoreId) (a : SlotArgs) (s : State) : Out := .next (s.runSlot c .V 0x92 a)

end Sys2Proof.Machine
end

