-- ==== Sys2Proof/Machine/LedgerOps.lean ====
section
/-! DEFINITION. The Ledger journal (17 R470 to R473): the size of records and groups, the fill of a half, the reserve that
class 3 and class 4 commands may not use, and the append of a group. -/
namespace Sys2Proof.Machine

/-- TYPE (Table 17-5). -/
def recType : LedgerRec → Nat
  | .fence _ => 1
  | .spare _ _ _ => 2
  | .wear _ _ _ => 3
  | .keyGen _ _ _ => 4
  | .manifest _ _ => 5
  | .slotState _ _ _ _ => 6
  | .firmware _ _ _ => 7
  | .minVersion _ _ => 7
  | .calibration _ _ => 8
  | .ckptIndex _ _ => 9
  | .tenantNonce _ _ => 10
  | .counter _ _ => 11
  | .unknown t => t.toNat
/-- A body of at most 65,528 bytes, and the same padded with zeros to a multiple of 8 (R470). -/
def bodyOf (r : LedgerRec) : List Byte := (Config.ledgerBody r).take 65528
def paddedBody (r : LedgerRec) : List Byte := let bs := bodyOf r; bs ++ List.replicate ((8 - bs.length % 8) % 8) 0
def recordSize (r : LedgerRec) : Nat := 32 + (paddedBody r).length
/-- The header of Table 17-4, for a record of a group under a number and an epoch. -/
def recordHeader (r : LedgerRec) (group seq epoch : Nat) : List Byte :=
  let h := leBytes 8 (recType r + (bodyOf r).length * 2 ^ 16 + group * 2 ^ 32) ++ leBytes 8 seq ++ leBytes 8 epoch
  h ++ leBytes 4 (crc32c (h ++ paddedBody r)).toNat ++ leBytes 4 0
/-- The commit marker of a group, and the switch marker of a half (Table 17-5). -/
def commitMarker : LedgerRec := .unknown 0xFF
def switchMarker : LedgerRec := .unknown 0xFE
/-- A group with its commit marker, as records and as a length. -/
def groupRecs (rs : List LedgerRec) : List LedgerRec := rs ++ [commitMarker]
def groupBytes (rs : List LedgerRec) : Nat := sumOf ((groupRecs rs).map recordSize)
/-- What a half of the Ledger holds from a group and a record number on. -/
def halfImage (epoch : Nat) : Nat → Nat → List (List LedgerRec) → List Byte
  | _, _, [] => []
  | g, n, rs :: gs =>
    (((groupRecs rs).zip (upto (rs.length + 1))).flatMap (fun ri => recordHeader ri.1 g (n + ri.2) epoch ++ paddedBody ri.1)) ++
      halfImage epoch (g + 1) (n + rs.length + 1) gs
def halfBytes : Nat := 2 ^ 27
def State.halfUsed (s : State) (h : Nat) : Nat := sumOf ((mapGet [] s.journal h).map groupBytes)
def State.activeHalf (s : State) : Nat := s.rd Reg.ldgStatus Reg.LDG_ACTIVE_HALF
/-- The EPOCH a half's records carry: what its switch marker gave it, and while a compaction fills it the next (R472). -/
def State.epochOf (s : State) (h : Nat) : Nat :=
  if s.flag Reg.ldgStatus Reg.LDG_COMPACTING && decide (h ≠ s.activeHalf) then s.rd Reg.ldgStatus Reg.LDG_EPOCH + 1 else mapGet 0 s.halfEpoch h
/-- The bytes of a half. DESIGN CHOICE (log entry 113): once it has become active, its switch marker stands as a group of its own
behind the state that the compaction wrote. -/
def State.ledgerHalf (s : State) (h : Nat) : List Byte :=
  let gs := mapGet [] s.journal h
  halfImage (s.epochOf h) 0 0 (if mapGet 0 s.halfEpoch h = 0 then gs else gs.take 1 ++ [[switchMarker]] ++ gs.drop 1)
/-- FILL_PCT of the active half. -/
def State.showFill (s : State) : State :=
  s.wr Reg.ldgStatus Reg.LDG_FILL_PCT (min 100 (100 * s.halfUsed s.activeHalf / halfBytes))
/-- The records of a class 3 or class 4 command would fall into the reserve of 1 MiB (R472). -/
def State.ledgerShort (s : State) (rs : List LedgerRec) : Bool :=
  decide (halfBytes - mib < s.halfUsed s.activeHalf + groupBytes rs)
def State.addGroup (s : State) (h : Nat) (rs : List LedgerRec) : State :=
  { s with journal := mapSet [] s.journal h (mapGet [] s.journal h ++ [rs]) }
/-- A group is written and its commit marker with it; while a compaction runs, to the new half too (R470, R472). -/
def State.ledgerAppend (s : State) (rs : List LedgerRec) : State :=
  let a := s.activeHalf
  let s1 := { s with ledgerWait := s.ledgerWait.erase rs }
  let s2 := s1.addGroup a rs
  (if s.flag Reg.ldgStatus Reg.LDG_COMPACTING then s2.addGroup (1 - a) rs else s2).showFill

end Sys2Proof.Machine
end

