-- ==== Sys2Proof/Machine/StreamOps.lean ====
section
/-! DEFINITION. The stream engine (12 R324 to R351): entries, token logs and block tables in the region, cache blocks and
the prefix registry, grammars, adapters, and each command's effect. -/
namespace Sys2Proof.Machine

/-! ## The tables in memory (Tables 12-1, 12-5) -/

def State.tf (s : State) (x : Nat) (f : Field) : Nat := s.rd (Reg.streamTable x) f
def State.tableOn (s : State) (x : Nat) : Bool := s.flag (Reg.streamTable x) Reg.ST_ENABLE
def State.eng (s : State) (x : Nat) : Streams := (s.ctx x).streams
def State.setEng (s : State) (x : Nat) (e : Streams) : State := s.setCtx x { s.ctx x with streams := e }

/-- The fields of an entry. -/
def Ent.STATE : Field := ⟨0x00, 0, 4, .ro, 0⟩
def Ent.IN_STEP : Field := ⟨0x00, 4, 1, .ro, 0⟩
def Ent.TTFT_MISSED : Field := ⟨0x00, 5, 1, .ro, 0⟩
def Ent.DRAFT_LEN : Field := ⟨0x00, 8, 4, .ro, 0⟩
def Ent.GRAMMAR : Field := ⟨0x00, 16, 6, .ro, 0⟩
def Ent.GRAMMAR_ON : Field := ⟨0x00, 22, 1, .ro, 0⟩
def Ent.ADAPTER : Field := ⟨0x00, 32, 32, .ro, 0⟩
def Ent.PROMPT_TOKENS : Field := ⟨0x08, 0, 32, .ro, 0⟩
def Ent.COMMIT : Field := ⟨0x08, 32, 32, .ro, 0⟩
def Ent.WRITTEN_C : Field := ⟨0x10, 0, 32, .ro, 0⟩
def Ent.WRITTEN_D : Field := ⟨0x10, 32, 32, .ro, 0⟩
def Ent.MATCHED : Field := ⟨0x18, 0, 32, .ro, 0⟩
def Ent.GSTATE : Field := ⟨0x20, 0, 16, .ro, 0⟩
def Ent.POLICY_STEP : Field := ⟨0x20, 32, 32, .ro, 0⟩
def Ent.HASH_C : Field := ⟨0x28, 0, 64, .ro, 0⟩
def Ent.HASH_D : Field := ⟨0x30, 0, 64, .ro, 0⟩
def Ent.TTFT_TARGET_US : Field := ⟨0x38, 0, 32, .ro, 0⟩
def Ent.TBT_TARGET_US : Field := ⟨0x38, 32, 32, .ro, 0⟩
def Ent.TTFT_US : Field := ⟨0x40, 0, 32, .ro, 0⟩
def Ent.TBT_LAST_US : Field := ⟨0x40, 32, 32, .ro, 0⟩
def Ent.TBT_MAX_US : Field := ⟨0x48, 0, 32, .ro, 0⟩
def Ent.TBT_MISSES : Field := ⟨0x48, 32, 32, .ro, 0⟩
def Ent.GENERATED : Field := ⟨0x50, 0, 32, .ro, 0⟩
def Ent.DRAFTED : Field := ⟨0x50, 32, 32, .ro, 0⟩
def Ent.ACCEPTED : Field := ⟨0x58, 0, 32, .ro, 0⟩
def Ent.TTL_LEFT_S : Field := ⟨0x58, 32, 32, .ro, 0⟩
def Ent.PAUSE_OFFSET : Field := ⟨0x60, 0, 48, .ro, 0⟩
def Ent.written (side : Nat) : Field := if side = 0 then Ent.WRITTEN_C else Ent.WRITTEN_D

def State.entAt (s : State) (x st : Nat) : Nat := s.tf x Reg.ST_ENTRY_BASE + 128 * st
def State.ent (s : State) (x st : Nat) (f : Field) : Nat :=
  bitsAt (s.natAt (.tier1 x) (s.entAt x st + f.off) 8) f.lo f.width
/-- Write a field of an entry; a counter that would pass its width stops there (R329). -/
def State.setEnt (s : State) (x st : Nat) (f : Field) (v : Nat) : State :=
  let a := s.entAt x st + f.off
  s.store (.tier1 x) a 0 (leBytes 8 (bitsPut (s.natAt (.tier1 x) a 8) f.lo f.width (min v (2 ^ f.width - 1))))
def State.setEnts (s : State) (x st : Nat) : List (Field × Nat) → State
  | [] => s
  | fv :: l => (s.setEnt x st fv.1 fv.2).setEnts x st l
def State.tokAddr (s : State) (x st i : Nat) : Nat := s.tf x Reg.ST_TOKEN_BASE + 4 * (s.tf x Reg.ST_MAX_TOKENS * st + i)
def State.tok (s : State) (x st i : Nat) : Nat := s.natAt (.tier1 x) (s.tokAddr x st i) 4
def State.tokens (s : State) (x st i n : Nat) : List Nat := (upto n).map (fun k => s.tok x st (i + k))
def State.putTokens (s : State) (x st i : Nat) (l : List Nat) : State :=
  s.store (.tier1 x) (s.tokAddr x st i) 0 (l.flatMap (leBytes 4))
def noBlock : Nat := 0xFFFFFFFF
def State.btAddr (s : State) (x st i side : Nat) : Nat :=
  s.tf x Reg.ST_BTABLE_BASE + 8 * (s.tf x Reg.ST_MAX_TOKENS / 16 * st + i) + 4 * side
def State.blockOf (s : State) (x st i side : Nat) : Nat := s.natAt (.tier1 x) (s.btAddr x st i side) 4
def State.setBlock (s : State) (x st i side b : Nat) : State := s.store (.tier1 x) (s.btAddr x st i side) 0 (leBytes 4 b)
def State.listTokens (s : State) (x a n : Nat) : List Nat := (upto n).map (fun i => s.natAt (.tier1 x) (a + 4 * i) 4)

/-! ## Blocks: holders, registry, allocation (R330) -/

def State.pool (s : State) (x side : Nat) : Nat := s.tf x (if side = 0 then Reg.ST_POOL_C else Reg.ST_POOL_D)
def holdKey (side b : Nat) : Nat := 2 * b + side
def Streams.held (e : Streams) (side b : Nat) : Nat := mapGet 0 e.holders (holdKey side b)
def Streams.isReg (e : Streams) (side b : Nat) : Bool := e.registry.any (fun r => decide (r.side = side) && decide (r.block = b))
/-- The blocks of a side that are not free: held, or registered without a holder. -/
def Streams.used (e : Streams) (side : Nat) : List Nat :=
  (e.holders.filter (fun kv => decide (kv.1 % 2 = side))).map (fun kv => kv.1 / 2) ++
  (e.registry.filter (fun r => decide (r.side = side) && decide (e.held side r.block = 0))).map (fun r => r.block)
/-- The registered blocks of a side without holders, oldest first. -/
def Streams.evictable (e : Streams) (side : Nat) : List RegBlock :=
  e.registry.filter (fun r => decide (r.side = side) && decide (e.held side r.block = 0))
def Streams.hold (e : Streams) (side b : Nat) : Streams :=
  { e with holders := mapSet 0 e.holders (holdKey side b) (e.held side b + 1) }
def Streams.drop (e : Streams) (side b : Nat) : Streams :=
  { e with holders := mapSet 0 e.holders (holdKey side b) (e.held side b - 1) }
/-- FREE_C, FREE_D and STREAMS_OPEN follow. -/
def State.showFreeBlocks (s : State) (x : Nat) : State :=
  let t := Reg.streamTable x
  (s.wr t Reg.ST_FREE_C (s.pool x 0 - ((s.eng x).used 0).length)).wr t Reg.ST_FREE_D (s.pool x 1 - ((s.eng x).used 1).length)
/-- Blocks that can be had: free, or evictable. -/
def State.available (s : State) (x side : Nat) : Nat :=
  s.pool x side - ((s.eng x).used side).length + ((s.eng x).evictable side).length
/-- A free block, which one being the engine's choice; else the oldest registered one without holders, deregistered. -/
def State.takeBlock (s : State) (x side : Nat) : State × Nat :=
  let e := s.eng x
  let used := e.used side
  let n := s.pool x side
  if used.length < n then
    let start := Config.blockChoice s.free % n
    let b := (((upto (used.length + 1)).map (fun i => (start + i) % n)).find? (fun b => !used.contains b)).getD 0
    (({ s with free := s.free + 1 } : State).setEng x (e.hold side b), b)
  else match e.evictable side with
    | r :: _ => (s.setEng x ({ e with registry := e.registry.erase r }.hold side r.block), r.block)
    | [] => (s, noBlock)
def State.takeBlocks (s : State) (x st side : Nat) : List Nat → State
  | [] => s
  | i :: is => let (s1, b) := s.takeBlock x side
               (s1.setBlock x st i side b).takeBlocks x st side is
/-- The block at place i of a stream's table is given up. -/
def State.dropBlock (s : State) (x st side i : Nat) : State :=
  let b := s.blockOf x st i side
  if b = noBlock then s else (s.setEng x ((s.eng x).drop side b)).setBlock x st i side noBlock
def State.dropBlocks (s : State) (x st side : Nat) : List Nat → State
  | [] => s
  | i :: is => (s.dropBlock x st side i).dropBlocks x st side is
/-- The places [lo, hi) of a block table. -/
def idxs (lo hi : Nat) : List Nat := (upto (hi - lo)).map (fun i => lo + i)
/-- A side's WRITTEN falls to at most v, and blocks wholly at or above it are released (R338). -/
def State.cutTo (s : State) (x st side v : Nat) : State :=
  let w := s.ent x st (Ent.written side)
  (s.setEnt x st (Ent.written side) (min w v)).dropBlocks x st side (idxs (ceilDiv (min w v) 16) (ceilDiv w 16))
def State.dropSide (s : State) (x st side : Nat) : State :=
  s.dropBlocks x st side (idxs 0 (ceilDiv (s.ent x st (Ent.written side)) 16))

/-! ## Hashes and registration (R332 to R334) -/

def blockHash (parent side handle : Nat) (toks : List Nat) : Nat :=
  let h := leNat ((shake256 (leBytes 8 parent ++ leBytes 4 side ++ leBytes 4 handle ++ toks.flatMap (leBytes 4))).take 8)
  if h = 0 then 1 else h
/-- The hashes of a stream's first n blocks on a side. -/
def chainHashes (side handle parent : Nat) : List (List Nat) → List Nat
  | [] => []
  | t :: ts => let h := blockHash parent side handle t
               h :: chainHashes side handle h ts
def State.blockTokens (s : State) (x st n : Nat) : List (List Nat) := (upto n).map (fun i => s.tokens x st (16 * i) 16)
def State.sideHandle (s : State) (x st side : Nat) : Nat := if side = 0 then s.ent x st Ent.ADAPTER else 0
def State.hashes (s : State) (x st side n : Nat) : List Nat := chainHashes side (s.sideHandle x st side) 0 (s.blockTokens x st n)
/-- Register the blocks of one side in order; one whose hash the registry holds stays private. -/
def registerAll (side : Nat) (e : Streams) : List (Nat × Nat × List Nat) → Streams
  | [] => e
  | (b, h, t) :: l =>
    registerAll side (if e.registry.any (fun r => decide (r.hash = h)) then e else { e with registry := e.registry ++ [⟨side, b, h, t⟩] }) l
def State.registerSide (s : State) (x st side : Nat) : State :=
  if s.pool x side = 0 then s else
  let n := min (s.ent x st Ent.COMMIT) (s.ent x st (Ent.written side)) / 16
  let e := s.eng x
  let done := mapGet 0 e.regDone (2 * st + side)
  let toks := s.blockTokens x st n
  let hs := s.hashes x st side n
  let items := (idxs done n).map (fun i => (s.blockOf x st i side, hs.getD i 0, toks.getD i []))
  s.setEng x (registerAll side { e with regDone := mapSet 0 e.regDone (2 * st + side) (max done n) } items)
/-- BLOCK_REGISTER. -/
def State.registerBlocks (s : State) (x st : Nat) : State := (s.registerSide x st 0).registerSide x st 1
/-- HASH_C and HASH_D are those of the last whole committed block. -/
def State.showHashes (s : State) (x st : Nat) : State :=
  let n := s.ent x st Ent.COMMIT / 16
  let last (side : Nat) : Nat := if n = 0 then 0 else (s.hashes x st side n).getD (n - 1) 0
  s.setEnts x st [(Ent.HASH_C, last 0), (Ent.HASH_D, last 1)]
/-- The Chanter blocks leave the registry once the student's weights have changed (R335). -/
def State.dropChanter (s : State) (x : Nat) : State :=
  if s.tableOn x then
    (s.setEng x { s.eng x with registry := (s.eng x).registry.filter (fun r => decide (r.side ≠ 0)) }).showFreeBlocks x
  else s
/-- The registered blocks that a prompt matches on one side, in order (R333). -/
def matchWalk (e : Streams) (side : Nat) : List (Nat × List Nat) → List RegBlock
  | [] => []
  | (h, t) :: l =>
    match e.registry.find? (fun r => decide (r.side = side) && decide (r.hash = h) && decide (r.tokens = t)) with
    | some r => r :: matchWalk e side l
    | none => []
/-- A matched block is held once more and is the newest of the registry. -/
def matchOne (e : Streams) (r : RegBlock) : Streams := { e with registry := e.registry.erase r ++ [r] }.hold r.side r.block
def State.enterMatches (s : State) (x st side : Nat) (rs : List RegBlock) : State :=
  let s1 := s.setEng x (rs.foldl matchOne (s.eng x))
  (upto rs.length).foldl (fun a i => a.setBlock x st i side ((rs.getD i ⟨0, 0, 0, []⟩).block)) s1
def State.matchPrompt (s : State) (x st n : Nat) : State :=
  let blocks := (n - 1) / 16
  let toks := s.blockTokens x st blocks
  let walk (side : Nat) : List RegBlock := matchWalk (s.eng x) side ((s.hashes x st side blocks).zip toks)
  let mc := walk 0
  let md := if s.pool x 1 = 0 then [] else walk 1
  let m := if s.pool x 1 = 0 then mc.length else min mc.length md.length
  let s1 := (s.enterMatches x st 0 mc).enterMatches x st 1 md
  let s2 := (s1.dropBlocks x st 0 (idxs m mc.length)).dropBlocks x st 1 (idxs m md.length)
  let e := s2.eng x
  (s2.setEng x { e with regDone := mapSet 0 (mapSet 0 e.regDone (2 * st) m) (2 * st + 1) (if s.pool x 1 = 0 then 0 else m) }).setEnts x st
    [(Ent.COMMIT, 16 * m), (Ent.WRITTEN_C, 16 * m), (Ent.WRITTEN_D, 16 * m), (Ent.MATCHED, 16 * m)]

/-! ## Adapters (R350, R351) -/

def State.adapter (s : State) (x k : Nat) : Adapter := mapGet Adapter.empty (s.eng x).adapters k
/-- A record as the engine holds it, and as programs read it. -/
def State.setAdapter (s : State) (x k : Nat) (a : Adapter) : State :=
  let e := s.eng x
  let a' := if a.refs = 0 ∧ a.current = false then Adapter.empty else a
  (s.setEng x { e with adapters := mapSet Adapter.empty e.adapters k a' }).store (.tier1 x) (s.tf x Reg.ST_ADAPTER_BASE + 32 * k) 0
    (leBytes 8 (a'.version + (if a'.current then 2 ^ 16 else 0) + a'.refs * 2 ^ 32) ++ leBytes 8 a'.base ++ leBytes 8 a'.bytes ++ leBytes 8 0)
def State.currentAdapter (s : State) (x slot : Nat) : Option Nat := (upto 4).find? (fun i => (s.adapter x (4 * slot + i)).current)
def handleOf (slot version : Nat) : Nat := slot + 256 * version
/-- Pin the current version of a slot; the handle. -/
def State.pin (s : State) (x slot : Nat) : State × Nat :=
  match s.currentAdapter x slot with
  | some i => let a := s.adapter x (4 * slot + i)
              (s.setAdapter x (4 * slot + i) { a with refs := a.refs + 1 }, handleOf slot a.version)
  | none => (s, 0)
/-- A stream that ends gives its handle back. -/
def State.unpin (s : State) (x st : Nat) : State :=
  let h := s.ent x st Ent.ADAPTER
  if h = 0 then s
  else
    let slot := h % 256
    let s1 := match (upto 4).find? (fun i => decide ((s.adapter x (4 * slot + i)).version = h / 256)) with
      | some i => let a := s.adapter x (4 * slot + i)
                  s.setAdapter x (4 * slot + i) { a with refs := a.refs - 1 }
      | none => s
    s1.setEnt x st Ent.ADAPTER 0

/-! ## Grammars (R339 to R344) -/

structure GRange where
  lo : Nat
  hi : Nat
  next : Nat
structure GHead where
  states : Nat
  vocab : Nat
  start : Nat
  ranges : Nat
  stateOff : Nat
  rangeOff : Nat
def State.gHead (s : State) (x a : Nat) : GHead :=
  let w (o n : Nat) : Nat := s.natAt (.tier1 x) (a + o) n
  ⟨w 8 4, w 12 4, w 16 2, w 0x18 4, w 0x20 6, w 0x28 6⟩
def State.gRange (s : State) (x a : Nat) (h : GHead) (i : Nat) : GRange :=
  let w := s.natAt (.tier1 x) (a + h.rangeOff + 8 * i) 8
  ⟨bitsAt w 0 18, bitsAt w 18 18, bitsAt w 36 16⟩
/-- FIRST_RANGE and RANGE_COUNT of a state. -/
def State.gState (s : State) (x a : Nat) (h : GHead) (g : Nat) : Nat × Nat :=
  let w := s.natAt (.tier1 x) (a + h.stateOff + 8 * g) 8
  (bitsAt w 0 32, bitsAt w 32 24)
def rangesRise : List GRange → Bool
  | a :: b :: l => decide (a.hi < b.lo) && rangesRise (b :: l)
  | _ => true
/-- The conditions of R341 on a table of n bytes. -/
def State.grammarValid (s : State) (x a n : Nat) : Bool :=
  let h := s.gHead x a
  let w (o : Nat) : Nat := s.natAt (.tier1 x) (a + o) 8
  decide (64 ≤ n) && decide (a + n ≤ s.regionBytes x) && decide (w 0 = 0x5147524D + 2 ^ 32) &&
  decide (1 ≤ h.states) && decide (h.states ≤ 65536) && decide (1 ≤ h.vocab) && decide (h.vocab ≤ 262144) &&
  decide (w 0x10 < 2 ^ 16) && decide (h.start < h.states) && decide (1 ≤ h.ranges) && decide (h.ranges ≤ 16777216) &&
  decide (w 0x18 < 2 ^ 32) && decide (w 0x20 < 2 ^ 48) && decide (w 0x28 < 2 ^ 48) && decide (w 0x30 = 0) && decide (w 0x38 = 0) &&
  decide (h.stateOff % 8 = 0) && decide (h.rangeOff % 8 = 0) && decide (h.stateOff + 8 * h.states ≤ n) &&
  decide (h.rangeOff + 8 * h.ranges ≤ n) &&
  (upto h.ranges).all (fun i =>
    let r := s.gRange x a h i
    decide (r.lo ≤ r.hi) && decide (r.hi < h.vocab) && decide (r.next < h.states) && decide (s.natAt (.tier1 x) (a + h.rangeOff + 8 * i) 8 < 2 ^ 52)) &&
  (upto h.states).all (fun g =>
    let fc := s.gState x a h g
    decide (s.natAt (.tier1 x) (a + h.stateOff + 8 * g) 8 < 2 ^ 57) && decide (fc.1 + fc.2 ≤ h.ranges) &&
    rangesRise ((upto fc.2).map (fun i => s.gRange x a h (fc.1 + i))))
def State.grammarAt (s : State) (x h : Nat) : Nat × Nat := mapGet (0, 0) (s.eng x).grammars h
def State.grammarLoaded (s : State) (x h : Nat) : Bool := decide (s.grammarAt x h ≠ (0, 0))
def State.gRanges (s : State) (x a g : Nat) : List GRange :=
  let h := s.gHead x a
  let fc := s.gState x a h g
  (upto fc.2).map (fun i => s.gRange x a h (fc.1 + i))
/-- The state after a token, if it is allowed (R343). -/
def State.gNext (s : State) (x a g t : Nat) : Option Nat :=
  ((s.gRanges x a g).find? (fun r => decide (r.lo ≤ t) && decide (t ≤ r.hi))).map (fun r => r.next)
/-- Walk tokens from a state: the states reached, one after each allowed token, up to the first that is refused. -/
def State.gWalk (s : State) (x a g : Nat) : List Nat → List Nat
  | [] => []
  | t :: ts => match s.gNext x a g t with
    | some g1 => g1 :: s.gWalk x a g1 ts
    | none => []
def maskRowBytes (vocab : Nat) : Nat := ceilDiv vocab 4096 * 512
/-- The mask row of a state (R344). -/
def State.maskRow (s : State) (x a g : Nat) : List Byte :=
  let rs := s.gRanges x a g
  let bit (t : Nat) : Bool := rs.any (fun r => decide (r.lo ≤ t) && decide (t ≤ r.hi))
  (upto (maskRowBytes (s.gHead x a).vocab)).map (fun i =>
    BitVec.ofNat 8 ((upto 8).foldl (fun v j => if bit (8 * i + j) then v + 2 ^ j else v) 0))

/-! ## Refusals (R328) -/

/-- The bits of FLAGS, STREAM, COUNT, ARG1 and ARG2 that a command uses (Table 12-4). -/
def streamUsed (op : Nat) : Option (Nat × Nat × Nat × Nat × Nat) :=
  let all16 : Nat := 2 ^ 16 - 1
  let all32 : Nat := 2 ^ 32 - 1
  let all48 : Nat := 2 ^ 48 - 1
  let all62 : Nat := 2 ^ 62 - 1
  let all64 : Nat := 2 ^ 64 - 1
  match op with
  | 0x01 => some (0x3F, all16, all32, all62, all64)
  | 0x02 => some (1, all16, all32, 0, 0)
  | 0x03 => some (0, all16, all32, all48, all64)
  | 0x04 => some (0, all16, all32, all48, all48)
  | 0x05 => some (0, 0, all32, all64, all48)
  | 0x06 | 0x07 | 0x08 => some (0, all16, 0, 0, 0)
  | 0x09 => some (0, all16, 0, all32, 0)
  | 0x0A => some (0x3F, all16, 0, all62, all64)
  | 0x10 => some (0, 0, 0xFF, all48, all48)
  | 0x11 => some (0, 0, 0x3F, all48, all48)
  | 0x12 => some (0, 0, 0x3F, 0, 0)
  | _ => none
def streamReserved (op : Nat) (r : StreamRec) : Bool :=
  match streamUsed op with
  | none => true
  | some (f, st, c, a, b) =>
    let out (v m w : Nat) : Bool := decide (v &&& (2 ^ w - 1 - m) ≠ 0)
    out r.flags.toNat f 8 || out r.stream.toNat st 16 || out r.count.toNat c 32 || out r.arg1.toNat a 64 || out r.arg2.toNat b 64
/-- A list or output range leaves the region, or meets what the engine alone writes (0x530D). -/
def State.badRange (s : State) (x a n : Nat) : Bool :=
  decide (n ≠ 0) && (decide (s.regionBytes x < a + n) || meetsAny (a, n) (s.engineAreas x))
def badToken (l : List Nat) : Bool := l.any (fun t => decide (262144 ≤ t))

/-- What a command comes to: RESULT, RESULT_VALUE and the state; a copy that met Drone-origin data ends in no result. -/
structure StreamOut where
  code : Nat
  value : Nat
  st : State
  left : Bool := true

def refused (s : State) (code value : Nat) : StreamOut := ⟨code, value, s, true⟩
def State.openCount (s : State) (x n : Nat) : State := s.wr (Reg.streamTable x) Reg.ST_STREAMS_OPEN n
def State.opens (s : State) (x : Nat) : Nat := s.tf x Reg.ST_STREAMS_OPEN

/-! ## OPEN, RECEIVE, APPEND, COMMIT -/

def draftLen (r : StreamRec) : Nat := r.flags.toNat % 16
def useAdapter (r : StreamRec) : Bool := r.flags.getLsbD 4
def useGrammar (r : StreamRec) : Bool := r.flags.getLsbD 5
def argList (r : StreamRec) : Nat := bitsAt r.arg1.toNat 0 48
def argOut (r : StreamRec) : Nat := bitsAt r.arg2.toNat 0 48
def argSlot (r : StreamRec) : Nat := bitsAt r.arg1.toNat 48 8
def argGrammar (r : StreamRec) : Nat := bitsAt r.arg1.toNat 56 6
def loPart (w : Word) : Nat := bitsAt w.toNat 0 32
def hiPart (w : Word) : Nat := bitsAt w.toNat 32 32
/-- An entry that opens or waits to receive: every field anew, the adapter pinned. -/
def State.freshEntry (s : State) (x st state prompt : Nat) (r : StreamRec) : State :=
  let (s1, h) := if useAdapter r then s.pin x (argSlot r) else (s, 0)
  let s2 := s1.store (.tier1 x) (s1.entAt x st) 0 (List.replicate 128 0)
  let start := if useGrammar r then (s2.gHead x (s2.grammarAt x (argGrammar r)).1).start else 0
  let s3 := s2.setEnts x st
    [(Ent.STATE, state), (Ent.DRAFT_LEN, draftLen r), (Ent.GRAMMAR, if useGrammar r then argGrammar r else 0),
     (Ent.GRAMMAR_ON, if useGrammar r then 1 else 0), (Ent.ADAPTER, h), (Ent.PROMPT_TOKENS, prompt), (Ent.GSTATE, start),
     (Ent.POLICY_STEP, s.cf x Reg.CTX_STEP % 2 ^ 32), (Ent.TTFT_TARGET_US, loPart r.arg2), (Ent.TBT_TARGET_US, hiPart r.arg2)]
  let e := s3.eng x
  (s3.setEng x { e with
    opened := mapSet 0 e.opened st s.nowUs
    committed := mapSet 0 e.committed st s.nowUs
    regDone := mapSet 0 (mapSet 0 e.regDone (2 * st) 0) (2 * st + 1) 0 }).openCount x (s3.opens x + 1)
def State.openStream (s : State) (x : Nat) (r : StreamRec) : StreamOut :=
  let st := r.stream.toNat
  let n := r.count.toNat
  let max' := s.tf x Reg.ST_MAX_TOKENS
  let inRange := !s.badRange x (argList r) (4 * n)
  let toks := if inRange then s.listTokens x (argList r) n else []
  match firstCode
    [(decide (s.ent x st Ent.STATE ≠ 0), 0x5302),
     (decide (8 < draftLen r) || decide (n = 0) || decide (max' < n + 9), 0x5305),
     (useGrammar r && !s.grammarLoaded x (argGrammar r), 0x5307),
     (useAdapter r && (s.currentAdapter x (argSlot r)).isNone, 0x5308),
     (badToken toks, 0x530C), (!inRange, 0x530D)] with
  | some c => refused s c 0
  | none =>
    let s1 := (s.freshEntry x st 1 n r).putTokens x st 0 toks
    let s2 := ((s1.matchPrompt x st n).showHashes x st).showFreeBlocks x
    ⟨0, s2.ent x st Ent.COMMIT, s2, true⟩
def State.receiveStream (s : State) (x : Nat) (r : StreamRec) : StreamOut :=
  let st := r.stream.toNat
  match firstCode
    [(decide (s.ent x st Ent.STATE ≠ 0), 0x5302), (decide (8 < draftLen r), 0x5305),
     (useGrammar r && !s.grammarLoaded x (argGrammar r), 0x5307),
     (useAdapter r && (s.currentAdapter x (argSlot r)).isNone, 0x5308)] with
  | some c => refused s c 0
  | none => ⟨0, 0, s.freshEntry x st 4 0 r, true⟩
def State.live (s : State) (x st : Nat) : Bool := decide (s.ent x st Ent.STATE = 1) || decide (s.ent x st Ent.STATE = 2)
def State.appendStream (s : State) (x : Nat) (r : StreamRec) : StreamOut :=
  let st := r.stream.toNat
  let side := r.flags.toNat % 2
  let n := r.count.toNat
  let w := s.ent x st (Ent.written side)
  let commit := s.ent x st Ent.COMMIT
  let window := if s.ent x st Ent.STATE = 2 then 8 else 2048
  let new := idxs (ceilDiv w 16) (ceilDiv (w + n) 16)
  match firstCode
    [(!s.live x st, 0x5302), (decide (s.available x side < new.length), 0x5304),
     (decide (n = 0) || decide (2048 < n) || (decide (side = 1) && decide (s.pool x 1 = 0)) ||
       decide (s.tf x Reg.ST_MAX_TOKENS < w + n) || decide (commit + window < w + n), 0x5305)] with
  | some c => refused s c 0
  | none =>
    let s1 := (s.takeBlocks x st side new).setEnt x st (Ent.written side) (w + n)
    ⟨0, w + n, (s1.registerBlocks x st).showFreeBlocks x, true⟩
/-- The latency counters at a commit that adds c tokens (R346). -/
def State.latency (s : State) (x st c : Nat) (wasPast : Bool) : State :=
  let e := s.eng x
  let past := decide (s.ent x st Ent.PROMPT_TOKENS < s.ent x st Ent.COMMIT)
  let since (m : Map Nat) : Nat := s.nowUs - mapGet 0 m st
  let s1 := if c = 0 then s
    else if past && !wasPast then
      let d := since e.opened
      let t := s.ent x st Ent.TTFT_TARGET_US
      (s.setEnt x st Ent.TTFT_US d).setEnt x st Ent.TTFT_MISSED (if t ≠ 0 ∧ t < d then 1 else 0)
    else if wasPast then
      let d := since e.committed / c
      let t := s.ent x st Ent.TBT_TARGET_US
      s.setEnts x st [(Ent.TBT_LAST_US, d), (Ent.TBT_MAX_US, max d (s.ent x st Ent.TBT_MAX_US)),
        (Ent.TBT_MISSES, s.ent x st Ent.TBT_MISSES + (if t ≠ 0 ∧ t < d then 1 else 0))]
    else s
  if c = 0 then s1 else s1.setEng x { s1.eng x with committed := mapSet 0 (s1.eng x).committed st s.nowUs }
def State.commitStream (s : State) (x : Nat) (r : StreamRec) : StreamOut :=
  let st := r.stream.toNat
  let c := r.count.toNat
  let v := loPart r.arg2
  let old := s.ent x st Ent.COMMIT
  let prompt := s.ent x st Ent.PROMPT_TOKENS
  let decode := decide (s.ent x st Ent.STATE = 2)
  let fresh := old + c - max old prompt
  let inRange := !s.badRange x (argList r) (4 * fresh)
  let toks := if inRange then s.listTokens x (argList r) fresh else []
  let on := decide (s.ent x st Ent.GRAMMAR_ON = 1)
  let g := (s.grammarAt x (s.ent x st Ent.GRAMMAR)).1
  let walk := if on then s.gWalk x g (s.ent x st Ent.GSTATE) toks else []
  match firstCode
    [(!s.live x st, 0x5302),
     (decide (2049 < c) || decide (v < old) || decide (old + c < v) || (decode && decide (s.ent x st Ent.DRAFT_LEN + 1 < c)) ||
       (!decode && decide (prompt + 1 < old + c)) || decide (s.tf x Reg.ST_MAX_TOKENS < old + c), 0x5305),
     (on && decide (walk.length < toks.length), 0x5306), (badToken toks, 0x530C), (!inRange, 0x530D)] with
  | some code => refused s code (if code = 0x5306 then walk.length else 0)
  | none =>
    let s1 := s.putTokens x st (max old prompt) toks
    let s2 := s1.setEnts x st
      [(Ent.GSTATE, match walk.getLast? with | some q => q | none => s.ent x st Ent.GSTATE), (Ent.COMMIT, old + c),
       (Ent.GENERATED, old + c - prompt), (Ent.IN_STEP, 0), (Ent.STATE, if prompt < old + c then 2 else 1)]
    let s3 := ((s2.cutTo x st 0 v).cutTo x st 1 v).latency x st c decode
    let s4 := if decode ∧ 1 ≤ c then
        s3.setEnts x st [(Ent.DRAFTED, s3.ent x st Ent.DRAFTED + hiPart r.arg2), (Ent.ACCEPTED, s3.ent x st Ent.ACCEPTED + (c - 1))]
      else s3
    ⟨0, old + c, ((s4.showHashes x st).registerBlocks x st).showFreeBlocks x, true⟩

/-! ## MASK, NEXT -/

def State.maskStream (s : State) (x : Nat) (r : StreamRec) : StreamOut :=
  let st := r.stream.toNat
  let k := r.count.toNat
  let g := (s.grammarAt x (s.ent x st Ent.GRAMMAR)).1
  let row := maskRowBytes (s.gHead x g).vocab
  let inRange := !s.badRange x (argList r) (4 * k)
  let toks := if inRange then s.listTokens x (argList r) k else []
  match firstCode
    [(!s.live x st || decide (s.ent x st Ent.GRAMMAR_ON = 0), 0x5302), (decide (8 < k), 0x5305), (badToken toks, 0x530C),
     (!inRange || s.badRange x (argOut r) ((k + 1) * row), 0x530D)] with
  | some c => refused s c 0
  | none =>
    let g0 := s.ent x st Ent.GSTATE
    let walk := s.gWalk x g g0 toks
    let rows := (g0 :: walk).flatMap (s.maskRow x g)
    ⟨0, walk.length, s.store (.tier1 x) (argOut r) 0 (rows ++ List.replicate ((k - walk.length) * row) 0), true⟩
/-- A line of NEXT's list: the stream, whether a chunk, and its tokens. -/
structure NextItem where
  stream : Nat
  chunk : Bool
  tokens : Nat
/-- Token steps until the first that does not fit; what is left of the budget. -/
def tokenPass (s : State) (x budget : Nat) : List Nat → List NextItem
  | [] => []
  | st :: l =>
    let cost := s.ent x st Ent.DRAFT_LEN + 1
    if budget < cost then [] else ⟨st, false, cost⟩ :: tokenPass s x (budget - cost) l
def State.chunkLen (s : State) (x st : Nat) : Nat :=
  let c := s.ent x st Ent.COMMIT
  min (s.ent x st Ent.PROMPT_TOKENS) ((c / 2048 + 1) * 2048) - c
def chunkPass (s : State) (x left : Nat) : List Nat → List NextItem
  | [] => []
  | st :: l =>
    let cost := s.chunkLen x st
    if left < cost then chunkPass s x left l else ⟨st, true, cost⟩ :: chunkPass s x (left - cost) l
/-- The streams in a state without IN_STEP, in ascending deadline, ties to the lower index. -/
def State.byDeadline (s : State) (x state : Nat) (times : Map Nat) (target : Field) : List Nat :=
  let l := (upto (s.tf x Reg.ST_STREAMS)).filter (fun st => decide (s.ent x st Ent.STATE = state) && decide (s.ent x st Ent.IN_STEP = 0))
  sortBy (fun a b => decide (mapGet 0 times a + s.ent x a target < mapGet 0 times b + s.ent x b target)) l
def State.nextList (s : State) (x budget reserve count : Nat) : List NextItem :=
  let e := s.eng x
  let steps := (tokenPass s x (budget - reserve) (s.byDeadline x 2 e.committed Ent.TBT_TARGET_US)).take count
  let left := budget - sumOf (steps.map (fun i => i.tokens))
  (steps ++ chunkPass s x left (s.byDeadline x 1 e.opened Ent.TTFT_TARGET_US)).take count
def State.nextLine (s : State) (x : Nat) (i : NextItem) : List Byte :=
  leBytes 8 (i.stream + (if i.chunk then 2 ^ 16 else 0) + s.ent x i.stream Ent.COMMIT * 2 ^ 32) ++
  leBytes 8 (i.tokens + s.ent x i.stream Ent.ADAPTER * 2 ^ 32)
def State.nextStream (s : State) (x : Nat) (r : StreamRec) : StreamOut :=
  let n := r.count.toNat
  let b := loPart r.arg1
  let res := hiPart r.arg1
  match firstCode
    [(decide (n = 0) || decide (4096 < n) || decide (b = 0) || decide (16384 < b) || decide (b < res), 0x5305),
     (s.badRange x (argOut r) (16 * n), 0x530D)] with
  | some c => refused s c 0
  | none =>
    let l := s.nextList x b res n
    let s1 := s.store (.tier1 x) (argOut r) 0 (l.flatMap (s.nextLine x))
    ⟨0, l.length, l.foldl (fun a i => a.setEnt x i.stream Ent.IN_STEP 1) s1, true⟩

/-! ## PAUSE, RESUME, CLOSE (R347, R348; 15 R424, R425) -/

/-- A sealed unit is 4,096 bytes with its nonce and tag. -/
def unitPayload : Nat := 4068
def sealedBytes (draw n : Nat) : List Byte := (upto n).map (Config.sealedByte draw)
/-- The places in the pause area where n bytes fit: its start, and behind each copy. -/
def State.gaps (s : State) (x n : Nat) : List Nat :=
  let ps := (s.eng x).pauses
  (0 :: ps.map (fun p => p.off + p.len)).filter (fun o =>
    decide (o + n ≤ s.tf x Reg.ST_PAUSE_BYTES) && !ps.any (fun p => overlap o n p.off p.len))
def State.pauseAddr (s : State) (x off : Nat) : Loc × Nat := (.host (s.windowBase x), s.tf x Reg.ST_PAUSE_BASE + off)
def State.chanterRanges (s : State) (x st : Nat) : List (Nat × Nat) :=
  (upto (ceilDiv (s.ent x st Ent.WRITTEN_C) 16)).map (fun i => s.blockRange x 0 (s.blockOf x st i 0))
def State.pauseStream (s : State) (x : Nat) (r : StreamRec) : StreamOut :=
  let st := r.stream.toNat
  let commit := s.ent x st Ent.COMMIT
  let s1 := (s.cutTo x st 0 commit).cutTo x st 1 commit
  let rs := s1.chanterRanges x st
  let len := ceilDiv (sumOf (rs.map (fun q => q.2))) unitPayload * 4096
  match firstCode
    [(!s.live x st, 0x5302), (decide (s.ent x st Ent.IN_STEP = 1), 0x5303), (decide (s.gaps x len = []), 0x5309)] with
  | some c => refused s c 0
  | none =>
    if rs.any (fun q => s1.droneInRange x q.1 q.2) then ⟨0x4202, 0, s.haltCtx x 0x4202, false⟩
    else match s.poisonMet x rs [] with
    | some (c, g) => ⟨c, 0, s.poisonFault x c g, false⟩
    | none =>
      let gs := s1.gaps x len
      let off := gs.getD (Config.blockChoice s1.free % gs.length) 0
      let e := s1.eng x
      let s2 : State := { s1 with free := s1.free + 1 }
      let s3 := s2.setEng x { e with
        pauses := e.pauses ++ [⟨st, off, len, rs.map (fun q => s1.bytesAt (.tier1 x) q.1 q.2), s2.free⟩]
        pausedAt := mapSet 0 e.pausedAt st (s.nowUs + 1)
        regDone := mapSet 0 e.regDone (2 * st) 0 }
      let (l, a) := s3.pauseAddr x off
      let s4 := ({ s3 with free := s3.free + 1 } : State).store l a 0 (sealedBytes s2.free len)
      let s5 := (s4.dropSide x st 0).setEnts x st
        [(Ent.STATE, 3), (Ent.TTL_LEFT_S, s.tf x Reg.ST_TTL_S), (Ent.PAUSE_OFFSET, off)]
      ⟨0, 0, s5.showFreeBlocks x, true⟩
def State.pauseOf (s : State) (x st : Nat) : Option PauseCopy := (s.eng x).pauses.find? (fun p => decide (p.stream = st))
def State.dropPause (s : State) (x st : Nat) : State :=
  let e := s.eng x
  (s.setEng x { e with pauses := e.pauses.filter (fun p => decide (p.stream ≠ st)) }).setEnts x st
    [(Ent.TTL_LEFT_S, 0), (Ent.PAUSE_OFFSET, 0)]
def State.fillBlocks (s : State) (x st side : Nat) (blocks : List (List Byte)) : List Nat → State
  | [] => s
  | i :: is =>
    ((s.store (.tier1 x) (s.blockRange x side (s.blockOf x st i side)).1 0 (blocks.getD i []))).fillBlocks x st side blocks is
def State.resumeStream (s : State) (x : Nat) (r : StreamRec) : StreamOut :=
  let st := r.stream.toNat
  let need := ceilDiv (s.ent x st Ent.WRITTEN_C) 16
  match firstCode
    [(decide (s.ent x st Ent.STATE ≠ 3), 0x5302), (decide (s.available x 0 < need), 0x5304), (decide (s.ent x st Ent.TTL_LEFT_S = 0), 0x530A)] with
  | some c => refused s c 0
  | none => match s.pauseOf x st with
    | none => refused s 0x5302 0
    | some p =>
      let (l, a) := s.pauseAddr x p.off
      if s.bytesAt l a p.len ≠ sealedBytes p.draw p.len then
        ⟨0x3007, 0, (s.bump Reg.safSafety Reg.SAF_DATA_PATH_FAULTS 1).logFault { detect := 0x3007, ctx := some x } |>.haltCtx x 0x3007, false⟩
      else
        let s1 := (s.takeBlocks x st 0 (idxs 0 need)).fillBlocks x st 0 p.blocks (idxs 0 need)
        let s2 := (s1.dropPause x st).setEnt x st Ent.STATE (if s.ent x st Ent.PROMPT_TOKENS < s.ent x st Ent.COMMIT then 2 else 1)
        ⟨0, 0, (s2.registerBlocks x st).showFreeBlocks x, true⟩
/-! ## Exports as they come in (R349) -/

/-- Table 10-6 gives a cache block packet no fields of its own. DESIGN CHOICE (log entry 108): an export's first packets, its heads,
hold the pointers and the token log, each naming the receiving and the sending stream, its own number, how many heads there
are, its bytes and how many granules follow; each further packet is a granule (R285). All have consecutive PKT_SEQs. -/
def StreamPiece.isHead (p : StreamPiece) : Bool := !isGranuleBody p.body
def StreamPiece.stream (p : StreamPiece) : Nat := leNat (p.body.take 2)
def StreamPiece.field (p : StreamPiece) (i : Nat) : Nat := leNat ((p.body.drop (4 * i)).take 4)
def StreamPiece.first (p : StreamPiece) : BitVec 32 := p.seq - BitVec.ofNat 32 (p.field 1)
def StreamPiece.total (p : StreamPiece) : Nat := p.field 2 + p.field 4
/-- The packet belongs to the export that head h names. -/
def StreamPiece.of (h p : StreamPiece) : Bool := decide (p.src = h.src) && decide ((p.seq - h.first).toNat < h.total)
def StreamPiece.data (p : StreamPiece) : List Byte := if p.isHead then (p.body.drop 20).take (p.field 3) else p.body.take 512
/-- The bytes of the export that head h names, once all its packets are here. -/
def wholeExport (ps : List StreamPiece) (h : StreamPiece) : Option (List Byte) :=
  let mine := ps.filter h.of
  if mine.length < h.total then none
  else some ((sortBy (fun a b => decide ((a.seq - h.first).toNat < (b.seq - h.first).toNat)) mine).flatMap StreamPiece.data)
def Streams.dropExports (e : Streams) (p : StreamPiece → Bool) : Streams :=
  let gone := e.pieces.filter (fun h => h.isHead && p h)
  { e with pieces := e.pieces.filter (fun q => !gone.any (fun h => h.of q)) }
/-- The export that a packet completes: the head and the bytes. -/
def Streams.completes (e : Streams) (p : StreamPiece) : Option (StreamPiece × List Byte) :=
  let ps := e.pieces ++ [p]
  ps.findSome? (fun h => if h.isHead && h.of p then (wholeExport ps h).map (fun bs => (h, bs)) else none)

/-! ## The end of a stream -/

/-- A stream ends: its blocks, adapter and pause space are released. -/
def State.endStream (s : State) (x st state : Nat) : State :=
  let s1 := if s.ent x st Ent.STATE = 3 ∨ s.ent x st Ent.STATE = 6 then s else s.dropSide x st 0
  let s1' := s1.setEng x ((s1.eng x).dropExports (fun h => decide (h.stream = st)))
  let s2 := ((s1'.dropSide x st 1).unpin x st).dropPause x st
  (s2.setEnts x st [(Ent.STATE, state), (Ent.IN_STEP, 0), (Ent.WRITTEN_C, 0), (Ent.WRITTEN_D, 0)]).showFreeBlocks x
def State.closeStream (s : State) (x : Nat) (r : StreamRec) : StreamOut :=
  let st := r.stream.toNat
  match firstCode [(decide (s.ent x st Ent.STATE = 0) || decide (s.ent x st Ent.STATE = 5), 0x5302)] with
  | some c => refused s c 0
  | none =>
    let s1 := s.endStream x st 0
    ⟨0, 0, s1.openCount x (s1.opens x - 1), true⟩
/-- STREAM_EXPIRE (R347): the time to live of a paused stream has reached 0. -/
def State.expireStream (s : State) (x st : Nat) : State :=
  if s.tableOn x && decide (st < s.tf x Reg.ST_STREAMS) && decide (s.ent x st Ent.STATE = 3) && decide (s.ent x st Ent.TTL_LEFT_S = 0) then
    (s.endStream x st 6).inc (Reg.streamTable x) Reg.ST_EXPIRED
  else s

/-! ## EXPORT and its arrival (R349; 10 R295) -/

/-- What a stream carries to its receiver: the pointers and the token log, then the granules of each side's blocks. -/
def State.exportHead (s : State) (x st : Nat) : List Byte :=
  [Ent.PROMPT_TOKENS, Ent.COMMIT, Ent.WRITTEN_C, Ent.WRITTEN_D, Ent.GSTATE, Ent.TTFT_US].flatMap (fun f => leBytes 4 (s.ent x st f)) ++
  (s.tokens x st 0 (max (s.ent x st Ent.PROMPT_TOKENS) (s.ent x st Ent.COMMIT))).flatMap (leBytes 4)
def State.exportRanges (s : State) (x st : Nat) : List (Nat × Nat) :=
  [0, 1].flatMap (fun side => (upto (ceilDiv (s.ent x st (Ent.written side)) 16)).map (fun i => s.blockRange x side (s.blockOf x st i side)))
/-- The bodies of an export's packets. -/
def headBytes : Nat := 16360
def exportBodies (remote mine : Nat) (head grans : List Byte) : List (List Byte) :=
  let n := max 1 (ceilDiv head.length headBytes)
  let gs := granuleBodies grans
  (upto n).map (fun i =>
    let d := (head.drop (headBytes * i)).take headBytes
    let bs := leBytes 2 remote ++ leBytes 2 mine ++ leBytes 4 i ++ leBytes 4 n ++ leBytes 4 d.length ++ leBytes 4 gs.length ++ d
    if isGranuleBody bs then bs ++ zeros 4 else bs) ++ gs
def State.exportStream (s : State) (x : Nat) (r : StreamRec) (ready : Bool) : StreamOut :=
  let st := r.stream.toNat
  let dev := bitsAt r.arg1.toNat 0 16
  let near := s.spanReach dev
  match firstCode
    [(!s.live x st, 0x5302), (decide (s.ent x st Ent.IN_STEP = 1), 0x5303),
     (!s.routeValid dev || !ready || (decide (s.ent x st Ent.WRITTEN_D ≠ 0) && !near), 0x530B)] with
  | some c => refused s c 0
  | none =>
    if !near && (s.chanterRanges x st).any (fun q => s.droneInRange x q.1 q.2) then ⟨0x4202, 0, s.haltCtx x 0x4202, false⟩
    else match s.poisonMet x (s.exportRanges x st) [] with
    | some (c, g) => ⟨c, 0, s.poisonFault x c g, false⟩
    | none =>
      let grans := (s.exportRanges x st).flatMap (fun q => s.bytesAt (.tier1 x) q.1 q.2)
      let s1 := s.queueBodies (s.sideKey x dev x) false 5 (exportBodies (bitsAt r.arg1.toNat 16 16) st (s.exportHead x st) grans)
      ⟨0, 0, s1.setEnt x st Ent.STATE 5, true⟩
/-- EXPORT_ACK. -/
def State.exportAcked (s : State) (x st : Nat) : State :=
  if s.tableOn x && decide (st < s.tf x Reg.ST_STREAMS) && decide (s.ent x st Ent.STATE = 5) then
    let s1 := s.endStream x st 0
    s1.openCount x (s1.opens x - 1)
  else s

/-- A whole export goes into the waiting stream. -/
def State.importStream (s : State) (x st : Nat) (bs : List Byte) : State :=
  let w (i : Nat) : Nat := leNat ((bs.drop (4 * i)).take 4)
  let prompt := w 0
  let commit := w 1
  let n := max prompt commit
  let toks := (upto n).map (fun i => leNat ((bs.drop (24 + 4 * i)).take 4))
  let grans (side : Nat) : Nat := s.tf x (if side = 0 then Reg.ST_C_BLOCK_UNITS else Reg.ST_D_BLOCK_UNITS)
  let count (side : Nat) : Nat := ceilDiv (w (2 + side)) 16
  let from' (side : Nat) : Nat := 24 + 4 * n + (if side = 0 then 0 else count 0 * 512 * grans 0)
  let blocks (side : Nat) : List (List Byte) :=
    (upto (count side)).map (fun i => (bs.drop (from' side + i * 512 * grans side)).take (512 * grans side))
  let s1 := (s.takeBlocks x st 0 (idxs 0 (count 0))).takeBlocks x st 1 (idxs 0 (count 1))
  let s2 := (s1.fillBlocks x st 0 (blocks 0) (idxs 0 (count 0))).fillBlocks x st 1 (blocks 1) (idxs 0 (count 1))
  let s3 := (s2.putTokens x st 0 toks).setEnts x st
    [(Ent.STATE, if prompt < commit then 2 else 1), (Ent.PROMPT_TOKENS, prompt), (Ent.COMMIT, commit), (Ent.WRITTEN_C, w 2),
     (Ent.WRITTEN_D, w 3), (Ent.GSTATE, w 4), (Ent.TTFT_US, w 5), (Ent.GENERATED, commit - prompt)]
  let e := s3.eng x
  let s4 := s3.setEng x { e with opened := mapSet 0 e.opened st s.nowUs, committed := mapSet 0 e.committed st s.nowUs }
  ((s4.showHashes x st).registerBlocks x st).showFreeBlocks x
def pieceOf (pk : Packet) : StreamPiece := ⟨pk.key.src, pk.seq, pk.body⟩
/-- A cache block packet can be taken: but for the last of an export, for which blocks must be had. -/
def State.pieceFits (s : State) (x : Nat) (pk : Packet) : Bool :=
  match (s.eng x).completes (pieceOf pk) with
  | none => true
  | some (_, bs) =>
    let need (i : Nat) : Nat := ceilDiv (leNat ((bs.drop (4 * i)).take 4)) 16
    decide (need 2 ≤ s.available x 0) && decide (need 3 ≤ s.available x 1)
/-- A cache block packet: once every packet of an export has come, the stream that waits for it is here. -/
def State.pieceIn (s : State) (x : Nat) (pk : Packet) : State :=
  let p := pieceOf pk
  let e := s.eng x
  if !s.tableOn x then s
  else match e.completes p with
    | none => s.setEng x { e with pieces := e.pieces ++ [p] }
    | some (h, bs) =>
      let s1 := s.setEng x ({ e with pieces := e.pieces ++ [p] }.dropExports (fun q => decide (q = h)))
      if h.stream < s.tf x Reg.ST_STREAMS ∧ s.ent x h.stream Ent.STATE = 4 then s1.importStream x h.stream bs else s1

/-! ## Adapters and grammars -/

def State.adapterLoad (s : State) (x : Nat) (r : StreamRec) : StreamOut :=
  let slot := r.count.toNat % 256
  let base := argList r
  let bytes := argOut r
  let recs := (upto 4).map (fun i => s.adapter x (4 * slot + i))
  let cur := s.currentAdapter x slot
  let clear (t : State) : State := match cur with
    | some i => t.setAdapter x (4 * slot + i) { t.adapter x (4 * slot + i) with current := false }
    | none => t
  if bytes = 0 then ⟨0, 0, clear s, true⟩
  else
    let last := mapGet 0 (s.eng x).lastVersion slot
    let v := if last = 65535 then 1 else last + 1
    match firstIdx (fun a : Adapter => decide (a.version = 0)) recs 0 with
    | none => refused s 0x5308 0
    | some i =>
      if bytes % 512 ≠ 0 ∨ s.regionBytes x < base + bytes ∨ recs.any (fun a => decide (a.version = v)) then refused s 0x5308 0
      else
        let s1 := (clear s).setAdapter x (4 * slot + i) ⟨v, true, 0, base, bytes⟩
        ⟨0, handleOf slot v, s1.setEng x { s1.eng x with lastVersion := mapSet 0 (s1.eng x).lastVersion slot v }, true⟩
def State.grammarLoad (s : State) (x : Nat) (r : StreamRec) : StreamOut :=
  let h := r.count.toNat % 64
  if s.grammarLoaded x h || !s.grammarValid x (argList r) (argOut r) then refused s 0x5307 0
  else ⟨0, 0, s.setEng x { s.eng x with grammars := mapSet (0, 0) (s.eng x).grammars h (argList r, argOut r) }, true⟩
def State.grammarDrop (s : State) (x : Nat) (r : StreamRec) : StreamOut :=
  let h := r.count.toNat % 64
  let inUse := (upto (s.tf x Reg.ST_STREAMS)).any (fun st =>
    decide (s.ent x st Ent.STATE ≠ 0) && decide (s.ent x st Ent.GRAMMAR_ON = 1) && decide (s.ent x st Ent.GRAMMAR = h))
  if !s.grammarLoaded x h || inUse then refused s 0x5307 0
  else ⟨0, 0, s.setEng x { s.eng x with grammars := mapSet (0, 0) (s.eng x).grammars h (0, 0) }, true⟩

/-! ## The engine (R327, R328) -/

/-- One command executes: 0x5301 first, then its own refusals and its effect. -/
def State.streamExec (s : State) (x op : Nat) (r : StreamRec) (ready : Bool) : StreamOut :=
  if !s.tableOn x || streamReserved op r || decide (s.tf x Reg.ST_STREAMS ≤ r.stream.toNat) then refused s 0x5301 0
  else match op with
    | 0x01 => s.openStream x r
    | 0x02 => s.appendStream x r
    | 0x03 => s.commitStream x r
    | 0x04 => s.maskStream x r
    | 0x05 => s.nextStream x r
    | 0x06 => s.pauseStream x r
    | 0x07 => s.resumeStream x r
    | 0x08 => s.closeStream x r
    | 0x09 => s.exportStream x r ready
    | 0x0A => s.receiveStream x r
    | 0x10 => s.adapterLoad x r
    | 0x11 => s.grammarLoad x r
    | 0x12 => s.grammarDrop x r
    | _ => refused s 0x5301 0
/-- A record's words as a host command carries them. -/
def streamWord (op : Nat) (r : StreamRec) : Word :=
  BitVec.ofNat 64 (op + r.flags.toNat * 2 ^ 8 + r.stream.toNat * 2 ^ 16 + r.count.toNat * 2 ^ 32)
def recOf (w a b : Nat) : StreamRec :=
  ⟨BitVec.ofNat 8 (bitsAt w 8 8), BitVec.ofNat 16 (bitsAt w 16 16), BitVec.ofNat 32 (bitsAt w 32 32), BitVec.ofNat 64 a, BitVec.ofNat 64 b⟩
/-- The ring's entry of a host command: the one it has fetched, or one it takes now. -/
def State.streamEntry (s : State) (x : CtxId) (op : Nat) (r : StreamRec) (h : HostRef) : Entry :=
  let words : List Word := [streamWord op r, r.arg1, r.arg2]
  match (s.ring h.ring.val).fetched.find? (fun f => decide (f.op = 0x0A) && decide (f.entry.cmdId = h.cmdId) &&
      decide (f.entry.ctx = x) && decide (f.entry.args.take 3 = words)) with
  | some f => f.entry
  | none => ⟨h.ring, h.cmdId, false, false, h.noSignal, 0, x, 0, words ++ List.replicate 4 0⟩
/-- A command of Table 12-4: the engine executes it, and a host command is completed with RESULT and RESULT_VALUE. -/
def State.streamCommand (s : State) (x : CtxId) (op : Nat) (r : StreamRec) (ready : Bool) (h : Option HostRef) : State :=
  match h with
  | none => (s.streamExec x.val op r ready).st
  | some h =>
    let e := s.streamEntry x op r h
    s.command 0x0A e (fun t =>
      let o := t.streamExec x.val op r ready
      o.st.post (entryTicket e 0x0A) true o.code o.value 0)
/-- STREAM_COMMAND_SUBMIT: the next command of CMD_PEG executes, its results are written and DONE_PEG is signalled. Whether a
partner stream is ready for an EXPORT is the partner's to say. -/
def State.streamSubmit (s : State) (x : Nat) : State :=
  let k := s.ctx x
  if s.tableOn x && decide (k.cmdNext < k.cmdCount) then
    let a := s.tf x Reg.ST_CMD_BASE + 32 * (k.cmdNext % s.tf x Reg.ST_CMD_SLOTS)
    let w (i : Nat) : Nat := s.natAt (.tier1 x) (a + 8 * i) 8
    let op := w 0 % 256
    let s0 : State := if op = 9 then { s with free := s.free + 1 } else s
    let o := s0.streamExec x op (recOf (w 0) (w 1) (w 2)) (Config.partnerAgrees s.free)
    let s1 := o.st.setCtx x { o.st.ctx x with cmdNext := k.cmdNext + 1, cmdDone := (o.st.ctx x).cmdDone + (if o.left then 1 else 0) }
    if o.left then
      (s1.store (.tier1 x) (a + 0x18) 0 (leBytes 8 (o.code + (o.value % 2 ^ 48) * 2 ^ 16))).signal x (s.tf x Reg.ST_DONE_PEG) 1 none
    else s1
  else s
/-- The table's check has passed: every stream is in state 0, every block is free, and the engine starts at index 0. -/
def State.startTable (s : State) (x : Nat) : State :=
  let n := s.tf x Reg.ST_STREAMS
  let zero (t : State) (r : Nat × Nat) : State := t.zeroRegion x r.1 r.2
  let count := (mapGet 0 s.pegs (s.pegOf x (s.tf x Reg.ST_CMD_PEG))).toNat
  let s1 := s.setCtx x { s.ctx x with streams := Streams.start, cmdCount := count, cmdNext := 0, cmdDone := 0 }
  let s2 := (zero (zero s1 (s.tf x Reg.ST_ENTRY_BASE, 128 * n)) (s.tf x Reg.ST_ADAPTER_BASE, 32768)).store (.tier1 x)
    (s.tf x Reg.ST_BTABLE_BASE) 0 (List.replicate (s.tf x Reg.ST_MAX_TOKENS / 16 * 8 * n) 0xFF)
  ((s2.openCount x 0).wr (Reg.streamTable x) Reg.ST_EXPIRED 0).showFreeBlocks x
end Sys2Proof.Machine
end

