-- ==== Sys2Proof/Machine/Windway.lean ====
section
/-! DEFINITION. Windway queues at work: enabling and clearing, taking credits and records, delivery, and the two ends of a
remote pair (08 R219 to R233). -/
namespace Sys2Proof.Machine

/-! ## ENABLE (R219, R220) -/

/-- A queue starts: its sequence numbers and its ring are zero; a remote one opens its channel (10 R295), and the fused
identities of both ends are exchanged (10 R284). -/
def State.startQueue (s : State) (x q : Nat) : State :=
  let b := Reg.wwy x q
  let k := s.queue x q
  let s1 := s.setQueue x q { Queue.start with clearing := k.clearing, putCycles := k.putCycles, getCycles := k.getCycles, spanPair := s.spanPairAt x q }
  let s2 := (s1.wr b Reg.WWY_PUT_SEQ 0).wr b Reg.WWY_GET_SEQ 0
  if s.isSender x q || s.isReceiver x q then
    let s3 := (s2.openChannel (s2.queueKey x q) true).openChannel (reverseKey (s2.queueKey x q)) true
    ({ s3 with free := s.free + 1 } : State).queuePacket (s.sideKey x (s.wq x q Reg.WWY_REMOTE_DEVICE) x) false 6 (identityBody 2)
  else s2

/-! ## The two orders (R228) -/

/-- The instruction a queue's order names. -/
def State.refInst (s : State) (r : WRef) : Option InFlight := (s.core r.core.val).flight.find? (fun i => decide (i.id = r.id))
/-- An instruction in flight has taken its credits or records: it is no longer withdrawn by a drain. -/
def State.markTaken (s : State) (r : WRef) : State :=
  let c := r.core.val
  s.setCore c { s.core c with flight := (s.core c).flight.map (fun i => if i.id = r.id then { i with taken := true } else i) }
/-- A remote WWPUT whose row failed its check keeps it, counted from 1, until it completes. -/
def State.setFailing (s : State) (r : WRef) (row : Nat) : State :=
  let c := r.core.val
  s.setCore c { s.core c with flight := (s.core c).flight.map (fun i => if i.id = r.id then { i with cursor := row } else i) }
/-- The context and logical core of a WWPUT or WWGET, where the step it belongs to is recorded (09 R268). -/
def State.recorder (s : State) (r : WRef) : Option (Nat × LogicalId) :=
  match s.place r.core.val with
  | some (x, k) => if s.tracing x then some (x, Fin.ofNat 256 k) else none
  | none => none
def State.importWw (s : State) (r : WRef) (i : InFlight) (n : Nat) (bs : List Byte) : State :=
  match s.recorder r with
  | some (x, k) => s.importBytes x (some k) i.seq i.slot (BitVec.ofNat 64 n) bs
  | none => s
/-- Its SQ register receives the number of its first record (06 R195). -/
def seqEffect (i : InFlight) (n : Nat) : Effect := { s := [(fld i.word 26 6, BitVec.ofNat 64 n)] }
def State.giveSeq (s : State) (r : WRef) (i : InFlight) (n : Nat) : State :=
  (s.complete r.core i (seqEffect i n)).importWw r i n []
/-- Row r of a WWPUT or WWGET in the own scratchpad. -/
def View.wwRow (v : View) (r : Nat) : Loc × Nat := v.rowAt v.wwDesc r
/-- All that a WWPUT or WWGET has written once it ends, in records of n bytes. -/
def View.wwWritten (v : View) (n : Nat) : Effect :=
  { seqEffect v.i 0 with mem := if v.op = 0x28 then
      (upto v.wwDesc.rows).map (fun r => let la := v.wwRow r; { loc := la.1, addr := la.2, bytes := zeros n }) else [] }

/-- The records of a WWPUT as they are placed under their numbers, and the first row that fails its check. -/
def State.putRows (s : State) (x q seq size : Nat) (v : View) : List Nat → List (List Byte) × Option Nat
  | [] => ([], none)
  | r :: rs =>
    match s.placeRecord x q (seq + r) (v.bytes (v.wwRow r).1 (v.wwRow r).2 size) with
    | none => ([], some r)
    | some bs => let (l, e) := s.putRows x q seq size v rs
                 (bs :: l, e)
/-- A record joins a queue: in the ring while fewer than DEPTH lie there, else in the spill area, where it meets the poison of
a granule it covers in part (R229; 13 R358). -/
def State.enqueue (s : State) (x q seq : Nat) (bs : List Byte) : State :=
  let k := s.queue x q
  if s.flag (Reg.wwy x q) Reg.WWY_SPILL && decide (s.wq x q Reg.WWY_DEPTH ≤ k.inRing) then
    let i := k.spillPlace
    let a := s.spillAt x q i
    s.afterPoison x [] [(a, bs.length)] ((s.setQueue x q { k with recs := k.recs ++ [⟨seq, [], some i⟩] }).store (.tier1 x) a 0 bs)
  else s.setQueue x q { k with recs := k.recs ++ [⟨seq, bs, none⟩] }
def State.enqueueAll (s : State) (x q seq : Nat) : List (List Byte) → State
  | [] => s
  | b :: bs => (s.enqueue x q seq b).enqueueAll x q (seq + 1) bs
/-- The largest body of a packet: 4,095 words of 4 bytes (10 Table 10-6). -/
def maxBody : Nat := 16380
/-- A record as the bodies of its packets. -/
def recordBodies : Nat → List Byte → List (List Byte)
  | 0, _ => []
  | n + 1, bs => if bs.length ≤ maxBody then [bs] else bs.take maxBody :: recordBodies n (bs.drop maxBody)
def bodiesOf (bs : List Byte) : List (List Byte) := recordBodies (bs.length + 1) bs
/-- A WWPUT is done: it leaves its queue's order and its unit; a record that failed traps its core with the row in
DETAIL, after completion and deferred (R225). -/
def State.putDone (s : State) (x q : Nat) (r : WRef) (i : InFlight) (bad : Option Nat) : State :=
  let k := s.queue x q
  let s1 := ((s.setQueue x q { k with puts := k.puts.filter (fun p => decide (p ≠ r)) }).dropFlight r.core.val r.id).traceEffect
    r.core i ((viewOf s r.core.val i).wwWritten 0)
  match bad with
  | none => s1
  | some row => s1.deferTrap r.core.val i { code := 0x2104, detail := row, row := row } true

/-- The head WWPUT takes n credits and numbers once n are free, and places its records (Table 08-5, R225). -/
def State.putTake (s : State) (x q : Nat) : State :=
  match (s.queue x q).puts with
  | [] => s
  | r :: _ =>
    match s.refInst r with
    | none => s
    | some i =>
      let v := viewOf s r.core.val i
      let n := v.wwDesc.rows
      if i.taken || decide (s.freeCredits x q < n) then s
      else
        let b := Reg.wwy x q
        let seq := s.rd b Reg.WWY_PUT_SEQ
        let (recs, bad) := s.putRows x q seq (s.recordSize x q) v (upto n)
        let placed := recs.length
        let k := s.queue x q
        let s1 := (s.setQueue x q { k with outstanding := k.outstanding + placed }).wr b Reg.WWY_PUT_SEQ (seq + placed)
        let s2 := (s1.markTaken r).giveSeq r i seq
        if s.isSender x q then
          let s3 := recs.foldl (fun a bs => a.queueBodies (a.queueKey x q) true 1 (bodiesOf bs)) s2
          if placed = 0 then s3.putDone x q r i bad
          else match bad with
            | none => s3
            | some row => s3.setFailing r (row + 1)
        else (s2.enqueueAll x q seq recs).putDone x q r i bad

/-- The head WWGET takes n placed records (Table 08-5). -/
def State.getTake (s : State) (x q : Nat) : State :=
  let k := s.queue x q
  match k.gets with
  | [] => s
  | r :: rest =>
    match s.refInst r with
    | none => s
    | some i =>
      let n := (viewOf s r.core.val i).wwDesc.rows
      if k.recs.length < n then s
      else
        let b := Reg.wwy x q
        let seq := s.rd b Reg.WWY_GET_SEQ
        let taken := (upto n).filterMap (fun j => (k.recs[j]?).map (fun w => (⟨r, j, w⟩ : WDelivery)))
        let s1 := (s.setQueue x q { k with recs := k.recs.drop n, gets := rest, delivering := k.delivering ++ taken }).wr
          b Reg.WWY_GET_SEQ (seq + n)
        (s1.markTaken r).giveSeq r i seq

/-- A record's bytes, and the range of the region it is read from where it has spilled. -/
def State.recordBytes (s : State) (x q : Nat) (w : WRecord) : List Byte :=
  match w.spill with
  | none => w.bytes
  | some i => s.bytesAt (.tier1 x) (s.spillAt x q i) (s.recordSize x q)
def State.recordReads (s : State) (x q : Nat) (w : WRecord) : List (Nat × Nat) :=
  match w.spill with
  | none => []
  | some i => [(s.spillAt x q i, s.recordSize x q)]
/-- The next record is written into the getter's scratchpad; its credit is free, and returns to a remote putter; after
its last record the WWGET completes (Table 08-5, R233). -/
def State.deliverGood (s : State) (x q : Nat) : State :=
  let k := s.queue x q
  match k.delivering with
  | [] => s
  | d :: rest =>
    let bs := s.recordBytes x q d.rcd
    let s1 := s.setQueue x q { k with delivering := rest, outstanding := k.outstanding - 1 }
    let s2 := match s.refInst d.ref with
      | none => s1
      | some i =>
        let v := viewOf s d.ref.core.val i
        let (l, a) := v.wwRow d.row
        let s3 := (s1.store l a 0 bs).importWw d.ref i 0 bs
        if rest.any (fun e => decide (e.ref = d.ref)) then s3
        else (s3.dropFlight d.ref.core.val d.ref.id).traceEffect d.ref.core i (v.wwWritten (s.recordSize x q))
    if s.isReceiver x q then s2.queuePacket (reverseKey (s2.queueKey x q)) true 2 (leBytes 4 1) else s2
/-- RECORD_DELIVERED. A record whose check value fails, or that lies in a poisoned granule, is an integrity fault: the WWGET
that holds it does not complete, and the context halts (R228; 16 Tables 16-3 and 16-10). -/
def State.deliverRecord (s : State) (x q : Nat) (good : Bool) : State :=
  match (s.queue x q).delivering with
  | [] => s
  | d :: _ =>
    if !good then s.dataFault x 0x3002 { detect := 0x3002, island := 0x2000 + s.wq x q Reg.WWY_SEGMENT }
    else match s.poisonMet x (s.recordReads x q d.rcd) [] with
      | some (code, g) => s.poisonFault x code g
      | none => s.deliverGood x q

/-! ## Remote pairs (R233) -/

/-- Without the first delivered packet of a key, type and body. -/
def takeDelivered (k : ChannelKey) (type : Nat) (body : List Byte) : List Packet → List Packet
  | [] => []
  | p :: ps => if p.key = k ∧ p.type.toNat = type ∧ p.body = body then ps else p :: takeDelivered k type body ps
/-- A record from the remote putter joins the partner's ring under the next number. -/
def State.remoteRecord (s : State) (x q : Nat) (bs : List Byte) : State :=
  let b := Reg.wwy x q
  let seq := s.rd b Reg.WWY_PUT_SEQ
  if s.queueOn x q && s.isReceiver x q && decide (bs.length = s.recordSize x q) && decide (0 < s.freeCredits x q) then
    match s.placeRecord x q seq bs with
    | none => s
    | some r =>
      let k := s.queue x q
      let s1 := { s with delivered := (bodiesOf bs).foldl (fun l body => takeDelivered (s.queueKey x q) 1 body l) s.delivered }
      ((s1.setQueue x q { k with outstanding := k.outstanding + 1 }).wr b Reg.WWY_PUT_SEQ (seq + 1)).enqueue x q seq r
  else s
/-- A returning credit reaches the sender. -/
def State.remoteCredit (s : State) (x q : Nat) : State :=
  let k := s.queue x q
  if s.queueOn x q && s.isSender x q && decide (0 < k.outstanding) then
    { s.setQueue x q { k with outstanding := k.outstanding - 1 } with
      delivered := takeDelivered (reverseKey (s.queueKey x q)) 2 (leBytes 4 1) s.delivered }
  else s
/-- The ring and the spill area that a queue has cleared longest read zero and are free again (R220). -/
def State.clearDone (s : State) (x q : Nat) : State :=
  let k := s.queue x q
  match k.clearing with
  | [] => s
  | c :: cs => (s.setQueue x q { k with clearing := cs }).zeroRegion x c.spill.1 c.spill.2
/-- Once the Truss port has accepted its last record, a remote WWPUT completes (Table 08-5). -/
def State.remotePutSent (s : State) (x q : Nat) : State :=
  let k := s.queue x q
  match k.puts with
  | r :: _ =>
    match s.refInst r with
    | some i => if i.taken && !s.outbox.any (fun p => decide (p.key = s.queueKey x q) && decide (p.type = 1)) then
        s.putDone x q r i (if i.cursor = 0 then none else some (i.cursor - 1)) else s
    | none => s
  | [] => s

/-! ## The rows -/

/-- QUEUE_ENABLE (R219): a write of 1 to ENABLE. -/
def execQueueEnable (x : CtxId) (q : QueueId) (s : State) : Out := .next (s.bar (fun t => t.requestEnable (.queue x q)))
/-- QUEUE_DISABLE (R220): a write of 0 to ENABLE. -/
def execQueueDisable (x : CtxId) (q : QueueId) (s : State) : Out :=
  .next (s.bar (fun t => if t.checking (.queue x q) then t.cancelCheck (.queue x q) else t.clearPair x.val q.val none))
/-- QUEUE_CLEAR_DONE (R220). -/
def execQueueClearDone (x : CtxId) (q : QueueId) (s : State) : Out := .next (s.clearDone x.val q.val)
/-- WWPUT_TAKE_CREDITS (R228). -/
def execWwputTakeCredits (x : CtxId) (q : QueueId) (s : State) : Out := .next (s.putTake x.val q.val)
/-- WWGET_TAKE_RECORDS (R228). -/
def execWwgetTakeRecords (x : CtxId) (q : QueueId) (s : State) : Out := .next (s.getTake x.val q.val)
/-- RECORD_DELIVERED (R228). -/
def execRecordDelivered (x : CtxId) (d : DeliveredRecord) (s : State) : Out := .next (s.deliverRecord x.val d.q.val d.good)
/-- REMOTE_RECORD_ARRIVE (R233). -/
def execRemoteRecordArrive (x : CtxId) (q : QueueId) (bs : List Byte) (s : State) : Out := .next (s.remoteRecord x.val q.val bs)
/-- REMOTE_CREDIT_ARRIVE (R233). -/
def execRemoteCreditArrive (x : CtxId) (q : QueueId) (s : State) : Out := .next (s.remoteCredit x.val q.val)

end Sys2Proof.Machine
end

