-- ==== Sys2Proof/Machine/Truss.lean ====
section
/-! DEFINITION. The Truss: ports, links, discovery, routes, packets end to end, and the frame entries (10 R273 to R293; 15
R412, R413; 01 R23). -/
namespace Sys2Proof.Machine

/-! ## Ports (R273 to R280) -/

def allPorts : List Nat := upto 16
/-- A port's check passed: its link is new and trains. -/
def State.startPort (s : State) (p : Nat) : State := ((s.setPort p Port.start).setLink p 1)
/-- Clearing ENABLE takes the port down, and with it the ordered channels that leave by it; the last one takes every open
channel with it (Table 10-8). -/
def State.disablePort (s : State) (p : PortId) : State :=
  let b := Reg.trsPort p.val
  if s.checking (.port p) then s.cancelCheck (.port p)
  else if s.objOn (.port p) then
    let s1 := (((s.wr b Reg.TRS_ENABLE 0).setLink p.val 0).wr b Reg.TRS_LANES_GOOD 0).clearSpan p.val
    let s2 := ((s1.wr b Reg.TRS_LANE_CAL 0).setPort p.val Port.start).portGone p.val
    if s2.enabledPorts.isEmpty then s2.channelsDown (s2.sendChannels (fun _ => true)) else s2
  else s
/-- A discovery flit: identity, address, whether it is assigned, and port number (R283). It goes before the keys are set. -/
def State.sendDiscovery (s : State) (p : Nat) : State :=
  let body := leBytes 8 Config.deviceIdentity.toNat ++ leBytes 2 (s.ownAddress.getD 0xFFFF) ++
    leBytes 1 (if s.ownAddress.isSome then 1 else 0) ++ leBytes 1 p
  s.sendCtl p 2 0 (body ++ zeros (flitPayload - body.length))
/-- Training at first enable ends (R273, R274). -/
def State.linkTrained (s : State) (p lanes : Nat) : State :=
  let b := Reg.trsPort p
  if s.rd b Reg.TRS_LINK_STATE = 1 then
    match trainResult (s.rd b Reg.TRS_WIDTH) lanes with
    | some r => (s.linkUp p r).sendDiscovery p
    | none => s.linkLost p 5 0x6001
  else s

/-! ## Discovery and identities (R283, R284) -/

/-- An identity named for an address: a second one for the same address is posted on every port, and the address opens no
further channel. -/
def State.learnIdentity (s : State) (addr : Nat) (id : BitVec 64) : State :=
  let known := s.identities.find? (fun kv => decide (kv.1 = addr))
  match known with
  | none => { s with identities := mapSet 0 s.identities addr id }
  | some kv =>
    if kv.2 = id then s
    else allPorts.foldl (fun a p => a.portStatus p 0x6006)
      { s with conflicts := if s.conflicts.contains addr then s.conflicts else s.conflicts ++ [addr] }
/-- The port joins a neighbour that another port has as span neighbour: SPAN_OK is set on every port to it (R294). -/
def State.joinSpan (s : State) (p : Nat) : State :=
  match (s.portsToPeer p).find? (fun q => decide (q ≠ p) && s.flag (Reg.trsPort q) Reg.TRS_SPAN_OK) with
  | some q => (s.setPort p { s.port p with spanId := (s.port q).spanId }).wr (Reg.trsPort p) Reg.TRS_SPAN_OK 1
  | none => s
/-- What a discovery flit says is taken. -/
def State.takeDiscovery (s : State) (p : Nat) (f : Discovery) : State :=
  let b := Reg.trsPort p
  let k := s.port p
  if k.peerSeen = true ∧ s.rd b Reg.TRS_PEER_IDENTITY ≠ f.identity.toNat then s.linkLost p 0 0x6002
  else if f.addrValid = true ∧ s.ownAddress = some f.address.toNat then s.linkLost p 0 0x1603
  else
    let s1 := (s.setPort p { k with peerSeen := true }).wr b Reg.TRS_PEER_IDENTITY f.identity.toNat
    let s2 := s1.wr b Reg.TRS_PEER_ADDRESS (if f.addrValid then f.address.toNat else 0xFFFF)
    let s3 := ((s2.wr b Reg.TRS_PEER_ADDR_VALID (if f.addrValid then 1 else 0)).wr b Reg.TRS_PEER_PORT f.port.val).joinSpan p
    if f.addrValid then s3.learnIdentity f.address.toNat f.identity else s3
/-- DISCOVERY_FLIT_RECEIVE: the flit counts in the port's sequence as every flit but an idle one does (Table 10-4). -/
def State.discovered (s : State) (p seq ack : Nat) (f : Discovery) : State :=
  let k := s.port p
  if portUp s p = false then s
  else if seq ≠ (k.rxSeq + 1) % 65536 then s.takeAck p ack
  else ((s.setPort p { k with rxSeq := seq, dropping := false }).takeAck p ack).takeDiscovery p f

/-! ## Link keys (15 R412, R413; R278) -/

/-- The exchange of keys ends: sealing starts at generation 0 of both directions, with the link credits of the neighbour's
buffers, or the port is down with 0x6009. -/
def State.keyExchange (s : State) (p : Nat) (ok : Bool) : State :=
  let k := s.port p
  if portUp s p = true ∧ k.peerSeen = true then
    if ok then
      (({ s with free := s.free + 1 } : State).setPort p { k with
        linkDraw := s.free, keyed := true, txGen := 0, rxGen := 0, rxOld := false, sealedCount := 0, rekeyDue := false
        credits := if k.keyed then k.credits else [Config.linkBuffers 0, Config.linkBuffers 1, Config.linkBuffers 2] }).sendOut p
    else s.linkLost p 0 0x6009
  else s
/-- A key change flit is to go out; the sender seals under the next generation from the flit after it (R278). -/
def State.keyChange (s : State) (p : Nat) : State :=
  if portUp s p = true ∧ (s.port p).keyed = true ∧ (s.port p).ctl.all (fun f => decide (f.1 ≠ 3)) = true then
    s.sendCtl p 3 0 (zeros flitPayload)
  else s
/-- After 2^32 sequenced flits under one key, or an advance of KEY_GEN. -/
def State.linkRekey (s : State) (p : Nat) : State :=
  if (s.port p).rekeyDue = true ∨ 2 ^ 32 ≤ (s.port p).sealedCount then s.keyChange p else s

/-! ## Receiving flits (R277 to R279) -/

/-- A KEY_EPOCH the receiver accepts: the current generation, or the one before it until the first of the current. -/
def epochOk (k : Port) (e : Nat) : Bool :=
  decide (e = k.rxGen % 256) || (k.rxOld && decide (e = (k.rxGen + 255) % 256))
/-- A flit fails its tag: it is counted, and sixteen such within 1 ms with no uncorrectable codeword fail the port (R280). -/
def State.tagFail (s : State) (p : Nat) : State :=
  let k := s.port p
  let recent := s.within 1000 (k.tagTimes ++ [s.nowUs])
  let s1 := (s.setPort p { k with tagTimes := recent }).inc (Reg.trsPort p) Reg.TRS_TAG_FAILS
  if 16 ≤ recent.length then s1.linkLost p 5 0x6005 else s1.sendNak p
/-- A codeword cannot be corrected: it is counted and its flit discarded. -/
def State.fecFail (s : State) (p : Nat) : State :=
  let k := s.port p
  let s1 := s.setPort p { k with tagTimes := [], badTimes := s.within 1000 (k.badTimes ++ [s.nowUs]) }
  (s1.inc (Reg.trsPort p) Reg.TRS_FEC_UNCORRECTED).sendNak p
/-- CREDITS of a flit taken in its turn, and its acknowledgement; what may leave then leaves. -/
def State.takeHeader (s : State) (p : Nat) (f : Flit) : State :=
  let k := s.port p
  let c := f.cls.toNat
  (s.setPort p { k with credits := k.credits.set c (listAt 0 k.credits c + f.credits.toNat) }).takeAck p f.ack.toNat
/-- A NAK: what it acknowledges is freed and the rest is resent (R279). -/
def State.nakResend (s : State) (p ack : Nat) : State :=
  if portUp s p then (s.takeAck p ack).resendAll p true else s
/-- A sequenced flit in its turn. DESIGN CHOICE (log entry 107): the buffer of a data flit is free once its bytes have joined its
class's packets. -/
def State.acceptFlit (s : State) (p : Nat) (f : Flit) : State :=
  let k := s.port p
  let c := f.cls.toNat
  let k1 := { k with
    rxSeq := f.seq.toNat, dropping := false
    rxOld := if f.epoch.toNat = k.rxGen % 256 then false else k.rxOld }
  if f.type = 1 then
    let bs := listAt [] k.rx c ++ f.payload
    let (ps, rest) := parsePackets bs.length bs
    s.setPort p { k1 with freed := k.freed.set c (listAt 0 k.freed c + 1), rx := k.rx.set c rest, inbound := k.inbound ++ ps }
  else if f.type = 3 then s.setPort p { k1 with rxGen := k.rxGen + 1, rxOld := true }
  else s.setPort p k1
/-- DESIGN CHOICE (log entry 107): where no flit has left to carry it, a link control flit acknowledges a data or key change flit
and returns its credit. -/
def State.answerFlit (s : State) (p : Nat) (f : Flit) (t : State) : State :=
  if (f.type = 1 ∨ f.type = 3) ∧ ((t.port p).out.length = (s.port p).out.length ∨ listAt 0 (t.port p).freed f.cls.toNat ≠ 0) then
    t.sendCtl p 2 f.cls.toNat (zeros flitPayload)
  else t
def State.flitIn (s : State) (p : Nat) (f : Flit) (fec : EccOutcome) (tagOk : Bool) : State :=
  let k := s.port p
  if portUp s p = false then s
  else if fec = .uncorrectable then s.fecFail p
  else
    let s0 := if fec = .corrected then s.inc (Reg.trsPort p) Reg.TRS_FEC_CORRECTED else s
    if 3 < f.type.toNat ∨ f.cls = 3 ∨ tagOk = false ∨ epochOk k f.epoch.toNat = false then s0.tagFail p
    else if f.nak then s0.nakResend p f.ack.toNat
    else if f.type = 0 then s0.takeHeader p f
    else if f.seq.toNat = (k.rxSeq + 1) % 65536 then s0.answerFlit p f ((s0.acceptFlit p f).takeHeader p f)
    else s0.takeAck p f.ack.toNat

/-! ## Retrains (R274, R280) -/

/-- A retrain begins, and is counted. -/
def State.countRetrain (s : State) (p : Nat) : State :=
  ({ s with retrains := s.retrains + 1 } : State).inc (Reg.trsPort p) Reg.TRS_RETRAINS
def State.retrainDue (s : State) (p : Nat) : RetrainCause → Bool
  | .resends => (s.port p).retry.any (fun e => decide (8 ≤ e.2))
  | .uncorrectable => decide (64 ≤ (s.within 1000 (s.port p).badTimes).length)
  | .lostLock => true
def State.startRetrain (s : State) (p : Nat) (cause : RetrainCause) : State :=
  if portUp s p && s.retrainDue p cause then
    (((s.setPort p { s.port p with narrowed := false, badTimes := [] }).setLink p 4).wr (Reg.trsPort p) Reg.TRS_LANES_GOOD 0).countRetrain p
  else s
/-- A retrain ends: the link resends from the last acknowledged flit. A failed one is followed by another; the third to fail
within 1 s fails the port. A lane under recalibration is no trained lane (R296). -/
def State.retrainDone (s : State) (p lanes : Nat) : State :=
  let b := Reg.trsPort p
  if s.rd b Reg.TRS_LINK_STATE = 4 then
    match trainResult (s.rd b Reg.TRS_WIDTH) (lanes &&& (255 - s.rd b Reg.TRS_LANE_CAL)) with
    | some r => (s.linkUp p r).linkGoesOn p
    | none =>
      let failed := s.within 1000000 ((s.port p).failTimes ++ [s.nowUs])
      let s1 := s.setPort p { s.port p with failTimes := failed }
      if 3 ≤ failed.length then s1.linkLost p 5 0x6003 else s1.countRetrain p
  else s

/-! ## Routes and channels (R284 to R291) -/

/-- A 32-bit entry is written as a whole; a destination that loses VALID takes its channels down (R291). -/
def State.writeRoute (s : State) (dest v : Nat) : State :=
  let b := Reg.route dest
  let s1 := ((s.wr b Reg.ROUTE_PORT_SET (bitsAt v 0 16)).wr b Reg.ROUTE_ORDERED_PORT (bitsAt v 16 4)).wr b Reg.ROUTE_VALID (bitsAt v 20 1)
  let s2 := s1.wr b Reg.ROUTE_HOPS (bitsAt v 24 8)
  if s.routeValid dest && !s2.routeValid dest then
    s2.channelsDown (s2.sendChannels (fun c => decide (c.key.dest.toNat = dest)))
  else s2
/-- The remote queues of a context that own a channel, in either direction. -/
def State.channelQueues (s : State) (x : Nat) (k : ChannelKey) : List Nat :=
  (s.ctxQueues x).filter (fun q => (s.isSender x q || s.isReceiver x q) &&
    (decide (s.queueKey x q = k) || decide (reverseKey (s.queueKey x q) = k)))
/-- The exchange of a context owns a channel: to its successor, or from its predecessor (11 R307). -/
def State.exchangeOwns (s : State) (x : Nat) (k : ChannelKey) : Bool :=
  let base := s.rd (Reg.ctx x) Reg.CTX_CHANNEL_BASE
  s.ctxOn x && s.trains x && decide (1 < s.rd (Reg.ctx x) Reg.CTX_RANKS) && decide (base ≤ k.channel.toNat) &&
  decide (k.channel.toNat < base + s.rd (Reg.ctx x) Reg.CTX_CHANNELS + 2) &&
  (decide (s.ownAddress = some k.src.toNat ∧ k.dest.toNat = s.successor x) ||
    decide (s.ownAddress = some k.dest.toNat ∧ k.src.toNat = s.predecessor x))
/-- CHANNEL_OPEN: an ordered channel opens for the object that owns it (R295); the far end's identity is learnt, and an address
of two identities opens none: the refusal is posted in the queue's STATUS (R284, Table 10-9). -/
def State.channelOpen (s : State) (k : ChannelKey) (peer : BitVec 64) : State :=
  let mine := decide (s.ownAddress = some k.src.toNat)
  let far := if mine then k.dest.toNat else k.src.toNat
  let x := if mine then k.srcCtx.toNat else k.ctx.toNat
  let s1 := s.learnIdentity far peer
  let qs := s1.channelQueues x k
  if s1.conflicts.contains far then qs.foldl (fun a q => a.wr (Reg.wwy x q) Reg.WWY_STATUS 0x6006) s1
  else if qs.isEmpty && !s1.exchangeOwns x k then s1
  else if mine then s1.openChannel k true else s1.setChannel (freshChannel k true)

/-! ## Packets (R287 to R291) -/

/-- The context that a packet of this source belongs to; an acknowledgement, a report and a store's refusal belong to none. -/
def packetOwner (pk : Packet) : Option Nat :=
  if pk.type = 7 ∨ (pk.type = 6 ∧ leNat (pk.body.take 4) = 4) ∨ (pk.type = 4 ∧ pk.body.length = 4) then none else some pk.key.srcCtx.toNat
/-- A source's packet leaves by its route and waits for its acknowledgement; an adaptive one waits while its number would pass
the far end's window. Without a route its context halts. -/
def State.packetSend (s : State) (pk : Packet) : State :=
  let s0 := { s with outbox := s.outbox.erase pk }
  if s.ownAddress = some pk.key.dest.toNat then s0
  else if s.windowShut pk then s
  else match s0.portFor pk with
    | none => match packetOwner pk with | some x => s0.haltCtx x 0x6008 | none => s0
    | some p =>
      let s1 := s0.sendOn p pk
      let c := s1.channelOr pk.key pk.ordered
      let s2 := if pk.type = 7 then s1 else s1.setChannel { c with unacked := c.unacked ++ [(pk, 0, s.nowUs)] }
      let x := pk.key.srcCtx.toNat
      if pk.type = 1 then
        ((s2.ctxQueues x).filter (fun q => s2.isSender x q && decide (s2.queueKey x q = pk.key))).foldl (fun a q => a.remotePutSent x q) s2
      else s2
/-- The end-to-end acknowledgement of a packet, on the management class: it names the packet's channel and number. -/
def State.acknowledge (s : State) (pk : Packet) : State :=
  { s with outbox := s.outbox ++ [⟨reverseKey pk.key, pk.ordered, 7, pk.seq, leBytes 4 0⟩] }
/-- Numbers accepted below the window's floor move it up, modulo 2^32. -/
def windowUp : Nat → Nat → List Nat → Nat × List Nat
  | 0, e, w => (e, w)
  | n + 1, e, w => if w.contains e then windowUp n ((e + 1) % 2 ^ 32) (w.filter (fun k => decide (k ≠ e))) else (e, w)
/-- Whether a channel accepts a packet's number, and the channel after it (R288, R289). -/
def Channel.take (c : Channel) (n : Nat) : Option Channel :=
  if c.ordered then (if n = c.expected then some { c with expected := (c.expected + 1) % 2 ^ 32 } else none)
  else if (n + 2 ^ 32 - c.expected) % 2 ^ 32 < 4096 ∧ c.window.contains n = false then
    let (e, w) := windowUp 4096 c.expected (c.window ++ [n])
    some { c with expected := e, window := w }
  else none
/-- A packet leaves the first port it came in by. -/
def State.dropInbound (s : State) (pk : Packet) : State :=
  match allPorts.find? (fun p => (s.port p).inbound.contains pk) with
  | some p => s.setPort p { s.port p with inbound := (s.port p).inbound.erase pk }
  | none => s
/-- The buddy has refused the oldest capture: what is left of it is not sent, the context halts and its previous checkpoint
stays the latest (13 R376). -/
def State.captureRefused (s : State) (x : Nat) : State :=
  match (s.ctx x).captures with
  | [] => s
  | _ :: ds =>
    let s1 := { s with outbox := s.outbox.filter (fun o => !(decide (o.type = 4) && decide (o.key.srcCtx.toNat = x))) }
    (s1.setCtx x { s1.ctx x with captures := ds }).haltCtx x 0x1A03
/-- Where a packet's granule belongs of a capture that is coming in. -/
def Incoming.place (i : Incoming) (pk : Packet) : Option Nat :=
  let d := (pk.seq - i.first).toNat
  if pk.key.src = i.device ∧ pk.key.srcCtx = i.ctx ∧ d < i.granules then some (i.base + 512 * d) else none
/-- A packet is delivered. A granule of a capture that is coming in is written into the store; with its last one the store holds
the checkpoint (13 Table 13-7). -/
def State.deliver (s : State) (pk : Packet) : State :=
  let found := if pk.type = 4 ∧ isGranuleBody pk.body then s.incoming.findSome? (fun i => (i.place pk).map (fun a => (i, a))) else none
  match found with
  | none => { s with delivered := s.delivered ++ [pk] }
  | some (i, a) =>
    let s1 := s.storeAt a (pk.body.take 512)
    if i.left ≤ 1 then
      let b := Reg.ckptStore i.store.val
      ((({ s1 with incoming := s1.incoming.erase i } : State).wr b (if i.half = 0 then Reg.STORE_STEP_A else Reg.STORE_STEP_B) i.step.toNat)).bump
        b Reg.STORE_CAPTURES 1
    else { s1 with incoming := s1.incoming.map (fun j => if j = i then { j with left := j.left - 1 } else j) }
/-- A management packet in its turn. -/
def State.managementIn (s : State) (pk : Packet) : State :=
  let x := pk.key.ctx.toNat
  let w (i : Nat) : Nat := leNat ((pk.body.drop (4 * i)).take 4)
  let id : BitVec 64 := BitVec.ofNat 64 (leNat ((pk.body.drop 4).take 8))
  match w 0 with
  | 1 => s.partnerCleared x pk.key.src.toNat (w 1) (decide (w 2 = 1))
  | 2 => (s.learnIdentity pk.key.src.toNat id).queuePacket (s.sideKey x pk.key.src.toNat pk.key.srcCtx.toNat) false 6 (identityBody 3)
  | 3 => s.learnIdentity pk.key.src.toNat id
  | _ => s.deliver pk
def State.packetIn (s : State) (pk : Packet) : State :=
  let s0 := s.dropInbound pk
  let x := pk.key.ctx.toNat
  if s.ownAddress ≠ some pk.key.dest.toNat then
    match s0.portFor pk with
    | none => s0
    | some p => s0.sendOn p pk
  else if pk.type = 7 then
    match s0.channel (reverseKey pk.key) with
    | none => s0
    | some c => s0.setChannel { c with unacked := c.unacked.filter (fun e => decide (e.1.seq ≠ pk.seq)) }
  else if badGranule pk then s0
  else if !s.ctxOn x && (decide (pk.type = 1) || decide (pk.type = 2) || decide (pk.type = 3) || decide (pk.type = 5)) then s0.acknowledge pk
  else if pk.type = 5 ∧ s0.pieceFits x pk = false then s
  else match (s0.channelOr pk.key pk.ordered).take pk.seq.toNat with
    | none => s0
    | some c =>
      let s1 := (s0.setChannel c).acknowledge pk
      if pk.type = 6 then s1.managementIn pk
      else if pk.type = 5 then s1.pieceIn x pk
      else if pk.type = 4 ∧ pk.body = leBytes 4 0x1A03 then s1.captureRefused x
      else s1.deliver pk
/-- An unacknowledged packet is resent 500 µs after it was sent last; a channel whose resends, route or ordered port are used
up is declared down (R291). -/
def State.resendTimeout (s : State) (k : ChannelKey) (n : BitVec 32) : State :=
  match s.channel k with
  | none => s
  | some c =>
    let late (e : Packet × Nat × Nat) : Bool := decide (e.1.seq = n) && decide (e.2.2 + 500 ≤ s.nowUs)
    let due := c.unacked.filter late
    if c.down || due.isEmpty then s
    else if due.any (fun e => decide (8 ≤ e.2.1)) || !s.routeValid k.dest.toNat || (c.ordered && (s.orderedRoute k.dest.toNat).isNone) then
      s.channelDown c
    else
      let s1 := s.setChannel { c with unacked := c.unacked.map (fun e => if late e then (e.1, e.2.1 + 1, s.nowUs) else e) }
      due.foldl (fun a e => match a.portFor e.1 with | some p => a.sendOn p e.1 | none => a) s1

/-! ## The rows -/

/-- PORT_ENABLE (R276): a write of 1 to ENABLE. -/
def execPortEnable (p : PortId) (s : State) : Out := .next (s.bar (fun t => t.requestEnable (.port p)))
/-- PORT_DISABLE (R280): a write of 0 to ENABLE. -/
def execPortDisable (p : PortId) (s : State) : Out := .next (s.bar (fun t => t.disablePort p))
/-- LINK_TRAINED (R273). -/
def execLinkTrained (p : PortId) (lanes : BitVec 8) (s : State) : Out := .next (s.linkTrained p.val lanes.toNat)
/-- TRS_ADDRESS_ENABLE (R282): a write of ADDRESS with ENABLE 1; ADDRESS is RWE. -/
def execTrsAddressEnable (addr : BitVec 16) (s : State) : Out :=
  .next (s.bar (fun t => if t.objOn .address || t.checking .address then t
    else (t.wr Reg.trsAddress Reg.TRSA_ADDRESS addr.toNat).requestEnable .address))
/-- DISCOVERY_FLIT_SEND (R283). -/
def execDiscoveryFlitSend (p : PortId) (s : State) : Out := .next (if portUp s p.val then s.sendDiscovery p.val else s)
/-- DISCOVERY_FLIT_RECEIVE (R283). -/
def execDiscoveryFlitReceive (p : PortId) (f : DiscoveryFlit) (s : State) : Out :=
  .next (s.discovered p.val f.seq.toNat f.ack.toNat f.peer)
/-- LINK_KEY_EXCHANGE (15 R412). -/
def execLinkKeyExchange (p : PortId) (ok : Bool) (s : State) : Out := .next (s.keyExchange p.val ok)
/-- FLIT_RECEIVE (R279). -/
def execFlitReceive (p : PortId) (f : Flit) (fec : EccOutcome) (tagOk : Bool) (s : State) : Out := .next (s.flitIn p.val f fec tagOk)
/-- NAK_RESEND (R279). -/
def execNakResend (p : PortId) (ack : BitVec 16) (s : State) : Out := .next (s.nakResend p.val ack.toNat)
/-- KEY_CHANGE_FLIT (R278). -/
def execKeyChangeFlit (p : PortId) (s : State) : Out := .next (s.keyChange p.val)
/-- LINK_REKEY (15 R413). -/
def execLinkRekey (p : PortId) (s : State) : Out := .next (s.linkRekey p.val)
/-- RETRAIN (R280). -/
def execRetrain (p : PortId) (cause : RetrainCause) (s : State) : Out := .next (s.startRetrain p.val cause)
/-- RETRAIN_DONE (R280): the lanes of each half (R273) that trained. -/
def execRetrainDone (p : PortId) (low high : BitVec 4) (s : State) : Out := .next (s.retrainDone p.val (high.toNat * 16 + low.toNat))
/-- ROUTE_TABLE_WRITE (R286). -/
def execRouteTableWrite (dest : BitVec 16) (v : BitVec 32) (s : State) : Out := .next (s.bar (fun t => t.writeRoute dest.toNat v.toNat))
/-- CHANNEL_OPEN (R284). -/
def execChannelOpen (k : ChannelKey) (peer : BitVec 64) (s : State) : Out := .next (s.channelOpen k peer)
/-- PACKET_SEND (R287). -/
def execPacketSend (pk : Packet) (s : State) : Out := .next (s.packetSend pk)
/-- PACKET_RECEIVE (R289). -/
def execPacketReceive (pk : Packet) (s : State) : Out := .next (s.packetIn pk)
/-- PACKET_RESEND_TIMEOUT (R291). -/
def execPacketResendTimeout (k : ChannelKey) (n : BitVec 32) (s : State) : Out := .next (s.resendTimeout k n)
/-- FRAME_ENTRY_UPDATE (01 R23). -/
def execFrameEntryUpdate (level : Fin 11) (ws : List Word) (s : State) : Out := .next (s.frameUpdate level.val ws)

end Sys2Proof.Machine
end

