-- ==== Sys2Proof/Machine/MemoryOps.lean ====
section
/-! DEFINITION. Memory tiers and the teacher store (13): ECC and the patrol (R357 to R359), temperatures, throttling and
trips (R360 to R362, 19 R509), slots, installs and verify passes (R366 to R373), checkpoint stores (R376) and HDM windows
(R378, R379; 18 R486). -/
namespace Sys2Proof.Machine

/-! ## Tier 1 -/

/-- The stack of a tier-1 address (R356): 64 GiB each. -/
def stackOf (a : Nat) : Nat := a / 2 ^ 36
/-- Granules of stack g poisoned now (Table 13-2 POISONED). -/
def State.poisoned (s : State) (g : Nat) : Nat := (s.poison.filter (fun kv => decide (stackOf (kv.1 * granule) = g))).length
/-- What a read of the granule at a finds (R357). -/
def State.granuleRead (s : State) (a : Nat) (o : EccOutcome) : State :=
  match o with
  | .clean => s
  | .corrected => { s.inc (Reg.safDram (stackOf a)) Reg.DRAM_CE_COUNT with corrected := s.corrected + 1 }
  | .uncorrectable =>
    { s.inc (Reg.safDram (stackOf a)) Reg.DRAM_UE_COUNT with poison := mapSet false s.poison (a / granule) true }
/-- The granules of a stack. -/
def stackGranules : Nat := 2 ^ 27
/-- PATROL_READ (R359): the stack's next granule, unless the patrol is paused. A write-back or a poisoning that another write
has overtaken is discarded. -/
def State.patrolRead (s : State) (a : Nat) (o : EccOutcome) (raced : Bool) : State :=
  let g := stackOf a
  let n := mapGet 0 s.patrol g
  if s.dstate ≠ 0 ∨ a / granule ≠ g * stackGranules + n then s
  else
    let s1 := { s with patrol := mapSet 0 s.patrol g ((n + 1) % stackGranules) }
    let s2 := match o, raced with
      | .clean, _ => s1
      | .corrected, false => (s1.granuleRead a o).renewTag (a / granule)
      | .corrected, true => s1.granuleRead a o
      | .uncorrectable, false => s1.granuleRead a o
      | .uncorrectable, true => s1.inc (Reg.safDram g) Reg.DRAM_UE_COUNT
    if n + 1 = stackGranules then s2.inc (Reg.safDram g) Reg.DRAM_PATROL_PASSES else s2

/-! ## Temperature (R360 to R362) -/

/-- REFRESH_BAND follows the temperature up at once, and down only once it stands 2 °C below the band's lower bound. -/
def refreshBand (old t : Nat) : Nat :=
  if 95 ≤ t then 2
  else if old = 2 ∧ 93 < t then 2
  else if 85 ≤ t then 1
  else if old ≠ 0 ∧ 83 < t then 1
  else 0
def State.tempBand (s : State) (g t : Nat) : State :=
  let b := Reg.safDram g
  (s.wr b Reg.DRAM_TEMP_C (min t 255)).wr b Reg.DRAM_REFRESH_BAND (refreshBand (s.rd b Reg.DRAM_REFRESH_BAND) t)
def State.target (s : State) (b : Nat) : Nat := s.rd (Reg.pwrBay b) Reg.PWR_TARGET_MHZ
/-- The ceiling a stack (0 to 7) or the bay's own core islands (8) set for a bay. -/
def ceilKey (source b : Nat) : Nat := 64 * source + b
def State.thermal (s : State) (source b : Nat) : Nat := mapGet 600 s.thermCeil (ceilKey source b)
/-- CEILING_MHZ: the lowest of the thermal and power ceilings (19 Table 19-4). -/
def State.showCeiling (s : State) (b : Nat) : State :=
  s.wr (Reg.pwrBay b) Reg.PWR_CEILING_MHZ ((upto 9).foldl (fun m i => min m (s.thermal i b)) (mapGet 600 s.powerCeil b))
def State.setThermal (s : State) (source b v : Nat) : State :=
  ({ s with thermCeil := mapSet 600 s.thermCeil (ceilKey source b) v } : State).showCeiling b
def State.lowerThermal (s : State) (source : Nat) : List Nat → State
  | [] => s
  | b :: bs => (s.setThermal source b (max 300 (s.thermal source b - 25))).lowerThermal source bs
def State.raiseThermal (s : State) (source : Nat) : List Nat → State
  | [] => s
  | b :: bs => (if s.thermal source b < s.target b then s.setThermal source b (min (s.target b) (s.thermal source b + 25)) else s).raiseThermal source bs
/-- The bays over a stack, and those of its half. -/
def stackBays (g : Nat) : List Nat := (upto 8).map (fun i => 8 * g + i)
def halfBays (h : Nat) : List Nat := (upto 32).map (fun i => 32 * h + i)
/-- Some ceiling of a bay is lowered because of a source. -/
def State.lowered (s : State) (source : Nat) (l : List Nat) : Bool := l.any (fun b => decide (s.thermal source b < s.target b))
def State.throttleStack (s : State) (g : Nat) : State :=
  let r := Reg.safDram g
  let t := s.rd r Reg.DRAM_TEMP_C
  let near := stackBays g
  let half := halfBays (g / 4)
  let s1 :=
    if 100 ≤ t then
      if near.all (fun b => decide (s.thermal g b ≤ 300)) && decide (103 ≤ t) then s.lowerThermal g half else s.lowerThermal g near
    else if t < 98 then s.raiseThermal g half
    else s
  let on := s1.lowered g half
  let s2 := s1.wr r Reg.DRAM_THROTTLING (if on then 1 else 0)
  if on && !s.flag r Reg.DRAM_THROTTLING then s2.event Reg.HIF_EV_THERMAL else s2
def State.throttleStacks (s : State) : List Nat → State
  | [] => s
  | g :: gs => (s.throttleStack g).throttleStacks gs
/-- The hottest listed island of a bay (19 R509). -/
def State.bayHeat (s : State) (islands : List (CoreId × Nat)) (b : Nat) : Nat :=
  maxOf ((islands.filter (fun e => decide (s.clockBay e.1.val = some b))).map (fun e => e.2))
def State.throttleBay (s : State) (islands : List (CoreId × Nat)) (b : Nat) : State :=
  let t := s.bayHeat islands b
  if 105 ≤ t then
    let s1 := s.lowerThermal 8 [b]
    if s.lowered 8 [b] then s1 else s1.event Reg.HIF_EV_THERMAL
  else if t < 98 then s.raiseThermal 8 [b]
  else s
def State.throttleBays (s : State) (islands : List (CoreId × Nat)) : List Nat → State
  | [] => s
  | b :: bs => (s.throttleBay islands b).throttleBays islands bs
/-- THROTTLE_STEP. -/
def State.throttleStep (s : State) (islands : List (CoreId × Nat)) : State :=
  (s.throttleStacks (upto 8)).throttleBays islands (upto 64)
/-- The contexts that hold one of the bays. -/
def State.holders (s : State) (p : Nat → Bool) : List Nat :=
  (s.ctxs.filter (fun kv => kv.2.bayMap.any (fun b => p b.val))).map (fun kv => kv.1)
def State.haltAll (s : State) (code : Nat) : List Nat → State
  | [] => s
  | x :: xs => (s.haltCtx x code).haltAll code xs
/-- Captures in progress are not secured, and the previous checkpoint stays the latest (R380, 09 R264). -/
def State.dropCaptures (s : State) : List Nat → State
  | [] => s
  | x :: xs => (s.dropTaken x).dropCaptures xs
/-- The contexts a trip of stack g concerns: those with a bay in its half, and those whose region lies on it. -/
def State.onStack (s : State) (g : Nat) : List Nat :=
  s.enabledCtxs.filter (fun x => (s.ctx x).bayMap.any (fun b => decide (b.val / 32 = g / 4)) || (s.groups x).any (fun h => decide (h / 4 = g)))
/-- STACK_TRIP (R362). -/
def State.stackTrip (s : State) (g t : Nat) : State :=
  if t < 108 then s
  else
    let s1 := (s.tempBand g t).wr (Reg.safDram g) Reg.DRAM_TRIPPED 1
    let s2 := ({ s1 with stackHot := mapSet false s1.stackHot g true } : State).event Reg.HIF_EV_THERMAL
    let s3 := (s2.haltAll 0x8401 (s2.holders (fun b => decide (b / 32 = g / 4)))).dropCaptures (s2.onStack g)
    ((upto 136).map (fun i => (0, 136 * (g / 4) + i))).foldl (fun a kc => a.drainCore kc.2) s3
/-- THERMAL_TRIP_RELEASE (R362, 19 R509): what tripped has cooled. -/
def State.tripRelease (s : State) (t : TripTarget) : State :=
  match t with
  | .stack g => { s with stackHot := mapSet false s.stackHot g.val false }
  | .core c => { s with coreHot := mapSet false s.coreHot c.val false }

/-! ## Teacher slots (R364 to R369) -/

/-- The fields of a manifest (15 Table 15-5). -/
def mNat (m : List Byte) (off len : Nat) : Nat := leNat ((m.drop off).take len)
def mRecipients (m : List Byte) : Nat := mNat m 6 2
def mShards (m : List Byte) : Nat := mNat m 8 4
def mTeacherBytes (m : List Byte) : Nat := mNat m 0x10 6
def mStageBytes (m : List Byte) : Nat := mNat m 0x18 6
def mSignatureAt (m : List Byte) : Nat := 0x800 + 1680 * mRecipients m + 32 * mShards m
/-- MANIFEST_ID: the first 64 bits of the SHAKE256 digest of every byte before SIGNATURE (15 R418). -/
def mId (m : List Byte) : Nat := leNat ((shake256 (m.take (mSignatureAt m))).take 8)
/-- Check 1 of 15 R420. -/
def manifestShape (m : List Byte) : Bool :=
  let zero (off len : Nat) : Bool := decide (mNat m off len = 0)
  decide (mNat m 0 4 = 0x464D5451) && decide (mNat m 4 2 = 1) &&
  decide (1 ≤ mRecipients m) && decide (mRecipients m ≤ 64) && decide (1 ≤ mShards m) && decide (mShards m ≤ 40960) &&
  zero 0x0C 4 && decide (mNat m 0x28 8 < 16) && zero 0x30 16 && zero 0x741 191 &&
  (upto (mRecipients m)).all (fun r => zero (0x808 + 1680 * r) 8) &&
  decide (m.length = mSignatureAt m + 1280) && decide (mShards m = ceilDiv (mTeacherBytes m) shardBytes) &&
  decide (mStageBytes m % shardBytes = 0) && decide (mStageBytes m ≤ mTeacherBytes m) &&
  (decide (mStageBytes m = 0) || decide (mTeacherBytes m % shardBytes = 0))
/-- The number of the first check of 15 R420 that fails, for n slots. -/
def State.manifestFault (s : State) (m : List Byte) (n : Nat) : Option Nat :=
  firstCode
    [(!manifestShape m, 1), (!Config.ownerSignatureVerifies m, 2),
     (!(upto (mRecipients m)).any (fun r => decide (mNat m (0x800 + 1680 * r) 8 = Config.deviceIdentity.toNat)), 3),
     (!Config.teacherKeyUnwraps m, 4), (decide (n * slotBytes < mTeacherBytes m - mStageBytes m), 5),
     (decide (s.rd Reg.jnrDebug Reg.DEBUG_SCOPE ≠ 0) && !manifestBit m 2, 6)]
/-- The blocks a teacher fills from the start of its first slot. -/
def mBlocks (m : List Byte) : Nat := ceilDiv (mTeacherBytes m - mStageBytes m) shardBytes
def slotRange (h n : Nat) : List Nat := (upto n).map (fun i => h + i)
def State.setSlot (s : State) (n st head count : Nat) : State :=
  ((s.wr (Reg.nvwSlot n) Reg.SLOT_STATE st).wr (Reg.nvwSlot n) Reg.SLOT_FIRST_SLOT head).wr (Reg.nvwSlot n) Reg.SLOT_SLOTS count
def State.setSlots (s : State) (st head count : Nat) : List Nat → State
  | [] => s
  | n :: ns => (s.setSlot n st head count).setSlots st head count ns
def slotRecs (st head count : Nat) (l : List Nat) : List LedgerRec :=
  l.map (fun n => .slotState (Fin.ofNat 8 n) (BitVec.ofNat 4 st) (Fin.ofNat 8 head) count)
/-- Blocks by number over all slots: 4,096 in each. -/
def State.wearOf (s : State) (blk : Nat) : Nat := mapGet 0 s.wear blk
def State.addWear (s : State) : List Nat → State
  | [] => s
  | blk :: bs =>
    let w := s.wearOf blk + 1
    let r := Reg.nvwSlot (blk / 4096)
    (({ s with wear := mapSet 0 s.wear blk w } : State).wr r Reg.SLOT_WEAR_MAX (max w (s.rd r Reg.SLOT_WEAR_MAX))).addWear bs
/-- The slots that the teacher at head n holds: those of its range that still name it as theirs. -/
def State.headSlots (s : State) (n : Nat) : List Nat :=
  (slotRange n (s.rd (Reg.nvwSlot n) Reg.SLOT_SLOTS)).filter (fun k => decide (k < 8) && decide (s.rd (Reg.nvwSlot k) Reg.SLOT_FIRST_SLOT = n))
/-- What the manifest says of a teacher stands in every slot that holds it (Table 13-3). -/
def State.showTeacher (s : State) (m : List Byte) : List Nat → State
  | [] => s
  | k :: ks =>
    let b := Reg.nvwSlot k
    (((s.wr b Reg.SLOT_MANIFEST_ID (mId m)).wr b Reg.SLOT_TEACHER_BYTES (mTeacherBytes m - mStageBytes m)).wr b
      Reg.SLOT_STAGE_BYTES (mStageBytes m)).showTeacher m ks
def slotShown : List Field := [Reg.SLOT_MANIFEST_ID, Reg.SLOT_TEACHER_BYTES, Reg.SLOT_STAGE_BYTES, Reg.SLOT_SHARDS_DONE]
def State.hideTeacher (s : State) : List Nat → State
  | [] => s
  | k :: ks => (s.resetFields (Reg.nvwSlot k) slotShown).hideTeacher ks
/-- TEACHER_INSTALL (Procedure 13-1, R368). -/
def State.teacherInstall (s : State) (e : Entry) : State :=
  let h := entryArg e 0 % 8
  let n := entryArg e 0 / 16 % 16
  let slots := slotRange h n
  let m := s.bytesAt (.host (entryArg e 1)) 0 (entryArg e 2)
  let blocks := (upto (mBlocks m)).map (fun i => 4096 * h + i)
  let stOf (k : Nat) : Nat := s.rd (Reg.nvwSlot k) Reg.SLOT_STATE
  if n = 0 ∨ 8 < h + n ∨ slots.any (fun k => decide (stOf k ≠ 0) && decide (stOf k ≠ 5)) = true then s.done e 0x20 0x4401
  else match s.manifestFault m n with
    | some check => s.post (entryTicket e 0x20) true 0x4402 check 0
    | none =>
      let recs := blocks.map (fun b => LedgerRec.wear (Fin.ofNat 8 (b / 4096)) (Fin.ofNat 4096 b) (s.wearOf b + 1)) ++ slotRecs 2 h n slots
      if blocks.any (fun b => decide (3000 ≤ s.wearOf b)) then s.done e 0x20 0x4403
      else if s.ledgerShort recs then s.done e 0x20 0xA006
      else
        let s1 := ((s.hideTeacher slots).setSlots 2 h n slots).addWear blocks
        ({ s1 with
          manifests := mapSet [] s1.manifests h m
          installs := s1.installs ++ [⟨Fin.ofNat 8 h, n, entryTicket e 0x20, m, entryArg e 3, []⟩] } : State).ledger recs
def State.installOf (s : State) (n : Nat) : Option Install := s.installs.find? (fun i => decide (i.head.val = n))
def State.dropInstall (s : State) (n : Nat) : State := { s with installs := s.installs.filter (fun i => decide (i.head.val ≠ n)) }
/-- An install ends badly: the slots enter state 5, their wear stays counted (R368). -/
def State.failInstall (s : State) (i : Install) (code : Nat) : State :=
  let h := i.head.val
  let slots := slotRange h i.slots
  let s1 := ((s.dropInstall h).setSlots 5 h i.slots slots).wr (Reg.nvwSlot h) Reg.SLOT_STATUS code
  (({ s1 with manifests := mapSet [] s1.manifests h [] } : State).ledger (slotRecs 5 h i.slots slots)).post i.ticket true code 0 0
/-- What the host has stored in its own memory by now. -/
def State.hostStores (s : State) : List (Nat × Byte) → State
  | [] => s
  | (a, b) :: l => ({ s with hostMem := mapSet 0 s.hostMem a b } : State).hostStores l
/-- A sealed shard is shard i of its manifest: its header is the one R421 gives, and its plaintext has the manifest's
digest. -/
def shardHeader (m : List Byte) (i : Nat) : List Byte :=
  leBytes 4 0x48535451 ++ leBytes 4 i ++ leBytes 8 (mId m) ++ List.replicate 4080 0
/-- The plaintext of sealed shard i: 131,072 granules under the teacher key, each with its own tweak. -/
def shardPlain (m : List Byte) (i : Nat) (sealed : List Byte) : List Byte :=
  (upto (shardBytes / granule)).flatMap (fun g =>
    Config.xtsDecrypt (Config.teacherKey m) (131072 * i + g) ((sealed.drop (4096 + granule * g)).take granule))
def mDigest (m : List Byte) (i : Nat) : List Byte := (m.drop (0x800 + 1680 * mRecipients m + 32 * i)).take 32
def shardGood (m : List Byte) (i : Nat) (sealed : List Byte) : Bool :=
  decide (sealed.take 4096 = shardHeader m i) && decide ((shake256 (shardPlain m i sealed)).take 32 = mDigest m i)
/-- SHARD_PROGRAMMED. A shard that reads well is programmed if it is the manifest's; the block keeps what it decrypts to (15
R421). -/
def State.shardProgrammed (s0 : State) (n i : Nat) (o : ShardOutcome) (bs : List (Nat × Byte)) : State :=
  let s := s0.hostStores bs
  match s.installOf n with
  | none => s
  | some w =>
    if mBlocks w.manifest ≤ i ∨ w.programmed.contains i = true then s
    else match o with
      | .badDigest => s.failInstall w 0x4404
      | .readFailed => s.failInstall w 0x4407
      | .programmed =>
        let sealed := s.bytesAt (.host w.source) (i * sealedShardBytes) sealedShardBytes
        if !shardGood w.manifest i sealed then s.failInstall w 0x4404 else
        let s1 := { s with
          nvw := mapWrite 0 s.nvw (n * slotBytes + i * shardBytes) (shardPlain w.manifest i sealed)
          installs := s.installs.map (fun (v : Install) => if v.head = w.head then { v with programmed := v.programmed ++ [i] } else v) }
        (s1.bump (Reg.nvwSlot n) Reg.SLOT_SHARDS_DONE 1).ledger (slotRecs 2 n w.slots [n])
/-- INSTALL_READBACK_DONE. -/
def State.readbackDone (s : State) (n : Nat) (ok : Bool) : State :=
  match s.installOf n with
  | none => s
  | some w =>
    if w.programmed.length < mBlocks w.manifest then s
    else if !ok then s.failInstall w 0x4404
    else
      let m := w.manifest
      let slots := slotRange n w.slots
      let s1 := ((s.dropInstall n).setSlots 3 n w.slots slots).showTeacher m slots
      ((s1.wr (Reg.nvwSlot n) Reg.SLOT_STATUS 0).ledger (slotRecs 3 n w.slots slots ++ [.manifest (Fin.ofNat 8 n) m])).post w.ticket true 0 0 0
/-- TEACHER_ERASE (R369): of a head whose ENABLE reads 0. A check or staging of it that runs ends without it. -/
def State.teacherErase (s : State) (e : Entry) : State :=
  let h := entryArg e 0 % 8
  let b := Reg.nvwSlot h
  let st := s.rd b Reg.SLOT_STATE
  let n := s.rd b Reg.SLOT_SLOTS
  let recs := slotRecs 1 h n (s.headSlots h)
  if s.rd b Reg.SLOT_FIRST_SLOT ≠ h ∨ s.flag b Reg.SLOT_ENABLE = true ∨ st < 3 ∨ 5 < st then s.done e 0x21 0x4401
  else if s.ledgerShort recs then s.done e 0x21 0xA006
  else
    let s1 := (s.setSlots 1 h n (s.headSlots h)).ledger recs
    { s1 with erasures := s1.erasures ++ [⟨Fin.ofNat 8 h, entryTicket e 0x21⟩] }
/-- A byte of tier 2 lies in one of the slots. -/
def inSlots (l : List Nat) (a : Nat) : Bool := l.contains (a / slotBytes)
/-- ERASE_DONE. -/
def State.eraseDone (s : State) (n : Nat) : State :=
  match s.erasures.find? (fun x => decide (x.head.val = n)) with
  | none => s
  | some x =>
    let slots := s.headSlots n
    let s1 : State := { s with
      erasures := s.erasures.filter (fun y => decide (y.head.val ≠ n))
      nvw := mapClear (inSlots slots) s.nvw
      manifests := mapSet [] s.manifests n [] }
    (((s1.hideTeacher slots).setSlots 0 0 0 slots).ledger (slotRecs 0 0 0 slots)).post x.ticket true 0 0 0

/-! ## Binding and staging (R366, R367) -/

def State.slotCtx (s : State) (n : Nat) : Nat := s.rd (Reg.nvwSlot n) Reg.SLOT_CONTEXT
def State.zeroStage (s : State) (n : Nat) : State :=
  s.zeroRegion (s.slotCtx n) (s.rd (Reg.nvwSlot n) Reg.SLOT_STAGE_BASE) (s.rd (Reg.nvwSlot n) Reg.SLOT_STAGE_BYTES)
/-- Staging has ended before its last shard: the part already written, of so many shards as the device had reached, is zeroed
(Table 13-4). -/
def State.unstage (s : State) (n : Nat) : State :=
  let b := Reg.nvwSlot n
  let shards := Config.stagedShards s.free % (s.rd b Reg.SLOT_STAGE_BYTES / shardBytes)
  ({ s with free := s.free + 1 } : State).zeroRegion (s.slotCtx n) (s.rd b Reg.SLOT_STAGE_BASE) (shards * shardBytes)
/-- The j-th staged shard as it stands in tier 3, and decrypted. -/
def State.sealedStage (s : State) (n j : Nat) : List Byte :=
  s.bytesAt (.host (s.windowBase (s.slotCtx n))) (s.rd (Reg.nvwSlot n) Reg.SLOT_STAGE_SOURCE + j * sealedShardBytes) sealedShardBytes
def State.stagedShard (s : State) (n j : Nat) : List Byte :=
  let m := mapGet [] s.manifests n
  shardPlain m (mBlocks m + j) (s.sealedStage n j)
/-- Every staged shard is the manifest's: they follow those that the slots hold. -/
def State.stageGood (s : State) (n : Nat) : Bool :=
  let m := mapGet [] s.manifests n
  (upto (s.rd (Reg.nvwSlot n) Reg.SLOT_STAGE_BYTES / shardBytes)).all (fun j => shardGood m (mBlocks m + j) (s.sealedStage n j))
def State.stageShards (s : State) (n : Nat) : List Nat → State
  | [] => s
  | j :: js => (s.store (.tier1 (s.slotCtx n)) (s.rd (Reg.nvwSlot n) Reg.SLOT_STAGE_BASE + j * shardBytes) 0 (s.stagedShard n j)).stageShards n js
/-- The slot's check has passed: staging follows, or ENABLE reads 1. -/
def State.slotChecked (s : State) (n : SlotId) : State :=
  if s.rd (Reg.nvwSlot n) Reg.SLOT_STAGE_BYTES = 0 then s.objEnable (.slot n) else { s with staging := s.staging ++ [n] }
def State.stagingDone (s : State) (n : SlotId) (ok : Bool) : State :=
  if s.staging.contains n then
    let s1 := { s with staging := s.staging.filter (fun m => decide (m ≠ n)) }
    let x := s.slotCtx n
    if !s.ctxOn x || decide (s.ctxState x = stTearing) then (s1.unstage n).objPost (.slot n) 0x1902
    else if s.rd (Reg.nvwSlot n) Reg.SLOT_STATE ≠ 3 then (s1.unstage n).objPost (.slot n) 0x1901
    else if ok && s.stageGood n then (s1.stageShards n (upto (s.rd (Reg.nvwSlot n) Reg.SLOT_STAGE_BYTES / shardBytes))).objEnable (.slot n)
    else (s1.unstage n).objPost (.slot n) 0x1906
  else s
/-- A write of 0 to the head's ENABLE. -/
def State.slotDisable (s : State) (n : SlotId) : State :=
  if s.staging.contains n then
    ({ s with staging := s.staging.filter (fun m => decide (m ≠ n)) } : State).zeroStage n |>.cancelCheck (.slot n)
  else if s.checks.contains (.slot n) then s.cancelCheck (.slot n)
  else if s.objOn (.slot n) then
    if (s.ctx (s.slotCtx n)).programs.any (fun p => p.decl.nvw) then s.objPost (.slot n) 0x1907
    else ((s.zeroStage n).objDisable (.slot n) 0).spanRecheck
  else s
def State.bumpPasses (s : State) : List Nat → State
  | [] => s
  | k :: ks => (s.bump (Reg.nvwSlot k) Reg.SLOT_VERIFY_PASSES 1).bumpPasses ks
/-- VERIFY_PASS over the slots of the teacher at head n, or over its staging area, each at its own interval (R372, R373). -/
def State.verifyPass (s : State) (n : Nat) (stage ok : Bool) : State :=
  let b := Reg.nvwSlot n
  let st := s.rd b Reg.SLOT_STATE
  let x := s.slotCtx n
  let on := s.flag b Reg.SLOT_ENABLE
  if s.rd b Reg.SLOT_FIRST_SLOT ≠ n ∨ (st ≠ 3 ∧ st ≠ 4) then s
  else if stage then
    if ok || !on || decide (s.rd b Reg.SLOT_STAGE_BYTES = 0) then s else (s.wr b Reg.SLOT_STATUS 0x4406).haltCtx x 0x4406
  else
    let slots := s.headSlots n
    let s1 := s.bumpPasses slots
    if ok then s1
    else
      let s2 := ((s1.setSlots 4 n (s.rd b Reg.SLOT_SLOTS) slots).wr b Reg.SLOT_STATUS 0x4405).ledger (slotRecs 4 n (s.rd b Reg.SLOT_SLOTS) slots)
      if on then s2.haltCtx x 0x4405 else s2

/-! ## Checkpoint stores (R375, R376) -/

/-- A write of 0 to a store's ENABLE discards both checkpoints. -/
def State.storeDisable (s : State) (n : StoreId) : State :=
  if s.checks.contains (.store n) then s.cancelCheck (.store n)
  else if s.objOn (.store n) then
    ((({ s with incoming := s.incoming.filter (fun j => decide (j.store ≠ n)) } : State).objDisable (.store n) 0).wr
      (Reg.ckptStore n) Reg.STORE_STEP_A 0).wr (Reg.ckptStore n) Reg.STORE_STEP_B 0
  else s
/-- The half an incoming capture takes: the empty or the older one. -/
def State.captureHalf (s : State) (n : Nat) : Nat :=
  let a := s.rd (Reg.ckptStore n) Reg.STORE_STEP_A
  let b := s.rd (Reg.ckptStore n) Reg.STORE_STEP_B
  if a = 0 then 0 else if b = 0 then 1 else if a ≤ b then 0 else 1
/-- CAPTURE_RECEIVE (R376): the buddy refuses the capture, or takes it: the half is empty until the last granule has come, and
those that came ahead are taken now. -/
def State.captureReceive (s : State) (n : StoreId) (r : Capture) : State :=
  let b := Reg.ckptStore n
  let half := s.rd b Reg.STORE_BYTES / 2
  if !s.flag b Reg.STORE_ENABLE || decide (r.device.toNat ≠ s.rd b Reg.STORE_SOURCE_DEVICE) ||
      decide (r.ctx.toNat ≠ s.rd b Reg.STORE_SOURCE_CONTEXT) || decide (half < r.bytes.toNat) then
    (s.bump b Reg.STORE_REFUSED 1).queuePacket (s.sideKey r.ctx.toNat r.device.toNat r.ctx.toNat) false 4 (leBytes 4 0x1A03)
  else
    let k := s.captureHalf n
    let grans := ceilDiv r.bytes.toNat 512
    let i : Incoming := ⟨n, k, r.step, r.device, r.ctx, s.rd b Reg.STORE_BASE + k * half, r.first, grans, grans⟩
    let early := s.delivered.filter (fun pk => decide (pk.type = 4) && isGranuleBody pk.body && (i.place pk).isSome)
    let s1 := ({ s with
      incoming := s.incoming.filter (fun j => decide (j.store ≠ n)) ++ [i]
      delivered := s.delivered.filter (fun pk => !early.contains pk) } : State).wr b (if k = 0 then Reg.STORE_STEP_A else Reg.STORE_STEP_B) 0
    early.foldl (fun a pk => a.deliver pk) s1

/-! ## HDM windows (R377 to R379) -/

def State.hdmDisable (s : State) (w : HdmId) : State :=
  if s.checks.contains (.hdm w) then s.cancelCheck (.hdm w)
  else if s.objOn (.hdm w) then (s.recallWindow w.val).objDisable (.hdm w) 0 else s
/-- The window that serves n bytes at a host physical address, and the offset there: its decoder is committed over them, with
the window's own size (R377, 18 R486). -/
def State.windowAt (s : State) (a n : Nat) : Option (Nat × Nat) :=
  s.decoders.findSome? (fun kv =>
    if s.flag (Reg.hdm kv.1) Reg.HDM_ENABLE && decide (kv.2.2 = s.rd (Reg.hdm kv.1) Reg.HDM_BYTES) && decide (kv.2.1 ≤ a) &&
      decide (a + n ≤ kv.2.1 + kv.2.2) then some (kv.1, a - kv.2.1) else none)
/-- The host's cache holds the lines that it has read. -/
def State.hostHolds (s : State) (x o n : Nat) : State :=
  let lines := upto (if n = 0 then 0 else (o + n - 1) / hostLine - o / hostLine + 1)
  { s with hostHeld := lines.foldl (fun m i => mapSet false m (s.regionAddr x ((o / hostLine + i) * hostLine) / hostLine) true) s.hostHeld }
def accessBytes : HostAccess → Nat
  | .read n => n.val
  | .write bs => bs.length
/-- HDM_HOST_ACCESS at a host physical address. A read is answered with plaintext, or with CXL poison (no bytes), which is the
fault 0x3001 where the granule is poisoned (16 R436); a write of part of a poisoned granule is a fault (R358). A port that
does not run CXL exposes configuration space and BAR0 only (18 Table 18-1). -/
def State.hdmAccess (s : State) (p a : Nat) (h : HostAccess) : State :=
  if s.cxlMode p ≠ 2 then s else
  match s.windowAt a (accessBytes h) with
  | none => s
  | some (w, off) =>
    let b := Reg.hdm w
    let x := s.rd b Reg.HDM_CONTEXT
    let o := s.rd b Reg.HDM_OFFSET + off
    let shut := meetsAny (o, accessBytes h) (s.protectedAreas x)
    match h with
    | .read n =>
      if shut || s.droneInRange x o n.val then { s.bump b Reg.HDM_BLOCKED_READS 1 with reply := none }
      else match s.poisonIn x o n.val with
        | g :: _ => { s.poisonFault x 0x3001 g with reply := none }
        | [] => { s.hostHolds x o n.val with reply := some (s.bytesAt (.tier1 x) o n.val) }
    | .write bs =>
      if shut then s.bump b Reg.HDM_BLOCKED_WRITES 1
      else s.afterPoison x [] [(o, bs.length)] (s.put (.tier1 x) o 0 bs)
/-- HDM_DECODER_COMMIT (18 R486): decoder w commits, or answers error-not-committed. -/
def State.decoderCommit (s : State) (w base size : Nat) : State :=
  if s.flag (Reg.hdm w) Reg.HDM_ENABLE && decide (size ≠ s.rd (Reg.hdm w) Reg.HDM_BYTES) then
    { s with decoderErr := mapSet false s.decoderErr w true }
  else { s with decoders := mapSet (0, 0) s.decoders w (base, size), decoderErr := mapSet false s.decoderErr w false }

end Sys2Proof.Machine
end

