-- ==== Sys2Proof/Machine/SecurityOps.lean ====
section
/-! DEFINITION. Security (15): key generations and the sweep (R408 to R411), measurements and attestation (R414 to R417),
image checks (R415), debug unlock (R427) and vendor-signed commands (R406, R415). -/
namespace Sys2Proof.Machine

/-! ## Key generations -/

def State.keyGen (s : State) : Nat := s.rd Reg.jnrKeys Reg.KEYS_KEY_GEN
def State.sweeping (s : State) : Bool := s.flag Reg.jnrKeys Reg.KEYS_SWEEP_ACTIVE
def State.keysPost (s : State) (code : Nat) : State := s.wr Reg.jnrKeys Reg.KEYS_STATUS code
def State.genRecord (s : State) (on : Bool) (bytes : Nat) : LedgerRec := .keyGen (BitVec.ofNat 32 s.keyGen) on bytes
/-- Every up port's sender moves to its next link key (R413). -/
def State.rekeyPorts (s : State) : List Nat → State
  | [] => s
  | p :: ps => (if portUp s p then s.setPort p { s.port p with rekeyDue := true } else s).rekeyPorts ps
/-- ROTATE (R409). -/
def State.rotate (s : State) : State :=
  if s.sweeping then s.keysPost 0x4301
  else if s.keyGen = 0xFFFFFFFF then s.keysPost 0x4302
  else
    let k := Reg.jnrKeys
    let s1 := (((s.keysPost 0).bump k Reg.KEYS_KEY_GEN 1).bump k Reg.KEYS_ROTATIONS 1).wr k Reg.KEYS_SWEEP_ACTIVE 1
    let s2 := { s1.wr k Reg.KEYS_SWEEP_BYTES 0 with fresh := [] }
    (s2.ledger [s2.genRecord true 0, .counter 3 (s2.rd k Reg.KEYS_ROTATIONS)]).rekeyPorts allPorts
/-- The pause copies of a context stand sealed anew (R410). -/
def State.reseal (s : State) (x : Nat) : List PauseCopy → State
  | [] => s
  | p :: ps =>
    let (l, a) := s.pauseAddr x p.off
    let s1 := ({ s with free := s.free + 1 } : State).store l a 0 (sealedBytes s.free p.len)
    let e := s1.eng x
    (s1.setEng x { e with pauses := e.pauses.map (fun q => if q.stream = p.stream then { q with draw := s.free } else q) }).reseal x ps
def State.resealAll (s : State) : List Nat → State
  | [] => s
  | x :: xs => (s.reseal x (s.eng x).pauses).resealAll xs
/-- The previous generation retires (R411). -/
def State.retire (s : State) (bytes : Nat) : State :=
  let k := Reg.jnrKeys
  let s1 := { (s.wr k Reg.KEYS_SWEEP_ACTIVE 0).wr k Reg.KEYS_SWEEP_BYTES bytes with fresh := [] }
  (s1.ledger [s1.genRecord false 0]).event Reg.HIF_EV_SECURITY
/-- A microsecond of the sweep at SWEEP_SHARE percent of 48 TB/s, half of it reading and half writing back: a free number of
granules within that, counted in SWEEP_BYTES; the Ledger records the progress at each GiB (R410; log entry 73). -/
def State.sweepOn (s : State) : State :=
  if s.sweeping then
    let k := Reg.jnrKeys
    let old := s.rd k Reg.KEYS_SWEEP_BYTES
    let most := 240000 * s.rd k Reg.KEYS_SWEEP_SHARE / granule
    let new := min (tier1Bytes - granule * s.fresh.length) (old + granule * (Config.sweptGranules s.free % (most + 1)))
    let s1 := ({ s with free := s.free + 1 } : State).wr k Reg.KEYS_SWEEP_BYTES new
    if old / 2 ^ 30 < new / 2 ^ 30 then s1.ledger [s1.genRecord true (new / 2 ^ 30 * 2 ^ 30)] else s1
  else s
/-- After a reset that preserves DRAM the sweep goes on from the last point recorded (R410). -/
def State.sweepResume (s : State) : State :=
  let n := s.rd Reg.jnrKeys Reg.KEYS_SWEEP_BYTES
  if s.sweeping then s.wr Reg.jnrKeys Reg.KEYS_SWEEP_BYTES (n / 2 ^ 30 * 2 ^ 30) else s
/-- SWEEP_END: every granule that no other write has reached has been rewritten (R410, R411). -/
def State.sweepEnd (s : State) : State :=
  if s.sweeping then (s.resealAll s.ctxKeys).retire (tier1Bytes - granule * s.fresh.length) else s

/-! ## Measurements and the report -/

/-- MEAS0 to MEAS3 (R414). Images 0 and 1 are the firmware slots, 2 the running microcode. -/
def State.imageDigest (s : State) (i : Nat) : BitVec 512 :=
  match mapGet [] s.images i with | [] => Config.bootMeasurement i | bs => shake512 bs
def State.meas (s : State) (i : Nat) : BitVec 512 :=
  match i with
  | 0 => s.imageDigest (s.rd Reg.jnrStatus Reg.JNR_ACTIVE_SLOT)
  | 1 => s.imageDigest 2
  | 2 => Config.bootMeasurement 3
  | _ => s.meas3
/-- The 12 KiB report (Table 15-4) for a nonce of 32 bytes. -/
def State.report (s : State) (nonce : List Byte) : List Byte :=
  let head := leBytes 4 0x51545441 ++ leBytes 2 1 ++ leBytes 1 0xB0 ++ leBytes 1 (s.rd Reg.jnrDebug Reg.DEBUG_SCOPE) ++
    leBytes 8 Config.deviceIdentity.toNat ++ (nonce ++ List.replicate 32 0).take 32 ++
    leBytes 4 s.keyGen ++ leBytes 2 (s.ownAddress.getD 0xFFFF) ++ leBytes 10 0 ++
    (upto 4).flatMap (fun i => leBytes 64 (s.meas i).toNat) ++
    (upto 8).flatMap (fun n => leBytes 8 (s.rd (Reg.nvwSlot n) Reg.SLOT_MANIFEST_ID)) ++
    leBytes 4 ((upto 8).foldl (fun m n => m + s.rd (Reg.nvwSlot n) Reg.SLOT_STATE * 16 ^ n) 0) ++ leBytes 124 0
  let part (o : Nat) : Byte :=
    if o < 0x901 ∨ (0xA00 ≤ o ∧ o < 0xF00) ∨ (0x1C00 ≤ o ∧ o < 0x2220) ∨ (0x2300 ≤ o ∧ o < 0x2800) then Config.reportFixedByte o
    else if (0xF00 ≤ o ∧ o < 0x1601) ∨ (0x1700 ≤ o ∧ o < 0x1C00) then Config.reportAttestByte (s.meas 0) o
    else if 0x2800 ≤ o ∧ o < 0x2D00 then Config.reportSigByte s.free o
    else 0
  head ++ (upto 0x2E00).map (fun i => part (0x200 + i))
/-- ATTEST (R416). -/
def State.attest (s : State) (e : Entry) : State :=
  let nonce := (upto 4).flatMap (fun i => leBytes 8 (entryArg e i))
  (({ s with free := s.free + 1 } : State).store (.host (entryArg e 4)) 0 0 (s.report nonce)).done e 0x22 0

/-! ## Span neighbours (R417, 10 R294) -/

/-- A slot held enabled under a manifest. -/
def State.slotUnder (s : State) (id : Nat) : Option Nat :=
  s.enabledSlots.find? (fun n => decide (s.rd (Reg.nvwSlot n) Reg.SLOT_MANIFEST_ID = id))
def State.reportHolds (s : State) (r : SpanReport) : Bool :=
  match s.slotUnder r.manifestId.toNat with
  | none => false
  | some n => r.chainOk && (decide (r.debugScope = 0) || manifestBit (mapGet [] s.manifests n) 2)
/-- The neighbour's report failed or lapsed. -/
def State.spanFails (s : State) (p : Nat) : State := (s.loseSpan p).portStatus p 0x4101
/-- ATTEST_REPORT_RECEIVE. -/
def State.reportIn (s : State) (p : Nat) (r : SpanReport) : State :=
  if portUp s p = false then s
  else if s.reportHolds r then
    match s.slotUnder r.manifestId.toNat with
    | some n =>
      if manifestBit (mapGet [] s.manifests n) 3 && r.accepted then
        (s.portsToPeer p).foldl (fun a q =>
          if a.portAlive q then (a.setPort q { a.port q with spanId := r.manifestId.toNat }).wr (Reg.trsPort q) Reg.TRS_SPAN_OK 1 else a) s
      else s
    | none => s
  else s.spanFails p
/-- ATTEST_REPORT_LAPSE. -/
def State.reportLapse (s : State) (p : Nat) : State :=
  if s.flag (Reg.trsPort p) Reg.TRS_SPAN_OK then s.spanFails p else s
/-- SPAN_REPORT_SEND: a report goes to each neighbour that an enabled teacher may span to. -/
def State.spanPeers (s : State) : List Nat :=
  (allPorts.filter (fun p => portUp s p && s.flag (Reg.trsPort p) Reg.TRS_PEER_ADDR_VALID)).foldl
    (fun l p => let a := s.rd (Reg.trsPort p) Reg.TRS_PEER_ADDRESS; if l.contains a then l else l ++ [a]) []
def State.sendReports (s : State) : List Nat → State
  | [] => s
  | a :: l => (({ s with free := s.free + 1 } : State).queuePacket (s.sideKey 0 a 0) false 6 (mgmtBody 4 (s.report []))).sendReports l
def State.spanReportSend (s : State) : State :=
  if s.enabledSlots.any (fun n => manifestBit (mapGet [] s.manifests n) 3) then s.sendReports s.spanPeers else s

/-! ## Signed images and commands (R415) -/

/-- The first refusal of R415 for an image of a kind (0 Joiner firmware, 1 microcode). -/
def State.imageFault (s : State) (kind : Nat) (bs : List Byte) : Option Nat :=
  firstCode
    [(!Config.signatureVerifies bs, 0x4001), (s.revoked.testBit (Config.signingSlot bs).val, 0x4002),
     (decide (Config.securityVersion bs % 65536 < mapGet 0 s.minVersion kind), 0x4003)]
/-- VENDOR_SIGNED. -/
def State.vendorSigned (s : State) (e : Entry) : State :=
  let bs := s.bytesAt (.host (entryArg e 0)) 0 (entryArg e 1)
  let early := firstCode [(!Config.signatureVerifies bs, 0x4001), (s.revoked.testBit (Config.signingSlot bs).val, 0x4002)]
  match early with
  | some code => s.done e 0x28 code
  | none => match Config.vendorCommand bs with
    | (some slot, _) => ({ s with revoked := s.revoked ||| 2 ^ slot.val } : State).done e 0x28 0
    | (none, kind, v) =>
      if v % 65536 < mapGet 0 s.minVersion kind.val then s.done e 0x28 0x4003
      else if s.ledgerShort [.minVersion kind (v % 65536)] then s.done e 0x28 0xA006
      else (({ s with minVersion := mapSet 0 s.minVersion kind.val (v % 65536) } : State).ledger [.minVersion kind (v % 65536)]).done e 0x28 0

/-! ## Debug unlock (R427) -/

/-- CHALLENGE: 32 bytes of the random source, four draws from the one the state names. -/
def State.challengeBytes (s : State) : List Byte := (upto 4).flatMap (fun i => leBytes 8 (Config.randomWord (s.challenge + i)).toNat)
def State.newChallenge (s : State) : State := { s with challenge := s.free, free := s.free + 4 }
/-- A slot in state 2, 3 or 4 holds a manifest that forbids debug. -/
def State.debugBarred (s : State) : Bool :=
  (upto 8).any (fun n =>
    let st := s.rd (Reg.nvwSlot n) Reg.SLOT_STATE
    (decide (st = 2) || decide (st = 3) || decide (st = 4)) &&
      !manifestBit (mapGet [] s.manifests (s.rd (Reg.nvwSlot n) Reg.SLOT_FIRST_SLOT)) 2)
def State.unlockFault (s : State) (t : List Byte) : Option Nat :=
  firstCode
    [(!Config.signatureVerifies t || s.revoked.testBit (Config.signingSlot t).val || decide (leNat (t.take 8) ≠ Config.deviceIdentity.toNat), 0x4501),
     (s.debugBarred, 0x4502), (decide ((t.drop 8).take 32 ≠ s.challengeBytes), 0x4503)]
/-- DEBUG_UNLOCK. -/
def State.debugUnlock (s : State) (e : Entry) : State :=
  let t := s.bytesAt (.host (entryArg e 0)) 0 (entryArg e 1)
  let d := Reg.jnrDebug
  let n := s.rd d Reg.DEBUG_UNLOCKS + 1
  match s.unlockFault t with
  | some code => (s.newChallenge.wr d Reg.DEBUG_STATUS code).done e 0x23 code
  | none =>
    if s.ledgerShort [.counter 4 n] then (s.newChallenge.wr d Reg.DEBUG_STATUS 0xA006).done e 0x23 0xA006
    else
      let scope := (t.drop 40).take 1
      let s1 := ((s.newChallenge.wr d Reg.DEBUG_STATUS 0).wr d Reg.DEBUG_SCOPE (leNat scope)).bump d Reg.DEBUG_UNLOCKS 1
      let m := shake512 (leBytes 64 s.meas3.toNat ++ scope ++ shake256 t)
      (({ s1 with meas3 := m } : State).ledger [.counter 4 n]).done e 0x23 0

end Sys2Proof.Machine
end

