-- ==== Sys2Proof/Machine/ServiceOps.lean ====
section
/-! DEFINITION. Live service (17 R463 to R469): firmware and microcode images, calibrations, the watchdog, the Joiner's
backlog; and the Ledger's compaction (R472). -/
namespace Sys2Proof.Machine

/-- A live-service command ends: JNR_STATUS STATUS and the completion hold the code (Table 17-2). -/
def State.served' (s : State) (e : Entry) (op code : Nat) : State := (s.wr Reg.jnrStatus Reg.JNR_STATUS code).done e op code
def State.activeSlot (s : State) : Nat := s.rd Reg.jnrStatus Reg.JNR_ACTIVE_SLOT
def validField (i : Nat) : Field := if i = 0 then Reg.JNR_VALID_A else Reg.JNR_VALID_B
def State.slotValid (s : State) (i : Nat) : Bool := s.flag Reg.jnrStatus (validField i)
def State.firmwareRecord (s : State) : LedgerRec := .firmware (decide (s.activeSlot = 1)) (s.slotValid 0) (s.slotValid 1)
/-- FW_STAGE (R467): the image goes to the slot that is not running. -/
def State.fwStage (s : State) (e : Entry) : State :=
  let bs := s.bytesAt (.host (entryArg e 0)) 0 (entryArg e 1)
  let i := 1 - s.activeSlot
  match s.imageFault 0 bs with
  | some code => s.served' e 0x24 code
  | none =>
    if s.ledgerShort [s.firmwareRecord] then s.served' e 0x24 0xA006
    else
      let s1 := ({ s with images := mapSet [] s.images i bs } : State).wr Reg.jnrStatus (validField i) 1
      (s1.ledger [s1.firmwareRecord]).served' e 0x24 0
/-- The image of a slot runs the Joiner from now on. -/
def State.runImage (s : State) (i : Nat) : State :=
  let s1 := s.wr Reg.jnrStatus Reg.JNR_ACTIVE_SLOT i
  s1.ledger [s1.firmwareRecord]
/-- FW_ACTIVATE (R467). -/
def State.fwActivate (s : State) (e : Entry) : State :=
  let i := 1 - s.activeSlot
  if !s.slotValid i then s.served' e 0x25 0xA004
  else if s.ledgerShort [s.firmwareRecord] then s.served' e 0x25 0xA006
  else (s.runImage i).spanReportSend.served' e 0x25 0
/-- UCODE_STAGE (R468). -/
def State.unfencedCores (s : State) : Nat := ((upto noCore).filter (fun c => decide (s.coreFence c < 2))).length
def State.ucodeStage (s : State) (e : Entry) : State :=
  let bs := s.bytesAt (.host (entryArg e 0)) 0 (entryArg e 1)
  let other := decide (Config.resultClass bs ≠ Config.resultClass (mapGet [] s.images 2)) && s.enabledCtxs.any (fun x => s.trains x)
  let code := match s.imageFault 1 bs with
    | some c => some c
    | none => firstCode [(decide (s.rd Reg.jnrStatus Reg.JNR_UCODE_PENDING ≠ 0), 0xA002), (other, 0xA005),
        (s.ledgerShort [s.firmwareRecord], 0xA006)]
  match code with
  | some c => s.served' e 0x26 c
  | none =>
    let s1 := ({ s with images := mapSet [] s.images 3 bs, ucodeTaken := [] } : State).wr Reg.jnrStatus Reg.JNR_UCODE_PENDING s.unfencedCores
    (s1.ledger [s1.firmwareRecord]).served' e 0x26 0

/-! ## Calibration (10 R296, R469) -/

/-- The stack of a slot: two slots each (13). -/
def stackBusy (s : State) (st : Nat) : Bool :=
  (upto 8).any (fun n => decide (n / 2 = st) && (decide (s.rd (Reg.nvwSlot n) Reg.SLOT_STATE = 1) || decide (s.rd (Reg.nvwSlot n) Reg.SLOT_STATE = 2)))
def calRecord : CalTarget → LedgerRec
  | .dram c => .calibration 1 c.val
  | .nvw c => .calibration 2 c.val
def State.calibrateLane (s : State) (e : Entry) (p : PortId) (l : LaneId) : State :=
  let b := Reg.trsPort p.val
  if s.rd b Reg.TRS_LANE_CAL ≠ 0 then s.served' e 0x27 0xA002
  else if s.rd b Reg.TRS_LINK_STATE ≠ 2 ∨ s.rd b Reg.TRS_WIDTH = 1 then s.served' e 0x27 0xA003
  else if s.ledgerShort [.calibration 0 (8 * p.val + l.val)] then s.served' e 0x27 0xA006
  else
    let s0 := s.setPort p.val { s.port p.val with narrowed := true }
    let s1 := (((s0.wr b Reg.TRS_LANE_CAL (2 ^ l.val)).wr b Reg.TRS_LANES_GOOD (if l.val < 4 then 0xF0 else 0x0F)).setLink p.val 3).linkGoesOn p.val
    { s1 with laneCals := s1.laneCals ++ [((p, l), entryTicket e 0x27)] }
def State.calibrateTarget (s : State) (e : Entry) (t : CalTarget) (busy : Bool) : State :=
  if s.calibs.any (fun c => decide (c.1 = t)) then s.served' e 0x27 0xA002
  else if busy then s.served' e 0x27 0xA003
  else if s.ledgerShort [calRecord t] then s.served' e 0x27 0xA006
  else { s with calibs := s.calibs ++ [(t, entryTicket e 0x27)] }
/-- CALIBRATE, by the kind and target its entry names; a target the kind does not have is refused as its entry is. -/
def State.calibrate (s : State) (e : Entry) : State :=
  let kind := entryArg e 0 % 4
  let t := entryArg e 0 / 256 % 256
  if kind = 0 then
    if t < 128 then s.calibrateLane e (Fin.ofNat 16 (t / 8)) (Fin.ofNat 8 (t % 8)) else s.done e 0x27 0x1E01
  else if kind = 1 then
    if t < 128 then s.calibrateTarget e (.dram (Fin.ofNat 128 t)) false else s.done e 0x27 0x1E01
  else
    if t < 4 then s.calibrateTarget e (.nvw (Fin.ofNat 4 t)) (stackBusy s t) else s.done e 0x27 0x1E01
def State.calEnds (s : State) (t : Ticket) (r : LedgerRec) : State :=
  ((s.ledger [r]).wr Reg.jnrStatus Reg.JNR_STATUS 0).post t true 0 0 0
/-- LANE_CAL_DONE: the port widens again, unless it has gone down or has retrained meanwhile. -/
def State.laneCalDone (s : State) (p : PortId) (l : LaneId) : State :=
  match s.laneCals.find? (fun c => decide (c.1 = (p, l))) with
  | none => s
  | some c =>
    let b := Reg.trsPort p.val
    let s1 := { s with laneCals := s.laneCals.filter (fun d => decide (d.1 ≠ (p, l))) }
    let s2 := if s.rd b Reg.TRS_LANE_CAL ≠ 0 ∧ s.rd b Reg.TRS_LINK_STATE = 3 ∧ (s.port p.val).narrowed = true then
        ((((s1.setPort p.val { s1.port p.val with narrowed := false }).wr b Reg.TRS_LANES_GOOD 0xFF)).setLink p.val 2).linkGoesOn p.val
      else s1
    (s2.wr b Reg.TRS_LANE_CAL 0).calEnds c.2 (.calibration 0 (8 * p.val + l.val))
/-- CALIBRATION_DONE. -/
def State.calibrationDone (s : State) (t : CalTarget) : State :=
  match s.calibs.find? (fun c => decide (c.1 = t)) with
  | none => s
  | some c => ({ s with calibs := s.calibs.filter (fun d => decide (d.1 ≠ t)) } : State).calEnds c.2 (calRecord t)

/-! ## The Joiner's own time (R464 to R466) -/

/-- Class 4: host management commands but attestation and debug unlock, which are class 3 (Table 17-1). -/
def isClass4 (op : Nat) : Bool := isManagement op && decide (op ≠ 0x22) && decide (op ≠ 0x23)
/-- RETRY_AFTER_MS: from 1 to 1,000. -/
def State.retryAfter (s : State) : Nat := Config.retryAfterMs s.free % 1000 + 1
/-- A command that has not started completes with 0xA001. -/
def State.turnAway (s : State) (f : Fetched) : State :=
  let r := f.entry.ring.val
  let k := s.ring r
  let s1 := s.setRing r { k with fetched := k.fetched.erase f, running := k.running + 1 }
  (({ s1 with free := s.free + 1 } : State).bump Reg.jnrStatus Reg.JNR_BUSY_REFUSALS 1).post
    (entryTicket f.entry f.op.toNat) true 0xA001 s.retryAfter 0
def State.turnAll (s : State) : List Fetched → State
  | [] => s
  | f :: fs => (s.turnAway f).turnAll fs
/-- COMMAND_BUSY_TIMEOUT. -/
def State.busyTimeout (s : State) (e : Entry) (op : BitVec 8) : State :=
  if isClass4 op.toNat then s.turnAway ⟨op, e⟩ else s
/-- JOINER_WATCHDOG (R466): the other slot's image starts if that slot is VALID; host commands for the Joiner that have
arrived are turned away. -/
def State.watchdog (s : State) : State :=
  let i := 1 - s.activeSlot
  let s1 := s.bump Reg.jnrStatus Reg.JNR_WATCHDOG_RESTARTS 1
  let s2 := s1.ledger [.counter 2 (s1.rd Reg.jnrStatus Reg.JNR_WATCHDOG_RESTARTS)]
  let s3 := if s.slotValid i then s2.runImage i else s2
  s3.turnAll ((s3.rings.flatMap (fun kv => kv.2.fetched)).filter (fun f => isManagement f.op.toNat))
/-- TELEMETRY_SAMPLE: one that falls due while the Joiner holds other work is lost. -/
def State.telemetry (s : State) (busy : Bool) : State := if busy then s.inc Reg.jnrStatus Reg.JNR_TELEMETRY_LOST else s

/-! ## Compaction (R472) -/

/-- What a record speaks about: a later one replaces it. -/
def recKey : LedgerRec → Nat × Nat × Nat
  | .fence c => (1, c.val, 0)
  | .spare b _ _ => (2, b.val, 0)
  | .wear s b _ => (3, s.val, b.val)
  | .keyGen _ _ _ => (4, 0, 0)
  | .manifest h _ => (5, h.val, 0)
  | .slotState s _ _ _ => (6, s.val, 0)
  | .firmware _ _ _ => (7, 0, 0)
  | .minVersion k _ => (7, 1, k.val)
  | .calibration k t => (8, k.val, t)
  | .ckptIndex x n => (9, x.val, n.toNat)
  | .tenantNonce x _ => (10, x.val, 0)
  | .counter w v => (11, w.val, if w = 6 then v / 2 ^ 32 else 0)
  | .unknown t => (256 + t.toNat, 0, 0)
/-- The records that no later one replaces, in order. -/
def latestRecs : List LedgerRec → List LedgerRec
  | [] => []
  | r :: rs => if rs.any (fun q => decide (recKey q = recKey r)) then latestRecs rs else r :: latestRecs rs
/-- The current state as records: each bent's map, with the core whose place the free core took still in a place of its own
where there is one, then what is not replaced later, then the maps of those bents as they stand. -/
def isSpare : LedgerRec → Bool
  | .spare _ _ _ => true
  | _ => false
def State.beforeSpare (s : State) : LedgerRec → LedgerRec
  | .spare b m f =>
    match (upto 17).find? (fun i => decide (mapGet 0 s.fences (17 * b.val + i) = 3)), m with
    | some t, some g :: rest => .spare b (some (Fin.ofNat 17 t) :: rest) (some g)
    | _, _ => .spare b m f
  | r => r
def State.currentRecs (s : State) (rs : List LedgerRec) : List LedgerRec :=
  let l := latestRecs rs
  let maps := l.filter isSpare
  maps.map s.beforeSpare ++ l.filter (fun r => !isSpare r) ++ maps.filter (fun r => decide (s.beforeSpare r ≠ r))
/-- LEDGER_COMPACTION: at 75 % the current state is written into the other half. -/
def State.compaction (s : State) : State :=
  let a := s.activeHalf
  if s.flag Reg.ldgStatus Reg.LDG_COMPACTING || decide (100 * s.halfUsed a < 75 * halfBytes) then s
  else
    ({ s with journal := mapSet [] s.journal (1 - a) [s.currentRecs (mapGet [] s.journal a).flatten] } : State).wr Reg.ldgStatus Reg.LDG_COMPACTING 1
/-- COMPACTION_DONE: the switch marker is written. -/
def State.compactionDone (s : State) : State :=
  let l := Reg.ldgStatus
  if s.flag l Reg.LDG_COMPACTING then
    let a := s.activeHalf
    let e := s.rd l Reg.LDG_EPOCH + 1
    let s1 := (((s.wr l Reg.LDG_COMPACTING 0).wr l Reg.LDG_ACTIVE_HALF (1 - a)).wr l Reg.LDG_EPOCH e).bump l Reg.LDG_COMPACTIONS 1
    let s2 : State := { s1 with
      journal := mapSet [] s1.journal a [], halfEpoch := mapSet 0 (mapSet 0 s1.halfEpoch a 0) (1 - a) e }
    (s2.ledger [.counter 5 (s2.rd l Reg.LDG_COMPACTIONS)]).showFill
  else s

end Sys2Proof.Machine
end

