-- ==== Sys2Proof/Machine/TrainOps.lean ====
section
/-! DEFINITION. Training steps (09 R249 to R253), the loss scale (R256), the commit gate (R257 to R259), evaluation
snapshots (R260), risk (R261), checkpoints (R262 to R264, R532), restore (R265 to R267) and replay (R268, R269). -/
namespace Sys2Proof.Machine

/-! ## The context's cores and the step record -/

/-- A logical core as it stands: live while its bay is held, else as saved with the context. -/
def State.coreView (s : State) (x k : Nat) : Core :=
  match s.ctxCore x k with
  | some c => s.core c
  | none => if (s.ctx x).hasSaved then mapGet Core.start (s.ctx x).saved k else mapGet Core.start (s.ctx x).kept k
def State.ctxLogical (s : State) (x : Nat) : List Nat := upto (4 * s.cf x Reg.CTX_BAYS)
/-- The counters of Table 09-4, summed over the context's cores: RESULTS, OVERFLOWS and VANISHED by format, then the integer
retries and the saturated tiles. -/
def State.counterSums (s : State) (x : Nat) : List Nat :=
  let sum (i : Nat) : Nat := sumOf ((s.ctxLogical x).map (fun k => mapGet 0 (s.coreView x k).counters i))
  (upto 30).map sum ++ [sum cntRetry1 + sum cntRetry2, sum cntTileSat]
/-- Every lane's draw counter, core by core. -/
def State.drawCounts (s : State) (x : Nat) : List Nat :=
  (s.ctxLogical x).flatMap (fun k => (upto 64).map (fun j => (laneOf (s.coreView x k).regs.lanes j).counter))
def State.recWrite (s : State) (x off n v : Nat) : State := s.store (.tier1 x) (s.cf x Reg.CTX_STEPREC_BASE + off) 0 (leBytes n v)
def State.recRead (s : State) (x off n : Nat) : Nat := s.natAt (.tier1 x) (s.cf x Reg.CTX_STEPREC_BASE + off) n
/-- 2^e in binary32, for the exponents of R247. -/
def pow2b32 (e : Int) : Nat := (finish .b32 .rne 0 { v := .fin ⟨false, 1, 1, e⟩ }).bits

/-! ## Opening (R249, R250, R267) -/

/-- The words of Table 09-10 before the bucket rows. -/
def State.traceHeader (s : State) (x : Nat) (o : OpenStep) : List Byte :=
  let k := s.ctx x
  leBytes 8 (s.stepNo x) ++ leBytes 8 (s.cf x Reg.CTX_STEP) ++ leBytes 8 o.dataPos.toNat ++ leBytes 8 (s.cf x Reg.CTX_SEED) ++
    leBytes 8 (o.lsExp.toNat + if k.traceTruncated then 256 else 0) ++ leBytes 8 k.traceUsed ++ leBytes 8 (s.traceBuckets x) ++ leBytes 8 0
/-- The row of bucket b: the digest is over its base exponents as the open step uses them (11 R310). -/
def State.traceRow (s : State) (x b : Nat) : List Byte :=
  leBytes 8 (b + (s.cf x Reg.CTX_CHANNEL_BASE + b % s.cf x Reg.CTX_CHANNELS) * 2 ^ 32) ++
    (shake256 ((upto (s.blocksPerBucket x)).map (fun i => BitVec.ofNat 8 (s.baseExp x b i)))).take 8
/-- DRAWS, core by core: its lanes' counters at step-open, then at step-commit. -/
def drawBytes (atOpen atCommit : List Nat) : List Byte :=
  (upto (atOpen.length / 64)).flatMap (fun k => (((atOpen.drop (64 * k)).take 64) ++ ((atCommit.drop (64 * k)).take 64)).flatMap (leBytes 8))
/-- The record of an armed step begins: its header, its bucket rows, and the draws so far. -/
def State.traceOpen (s : State) (x : Nat) (o : OpenStep) : State :=
  s.traceStore x 0 (s.traceHeader x o ++ (upto (s.traceBuckets x)).flatMap (s.traceRow x) ++
    drawBytes o.drawsAtOpen (o.drawsAtOpen.map (fun _ => 0)))
/-- It ends: the header says how much there is, and the draws at step-commit are known. -/
def State.traceClose (s : State) (x : Nat) (o : OpenStep) : State :=
  (s.traceStore x 0 (s.traceHeader x o)).traceStore x (s.traceDraws x) (drawBytes o.drawsAtOpen (s.drawCounts x))
def State.openStep (s : State) (x : Nat) (pos next : Word) (flags : BitVec 5) : State :=
  let e := s.cf x Reg.CTX_LS_EXP
  let k := s.ctx x
  let armed := decide (k.replayArm = some (BitVec.ofNat 64 (s.stepNo x)))
  let o : OpenStep :=
    { dataPos := pos, dataNext := next, evalReq := flags.getLsbD 0, ckptForce := flags.getLsbD 1, lsExp := BitVec.ofNat 8 e,
      countersAtOpen := s.counterSums x, drawsAtOpen := s.drawCounts x, stopEvent := none, floorHalt := false }
  let s1 := s.setCtx x { k with
    step := some o, dataNextDue := none, exch := k.exch.fresh
    trace := if armed then [] else k.trace, imports := if armed then [] else k.imports
    replayed := if armed then k.programs else k.replayed
    traceTruncated := if armed then decide (s.cf x Reg.CTX_TRACE_BYTES < s.traceHead x) else k.traceTruncated
    traceStep := if armed then BitVec.ofNat 64 (s.stepNo x) else k.traceStep }
  let s2 := s1.wr (Reg.ctx x) Reg.CTX_STEP_STATE 1
  let s3 := s2.store (.tier1 x) (s.cf x Reg.CTX_STEPREC_BASE) 0
    (leBytes 8 (s.stepNo x) ++ leBytes 8 pos.toNat ++ leBytes 8 (e % 256) ++ leBytes 8 (pow2b32 (signed 8 e)) ++ List.replicate 480 0)
  (if armed then s3.traceOpen x o else s3).takeEarly x
def State.stepOpen (s : State) (e : Entry) : State :=
  let x := e.ctx.val
  let st := s.stepState x
  let pos := e.args.getD 0 0
  if !s.trains x then s.done e 2 0x1501
  else if st = 6 then s.done e 2 0x9201
  else if st ≠ 0 ∧ st ≠ 4 then s.done e 2 0x5004
  else if (s.ctx x).dataNextDue.any (fun d => decide (d ≠ pos)) then s.done e 2 0x9008
  else (s.openStep x pos (e.args.getD 1 0) e.flags).done e 2 0

/-! ## The loss scale (Table 09-5) -/

/-- E, CLEAN and FLOOR_RUN after COMMIT. -/
def State.scaleCommit (s : State) (x : Nat) : State :=
  let b := Reg.ctx x
  let clean := s.cf x Reg.CTX_LS_CLEAN
  let e := signed 8 (s.cf x Reg.CTX_LS_EXP)
  let s1 := s.wr b Reg.CTX_LS_FLOOR_RUN 0
  if clean + 1 < s.cf x Reg.CTX_LS_INTERVAL then s1.wr b Reg.CTX_LS_CLEAN (clean + 1)
  else if e < signed 8 (s.cf x Reg.CTX_LS_MAX) then (s1.wr b Reg.CTX_LS_CLEAN 0).wr b Reg.CTX_LS_EXP (unsignedOf 8 (e + 1))
  else s1.wr b Reg.CTX_LS_CLEAN 0
/-- E, CLEAN and FLOOR_RUN at SKIP, and whether the floor limit is reached. -/
def State.scaleSkip (s : State) (x : Nat) : State × Bool :=
  let b := Reg.ctx x
  let e := signed 8 (s.cf x Reg.CTX_LS_EXP)
  let run := s.cf x Reg.CTX_LS_FLOOR_RUN
  let s1 := s.wr b Reg.CTX_LS_CLEAN 0
  if signed 8 (s.cf x Reg.CTX_LS_MIN) < e then ((s1.wr b Reg.CTX_LS_EXP (unsignedOf 8 (e - 1))).wr b Reg.CTX_LS_FLOOR_RUN 0, false)
  else if run + 1 < s.cf x Reg.CTX_LS_FLOOR_LIMIT then (s1.wr b Reg.CTX_LS_FLOOR_RUN (run + 1), false)
  else (s1.wr b Reg.CTX_LS_FLOOR_RUN 0, true)

/-! ## Committing (R251, R260, R262, R268) -/

/-- The checkpoint interval (R262). -/
def ckptInterval (bound threshold risk : Nat) : Nat := if risk < threshold then bound else max 1 (bound * threshold / risk)
/-- A program runs on an evaluation bay. -/
def State.evalBusy (s : State) (x : Nat) : Bool :=
  (maskList 64 (s.cf x Reg.CTX_EVAL_BAYS)).any (fun b => match (s.ctx x).programOn b with | some p => p.started | none => false)
def State.snapshot (s : State) (x : Nat) : State :=
  s.store (.tier1 x) (s.cf x Reg.CTX_EVAL_SNAP_BASE) 0 (s.bytesAt (.tier1 x) (s.workcopyAt x) (s.cf x Reg.CTX_WORKCOPY_BYTES))
/-- Phase 5: the step is closed. -/
def State.commitStep (s : State) (x : Nat) (o : OpenStep) : State :=
  let b := Reg.ctx x
  let s0 := if s.tracing x then s.traceClose x o else s
  let n := s.stepNo x
  let s1 := if s.stepState x = 2 then (s0.scaleCommit x).dropChanter x else s0
  let s2 := (s1.exchCommit x).wr b Reg.CTX_STEP n
  let iv := ckptInterval (s.cf x Reg.CTX_LOSS_BOUND) (s.cf x Reg.CTX_RISK_THRESHOLD) (s.cf x Reg.CTX_JOB_RISK)
  let s3 := (s2.wr b Reg.CTX_CKPT_INTERVAL iv).wr b Reg.CTX_STEP_STATE 0
  let snap := o.evalReq && decide (s.cf x Reg.CTX_EVAL_BAYS ≠ 0) && !s.evalBusy x
  let s4 := if snap then s3.snapshot x else s3
  let arm := (s.ctx x).replayArm
  let take := decide (iv ≤ n - s.cf x Reg.CTX_LAST_CKPT_STEP) || o.ckptForce || decide (arm = some (BitVec.ofNat 64 (n + 1)))
  let k := s4.ctx x
  let drain := s.flag b Reg.CTX_DRAIN && decide ((k.ckptCount + 1) % s.cf x Reg.CTX_DRAIN_EVERY = 0)
  let s5 := s4.setCtx x { k with
    step := none, lastDataNext := o.dataNext, replayArm := if arm = some (BitVec.ofNat 64 n) then none else arm
    ckptCount := if take then k.ckptCount + 1 else k.ckptCount
    captures := if take then k.captures ++ [⟨BitVec.ofNat 64 n, o.dataNext, drain, none, 0, 0⟩] else k.captures }
  let bits := s5.recRead x 0x10 8
  let s6 := s5.recWrite x 0x10 8 (bits + (if snap then 2 ^ 13 else 0) + (if take then 2 ^ 14 else 0))
  if o.floorHalt then s6.haltCtx x 0x7101 else s6
def State.stepCommit (s : State) (e : Entry) : State :=
  let x := e.ctx.val
  let st := s.stepState x
  if !s.trains x then s.done e 3 0x1501
  else if st = 1 then s.hold 3 e
  else if st = 4 ∨ st = 5 then s.done e 3 (s.ctx x).gateReason.toNat
  else if st = 2 ∨ st = 3 then
    match (s.ctx x).step with
    | some o => (s.commitStep x o).done e 3 0
    | none => s.done e 3 0x5004
  else s.done e 3 0x5004
/-- Step-commits that waited for the decision: the first closes the step where it may, the rest find it closed. -/
def State.waitingCommits (s : State) (x : Nat) : State :=
  let st := s.stepState x
  if st = 4 ∨ st = 5 then s.finishTickets x 3 (s.ctx x).gateReason.toNat
  else match (s.ctx x).tickets.find? (fun t => decide (t.op.toNat = 3)), (s.ctx x).step with
    | some t, some o =>
      let k := s.ctx x
      let s1 := (s.setCtx x { k with tickets := k.tickets.erase t }).commitStep x o
      (s1.post t true 0 0 0).finishTickets x 3 0x5004
    | _, _ => s

/-! ## The gate (R257 to R259) -/

/-- The bays the context has, or had last, still meet its programs' declarations. -/
def State.canRerun (s : State) (x : Nat) : Bool :=
  let need := maxOf ((s.ctx x).programs.map (fun p => p.decl.minCores))
  (maskList 64 (s.cf x Reg.CTX_LAST_BAYS)).all (fun b =>
    decide (need ≤ s.mannedCores b) && decide (3 ≤ s.mannedCores b) &&
    (decide (s.mannedCores b = 4) || s.flag (Reg.ctx x) Reg.CTX_ELASTIC))
/-- CLIP_FACTOR and GMUL (R258). -/
def clipFactor (q clip : Nat) (e : Int) : Nat :=
  let u := FV.of .b64 .rne 0 [] { v := (FV.num .b64 (sqrt64 { bits := q })).scale ⟨false, 1, 1, -e⟩ }
  let c := f32to64 { bits := clip }
  let zero := (FV.num .b32 { bits := clip }).isZero
  let within := match numCmp (FV.num .b64 u) (FV.num .b64 c) with | some .gt => false | some _ => true | none => false
  if zero || within then one32.bits else (f64to32 (div64 c u)).bits
def gmulOf (c : Nat) (e : Int) : Nat := (finish .b32 .rne 0 { v := (FV.num .b32 { bits := c }).scale ⟨false, 1, 1, -e⟩ }).bits
def belowOne (c : Nat) : Bool := match numCmp (FV.num .b32 { bits := c }) (FV.num .b32 one32) with | some .lt => true | _ => false
/-- The increases of the step's counters go into the record. -/
def State.writeCounters (s : State) (x : Nat) (o : OpenStep) : State :=
  let now := s.counterSums x
  s.store (.tier1 x) (s.cf x Reg.CTX_STEPREC_BASE + 0x100) 0
    ((upto 32).flatMap (fun i => leBytes 8 (now.getD i 0 - o.countersAtOpen.getD i 0)))
/-- The gate's own words of the record (R259). -/
def State.writeGate (s : State) (x : Nat) (o : OpenStep) (gate reason : Nat) (t : Option Summary) : State :=
  let e := signed 8 o.lsExp.toNat
  let bad := match t with | some r => r.nonfinite | none => false
  let q := match t with | some r => r.q.toNat | none => 0
  let risk := match t with | some r => r.risk.toNat | none => 0
  let c := if bad then one32.bits else clipFactor q (s.cf x Reg.CTX_CLIP_NORM) e
  let g := gmulOf c e
  let decided := decide (gate ≤ 2)
  let s1 := s.recWrite x 0x10 8 (o.lsExp.toNat + gate * 2 ^ 8 + (if bad then 2 ^ 11 else 0) + (if decided && belowOne c then 2 ^ 12 else 0))
  let s2 := if decided then (s1.recWrite x 0x1C 4 g).recWrite x 0x20 8 q else s1
  let s3 := s2.recWrite x 0x28 8 ((if decided then c else 0) + risk * 2 ^ 32 + reason * 2 ^ 48)
  s3.writeCounters x o
def State.setGate (s : State) (x st reason : Nat) (o : OpenStep) : State :=
  (s.setCtx x { s.ctx x with step := if st = 4 ∨ st = 5 then none else some o, gateReason := BitVec.ofNat 16 reason }).wr (Reg.ctx x) Reg.CTX_STEP_STATE st
def State.gateHalt (s : State) (x : Nat) (o : OpenStep) (code : Nat) : State :=
  let s1 := if (s.exch x).merged || decide (code = 0x3205) then s else s.abortAttempt x code
  (((s1.writeGate x o 4 code none).setGate x 5 code o).dropFormed x).waitingCommits x
def State.gateRepeat (s : State) (x : Nat) (o : OpenStep) (code : Nat) : State :=
  let s1 := s.abortAttempt x code
  (((s1.writeGate x o 3 code none).setGate x 4 code o).exchRepeat x).waitingCommits x
def State.gateOpen (s : State) (x : Nat) (o : OpenStep) (t : Summary) : State :=
  let s0 := s.wr (Reg.ctx x) Reg.CTX_JOB_RISK t.risk.toNat
  if t.nonfinite then
    let (s1, floor) := s0.scaleSkip x
    ((((s1.writeGate x o 2 0 (some t)).setGate x 3 0 { o with floorHalt := floor }).dropFormed x).signalDone x).waitingCommits x
  else
    ((((s0.writeGate x o 1 0 (some t)).setGate x 2 0 o).signalDone x).takeEarlyChunks x).waitingCommits x
/-- GATE_DECIDE: the first row of Table 09-6 whose condition holds, once its inputs are there; drained is the islands' report
that every check of the step's results has completed (16 R439). -/
def State.gateDecide (s : State) (x : Nat) (drained : Bool) : State :=
  let k := s.ctx x
  match k.step with
  | none => s
  | some o =>
    if s.stepState x ≠ 1 then s
    else match o.stopEvent with
      | some c =>
        if c = 0x3205 ∨ k.exch.merged = true ∨ s.canRerun x = false then s.gateHalt x o c.toNat else s.gateRepeat x o c.toNat
      | none => match k.exch.abort with
        | some c => s.gateRepeat x o c.toNat
        | none => match k.exch.totals with
          | some t =>
            if !drained || k.captures.any (fun d => d.taken.isNone) then s
            else if s.cf x Reg.CTX_LOSS_BOUND < s.cf x Reg.CTX_STEP + 1 - s.cf x Reg.CTX_LAST_CKPT_STEP then s
            else s.gateOpen x o t
          | none => s

/-! ## Risk (R261) -/

def riskWindow : Nat := 600
/-- The smallest thermal margin: of the core islands as it is given, and of the DRAM stacks to their 100 °C (13 R361). -/
def State.thermalMargin (s : State) (islands : Int) : Int :=
  (upto 8).foldl (fun m g => min m (100 - (s.rd (Reg.safDram g) Reg.DRAM_TEMP_C : Int))) islands
/-- RISK_SAMPLE: the counts of the last 60 s, and the thermal margin. -/
def State.riskSample (s : State) (islands : Int) : State :=
  let old := s.riskHist.getD (riskWindow - 1) (0, 0, 0)
  let w (f : Field) : Nat := s.rd Reg.safRisk f
  let r := w Reg.RISK_W_CE * (s.corrected - old.1) + w Reg.RISK_W_RT * (s.retrains - old.2.1) +
    w Reg.RISK_W_TH * (max 0 (10 - s.thermalMargin islands)).toNat + w Reg.RISK_W_DR * (s.droops - old.2.2)
  { s with risk := min 65535 r, riskHist := (s.corrected, s.retrains, s.droops) :: s.riskHist.take (riskWindow - 1) }

/-! ## Checkpoints (R263 to R265, R532) -/

/-- The mark of lane j of core k (R265). -/
def markAt (marks : List Byte) (k j : Nat) : Nat := leNat ((marks.drop (512 * k + 8 * j)).take 8)
def State.markBytes (s : State) (x : Nat) : List Byte :=
  s.bytesAt (.tier1 x) (s.cf x Reg.CTX_MARK_BASE) (512 * (4 * s.cf x Reg.CTX_BAYS))
/-- Every core has written its mark for a step, or runs nothing. -/
def State.marksReady (s : State) (x step : Nat) : Bool :=
  let m := s.markBytes x
  (s.ctxLogical x).all (fun k =>
    decide ((s.coreView x k).run = .halted) || decide ((s.coreView x k).run = .idle) ||
    (upto 64).all (fun j => decide (bitsAt (markAt m k j) 48 16 = step % 2 ^ 16)))
def State.roBlock (s : State) (x : Nat) : List Nat := (Reg.ctxTrainFields.filter isRo).map (fun f => s.cf x f)
def State.laneStates (s : State) (x : Nat) : Map Lane :=
  (s.ctxLogical x).flatMap (fun k => (upto 64).map (fun j => (64 * k + j, laneOf (s.coreView x k).regs.lanes j)))
def State.captureNow (s : State) (x : CtxId) (d : Due) : Checkpoint :=
  { ctx := x, step := d.step, block := s.roBlock x, split := s.flag (Reg.ctx x) Reg.CTX_MASTER_SPLIT, bays := s.cf x Reg.CTX_BAYS
    dataNext := d.dataNext, stateLen := s.cf x Reg.CTX_STATE_BYTES
    stateBytes := s.bytesAt (.tier1 x) (s.cf x Reg.CTX_STATE_BASE) (s.cf x Reg.CTX_STATE_BYTES)
    marks := s.markBytes x, lanes := s.laneStates x, keyGen := s.rd Reg.jnrKeys Reg.KEYS_KEY_GEN }
def splitDue : List Due → Option (List Due × Due × List Due)
  | [] => none
  | d :: ds => if d.taken.isNone then some ([], d, ds) else (splitDue ds).map (fun r => (d :: r.1, r.2))
/-- A checkpoint as the buddy stores it. DESIGN CHOICE (log entry 110): the state region, the RO fields in the order of Table
09-1, DATA_NEXT, CTX_MASTER_SPLIT, the bays, the key generation, the mark table, each lane's state and counter, and the SHAKE256
digest of all of these. -/
def ckptBytes (c : Checkpoint) : List Byte :=
  let body := c.stateBytes ++ c.block.flatMap (leBytes 8) ++ leBytes 8 c.dataNext.toNat ++ leBytes 8 (if c.split then 1 else 0) ++
    leBytes 8 c.bays ++ leBytes 8 c.keyGen ++ c.marks ++ c.lanes.flatMap (fun kv => leBytes 8 kv.2.state.toNat ++ leBytes 8 kv.2.counter)
  body ++ shake256 body
/-- The channel of a context's checkpoints. -/
def State.ckptKey (s : State) (x : Nat) : ChannelKey := s.sideKey x (s.cf x Reg.CTX_BUDDY_DEVICE) x
/-- The bodies of a checkpoint's packets: what announces it (DESIGN CHOICE, log entry 104), and its granules. -/
def State.ckptBodies (s : State) (x : Nat) (c : Checkpoint) : List (List Byte) :=
  let bs := ckptBytes c
  (leBytes 4 (s.cf x Reg.CTX_BUDDY_STORE) ++ leBytes 8 bs.length ++ leBytes 8 c.step.toNat) :: granuleBodies bs
/-- The buddy has acknowledged every packet of a capture. -/
def State.ckptArrived (s : State) (x : Nat) (d : Due) : Bool :=
  let mine (pk : Packet) : Bool := decide (pk.key = s.ckptKey x) && decide (pk.type = 4) && decide ((pk.seq - d.first).toNat < d.packets)
  !s.outbox.any mine && (match s.channel (s.ckptKey x) with | some c => !c.down && !c.unacked.any (fun e => mine e.1) | none => true)
/-- What a capture reads of the region. -/
def State.ckptReads (s : State) (x : Nat) : List (Nat × Nat) :=
  [(s.cf x Reg.CTX_STATE_BASE, s.cf x Reg.CTX_STATE_BYTES), (s.cf x Reg.CTX_MARK_BASE, 512 * (4 * s.cf x Reg.CTX_BAYS))]
/-- CHECKPOINT_CAPTURE_START. A granule that fails its check, or is poisoned, is consumed here: the capture ends (16 R432, Table
16-3; DESIGN CHOICE, log entry 111: the record of a failed check names the region's first granule). -/
def State.captureStart (s : State) (x : CtxId) (good : Bool) : State :=
  let k := s.ctx x
  match splitDue k.captures with
  | none => s
  | some (before, d, after) =>
    if !s.marksReady x (d.step.toNat + 1) && decide (s.ctxState x ≠ stStopped) then s
    else if d.drain && s.drainLeaves x (s.windowBytes x) then
      (s.setCtx x { k with captures := before ++ after }).haltCtx x 0x1506
    else if s.droneInRange x (s.cf x Reg.CTX_STATE_BASE) (s.cf x Reg.CTX_STATE_BYTES) then
      (s.setCtx x { k with captures := before ++ after }).haltCtx x 0x4202
    else if !good then
      let a := s.regionAddr x (s.cf x Reg.CTX_STATE_BASE)
      (s.setCtx x { k with captures := before ++ after }).dataFault x 0x3002 { detect := 0x3002, island := 0x3000 + a / 2 ^ 34, addr := a }
    else match s.poisonMet x (s.ckptReads x) [] with
    | some (code, g) => (s.setCtx x { k with captures := before ++ after }).poisonFault x code g
    | none =>
      let c := s.captureNow x d
      let bodies := s.ckptBodies x c
      let seq := BitVec.ofNat 32 (s.channelOr (s.ckptKey x) false).next
      (s.setCtx x { k with captures := before ++ { d with taken := some c, first := seq, packets := bodies.length } :: after }).queueBodies
        (s.ckptKey x) false 4 bodies
/-- The two newest of a context, newest first; the others are as they were. -/
def keepTwo (c : Checkpoint) (l : List Checkpoint) : List Checkpoint :=
  c :: (l.filter (fun d => decide (d.ctx = c.ctx))).take 1 ++ l.filter (fun d => decide (d.ctx ≠ c.ctx))
/-- A drained checkpoint stands sealed in its half of the drain area, over the older one (R532, 15 R425). -/
def State.writeDrain (s : State) (x : Nat) : State :=
  let k := s.ctx x
  let half := s.cf x Reg.CTX_STATE_BYTES + mib
  (({ s with free := s.free + 1 } : State).setCtx x { k with drainHalf := 1 - k.drainHalf }).store (.host (s.windowBase x))
    (s.cf x Reg.CTX_DRAIN_BASE + half * k.drainHalf) 0 (sealedBytes s.free half)
/-- CHECKPOINT_SECURED: the buddy has acknowledged the last granule and the digest. -/
def State.secured (s : State) (x : CtxId) : State :=
  let k := s.ctx x
  match k.captures with
  | d :: rest => match d.taken with
    | some c =>
      if !s.ckptArrived x d then s else
      let s0 := (s.setCtx x { k with captures := rest }).wr (Reg.ctx x) Reg.CTX_LAST_CKPT_STEP c.step.toNat
      let s1 := if d.drain then s0.writeDrain x else s0
      { s1 with
        ckpts := keepTwo c s.ckpts, drains := if d.drain then keepTwo c s.drains else s.drains
        ckptIndex := (x, c.step) :: (s.ckptIndex.filter (fun e => decide (e.1 = x))).take 1 ++ s.ckptIndex.filter (fun e => decide (e.1 ≠ x))
        ledgerWait := s.ledgerWait ++ [[.ckptIndex x c.step]] }
    | none => s
  | [] => s

/-! ## Restore (R266) -/

/-- A key generation is live: the current one, or the previous one while a sweep runs (15 R408). -/
def State.keyLive (s : State) (g : Nat) : Bool :=
  let cur := s.rd Reg.jnrKeys Reg.KEYS_KEY_GEN
  decide (g = cur) || (s.flag Reg.jnrKeys Reg.KEYS_SWEEP_ACTIVE && decide (g + 1 = cur))
def ckptLane (c : Checkpoint) (k j : Nat) : Lane := mapGet Lane.start c.lanes (64 * k + j)
def lanePairs (bays : Nat) : List (Nat × Nat) := (upto (4 * bays)).flatMap (fun k => (upto 64).map (fun j => (k, j)))
def restoredLane (c : Checkpoint) (k j : Nat) : Lane :=
  let l := ckptLane c k j
  l.rewind (l.counter - bitsAt (markAt c.marks k j) 0 48)
def State.restoreFault (s : State) (x : Nat) (step : Word) (src : RestoreSource) : Except Nat Checkpoint :=
  let st := s.stepState x
  let find (l : List Checkpoint) : Option Checkpoint := l.find? (fun c => decide (c.ctx.val = x) && decide (c.step = step))
  let held := match src with | .buddy => find s.ckpts | .drain => find s.drains | .none_ => none | .badDigest => find (s.ckpts ++ s.drains)
  if (s.ctx x).programs ≠ [] ∨ (1 ≤ st ∧ st ≤ 4) then .error 0x9009
  else if s.ckptIndex.any (fun e => decide (e.1.val = x) && decide (e.2 = step)) = false then .error 0x9001
  else match held with
    | none => .error 0x9002
    | some c =>
      if src = .badDigest then .error 0x9003
      else if !s.keyLive c.keyGen then .error 0x9007
      else if c.stateLen ≠ s.cf x Reg.CTX_STATE_BYTES ∨ c.split ≠ s.flag (Reg.ctx x) Reg.CTX_MASTER_SPLIT ∨ c.bays ≠ s.cf x Reg.CTX_BAYS then
        .error 0x9006
      else
        let ps := lanePairs c.bays
        let mark (p : Nat × Nat) : Nat := bitsAt (markAt c.marks p.1 p.2) 0 48
        if ps.any (fun p => decide ((ckptLane c p.1 p.2).counter < mark p) ||
            decide (bitsAt (markAt c.marks p.1 p.2) 48 16 ≠ (step.toNat + 1) % 2 ^ 16)) then .error 0x9005
        else if ps.any (fun p => decide (mark p + 65536 < (ckptLane c p.1 p.2).counter)) then .error 0x9004
        else .ok c
def State.writeBlock (s : State) (x : Nat) : List Field → List Nat → State
  | f :: fs, v :: vs => (s.wr (Reg.ctx x) f v).writeBlock x fs vs
  | _, _ => s
def State.restoreCkpt (s : State) (x : Nat) (c : Checkpoint) : State :=
  let s1 := s.store (.tier1 x) (s.cf x Reg.CTX_STATE_BASE) 0 c.stateBytes
  let s2 := (s1.writeBlock x (Reg.ctxTrainFields.filter isRo) c.block).wr (Reg.ctx x) Reg.CTX_STEP_STATE 0
  let s3 := s2.wr (Reg.ctx x) Reg.CTX_LAST_CKPT_STEP c.step.toNat
  let k := s3.ctx x
  (s3.setCtx x { k with
    step := none, dataNextDue := some c.dataNext, lastDataNext := c.dataNext, exch := Exchange.idle, captures := []
    restoredLanes := (lanePairs c.bays).map (fun p => (64 * p.1 + p.2, restoredLane c p.1 p.2)) }).wr (Reg.ctx x) Reg.CTX_ATTEMPT 0
def State.restore (s : State) (e : Entry) (src : RestoreSource) : State :=
  let x := e.ctx.val
  if s.ctxState x ≠ stIdle then s.done e 7 0x5002
  else match s.restoreFault x (e.args.getD 0 0) src with
    | .error code => s.done e 7 code
    | .ok c => (s.restoreCkpt x c).done e 7 0

/-! ## Replay (R268, R269) -/

/-- REPLAY_ARM: it comes before the step-commit of step n − 1, even one that still waits for the gate. -/
def State.replayArm (s : State) (e : Entry) : State :=
  let x := e.ctx.val
  let n := entryArg e 0
  let late := decide (n = s.cf x Reg.CTX_STEP + 2) && (s.ctx x).tickets.any (fun t => decide (t.op.toNat = 3))
  if n < s.cf x Reg.CTX_STEP + 2 ∨ late = true then s.done e 8 0x9103
  else (s.setCtx x { s.ctx x with replayArm := some (BitVec.ofNat 64 n) }).done e 8 0
/-- The entries of one core, in the order it completed them. -/
def ofCore (k : Nat) (l : List TraceEntry) : List TraceEntry := l.filter (fun t => decide (t.core.val = k))
/-- The first entry of the run that differs from its counterpart in the record. -/
def firstMismatch (trace : List TraceEntry) (truncated : Bool) : List TraceEntry → List TraceEntry → Option TraceEntry
  | _, [] => none
  | seen, r :: rs =>
    let i := (ofCore r.core.val seen).length
    match (ofCore r.core.val trace)[i]? with
    | some t => if t = r then firstMismatch trace truncated (seen ++ [r]) rs else some t
    | none => if truncated then firstMismatch trace truncated (seen ++ [r]) rs else some r
/-- A recorded instruction of the named cores that the run never reached. -/
def firstMissing (run : List TraceEntry) (cores : List Nat) : List TraceEntry → List TraceEntry → Option TraceEntry
  | _, [] => none
  | seen, t :: ts =>
    if cores.contains t.core.val ∧ (ofCore t.core.val run).length ≤ (ofCore t.core.val seen).length then some t
    else firstMissing run cores (seen ++ [t]) ts
/-- A replay in progress: the view its bays have, which is no part of the machine's live state, and the imports not yet
supplied. -/
structure Replaying where
  view : State
  src : List Import
/-- The next import that an instruction of core k took. -/
def takeImport (k : Nat) (i : InFlight) : List Import → Option (Import × List Import)
  | [] => none
  | m :: ms => if m.core.map Fin.val = some k ∧ m.seq = i.seq ∧ m.slot = i.slot then some (m, ms)
    else (takeImport k i ms).map (fun r => (r.1, m :: r.2))
/-- Before an instruction completes, the bytes that it took in stand where it reads them. -/
def Replaying.supply (r : Replaying) (c : CoreId) (i : InFlight) : Replaying :=
  let v := viewOf r.view c.val i
  let rs := v.reads.filter v.isImport
  match (if rs.isEmpty then none else takeImport v.k i r.src) with
  | none => r
  | some (m, rest) =>
    ⟨(rs.foldl (fun (a : State × List Byte) q =>
        let la := v.locate q.1 q.2.1
        (a.1.store la.1 la.2 0 (a.2.take q.2.2), a.2.drop q.2.2)) (r.view, m.bytes)).1, rest⟩
/-- A WWGET's records, row by row. -/
def Replaying.rows (r : Replaying) (v : View) (i : InFlight) : List Nat → Replaying
  | [] => r
  | n :: ns => match takeImport v.k i r.src with
    | none => r
    | some (m, rest) => let la := v.wwRow n
                        (Replaying.mk (r.view.store la.1 la.2 0 m.bytes) rest).rows v i ns
/-- A WWPUT or WWGET ends with the number and the records that it took in the step. -/
def Replaying.endWw (r : Replaying) (c : CoreId) (i : InFlight) : Replaying :=
  let v := viewOf r.view c.val i
  match takeImport v.k i r.src with
  | none => r
  | some (m, rest) =>
    let size := match takeImport v.k i rest with | some (n, _) => n.bytes.length | none => 0
    let p := (Replaying.mk (r.view.complete c i (seqEffect i m.sq.toNat)) rest).rows v i (if v.op = 0x28 then upto v.wwDesc.rows else [])
    { p with view := (p.view.dropFlight c.val i.id).traceEffect c i (v.wwWritten size) }
/-- One event of a replay. -/
def Replaying.next (r : Replaying) : ReplayEvent → Replaying
  | .issue c => { r with view := r.view.bundleIssue c }
  | .word c => { r with view := r.view.legacyWordIssue c }
  | .complete c u n =>
    let flight := (r.view.core c.val).flight
    match onUnit flight u n.val with
    | none => r
    | some i =>
      if isWw i then r.endWw c i
      else if !passDone r.view c.val i || storesAfter r.view c.val flight i then r
      else let p := r.supply c i
           { p with view := p.view.finishInst c i }
  | .retry c => { r with view := r.view.integerRetry c }
  | .post c => { r with view := r.view.postDeferred c.val }
  | .apply p => { r with view := r.view.pegApply p.val }
  | .arrive p n => { r with view := { r.view with pegSignals := r.view.pegSignals ++ [⟨p.val, n, none⟩] } }
  | .release c => { r with view := r.view.pegwRelease c }
  | .fence c => { r with view := r.view.fenceClear c }
  | .halted c => { r with view := r.view.coreHalted c }
/-- Two bays change places. -/
def swapBays (m : List BayId) (ab : Nat × Nat) : List BayId :=
  match m[ab.1]?, m[ab.2]? with
  | some p, some q => (m.set ab.1 q).set ab.2 p
  | _, _ => m
/-- What the replay bays see before the first event: BASE_CKPT in the state region and the training block, the update phase open,
the named bays in the replay bays' place, and the step's programs started there: on the captured lanes if they
ran when the step opened or followed a restore (R266), else seeded. -/
def State.replayView (s : State) (x : Nat) (c : Checkpoint) (named bays : List Nat) : State :=
  let k := s.ctx x
  let ps := k.replayed.filter (fun p => named.any (fun b => p.bays.getLsbD b))
  let s1 := ((s.store (.tier1 x) (s.cf x Reg.CTX_STATE_BASE) 0 c.stateBytes).writeBlock x (Reg.ctxTrainFields.filter isRo) c.block).wr
    (Reg.ctx x) Reg.CTX_STEP_STATE 2
  let o : OpenStep :=
    { dataPos := c.dataNext, dataNext := 0, evalReq := false, ckptForce := false, lsExp := BitVec.ofNat 8 (s1.cf x Reg.CTX_LS_EXP),
      countersAtOpen := [], drawsAtOpen := [], stopEvent := none, floorHalt := false }
  let s2 := (s1.setCtx x { k with
    bayMap := (named.zip bays).foldl swapBays k.bayMap, programs := ps.map (fun p => { p with started := false, ticket := none }), goal := none
    step := some o, replayArm := some k.traceStep, trace := [], imports := [], traceTruncated := false
    restoredLanes := ((lanePairs c.bays).filter (fun q => ps.any (fun p => p.started && p.bays.getLsbD (q.1 / 4)))).map
      (fun q => (64 * q.1 + q.2, restoredLane c q.1 q.2)) }).wr (Reg.ctx x) Reg.CTX_STATE stRunning
  s2.startPending x (s2.ctx x).programs
/-- The entries that a replay of the named bays records. -/
def State.replayRun (s : State) (x : Nat) (c : Checkpoint) (named bays : List Nat) (run : List ReplayEvent) : List TraceEntry :=
  ((run.foldl Replaying.next ⟨s.replayView x c named bays, (s.ctx x).imports⟩).view.ctx x).trace
/-- REPLAY. DESIGN CHOICE (log entry 112): a record whose base checkpoint can no longer be supplied answers 0x9002. -/
def State.replay (s : State) (e : Entry) (run : List ReplayEvent) : State :=
  let x := e.ctx.val
  let k := s.ctx x
  let named := maskList 64 (entryArg e 0)
  let bays := maskList 64 (s.cf x Reg.CTX_REPLAY_BAYS)
  let busy := bays.any (fun b => match k.programOn b with | some p => p.started | none => false)
  if busy ∨ k.bayMap = [] ∨ bays.length < named.length ∨ 4 < named.length then s.done e 9 0x9105
  else match (s.ckpts ++ s.drains).find? (fun c => decide (c.ctx.val = x) && decide (c.step + 1 = k.traceStep)) with
  | none => s.done e 9 0x9002
  | some c =>
    let cores := named.flatMap (fun b => (upto 4).map (fun i => 4 * b + i))
    let mine := (s.replayRun x c named bays run).filter (fun t => cores.contains t.core.val)
    let bad := match firstMismatch k.trace k.traceTruncated [] mine with
      | some t => some t
      | none => firstMissing mine cores [] k.trace
    match bad with
    | some t => s.post (entryTicket e 9) true 0x9101 (t.core.val + 256 * slotCode t.slot) t.seq.toNat
    | none => s.done e 9 (if k.traceTruncated then 0x9104 else 0x9102)

end Sys2Proof.Machine
end

