-- ==== Sys2Proof/Machine/Training.lean ====
section
/-! DEFINITION. The rows of 09: the training machinery. -/
namespace Sys2Proof.Machine

/-- STEP_OPEN (R249, R267). -/
def execStepOpen (e : Entry) (s : State) : Out := .next (s.command 2 e (fun t => t.stepOpen e))
/-- STEP_COMMIT (R251). -/
def execStepCommit (e : Entry) (s : State) : Out := .next (s.command 3 e (fun t => t.stepCommit e))
/-- GATE_DECIDE (R257 to R259). -/
def execGateDecide (g : GateLook) (s : State) : Out := .next (s.gateDecide g.x.val g.drained)
/-- RISK_SAMPLE (R261). -/
def execRiskSample (margin : Int) (s : State) : Out := .next (s.sequenced [354] (s.riskSample margin))
/-- CHECKPOINT_CAPTURE_START (R263, R532). -/
def execCheckpointCaptureStart (c : CaptureRead) (s : State) : Out := .next (s.captureStart c.x c.good)
/-- CHECKPOINT_SECURED (R264). -/
def execCheckpointSecured (x : CtxId) (s : State) : Out := .next (s.secured x)
/-- RESTORE (R266). -/
def execRestore (e : Entry) (src : RestoreSource) (s : State) : Out := .next (s.command 7 e (fun t => t.restore e src))
/-- REPLAY_ARM (R268). -/
def execReplayArm (e : Entry) (s : State) : Out := .next (s.command 8 e (fun t => t.replayArm e))
/-- REPLAY (R269). -/
def execReplay (e : Entry) (run : List ReplayEvent) (s : State) : Out := .next (s.command 9 e (fun t => t.replay e run))

end Sys2Proof.Machine
end

