-- ==== Sys2Proof/Machine/HostOps.lean ====
section
/-! DEFINITION. The host interface (18): the checks that ENABLE runs in their turn (R482), rings (R489 to R492), completion
records and messages (R495 to R498), tier-3 windows (R487, R488) and register writes (R478). -/
namespace Sys2Proof.Machine

/-! ## Messages held -/

/-- Pending messages of a function that nothing holds any more are sent. -/
def State.flushPba (s : State) (f : CxlId) : List Nat → State
  | [] => s
  | v :: vs =>
    let key := 2048 * f.val + v
    (if mapGet false s.pba key && !(mapGet MsixEntry.start s.msix key).masked && !s.fnAsleep f.val then
      ({ s with pba := mapSet false s.pba key false } : State).sendMsix f v else s).flushPba f vs
def State.pendingVectors (s : State) (f : CxlId) : List Nat :=
  (s.pba.filter (fun kv => decide (kv.1 / 2048 = f.val))).map (fun kv => kv.1 % 2048)

/-! ## Rings (R489 to R492) -/

def State.rf (s : State) (r : Nat) (f : Field) : Nat := s.rd (Reg.ring r) f
/-- The port a ring is fetched, snooped and signalled on. -/
def State.ringPort (s : State) (r : Nat) : CxlId := Fin.ofNat 2 (s.rf r Reg.RING_PORT)
/-- The ring is enabled and neither stopped nor closing, its port runs CXL and its function is in D0. -/
def State.fetching (s : State) (r : Nat) : Bool :=
  s.flag (Reg.ring r) Reg.RING_ENABLE && !s.flag (Reg.ring r) Reg.RING_STOPPED && !(s.ring r).closing &&
  decide (s.cxlMode (s.ringPort r).val = 2) && !s.fnAsleep (s.ringPort r).val
/-- The entry in slot i mod 2^SUB_LOG2 (Table 18-9). -/
def State.entryAt (s : State) (r : RingId) (i : Nat) : Fetched :=
  let w (k : Nat) : Nat := s.natAt (.host (s.rf r.val Reg.RING_SUB_BASE)) (64 * (i % 2 ^ s.rf r.val Reg.RING_SUB_LOG2) + 8 * k) 8
  let h := w 0
  { op := BitVec.ofNat 8 h
    entry :=
      { ring := r, cmdId := BitVec.ofNat 32 (bitsAt h 32 32), waitPrior := bitAt h 8, reportStart := bitAt h 9, noSignal := bitAt h 10
        flags := BitVec.ofNat 5 (bitsAt h 11 5), ctx := Fin.ofNat 4096 (bitsAt h 16 12), reserved := BitVec.ofNat 4 (bitsAt h 28 4)
        args := (upto 7).map (fun k => BitVec.ofNat 64 (w (k + 1))) } }
/-- The stream commands of 12 Table 12-4. -/
def streamOps : List Nat := [1, 2, 3, 4, 5, 6, 7, 8, 9, 10, 0x10, 0x11, 0x12]
/-- An entry that no command carries: an opcode that is not assigned, or a stream command that is not. -/
def unassigned (f : Fetched) : Bool :=
  (cmdShape f.op.toNat).isNone || (decide (f.op = 0x0A) && !streamOps.contains (entryArg f.entry 0 % 256))
/-- An entry is read. One that no command carries is refused here. -/
def State.fetchOne (s : State) (r : RingId) (i : Nat) : State :=
  let f := s.entryAt r i
  let k := s.ring r.val
  let s1 := s.bump (Reg.ring r.val) Reg.RING_HEAD 1
  if unassigned f then
    (s1.setRing r.val { k with running := k.running + 1 }).done f.entry f.op.toNat ((s1.entryRefusal f.entry f.op.toNat).getD 0x5301)
  else s1.setRing r.val { k with fetched := k.fetched ++ [f] }
def State.fetchMany (s : State) (r : RingId) : List Nat → State
  | [] => s
  | i :: is => (s.fetchOne r i).fetchMany r is
def State.stopRing (s : State) (r code : Nat) : State := (s.wr (Reg.ring r) Reg.RING_STOPPED 1).wr (Reg.ring r) Reg.RING_STATUS code
/-- The control line is read and the entries up to SUB_TAIL are fetched (R490, R491). -/
def State.readLine (s : State) (r : RingId) (ok : Bool) : State :=
  if !ok then s.stopRing r.val 0x1D07
  else
    let line (o : Nat) : Nat := s.natAt (.host (s.rf r.val Reg.RING_CTRL_LINE)) o 4
    let head := s.rf r.val Reg.RING_HEAD
    let due := (line 0 + 2 ^ 32 - head) % 2 ^ 32
    let open' := (s.rf r.val Reg.RING_COMP_SEQ + 2 ^ 32 - line 4) % 2 ^ 32
    let s1 := s.setRing r.val { s.ring r.val with subTail := BitVec.ofNat 32 (line 0), compHead := BitVec.ofNat 32 (line 4), hasCopy := true }
    if 2 ^ s.rf r.val Reg.RING_SUB_LOG2 < due ∨ 2 ^ s.rf r.val Reg.RING_COMP_LOG2 < open' then s1.stopRing r.val 0x1D06
    else s1.fetchMany r ((upto due).map (fun i => head + i))
/-- RING_ENABLE: ENABLE first zeroes HEAD and COMP_SEQ. -/
def State.ringEnable (s : State) (r : RingId) : State :=
  if s.objOn (.ring r) || s.checking (.ring r) then s
  else ((s.wr (Reg.ring r.val) Reg.RING_HEAD 0).wr (Reg.ring r.val) Reg.RING_COMP_SEQ 0).requestEnable (.ring r)
def State.startRing (s : State) (r : RingId) : State :=
  let s1 := ((s.setRing r.val Ring.start).wr (Reg.ring r.val) Reg.RING_STOPPED 0).objEnable (.ring r)
  if s1.fetching r.val then s1.readLine r true else s1
/-- RING_DISABLE: fetching stops at once; commands already fetched run to their end and their records are discarded. -/
def State.ringDisable (s : State) (r : RingId) : State :=
  if s.checks.contains (.ring r) then s.cancelCheck (.ring r)
  else if s.objOn (.ring r) then
    (s.setRing r.val { s.ring r.val with closing := true, records := [], hasCopy := false }).settleRing r.val
  else s
/-- CONTROL_LINE_SNOOP: the host's stores, of which one invalidates the line. -/
def State.lineSnoop (s : State) (r : RingId) (st : List (Nat × Byte)) (readOk : Bool) : State :=
  let s1 := s.hostStores st
  if s1.fetching r.val && (s1.ring r.val).hasCopy then (s1.bump (Reg.ring r.val) Reg.RING_WAKES 1).readLine r readOk
  else s1.setRing r.val { s1.ring r.val with hasCopy := false }
/-- RING_POLL: a ring without a copy reads its line. -/
def State.ringPoll (s : State) (r : RingId) (st : List (Nat × Byte)) (readOk : Bool) : State :=
  let s1 := s.hostStores st
  if s1.fetching r.val && !(s1.ring r.val).hasCopy then s1.readLine r readOk else s1

/-! ## Records (R495 to R498) -/

/-- The 32 bytes of record number n (Table 18-11). -/
def recordBytesOf (k : Record) (n log : Nat) : List Byte :=
  leBytes 8 (k.cmdId.toNat + k.ctx.val * 2 ^ 32 + (if k.final then 2 ^ 44 else 0) + k.op.toNat * 2 ^ 48 + (n / 2 ^ log + 1) % 2 * 2 ^ 63) ++
  leBytes 8 k.status.toNat ++ leBytes 8 k.comp0.toNat ++ leBytes 8 k.comp1.toNat
def State.ringMessage (s : State) (r : Nat) : State :=
  (s.setRing r { s.ring r with sinceMsg := 0 }).sendMsix (s.ringPort r) (s.rf r Reg.RING_MSIX_VECTOR)
/-- A written record counts for messages unless its command said NO_SIGNAL (R498). -/
def State.countRecord (s : State) (r : Nat) (k : Record) : State :=
  if k.noSignal then s
  else match s.rf r Reg.RING_MSIX_MODE with
    | 1 => s.ringMessage r
    | 2 =>
      let n := (s.ring r).sinceMsg + 1
      let s1 := s.setRing r { s.ring r with sinceMsg := n }
      if s.rf r Reg.RING_COAL_COUNT ≤ n then s1.ringMessage r else s1
    | _ => s
/-- COMPLETION_RECORD_WRITE: the oldest record, once there is room for it. -/
def State.recordWrite (s : State) (r : Nat) : State :=
  let k := s.ring r
  let n := s.rf r Reg.RING_COMP_SEQ
  let log := s.rf r Reg.RING_COMP_LOG2
  match k.records with
  | [] => s
  | rcd :: rest =>
    if decide ((n + 2 ^ 32 - k.compHead.toNat) % 2 ^ 32 < 2 ^ log) && s.flag (Reg.ring r) Reg.RING_ENABLE &&
        decide (s.cxlMode (s.ringPort r).val = 2) && !s.fnAsleep (s.ringPort r).val then
      let s1 := (s.setRing r { k with records := rest }).store (.host (s.rf r Reg.RING_COMP_BASE)) (32 * (n % 2 ^ log)) 0 (recordBytesOf rcd n log)
      (s1.bump (Reg.ring r) Reg.RING_COMP_SEQ 1).countRecord r rcd
    else s
/-- MSIX_COALESCE_EXPIRE. -/
def State.coalesce (s : State) (r : Nat) : State :=
  if s.rf r Reg.RING_MSIX_MODE = 2 ∧ s.rf r Reg.RING_COAL_US ≠ 0 ∧ (s.ring r).sinceMsg ≠ 0 then s.ringMessage r else s

/-! ## Tier-3 windows (R487, R488) -/

def State.t3wDisable (s : State) (x : CtxId) : State :=
  if s.checks.contains (.t3w x) then s.cancelCheck (.t3w x)
  else if s.objOn (.t3w x) then
    if (s.ctx x.val).programs.any (fun p => decide (p.decl.tier3 ≠ 0)) then s.objPost (.t3w x) 0x1C04
    else s.objDisable (.t3w x) 0
  else s

/-! ## Checks in their turn (R482) -/

def State.checkOf (s : State) : ObjRef → Option Nat
  | .ctx x => s.checkCtx x.val
  | .queue x q => s.checkQueue x.val q.val
  | .port p => s.checkPort p.val
  | .address => s.checkAddress
  | .stream x => s.checkTable x.val
  | .slot n => s.checkSlot n.val
  | .store n => s.checkStore n.val
  | .hdm w => s.checkHdm w.val
  | .t3w x => s.checkT3w x.val
  | .ring r => s.checkRing r.val
/-- A context is enabled (14 R383, 15 R405, 11 R300): Idle, with a nonce of its own; with CTX_STEP 0 its loss scale and its
wire-scale table start over. -/
def State.enableCtx (s : State) (x : CtxId) : State :=
  let b := Reg.ctx x.val
  let s1 := (s.setCtx x.val { Ctx.start with nonce := some s.free }).objEnable (.ctx x)
  let s2 := (({ s1 with free := s.free + 1 } : State).setCtxState x.val stIdle).ledger [.tenantNonce x (Config.randomWord s.free)]
  let s3 := if s2.rd b Reg.CTX_STEP = 0 then
      let t := ((s2.wr b Reg.CTX_LS_EXP (s2.rd b Reg.CTX_LS_INIT)).wr b Reg.CTX_LS_CLEAN 0).wr b Reg.CTX_LS_FLOOR_RUN 0
      if t.trains x.val then
        t.store (.tier1 x.val) (t.scaleArea x.val).1 0 (List.replicate (t.scaleArea x.val).2 (BitVec.ofNat 8 (t.rd b Reg.CTX_INIT_SCALE)))
      else t
    else s2
  s3.openExchange x.val
/-- What follows a check that has passed. -/
def State.checkPassed (s : State) (o : ObjRef) : State :=
  match o with
  | .ctx x => s.enableCtx x
  | .queue x q => (s.objEnable o).startQueue x.val q.val
  | .port p => (s.objEnable o).startPort p.val
  | .address => (s.objEnable o).bumpEntries (upto 355)
  | .stream x => (s.objEnable o).startTable x.val
  | .slot n => s.slotChecked n
  | .ring r => s.startRing r
  | .store _ => s.objEnable o
  | .hdm _ => s.objEnable o
  | .t3w _ => s.objEnable o
/-- OBJECT_CHECK_END: the check whose turn it is. -/
def State.checkEnd (s : State) : State :=
  match s.checks with
  | [] => s
  | o :: rest =>
    let s1 := { s with checks := rest }
    match s1.checkOf o with
    | some code => s1.objPost o code
    | none => s1.checkPassed o

/-! ## Register writes (R478) -/

/-- EVENT_MSIX is being set or cleared (R479). -/
def State.setEventMsix (s : State) (on : Bool) : State :=
  let s1 := s.wr Reg.hif Reg.HIF_EVENT_MSIX (if on then 1 else 0)
  if on && !s.flag Reg.hif Reg.HIF_EVENT_MSIX && s.anyEvent then s1.eventMsg else s1
def State.tableDisable (s : State) (x : CtxId) : State :=
  if s.checks.contains (.stream x) then s.cancelCheck (.stream x)
  else if s.objOn (.stream x) then (s.stopTable x.val).objPost (.stream x) 0
  else s
/-- Clearing TRS_ADDRESS is refused while any port is enabled (10 Table 10-8). -/
def State.addressDisable (s : State) : State :=
  if s.checks.contains .address then s.cancelCheck .address
  else if s.objOn .address && !s.enabledPorts.isEmpty then s.objPost .address 0x1604
  else if s.objOn .address then (s.objDisable .address 0).bumpEntries (upto 355)
  else s
/-- A write of 1 to ENABLE, and a write of 0. -/
def State.writeEnable (s : State) (o : ObjRef) (on : Bool) : State :=
  match o, on with
  | .ring r, true => s.ringEnable r
  | o, true => s.requestEnable o
  | .ctx x, false => if s.checking o then s.cancelCheck o else s.beginTeardown x.val
  | .queue x q, false => if s.checking o then s.cancelCheck o else s.clearPair x.val q.val none
  | .port p, false => s.disablePort p
  | .address, false => s.addressDisable
  | .stream x, false => s.tableDisable x
  | .slot n, false => s.slotDisable n
  | .store n, false => s.storeDisable n
  | .hdm w, false => s.hdmDisable w
  | .t3w x, false => s.t3wDisable x
  | .ring r, false => s.ringDisable r
/-- The object an offset of BAR0 lies in: its base, its fields, and the object whose ENABLE locks them (Table 18-2). -/
def blockAt (o : Nat) : Option (Nat × List Field × Option ObjRef) :=
  if o < 0x1000 then some (Reg.hif, Reg.hifFields, none)
  else if o < 0x1040 then some (Reg.jnrStatus, Reg.jnrStatusFields, none)
  else if o < 0x1080 then some (Reg.jnrKeys, Reg.jnrKeysFields, none)
  else if o < 0x10C0 then some (Reg.jnrDebug, Reg.jnrDebugFields, none)
  else if o < 0x2000 then some (Reg.ldgStatus, Reg.ldgStatusFields, none)
  else if o < 0x2040 then some (Reg.safSafety, Reg.safSafetyFields, none)
  else if o < 0x2060 then some (Reg.safTest, Reg.safTestFields, none)
  else if o < 0x2068 then some (Reg.safRisk, Reg.safRiskFields, none)
  else if o < 0x2100 then some (Reg.nvwVerify, Reg.nvwVerifyFields, none)
  else if o < 0x2200 then some (Reg.safBent ((o - 0x2100) / 16), Reg.safBentFields, none)
  else if o < 0x2300 then some (Reg.safDram ((o - 0x2200) / 32), Reg.safDramFields, none)
  else if o < 0x2400 then none
  else if o < 0x3000 then some (Reg.trsAddress, Reg.trsAddressFields, some .address)
  else if o < 0x3200 then some (Reg.nvwSlot ((o - 0x3000) / 64), Reg.nvwSlotFields, some (.slot (Fin.ofNat 8 ((o - 0x3000) / 64))))
  else if o < 0x3600 then some (Reg.ckptStore ((o - 0x3200) / 64), Reg.ckptStoreFields, some (.store (Fin.ofNat 16 ((o - 0x3200) / 64))))
  else if o < 0x3E00 then some (Reg.hdm ((o - 0x3600) / 32), Reg.hdmFields, some (.hdm (Fin.ofNat 64 ((o - 0x3600) / 32))))
  else if o < 0x4000 then none
  else if o < 0x4400 then some (Reg.trsPort ((o - 0x4000) / 64), Reg.trsPortFields, some (.port (Fin.ofNat 16 ((o - 0x4000) / 64))))
  else if o < 0x80000 then none
  else if o < 0x90000 then some (Reg.ring ((o - 0x80000) / 128), Reg.ringFields, some (.ring (Fin.ofNat 512 ((o - 0x80000) / 128))))
  else if o < 0xA0000 then none
  else if o < 0x120000 then
    some (Reg.streamTable ((o - 0xA0000) / 128), Reg.streamTableFields, some (.stream (Fin.ofNat 4096 ((o - 0xA0000) / 128))))
  else if o < 0x160000 then some (Reg.t3w ((o - 0x120000) / 64), Reg.t3wFields, some (.t3w (Fin.ofNat 4096 ((o - 0x120000) / 64))))
  else if o < 0x400000 then none
  else if o < 0x800000 then
    some (Reg.ctx ((o - 0x400000) / 1024), Reg.ctxCoreFields ++ Reg.ctxTrainFields ++ Reg.ctxExchFields,
      some (.ctx (Fin.ofNat 4096 ((o - 0x400000) / 1024))))
  else if o < 0x4000000 then none
  else if o < 0x8000000 then
    some (Reg.wwy ((o - 0x4000000) / 0x4000) ((o - 0x4000000) / 64 % 256), Reg.wwyFields,
      some (.queue (Fin.ofNat 4096 ((o - 0x4000000) / 0x4000)) (Fin.ofNat 256 ((o - 0x4000000) / 64 % 256))))
  else none
/-- A value the field takes; the tables say of the others that they are ignored. -/
def State.takes (s : State) (base : Nat) (f : Field) (v : Nat) : Bool :=
  let within (lo hi : Nat) : Bool := decide (lo ≤ v) && decide (v ≤ hi)
  if base = Reg.jnrKeys then decide (f ≠ Reg.KEYS_SWEEP_SHARE) || within 1 10
  else if base = Reg.nvwVerify then (if f = Reg.VERIFY_NVW_SHARE then within 1 10 else decide (v ≠ 0))
  else if base = Reg.safSafety then decide (f ≠ Reg.SAF_TRANSIENT_WINDOW_H) || decide (v ≠ 0)
  else if base = Reg.safTest then decide (f ≠ Reg.TEST_DEADLINE_MS) || decide (v ≠ 0)
  else if 0x2200 ≤ base ∧ base < 0x2300 then decide (f ≠ Reg.DRAM_PATROL_PERIOD_S) || within 600 86400
  else if Reg.wwy 0 0 ≤ base ∧ base < Reg.mgmtSpace then
    decide (f ≠ Reg.WWY_RECORD_BYTES) || decide (s.rd base Reg.WWY_RECORD_KIND = 3)
  else if f = Reg.PWR_TARGET_MHZ then decide (base < Reg.pwr) || (within 300 600 && decide (v % 25 = 0))
  else if base = Reg.pwr then
    (if f = Reg.PWR_SUSTAINED_W then within 900 1650
     else if f = Reg.PWR_EXCURSION_W then within (s.rd Reg.pwr Reg.PWR_SUSTAINED_W) 1650
     else if f = Reg.PWR_SLEEP_AFTER_MS then decide (v ≠ 0) else true)
  else true
/-- One field of a written word: the bits the write covers are replaced, by the field's access code (00 Table 00-2). -/
def State.writeField (s : State) (base mask v : Nat) (o : Option ObjRef) (f : Field) : State :=
  let m := bitsAt mask f.lo f.width
  let w := bitsAt v f.lo f.width
  let old := s.rd base f
  let new := old - (old &&& m) + (w &&& m)
  if m = 0 then s
  else match f.acc with
    | .ro => s
    | .wo => s
    | .rw1c => s.wr base f (old - (old &&& (w &&& m)))
    | .rwe => if o.any (fun p => s.objOn p || s.checking p) || !s.takes base f new then s else s.wr base f new
    | .rw =>
      if o.any (fun p => decide (p.enable = f)) then s
      else if base = Reg.hif ∧ f = Reg.HIF_EVENT_MSIX then s.setEventMsix (decide (new = 1))
      else if s.takes base f new then s.wr base f new else s
def State.writeFields (s : State) (base mask v : Nat) (o : Option ObjRef) : List Field → State
  | [] => s
  | f :: fs => (s.writeField base mask v o f).writeFields base mask v o fs
/-- The ENABLE bit of a written word, and the bits that start something. -/
def State.writeStarts (s : State) (o base off mask v : Nat) (obj : Option ObjRef) : State :=
  let bit (i : Nat) : Bool := bitAt mask i && bitAt v i
  match obj with
  | some p => if off = 0 ∧ bitAt mask p.enable.lo = true then s.writeEnable p (bitAt v p.enable.lo) else s
  | none =>
    if base = Reg.jnrKeys ∧ o = Reg.jnrKeys ∧ bit 33 = true then s.rotate
    else if base = Reg.safSafety ∧ o = Reg.safSafety ∧ bit 41 = true then s.fenceGo
    else if base = Reg.safTest ∧ o = Reg.safTest ∧ bit 9 = true then s.testRequest
    else s
/-- A word of the MSI-X table of a function: two for each entry. -/
def State.writeMsix (s : State) (f : CxlId) (i mask v : Nat) : State :=
  let key := 2048 * f.val + i / 2
  let e := mapGet MsixEntry.start s.msix key
  let put (old : Nat) : Nat := old - (old &&& mask) + (v &&& mask)
  let e' : MsixEntry := if i % 2 = 0 then { e with addr := BitVec.ofNat 64 (put e.addr.toNat) }
    else
      let w := put (e.data.toNat + (if e.masked then 2 ^ 32 else 0))
      { e with data := BitVec.ofNat 32 w, masked := bitAt w 32 }
  ({ s with msix := mapSet MsixEntry.start s.msix key e' } : State).flushPba f [i / 2]
/-- A word of BAR0 through function f: mask says which of its bits the access covers. -/
def State.writeBar0 (s : State) (f : CxlId) (o mask v : Nat) : State :=
  if 0x40000 ≤ o ∧ o < 0x80000 then
    let d := (o - 0x40000) / 4
    let s1 := if bitAt mask 0 then s.writeRoute d (v % 2 ^ 32) else s
    if bitAt mask 32 then s1.writeRoute (d + 1) (v / 2 ^ 32) else s1
  else if 0x90000 ≤ o ∧ o < 0x98000 then s.writeMsix f ((o - 0x90000) / 8) mask v
  else match blockAt o with
    | none => s
    | some (base, fs, obj) =>
      (s.writeFields base mask v obj (fs.filter (fun k => decide (base + k.off = o)))).writeStarts o base (o - base) mask v obj
/-- BAR2: COUNTER_CLEAR is what it lets be written (R480, 03 R101). -/
def State.writeBar2 (s : State) (o mask v : Nat) : State :=
  if o % 0x400 = 0x110 ∧ bitAt mask 0 = true ∧ bitAt v 0 = true then s.counterClear (o / 0x40000) (o / 0x400 % 256) else s
/-- The recovery window and the PWR_ registers of the management space (20 Table 20-6). -/
def recoveryMax : Nat := 4 * mib
def State.recoveryGo (s : State) : State :=
  let bs := s.recBytes.take s.recLen
  if !s.recovery || decide (recoveryMax < s.recLen) then s
  else
    let s0 := { s with recBytes := [], recLen := 0 }
    match s.imageFault 0 bs with
    | some code => { s0 with recStatus := code }
    | none =>
      let s1 := ({ s0 with recStatus := 0, images := mapSet [] s0.images 0 bs } : State).wr Reg.jnrStatus Reg.JNR_VALID_A 1
      s1.ledger [s1.firmwareRecord]
def State.writeMgmt (s : State) (o v : Nat) : State :=
  let all := 2 ^ 64 - 1
  if o = 0x3000 then (if s.recovery then { s with recLen := v } else s)
  else if o = 0x3008 then (if s.recovery then { s with recBytes := s.recBytes ++ leBytes 8 v } else s)
  else if o = 0x3010 then (if v = 1 then s.recoveryGo else s)
  else if o = 0x1000 then s.writeFields Reg.pwr all v none Reg.pwrFields
  else if 0x1100 ≤ o ∧ o < 0x1300 then s.writeFields (Reg.pwrBay ((o - 0x1100) / 8)) all v none Reg.pwrEach
  else s
/-- REGISTER_WRITE. -/
def State.registerWrite (s : State) (w : RegWrite) : State :=
  let o := w.off.toNat
  let n := w.size.val
  let good := (decide (n = 4) || decide (n = 8)) && decide (o % n = 0)
  let at' := o / 8 * 8
  let mask := if n = 8 then 2 ^ 64 - 1 else if o % 8 = 0 then 2 ^ 32 - 1 else 2 ^ 64 - 2 ^ 32
  let v := if n = 8 then w.value.toNat else w.value.toNat % 2 ^ 32 * (if o % 8 = 0 then 1 else 2 ^ 32)
  match w.space with
  | .mgmt => if o % 8 = 0 ∧ n = 8 ∧ s.dstate < 2 then s.writeMgmt o v else s
  | .config _ => s
  | .bar0 f => s.bar (fun t => if !good then t.inc Reg.hif Reg.HIF_BAD_ACCESS else if mapGet false t.dfun f.val then t else t.writeBar0 f at' mask v)
  | .bar2 => s.bar (fun t => if !good then t.inc Reg.hif Reg.HIF_BAD_ACCESS else t.writeBar2 at' mask v)

end Sys2Proof.Machine
end

