-- ==== Sys2Proof/Machine/HostRows.lean ====
section
/-! DEFINITION. The rows of the host interface (18 R478 to R498; 01 R30; 20 R527). -/
namespace Sys2Proof.Machine

/-- OBJECT_CHECK_END (R482). -/
def execObjectCheckEnd (s : State) : Out := .next (s.sequenced [354] s.checkEnd)
/-- RING_ENABLE (R489): a write of 1 to ENABLE. -/
def execRingEnable (r : RingId) (s : State) : Out := .next (s.bar (fun t => t.ringEnable r))
/-- RING_DISABLE (R492): a write of 0. -/
def execRingDisable (r : RingId) (s : State) : Out := .next (s.bar (fun t => t.ringDisable r))
/-- CONTROL_LINE_SNOOP (R490). -/
def execControlLineSnoop (r : RingId) (st : List (Nat × Byte)) (readOk : Bool) (s : State) : Out := .next (s.lineSnoop r st readOk)
/-- RING_POLL (R490). -/
def execRingPoll (r : RingId) (st : List (Nat × Byte)) (readOk : Bool) (s : State) : Out := .next (s.ringPoll r st readOk)
/-- NOP (Table 18-10): completes when it starts. -/
def execHostNop (e : Entry) (s : State) : Out := .next (s.command 0 e (fun t => t.done e 0 0))
/-- COMPLETION_RECORD_WRITE (R495). -/
def execCompletionRecordWrite (r : RingId) (s : State) : Out := .next (s.recordWrite r.val)
/-- MSIX_COALESCE_EXPIRE (R498). -/
def execMsixCoalesceExpire (r : RingId) (s : State) : Out := .next (s.coalesce r.val)
/-- T3W_ENABLE (R487): a write of 1 to ENABLE. -/
def execT3wEnable (x : CtxId) (s : State) : Out := .next (s.bar (fun t => t.requestEnable (.t3w x)))
/-- T3W_DISABLE (R488): a write of 0. -/
def execT3wDisable (x : CtxId) (s : State) : Out := .next (s.bar (fun t => t.t3wDisable x))
/-- EVENT_MSIX_SET (R479): a write of 1 to EVENT_MSIX. -/
def execEventMsixSet (s : State) : Out := .next (s.bar (fun t => t.setEventMsix true))
/-- REGISTER_WRITE (R478). -/
def execRegisterWrite (w : RegWrite) (s : State) : Out := .next (s.registerWrite w)
/-- TIER3_LINE_SNOOP (01 R30): the shared cache gives up its copy of a host line. The model holds no copies beside host
memory, so the values a program reads stay as they are. -/
def execTier3LineSnoop (_ : BitVec 52) (s : State) : Out := .next s
/-- RECOVERY_IMAGE_GO (20 R527): a write to 0x3010. -/
def execRecoveryImageGo (v : Word) (s : State) : Out := .next (if v = 1 then s.recoveryGo else s)

end Sys2Proof.Machine
end

