-- ==== Sys2Proof/Machine/Integrity.lean ====
section
/-! DEFINITION. The rows of 16: faults, fences and the rolling self-test. -/
namespace Sys2Proof.Machine

/-- FAULT_DETECT (R440 to R443). -/
def execFaultDetect (f : FaultEvent) (s : State) : Out := .next (s.sequencedBent (f.core.val / 17) (s.faultDetect f))
/-- RETEST_DONE (R442). -/
def execRetestDone (c : CoreId) (passed : Bool) (s : State) : Out := .next (s.sequencedBent (c.val / 17) (s.retestDone c.val passed))
/-- SLOT_END (R445 to R448). -/
def execSlotEnd (b : BentId) (passed : Bool) (s : State) : Out := .next (s.sequencedBent b.val (s.slotEnd b.val passed))
/-- UNCOVERED_TEST (R449). -/
def execUncoveredTest (b : BentId) (passed : Bool) (s : State) : Out := .next (s.sequencedBent b.val (s.uncoveredTest b.val passed))
/-- TEST_REQUEST_GO (R451): writing 1 to GO. -/
def execTestRequestGo (s : State) : Out := .next (s.bar (fun t => t.testRequest))
/-- FENCE_GO (R454): writing 1 to FENCE_GO. -/
def execFenceGo (s : State) : Out := .next (s.bar (fun t => t.sequencedBent (t.rd Reg.safSafety Reg.SAF_FENCE_CORE / 17) t.fenceGo))

/-- CORE_DRAINED (05 R162); the core of a migration then gives up its position (R445). -/
def execCoreDrained (c : CoreId) (s : State) : Out := .next (s.coreDrained c).goOn

end Sys2Proof.Machine
end

