-- ==== Sys2Proof/Machine/Legacy.lean ====
section
/-! DEFINITION. The rows of the W1 operations (07 R208 to R212). -/
namespace Sys2Proof.Machine

/-- LNOP (R208): Legacy no operation. -/
def execLnop (c : CoreId) (a : LegacyArgs) (s : State) : Out := .next (s.runLegacy c 0x00 a)

/-- LADD (R208): Legacy add. -/
def execLadd (c : CoreId) (a : LegacyArgs) (s : State) : Out := .next (s.runLegacy c 0x01 a)

/-- LSUB (R208): Legacy subtract. -/
def execLsub (c : CoreId) (a : LegacyArgs) (s : State) : Out := .next (s.runLegacy c 0x02 a)

/-- LMUL (R208): Legacy multiply. -/
def execLmul (c : CoreId) (a : LegacyArgs) (s : State) : Out := .next (s.runLegacy c 0x03 a)

/-- LAND (R208): Legacy AND. -/
def execLand (c : CoreId) (a : LegacyArgs) (s : State) : Out := .next (s.runLegacy c 0x04 a)

/-- LOR (R208): Legacy OR. -/
def execLor (c : CoreId) (a : LegacyArgs) (s : State) : Out := .next (s.runLegacy c 0x05 a)

/-- LXOR (R208): Legacy XOR. -/
def execLxor (c : CoreId) (a : LegacyArgs) (s : State) : Out := .next (s.runLegacy c 0x06 a)

/-- LSHL (R208): Legacy shift left. -/
def execLshl (c : CoreId) (a : LegacyArgs) (s : State) : Out := .next (s.runLegacy c 0x07 a)

/-- LADDI (R208): Legacy add of a 10-bit immediate. -/
def execLaddi (c : CoreId) (a : LegacyArgs) (s : State) : Out := .next (s.runLegacy c 0x08 a)

/-- LLDI (R208): Legacy load of an immediate. -/
def execLldi (c : CoreId) (a : LegacyArgs) (s : State) : Out := .next (s.runLegacy c 0x09 a)

/-- LORSH (R208): Legacy shift by 10 and OR of an immediate. -/
def execLorsh (c : CoreId) (a : LegacyArgs) (s : State) : Out := .next (s.runLegacy c 0x0A a)

/-- LLD (R208): Legacy scalar load. -/
def execLld (c : CoreId) (a : LegacyArgs) (s : State) : Out := .next (s.runLegacy c 0x10 a)

/-- LST (R208): Legacy scalar store. -/
def execLst (c : CoreId) (a : LegacyArgs) (s : State) : Out := .next (s.runLegacy c 0x11 a)

/-- LTDLD (R208): Legacy descriptor load. -/
def execLtdld (c : CoreId) (a : LegacyArgs) (s : State) : Out := .next (s.runLegacy c 0x12 a)

/-- LBR (R210): Legacy unconditional branch. -/
def execLbr (c : CoreId) (a : LegacyArgs) (s : State) : Out := .next (s.runLegacy c 0x18 a)

/-- LBNZ (R210): Legacy branch if nonzero. -/
def execLbnz (c : CoreId) (a : LegacyArgs) (s : State) : Out := .next (s.runLegacy c 0x19 a)

/-- LBZ (R210): Legacy branch if zero. -/
def execLbz (c : CoreId) (a : LegacyArgs) (s : State) : Out := .next (s.runLegacy c 0x1A a)

/-- LBX (R210): Branch to a bundle and leave legacy mode. -/
def execLbx (c : CoreId) (a : LegacyArgs) (s : State) : Out := .next (s.runLegacy c 0x1B a)

/-- LMMA (R211): Legacy quarter-array matrix product. -/
def execLmma (c : CoreId) (a : LegacyArgs) (s : State) : Out := .next (s.runLegacy c 0x20 a)

/-- LWO (R212): Legacy write-out in the W1 24-bit layout. -/
def execLwo (c : CoreId) (a : LegacyArgs) (s : State) : Out := .next (s.runLegacy c 0x21 a)

/-- LVADD (R208): Legacy vector add. -/
def execLvadd (c : CoreId) (a : LegacyArgs) (s : State) : Out := .next (s.runLegacy c 0x28 a)

/-- LVSUB (R208): Legacy vector subtract. -/
def execLvsub (c : CoreId) (a : LegacyArgs) (s : State) : Out := .next (s.runLegacy c 0x29 a)

/-- LVMUL (R208): Legacy vector multiply. -/
def execLvmul (c : CoreId) (a : LegacyArgs) (s : State) : Out := .next (s.runLegacy c 0x2A a)

/-- LVMAX (R208): Legacy vector maximum. -/
def execLvmax (c : CoreId) (a : LegacyArgs) (s : State) : Out := .next (s.runLegacy c 0x2B a)

/-- LVMIN (R208): Legacy vector minimum. -/
def execLvmin (c : CoreId) (a : LegacyArgs) (s : State) : Out := .next (s.runLegacy c 0x2C a)

/-- LVLD (R208): Legacy vector load. -/
def execLvld (c : CoreId) (a : LegacyArgs) (s : State) : Out := .next (s.runLegacy c 0x2D a)

/-- LVST (R208): Legacy vector store. -/
def execLvst (c : CoreId) (a : LegacyArgs) (s : State) : Out := .next (s.runLegacy c 0x2E a)

/-- LXFER (R208): Legacy Bellows move. -/
def execLxfer (c : CoreId) (a : LegacyArgs) (s : State) : Out := .next (s.runLegacy c 0x30 a)

/-- LPEGS (R208): Legacy peg signal of increment 1. -/
def execLpegs (c : CoreId) (a : LegacyArgs) (s : State) : Out := .next (s.runLegacy c 0x38 a)

/-- LPEGW (R208): Legacy peg wait. -/
def execLpegw (c : CoreId) (a : LegacyArgs) (s : State) : Out := .next (s.runLegacy c 0x39 a)

/-- LFENCE (R208): Legacy FENCE of full scope. -/
def execLfence (c : CoreId) (a : LegacyArgs) (s : State) : Out := .next (s.runLegacy c 0x3A a)

/-- LHALT (R208): Legacy HALT. -/
def execLhalt (c : CoreId) (a : LegacyArgs) (s : State) : Out := .next (s.runLegacy c 0x3F a)

end Sys2Proof.Machine
end

