-- ==== Sys2Proof/Machine/Memory.lean ====
section
/-! DEFINITION. The memory rows: DRAM (13 R357 to R362), teacher slots (R366 to R373), checkpoint stores (R375, R376) and
HDM windows (R377 to R379, 18 R486). -/
namespace Sys2Proof.Machine

/-- DCHAIN_TRAINING_ACCESS (R357). -/
def execDchainTrainingAccess (a : BitVec 39) (o : EccOutcome) (s : State) : Out := .next (s.granuleRead a.toNat o)
/-- PATROL_READ (R359). -/
def execPatrolRead (a : BitVec 39) (o : EccOutcome) (raced : Bool) (s : State) : Out := .next (s.patrolRead a.toNat o raced)
/-- DRAM_TEMP_BAND_CHANGE (R360). -/
def execDramTempBandChange (g : StackId) (t : Nat) (s : State) : Out := .next (s.tempBand g.val t)
/-- THROTTLE_STEP (R361, 19 R509). -/
def execThrottleStep (islands : List (CoreId × Nat)) (s : State) : Out := .next (s.throttleStep islands)
/-- STACK_TRIP (R362). -/
def execStackTrip (g : StackId) (t : Nat) (s : State) : Out := .next (s.stackTrip g.val t)
/-- TRIPPED_CLEAR (R362): a write of 1 to TRIPPED. -/
def execTrippedClear (g : StackId) (s : State) : Out := .next (s.bar (fun s => s.wr (Reg.safDram g.val) Reg.DRAM_TRIPPED 0))
/-- THERMAL_TRIP_RELEASE (R362, 19 R509). -/
def execThermalTripRelease (t : TripTarget) (s : State) : Out := .next (s.tripRelease t)
/-- NVW_SLOT_ENABLE (R366): a write of 1 to a head's ENABLE. -/
def execNvwSlotEnable (n : SlotId) (s : State) : Out := .next (s.bar (fun s => s.requestEnable (.slot n)))
/-- STAGING_DONE (R366). -/
def execStagingDone (n : SlotId) (ok : Bool) (s : State) : Out := .next (s.stagingDone n ok)
/-- NVW_SLOT_DISABLE (R367): a write of 0. -/
def execNvwSlotDisable (n : SlotId) (s : State) : Out := .next (s.bar (fun s => s.slotDisable n))
/-- TEACHER_INSTALL (R368). -/
def execTeacherInstall (e : Entry) (s : State) : Out := .next (s.command 0x20 e (fun s => s.teacherInstall e))
/-- SHARD_PROGRAMMED (R367, R368). -/
def execShardProgrammed (n : SlotId) (i : BitVec 32) (o : ShardOutcome) (bs : List (Nat × Byte)) (s : State) : Out :=
  .next (s.shardProgrammed n.val i.toNat o bs)
/-- INSTALL_READBACK_DONE (R368). -/
def execInstallReadbackDone (n : SlotId) (ok : Bool) (s : State) : Out := .next (s.readbackDone n.val ok)
/-- TEACHER_ERASE (R369). -/
def execTeacherErase (e : Entry) (s : State) : Out := .next (s.command 0x21 e (fun s => s.teacherErase e))
/-- ERASE_DONE (R369). -/
def execEraseDone (n : SlotId) (s : State) : Out := .next (s.eraseDone n.val)
/-- VERIFY_PASS (R372, R373). -/
def execVerifyPass (n : SlotId) (stage ok : Bool) (s : State) : Out := .next (s.verifyPass n.val stage ok)
/-- CKPT_STORE_ENABLE (R375): a write of 1 to ENABLE. -/
def execCkptStoreEnable (n : StoreId) (s : State) : Out := .next (s.bar (fun s => s.requestEnable (.store n)))
/-- CKPT_STORE_DISABLE (R376): a write of 0. -/
def execCkptStoreDisable (n : StoreId) (s : State) : Out := .next (s.bar (fun s => s.storeDisable n))
/-- CAPTURE_RECEIVE (R376). -/
def execCaptureReceive (n : StoreId) (r : Capture) (s : State) : Out := .next (s.captureReceive n r)
/-- HDM_ENABLE (R377): a write of 1 to ENABLE. -/
def execHdmEnable (w : HdmId) (s : State) : Out := .next (s.bar (fun s => s.requestEnable (.hdm w)))
/-- HDM_DISABLE (R379): a write of 0; the host's lines are back-invalidated. -/
def execHdmDisable (w : HdmId) (s : State) : Out := .next (s.bar (fun s => s.hdmDisable w))
/-- HDM_HOST_ACCESS (R378). -/
def execHdmHostAccess (p : CxlId) (a : BitVec 52) (h : HostAccess) (s : State) : Out := .next (s.hdmAccess p.val a.toNat h)
/-- HDM_DECODER_COMMIT (18 R486). -/
def execHdmDecoderCommit (w : HdmId) (r : DecoderRange) (s : State) : Out :=
  .next (s.decoderCommit w.val r.base.toNat r.size.toNat)

end Sys2Proof.Machine
end

