-- ==== Sys2Proof/Machine/PowerOps.lean ====
section
/-! DEFINITION. Power, clocks and device states (19): rails (R501 to R504), reference clocks (R505), frequency steps and the
power cap (R507 to R510), bay sleep (R511), D3hot, D0 and D3cold (R512, R513), the CXL links (R514; 18 R475), and what the
TAP and the management bus do (20 R525, R526). -/
namespace Sys2Proof.Machine

/-- PWR_ STATUS takes a code, and the alert land is asserted anew (20 R525). -/
def State.pwrPost (s : State) (code : Nat) : State :=
  { s.wr Reg.pwr Reg.PWR_STATUS code with alertSeen := false, lastPower := code }
/-- JNR_SMB_ALERT_N is asserted. -/
def State.alert (s : State) : Bool := decide (s.rd Reg.pwr Reg.PWR_STATUS ≠ 0) && !s.alertSeen
/-- PWR_FAULT_N is asserted: a rail fault, while 0x8402 stands (20 Table 20-3). -/
def State.powerFault (s : State) : Bool := decide (s.rd Reg.pwr Reg.PWR_STATUS = 0x8402)

/-! ## The CXL links -/

def State.hifMode (s : State) (p : Nat) : Nat := s.rd (Reg.hifPort p) Reg.HIF_MODE
/-- The rings of port p lose their copies of the control lines. -/
def dropCopies (rings : Map Ring) (p : Nat → Bool) : Map Ring :=
  rings.map (fun kv => if p kv.1 then (kv.1, { kv.2 with hasCopy := false }) else kv)
/-- A map of rings as it is kept: an entry that reads as a ring never used is not listed. -/
def tidyRings (m : Map Ring) : Map Ring := m.filter (fun kv => decide (kv.2 ≠ Ring.start))
def State.loseCopies (s : State) (p : Nat) : State :=
  { s with rings := tidyRings (dropCopies s.rings (fun r => decide ((s.ringPort r).val = p))) }
def State.cxlDown (s : State) (p : Nat) : State :=
  let s1 := s.resetFields (Reg.hifPort p) Reg.hifEach
  { s1.loseCopies p with l0p := mapSet .x16 s1.l0p p .x16, l1 := mapSet false s1.l1 p false }
def cxlLanes : CxlWidth → Nat
  | .x16 => 16
  | .x8 => 8
  | .x4 => 4
/-- CXL_LINK_TRAINED (18 R475): MODE reads 2, or 1 in the PCIe-only fallback. A link that was up has retrained: its device
holds no line copies (18 R493) and 09 R261 counts it. -/
def State.cxlTrained (s : State) (p : Nat) (l : CxlLink) : State :=
  if mapGet false s.perstOff p && !s.recovery && !mapGet false s.clkLost p && decide (s.hifMode p = 0) then
    let b := Reg.hifPort p
    let s1 := (s.wr b Reg.HIF_MODE (if l.cxl then 2 else 1)).wr b Reg.HIF_WIDTH (cxlLanes l.width)
    (s1.wr b Reg.HIF_RATE_64 (if l.rate64 then 1 else 0)).wr b Reg.HIF_LATENCY_OPT (if l.latencyOpt then 1 else 0)
  else if s.hifMode p ≠ 0 then { s.loseCopies p with retrains := s.retrains + 1 }
  else s
/-- CXL_LINK_DOWN: a link that was up leaves it to train again. -/
def State.cxlLost (s : State) (p : Nat) : State :=
  if s.hifMode p = 0 then s.cxlDown p else { s.cxlDown p with retrains := s.retrains + 1 }
/-- L0P_WIDTH_CHANGE (R514): within the trained width. -/
def State.l0pChange (s : State) (p : Nat) (w : CxlWidth) : State :=
  if s.hifMode p ≠ 0 ∧ cxlLanes w ≤ s.rd (Reg.hifPort p) Reg.HIF_WIDTH then { s with l0p := mapSet .x16 s.l0p p w } else s
/-- ASPM_L1 (R514): no enabled ring is on the port and no enabled tier-3 window routes lines over it. In D3hot the links
stay in L1. -/
def State.aspm (s : State) (p : Nat) (enter : Bool) : State :=
  let busy := s.enabledRings.any (fun r => decide ((s.ringPort r).val = p)) ||
    s.enabledT3ws.any (fun x => (s.rd (Reg.t3w x) Reg.T3W_PORTS).testBit p)
  if s.dstate ≠ 0 ∨ s.hifMode p = 0 ∨ (enter && busy) = true then s else { s with l1 := mapSet false s.l1 p enter }

/-! ## Rails (R501 to R503) -/

def railKey : Rail → Nat
  | .aux => 0
  | .mgmt => 1
  | .sram => 2
  | .logic => 3
  | .vppDram => 4
  | .vddqDram => 5
  | .vddNvw => 6
  | .vppNvw => 7
  | .serdes => 8
  | .serdesH => 9
/-- 0 off, 1 rising, 2 within tolerance. -/
def State.rail (s : State) (i : Nat) : Nat := mapGet 2 s.rails i
def State.setRail (s : State) (i v : Nat) : State := { s with rails := mapSet 2 s.rails i v }
def State.railsGood (s : State) : Bool := (upto 10).all (fun i => decide (s.rail i = 2))
def State.auxAlone (s : State) : Bool := (upto 10).all (fun i => decide (i = 0) || decide (s.rail i = 0))
/-- A rail may begin to rise: the one before it in Table 19-2 is within tolerance; the last four follow VDDQ_DRAM. -/
def State.railTurn (s : State) (i : Nat) : Bool :=
  decide (i = 0) || decide (s.rail (if i ≤ 5 then i - 1 else 5) = 2)

/-! ## Clocks and the cap -/

/-- REFCLK_RETURN. -/
def clockKey : RefClock → Nat
  | .hif p => p.val
  | .trs => 2
  | .jnr => 3
def State.setClock (s : State) (k : Nat) (lost : Bool) : State := { s with clkLost := mapSet false s.clkLost k lost }
/-- The contexts that hold bays. -/
def State.allHolders (s : State) : List Nat := s.holders (fun _ => true)
def State.failPorts (s : State) : List Nat → State
  | [] => s
  | p :: ps => (if s.rd (Reg.trsPort p) Reg.TRS_LINK_STATE = 0 then s else s.linkLost p 5 0x6003).failPorts ps
/-- REFCLK_LOSS (Table 19-3). -/
def State.refclkLoss (s : State) (k : RefClock) : State :=
  let s1 := s.setClock (clockKey k) true
  match k with
  | .hif p => s1.cxlDown p.val
  | .trs => (s1.failPorts s1.enabledPorts).pwrPost 0x8403
  | .jnr => (s1.haltAll 0x8403 s1.allHolders).pwrPost 0x8403

/-- min(TARGET_MHZ, CEILING_MHZ) of a bay (R507). -/
def State.goalMhz (s : State) (b : Nat) : Nat := min (s.target b) (s.rd (Reg.pwrBay b) Reg.PWR_CEILING_MHZ)
/-- FREQUENCY_STEP: 25 MHz toward the bay's frequency. -/
def State.frequencyStep (s : State) (b : Nat) : State :=
  let now := s.currentMhz b
  let goal := s.goalMhz b
  if now = goal then s
  else s.sequencedBent (b / 4) (s.wr (Reg.pwrBay b) Reg.PWR_CURRENT_MHZ (if now < goal then min goal (now + 25) else max goal (now - 25)))

/-- What holds a bay: 0 a BE context, 1 nothing, 2 an LC context (the order of R508). -/
def State.capGroup (s : State) (b : Nat) : Nat :=
  match s.bayHolder b with
  | none => 1
  | some (x, _) => if s.isLc x then 2 else 0
def State.powerCeilOf (s : State) (b : Nat) : Nat := mapGet 600 s.powerCeil b
def State.setPowerCeil (s : State) (b v : Nat) : State := ({ s with powerCeil := mapSet 600 s.powerCeil b v } : State).showCeiling b
def State.lowerPower (s : State) : List Nat → State
  | [] => s
  | b :: bs => (s.setPowerCeil b (max 300 (s.powerCeilOf b - 25))).lowerPower bs
def State.raisePower (s : State) : List Nat → State
  | [] => s
  | b :: bs => (s.setPowerCeil b (min 600 (s.powerCeilOf b + 25))).raisePower bs
def State.overLimit (s : State) : Bool :=
  let r (f : Field) : Nat := s.rd Reg.pwr f
  decide (r Reg.PWR_EXCURSION_W < r Reg.PWR_POWER_10MS_W) || decide (r Reg.PWR_SUSTAINED_W < r Reg.PWR_POWER_1S_W)
/-- Both averages stand at or below 95 % of their limits. -/
def State.underLimit (s : State) : Bool :=
  let r (f : Field) : Nat := s.rd Reg.pwr f
  decide (100 * r Reg.PWR_POWER_10MS_W ≤ 95 * r Reg.PWR_EXCURSION_W) && decide (100 * r Reg.PWR_POWER_1S_W ≤ 95 * r Reg.PWR_SUSTAINED_W)
/-- The bays above 300 MHz of the first group that has one. -/
def State.capBays (s : State) : List Nat :=
  let above := (upto 64).filter (fun b => decide (300 < s.goalMhz b))
  let group (g : Nat) : List Nat := above.filter (fun b => decide (s.capGroup b = g))
  if group 0 ≠ [] then group 0 else if group 1 ≠ [] then group 1 else group 2
/-- The lowered bays, LC first, then unheld, then BE. -/
def State.liftBays (s : State) : List Nat :=
  let low := (upto 64).filter (fun b => decide (s.powerCeilOf b < 600))
  [2, 1, 0].flatMap (fun g => low.filter (fun b => decide (s.capGroup b = g)))
/-- POWER_CAP_TEST: the averages as measured, and whether this is also the 10 ms test (R508). -/
def State.powerCap (s : State) (p10 p1 : Nat) (raise : Bool) : State :=
  let s1 := (s.wr Reg.pwr Reg.PWR_POWER_10MS_W (min p10 2047)).wr Reg.pwr Reg.PWR_POWER_1S_W (min p1 2047)
  let s2 := if s1.overLimit then (s1.lowerPower s1.capBays).incBy Reg.pwr Reg.PWR_CAP_STEPS s1.capBays.length
    else if raise && s1.underLimit then s1.raisePower s1.liftBays
    else s1
  s2.wr Reg.pwr Reg.PWR_CAPPING (if s2.powerCeil = [] then 0 else 1)
/-- CORE_THERMAL_TRIP (R509). -/
def State.coreTrip (s : State) (c : Nat) : State :=
  let s1 := { s with coreHot := mapSet false s.coreHot c true }
  let xs := match s1.clockBay c with | some b => s1.holders (fun y => decide (y = b)) | none => []
  let s2 := (s1.haltAll 0x8405 xs).logFault { detect := 0, action := 0x8405, island := c, ctx := xs.head?, core := c }
  s2.pwrPost 0x8405
/-- POWER_LIMIT_UNREACHABLE (R510). -/
def State.unreachable (s : State) : State :=
  let held := (upto 64).filter (fun b => (s.bayHolder b).isSome)
  if !held.isEmpty && held.all (fun b => decide (s.currentMhz b = 300)) && s.overLimit then
    (s.haltAll 0x8404 s.allHolders).pwrPost 0x8404
  else s

/-! ## Bay sleep (R511) -/

/-- BAY_SLEEP: no context has held the bay for SLEEP_AFTER_MS. -/
def State.baySleep (s : State) (b : Nat) : State :=
  if s.flag Reg.pwr Reg.PWR_BAY_SLEEP && (s.bayHolder b).isNone &&
      decide (mapGet 0 s.bayFreed b + 1000 * s.rd Reg.pwr Reg.PWR_SLEEP_AFTER_MS ≤ s.nowUs) then s.wr (Reg.pwrBay b) Reg.PWR_SLEEPING 1 else s
/-- Every wake is a bay reset: the scrub and a logic reset (Table 19-6). -/
def State.bayWake (s : State) (b : Nat) : State :=
  if s.flag (Reg.pwrBay b) Reg.PWR_SLEEPING && (!s.flag Reg.pwr Reg.PWR_BAY_SLEEP || (s.bayHolder b).isSome) then
    (s.scrubCores (((upto 4).map (fun j => s.physOf (4 * b + j))).filter (fun c => decide (c < noCore)))).wr
      (Reg.pwrBay b) Reg.PWR_SLEEPING 0
  else s

/-! ## Device states (R512, R513) -/

/-- The functions whose port has MODE other than 0 and that are in D0. -/
def State.awake (s : State) : List Nat := (upto 2).filter (fun p => decide (s.hifMode p ≠ 0) && !mapGet false s.dfun p)
/-- FUNCTION_D3HOT: the other such function is still in D0. -/
def State.functionSleep (s : State) (p : Nat) : State :=
  if s.dstate = 0 ∧ s.awake.contains p = true ∧ 2 ≤ s.awake.length then
    ({ s with dfun := mapSet false s.dfun p true } : State).loseCopies p
  else s
def State.readLines (s : State) : List Nat → State
  | [] => s
  | r :: rs => (if s.fetching r then s.readLine (Fin.ofNat 512 r) true else s).readLines rs
def State.flushBoth (s : State) : State :=
  let s1 := s.flushPba 0 (s.pendingVectors 0)
  s1.flushPba 1 (s1.pendingVectors 1)
/-- FUNCTION_D0_RETURN. -/
def State.functionWake (s : State) (p : Nat) : State :=
  if s.dstate = 0 ∧ mapGet false s.dfun p = true then
    let s1 : State := { s with dfun := mapSet false s.dfun p false }
    (s1.readLines (s1.enabledRings.filter (fun r => decide ((s1.ringPort r).val = p)))).flushBoth
  else s
/-- A command that has been fetched and has not started ends with a code. -/
def State.endFetched (s : State) (code : Nat) : List Fetched → State
  | [] => s
  | f :: fs =>
    let r := f.entry.ring.val
    let k := s.ring r
    ((s.setRing r { k with fetched := k.fetched.erase f, running := k.running + 1 }).post
      (entryTicket f.entry f.op.toNat) true code 0 0).endFetched code fs
/-- The open commands of a context end with a code, but a CTX_STOP and what its halt completes. -/
def State.endOpen (s : State) (x code : Nat) : State :=
  let k := s.ctx x
  let mine (t : Ticket) : Bool := decide (t.op ≠ 4)
  let s1 := s.setCtx x { k with tickets := k.tickets.filter (fun t => !mine t) }
  let s2 := (k.tickets.filter mine).foldl (fun a t => a.post t true code 0 0) s1
  if k.bayMap = [] then (s2.finishLoads x code).1 else s2
def State.endOpens (s : State) (code : Nat) : List Nat → State
  | [] => s
  | x :: xs => (s.endOpen x code).endOpens code xs
def State.endInstalls (s : State) (code : Nat) : List Install → State
  | [] => s
  | i :: is => (s.failInstall i code).endInstalls code is
def State.endErasures (s : State) (code : Nat) : List Erasure → State
  | [] => s
  | e :: es =>
    let h := e.head.val
    let slots := s.headSlots h
    let s1 := (s.setSlots 5 h slots.length slots).ledger (slotRecs 5 h slots.length slots)
    (({ s1 with erasures := s1.erasures.filter (fun y => decide (y.head ≠ e.head)) } : State).post e.ticket true code 0 0).endErasures code es
def State.endTickets (s : State) (code : Nat) : List Ticket → State
  | [] => s
  | t :: ts => (s.post t true code 0 0).endTickets code ts
/-- A Truss port is powered down: its neighbour sees the link fail, and what leaves by it in order is down (10 R291). -/
def State.portsOff (s : State) : List Nat → State
  | [] => s
  | p :: ps =>
    let b := Reg.trsPort p
    let s1 := (((s.setLink p 0).wr b Reg.TRS_LANES_GOOD 0).wr b Reg.TRS_LANE_CAL 0).clearSpan p
    ((s1.setPort p Port.start).portGone p).portsOff ps
/-- D3HOT_ENTRY (R512): the last function in D0 is written to D3hot. -/
def State.d3hot (s : State) : State :=
  if s.dstate = 0 ∧ s.awake.length = 1 then
    let s1 := s.haltAll 0x8406 s.allHolders
    let s2 := s1.endFetched 0x8406 (s1.rings.flatMap (fun kv => kv.2.fetched))
    let s3 := s2.endOpens 0x8406 s2.ctxKeys
    let s4 := (s3.endInstalls 0x8406 s3.installs).endErasures 0x8406 s3.erasures
    let ts := s4.calibs.map (fun c => c.2) ++ s4.laneCals.map (fun c => c.2)
    let s5 := ({ s4 with calibs := [], laneCals := [] } : State).endTickets 0x8406 ts
    let s6 := s5.portsOff s5.enabledPorts
    let linked := (upto 2).filter (fun p => decide (s.hifMode p ≠ 0))
    ({ s6 with
      dstate := 1
      dfun := linked.foldl (fun m p => mapSet false m p true) []
      l1 := linked.foldl (fun m p => mapSet false m p true) [] } : State).loseCopies 0 |>.loseCopies 1
  else s
def State.trainPorts (s : State) : List Nat → State
  | [] => s
  | p :: ps => (s.startPort p).trainPorts ps
/-- D0_RETURN (R513). -/
def State.d0Return (s : State) : State :=
  if s.dstate = 1 then
    let s1 := ({ s with dstate := 0, dfun := [], l1 := [] } : State).trainPorts s.enabledPorts
    (s1.readLines s1.enabledRings).flushBoth
  else s
/-- D3COLD_ENTRY (R513): every rail but VDD_AUX is removed; what its loss wipes is wiped at the cold reset that follows. -/
def State.d3cold (s : State) : State :=
  if s.dstate = 1 then
    { s with dstate := 2, memActive := false, dynAddr := none
             rails := (upto 9).foldl (fun m i => mapSet 2 m (i + 1) 0) s.rails }
  else s

/-! ## DOE, the management bus and the TAP -/

/-- DOE_REQUEST (Table 18-1): the answer to a request, or the keys of a link's IDE. -/
def State.doe (s : State) (p : Nat) (k : DoeRequest) : State :=
  if s.hifMode p = 0 then s
  else match k with
    | .certificates => { s with reply := some (Config.certificates (s.meas 0)) }
    | .measurements => { s with reply := some ((upto 4).flatMap (fun i => leBytes 64 (s.meas i).toNat)) }
    | .ideKeysIo => s.wr (Reg.hifPort p) Reg.HIF_IDE_IO 1
    | .ideKeysCachemem => s.wr (Reg.hifPort p) Reg.HIF_IDE_CACHEMEM 1
/-- DYNAMIC_ADDRESS_ASSIGNMENT (20 R525): on VDD_MGMT. -/
def State.assignAddress (s : State) (a : BitVec 7) : State :=
  if s.dstate < 2 ∧ s.rail 1 = 2 then { s with dynAddr := some a } else s
/-- PWR_STATUS_READ (20 R525): the read returns the register, and a nonzero STATUS in it deasserts the alert. -/
def State.statusRead (s : State) : State :=
  let v := s.word Reg.pwr Reg.pwrFields 8
  { s with alertSeen := s.alertSeen || decide (s.rd Reg.pwr Reg.PWR_STATUS ≠ 0), reply := some (leBytes 8 v) }
/-- What the instruction register acts as (20 R526): the lands are driven only while both PERST lands are asserted, and
private instructions need the debug scope's bit 0 (15 R426, R427). -/
def State.tapActs (s : State) (i : TapInstr) : TapInstr :=
  let reset := !mapGet false s.perstOff 0 && !mapGet false s.perstOff 1
  match i with
  | .extest | .extestPulse | .extestTrain | .clamp | .highz => if reset then i else .bypass
  | .private_ _ => if (s.rd Reg.jnrDebug Reg.DEBUG_SCOPE).testBit 0 then i else .bypass
  | .bypass | .idcode | .samplePreload => i
/-- What IDCODE shifts out (20 R526): the version of stepping B0, the part, the manufacturer and 1. -/
def idcode : BitVec 32 := 0x1#4 ++ 0x2416#16 ++ Config.jedecCode ++ 1#1
/-- TAP_INSTRUCTION: once VDD_MGMT and VDD_LOGIC are within tolerance. -/
def State.tap (s : State) (i : TapInstr) : State :=
  if s.rail 1 = 2 ∧ s.rail 3 = 2 then { s with tapIr := s.tapActs i } else s

end Sys2Proof.Machine
end

