-- ==== Sys2Proof/Machine/ResetOps.lean ====
section
/-! DEFINITION. Resets (19 R515, R516): the Ledger's replay at a cold reset (17 R471), what each reset keeps (Table 19-7),
function level and port resets, CXL Reset, the release of PERST and Memory_Active (R501). -/
namespace Sys2Proof.Machine

/-! ## Which registers a reset keeps -/

/-- Bit address k lies in the bytes [base, base + len). -/
def inBlock (base len k : Nat) : Bool := decide (base * 8 ≤ k) && decide (k < (base + len) * 8)
/-- k is one of the fields of an array of n objects. -/
def inFields (base stride n : Nat) (fs : List Field) (k : Nat) : Bool :=
  inBlock base (stride * n) k && (fs.map (fun f => f.off * 8 + f.lo)).contains ((k - base * 8) % (stride * 8))
/-- Ledger-held counters and what the Joiner and the Ledger keep for themselves (Table 19-7). -/
def joinerHeld (k : Nat) : Bool :=
  inBlock Reg.jnrStatus 0x40 k || inBlock Reg.jnrKeys 0x40 k || inFields Reg.jnrDebug 0x40 1 [Reg.DEBUG_UNLOCKS] k ||
  inBlock Reg.ldgStatus 0x40 k || inFields Reg.safSafety 0x40 1 [Reg.SAF_LATENT_FAULTS, Reg.SAF_FENCES] k ||
  inFields (Reg.safBent 0) 16 16 [Reg.BENT_FREE_POSITION, Reg.BENT_UNCOVERED, Reg.BENT_FAILS] k
/-- Telemetry counters with Reset 0, LOG_HEAD among them. -/
def telemetryKey (k : Nat) : Bool :=
  inFields Reg.hif 0x1000 1 [Reg.HIF_BAD_ACCESS] k || inFields Reg.jnrStatus 0x40 1 [Reg.JNR_TELEMETRY_LOST, Reg.JNR_BUSY_REFUSALS] k ||
  inFields Reg.ldgStatus 0x40 1 [Reg.LDG_TORN_GROUPS, Reg.LDG_UNKNOWN_RECORDS] k ||
  inFields Reg.safSafety 0x40 1 [Reg.SAF_DATA_PATH_FAULTS, Reg.SAF_TRANSIENTS, Reg.SAF_LOG_HEAD] k ||
  inFields (Reg.safBent 0) 16 16 [Reg.BENT_SLOTS, Reg.BENT_PASSES] k ||
  inFields (Reg.safDram 0) 32 8 [Reg.DRAM_CE_COUNT, Reg.DRAM_UE_COUNT, Reg.DRAM_PATROL_PASSES] k ||
  inFields (Reg.trsPort 0) 64 16 [Reg.TRS_RETRIES, Reg.TRS_RETRAINS, Reg.TRS_FEC_CORRECTED, Reg.TRS_FEC_UNCORRECTED, Reg.TRS_TAG_FAILS] k ||
  inFields Reg.pwr 0x100 1 [Reg.PWR_DROOP_EVENTS, Reg.PWR_CAP_STEPS] k
/-- What a slot keeps of itself, and what stays with the contexts. -/
def slotHeld : List Field :=
  [Reg.SLOT_STATE, Reg.SLOT_FIRST_SLOT, Reg.SLOT_SLOTS, Reg.SLOT_MANIFEST_ID, Reg.SLOT_TEACHER_BYTES, Reg.SLOT_STAGE_BYTES,
   Reg.SLOT_WEAR_MAX, Reg.SLOT_SHARDS_DONE]
def warmHeld (k : Nat) : Bool :=
  (joinerHeld k || inFields (Reg.nvwSlot 0) 64 8 slotHeld k ||
   inFields (Reg.trsPort 0) 64 16 [Reg.TRS_ENABLE, Reg.TRS_WIDTH, Reg.TRS_MEDIUM] k || inBlock Reg.trsAddress 8 k ||
   inBlock Reg.pwr 0x300 k) && !telemetryKey k
/-- What PRESERVE keeps besides: contexts, stream tables, stores, bound slots, and the fields of queues, rings and windows. -/
def preserveHeld (k : Nat) : Bool :=
  inBlock (Reg.ctx 0) (1024 * 4096) k || inBlock (Reg.streamTable 0) (128 * 4096) k || inBlock (Reg.ckptStore 0) (64 * 16) k ||
  inBlock (Reg.nvwSlot 0) (64 * 8) k || inBlock (Reg.wwy 0 0) 0x4000000 k || inBlock (Reg.ring 0) (128 * 512) k ||
  inBlock (Reg.t3w 0) (64 * 4096) k || inBlock (Reg.hdm 0) (32 * 64) k
def State.keepRegs (s : State) (p : Nat → Bool) : State := { s with regs := s.regs.filter (fun kv => p kv.1) }

/-! ## Cold reset (R516, 17 R471) -/

/-- One core of a bent's map: a fenced core whose position the old free core takes has been replaced (16 R442). -/
def State.replayPos (s : State) (h : Nat) (free : Nat) : Nat → List (Option (Fin 17)) → State
  | _, [] => s
  | l, p :: ps =>
    let c := match p with | some i => 17 * h + i.val | none => noCore
    let t := s.physOf l
    let s1 := if t ≠ c ∧ c = free ∧ s.coreFence t = 2 then { s with fences := mapSet 0 s.fences t 3 } else s
    (s1.setPhys l c).replayPos h free (l + 1) ps
/-- One record is replayed. -/
def State.applyRec (s : State) : LedgerRec → State
  | .fence c => { s with fences := mapSet 0 s.fences c.val 2 }
  | .spare b m f =>
    let s1 := s.replayPos b.val (s.freeOf b.val) (16 * b.val) m
    (s1.setFree b.val (match f with | some i => 17 * b.val + i.val | none => noCore)).showFree b.val
  | .wear n b count =>
    let r := Reg.nvwSlot n.val
    ({ s with wear := mapSet 0 s.wear (4096 * n.val + b.val) count } : State).wr r Reg.SLOT_WEAR_MAX (max count (s.rd r Reg.SLOT_WEAR_MAX))
  | .keyGen g _ _ => s.wr Reg.jnrKeys Reg.KEYS_KEY_GEN g.toNat
  | .manifest h bs => { s with manifests := mapSet [] s.manifests h.val bs }
  | .slotState n st first count => s.setSlot n.val st.toNat first.val count
  | .firmware active a b =>
    ((s.wr Reg.jnrStatus Reg.JNR_ACTIVE_SLOT (if active then 1 else 0)).wr Reg.jnrStatus Reg.JNR_VALID_A (if a then 1 else 0)).wr
      Reg.jnrStatus Reg.JNR_VALID_B (if b then 1 else 0)
  | .minVersion k v => { s with minVersion := mapSet 0 s.minVersion k.val v }
  | .calibration _ _ => s
  | .ckptIndex x n =>
    { s with ckptIndex := (x, n) :: (s.ckptIndex.filter (fun e => decide (e.1 = x))).take 1 ++ s.ckptIndex.filter (fun e => decide (e.1 ≠ x)) }
  | .tenantNonce _ _ => s
  | .counter w v =>
    match w.val with
    | 0 => s.wr Reg.safSafety Reg.SAF_LATENT_FAULTS v
    | 1 => s.wr Reg.safSafety Reg.SAF_FENCES v
    | 2 => s.wr Reg.jnrStatus Reg.JNR_WATCHDOG_RESTARTS v
    | 3 => s.wr Reg.jnrKeys Reg.KEYS_ROTATIONS v
    | 4 => s.wr Reg.jnrDebug Reg.DEBUG_UNLOCKS v
    | 5 => s.wr Reg.ldgStatus Reg.LDG_COMPACTIONS v
    | 6 => s.wr (Reg.safBent (v / 2 ^ 32)) Reg.BENT_FAILS v
    | _ => s
  | .unknown _ => s.inc Reg.ldgStatus Reg.LDG_UNKNOWN_RECORDS
def State.replayRecs (s : State) : List LedgerRec → State
  | [] => s
  | r :: rs => (s.applyRec r).replayRecs rs
def State.slotBusy (s : State) (n : Nat) : Bool :=
  decide (s.rd (Reg.nvwSlot n) Reg.SLOT_STATE = 1) || decide (s.rd (Reg.nvwSlot n) Reg.SLOT_STATE = 2)
/-- A slot that was erasing or filling as power was lost, in its register or in the Ledger, enters state 5 (13 R370); a slot of
an installed teacher shows it again. -/
def State.settleSlot (s : State) (old : State) (n : Nat) : State :=
  let b := Reg.nvwSlot n
  let src := if old.slotBusy n then old else s
  let first := src.rd b Reg.SLOT_FIRST_SLOT
  let m := mapGet [] s.manifests first
  if src.slotBusy n then
    (s.setSlot n 5 first (src.rd b Reg.SLOT_SLOTS)).ledger (slotRecs 5 first (src.rd b Reg.SLOT_SLOTS) [n])
  else if (s.rd b Reg.SLOT_STATE = 3 ∨ s.rd b Reg.SLOT_STATE = 4) ∧ m ≠ [] then s.showTeacher m [n]
  else s
def State.settleSlots (s : State) (old : State) : List Nat → State
  | [] => s
  | n :: ns => (s.settleSlot old n).settleSlots old ns
/-- The half whose switch marker carries the higher EPOCH (17 R471). -/
def State.newerHalf (s : State) : Nat := if mapGet 0 s.halfEpoch 0 < mapGet 0 s.halfEpoch 1 then 1 else 0
/-- What lies outside the reset: fuses, the Ledger, images, NVW, other packages and the host, the platform's lands, and the
model's own queue, time and draws. -/
def State.coldKept (s : State) : State :=
  let images := match mapGet [] s.images 3 with | [] => s.images | bs => mapSet [] s.images 2 bs
  { State.reset with
    hostMem := s.hostMem, nvw := s.nvw, revoked := s.revoked, images := mapSet [] images 3 []
    ckpts := s.ckpts, drains := s.drains, journal := s.journal, halfEpoch := s.halfEpoch
    msgs := s.msgs, delivered := s.delivered, stackHot := s.stackHot, coreHot := s.coreHot, clkLost := s.clkLost
    rails := s.rails, railFault := s.railFault, perstOff := s.perstOff
    reply := s.reply, nowUs := s.nowUs, free := s.free, pending := s.pending }
/-- COLD_RESET. recover: JNR_RECOVERY_N is asserted (20 R527). -/
def State.coldReset (s : State) (recover : Bool) : State :=
  let a := s.newerHalf
  let torn := decide (s.ledgerWait ≠ []) && Config.groupTorn s.free
  let s1 := ({ s.coldKept with free := s.free + 1 } : State).newChallenge
  let s2 := (s1.wr Reg.ldgStatus Reg.LDG_ACTIVE_HALF a).wr Reg.ldgStatus Reg.LDG_EPOCH (mapGet 0 s.halfEpoch a)
  let s3 := s2.wr Reg.ldgStatus Reg.LDG_TORN_GROUPS (if torn then 1 else 0)
  let s4 := (({ s3 with journal := mapSet [] s3.journal (1 - a) [] } : State).replayRecs (mapGet [] s.journal a).flatten).showFill
  let s5 := s4.settleSlots s (upto 8)
  { s5 with recovery := recover || !(s5.slotValid 0 || s5.slotValid 1) }

/-! ## Warm reset (R515) -/

/-- A context under PRESERVE: one that held bays is Idle with nothing loaded; an open step is uncommitted or torn. -/
def State.settleCtx (s : State) (x : Nat) : State :=
  let k := s.ctx x
  let b := Reg.ctx x
  let held := decide (k.bayMap ≠ [])
  let st := s.ctxState x
  let sst := s.rd b Reg.CTX_STEP_STATE
  let k1 : Ctx := { k with
    bayMap := [], goal := none, phase := .drain, tickets := [], step := none, restoredLanes := []
    programs := k.programs.map (fun p => { p with ticket := none })
    exch := { Exchange.idle with heldScales := k.exch.heldScales, carries := k.exch.carries } }
  let k2 : Ctx := if held then { k1 with programs := [], saved := [], kept := [], hasSaved := false, savedActive := [] } else k1
  let s1 := s.setCtx x k2
  let s2 := if held && decide (st ≠ stTearing) then s1.setCtxState x stIdle else s1
  if sst = 1 ∨ sst = 4 then s2.wr b Reg.CTX_STEP_STATE 0
  else if sst = 2 ∨ sst = 3 then s2.wr b Reg.CTX_STEP_STATE 6 else s2
def State.settleCtxs (s : State) : List Nat → State
  | [] => s
  | x :: xs => (s.settleCtx x).settleCtxs xs
/-- A queue is off: its spill area is zeroed, and the partner of a remote pair is told (08 R234). -/
def State.offQueue (s : State) (x q : Nat) : State :=
  let s1 := (s.spillArea x q).foldl (fun a r => a.zeroRegion x r.1 r.2) s
  let s2 := if s.isSender x q || s.isReceiver x q then
      s1.queuePacket (s.sideKey x (s.wq x q Reg.WWY_REMOTE_DEVICE) x) false 6 (clearedBody (s.queueKey x q).channel.toNat (s.isSender x q))
    else s1
  (s2.wr (Reg.wwy x q) Reg.WWY_ENABLE 0).wr (Reg.wwy x q) Reg.WWY_STATUS 0x1003
def State.offQueues (s : State) : List (Nat × Nat) → State
  | [] => s
  | (x, q) :: l => (s.offQueue x q).offQueues l
/-- What queues were still clearing is zero. -/
def State.endClears (s : State) (old : State) : State :=
  old.clearings.foldl (fun a yc => a.zeroRegion yc.1 yc.2.spill.1 yc.2.spill.2) s
/-- Enabled objects of one kind are disabled and post a code. -/
def State.offObjs (s : State) (base : Nat → Nat) (enable status : Field) (code : Nat) : List Nat → State
  | [] => s
  | i :: is => ((s.wr (base i) enable 0).wr (base i) status code).offObjs base enable status code is
/-- Windway queues, rings, tier-3 windows and HDM windows are disabled and post 0x1003. -/
def State.offLinks (s : State) : State :=
  let s1 := s.offQueues s.enabledQueues
  let s2 := s1.offObjs Reg.ring Reg.RING_ENABLE Reg.RING_STATUS 0x1003 s1.enabledRings
  let s3 := s2.offObjs Reg.t3w Reg.T3W_ENABLE Reg.T3W_STATUS 0x1003 s2.enabledT3ws
  s3.offObjs Reg.hdm Reg.HDM_ENABLE Reg.HDM_STATUS 0x1003 s3.enabledHdms
/-- The Joiner's side, the Ledger, NVW and what lies outside: a warm reset leaves these. -/
def State.warmKept (s : State) : State :=
  { State.reset with
    posCore := s.posCore, freeCore := s.freeCore, fences := s.fences, suspects := s.suspects, memberSeq := s.memberSeq, frames := s.frames
    hostMem := s.hostMem, nvw := s.nvw, wear := s.wear, manifests := s.manifests, installs := s.installs, erasures := s.erasures
    revoked := s.revoked, minVersion := s.minVersion, images := s.images, ucodeTaken := s.ucodeTaken, meas3 := s.meas3, challenge := s.challenge
    ckptIndex := s.ckptIndex, ckpts := s.ckpts, drains := s.drains, ledgerWait := s.ledgerWait, journal := s.journal, halfEpoch := s.halfEpoch
    calibs := s.calibs, msgs := s.msgs, delivered := s.delivered, stackHot := s.stackHot, coreHot := s.coreHot, clkLost := s.clkLost
    thermCeil := s.thermCeil, powerCeil := s.powerCeil, served := s.served, transients := s.transients
    rails := s.rails, railFault := s.railFault, thermtrip := s.thermtrip, recovery := s.recovery, recBytes := s.recBytes, recLen := s.recLen
    recStatus := s.recStatus, alertSeen := s.alertSeen, lastPower := s.lastPower, tapIr := s.tapIr, dynAddr := s.dynAddr
    reply := s.reply, nowUs := s.nowUs, free := s.free, pending := s.pending }
def State.retrainPorts (s : State) : List Nat → State
  | [] => s
  | p :: ps => (s.wr (Reg.trsPort p) Reg.TRS_LINK_STATE 1).retrainPorts ps
/-- Tier 1 is lost: the sweep has nothing left to rewrite, and the previous generation retires (15 R411). -/
def State.sweepLost (s : State) : State :=
  if s.sweeping then
    let s1 := s.wr Reg.jnrKeys Reg.KEYS_SWEEP_ACTIVE 0
    s1.ledger [s1.genRecord false 0]
  else s
/-- The whole package but the Joiner, with tier 1 and its owners lost. -/
def State.warmBare (s : State) : State :=
  let s1 := { s.warmKept with regs := s.regs.filter (fun kv => warmHeld kv.1) }
  (s1.retrainPorts s1.enabledPorts).sweepLost
/-- The same, kept under PRESERVE. -/
def State.warmPreserved (s : State) : State :=
  let s1 : State := { s.warmKept with
    regs := s.regs.filter (fun kv => (warmHeld kv.1 || preserveHeld kv.1) && !telemetryKey kv.1)
    tier1 := s.tier1, poison := s.poison, drone := s.drone, fresh := s.fresh, ctxs := s.ctxs, runSeq := s.runSeq, placeSeq := s.placeSeq }
  (((s1.endClears s).retrainPorts s1.enabledPorts).settleCtxs s1.ctxKeys).offLinks.sweepResume
/-- WARM_RESET: PERST is asserted on every port whose MODE was not 0. -/
def State.warmReset (s : State) : State :=
  if s.hifMode 0 = 0 ∧ s.hifMode 1 = 0 then s
  else
    let off := (upto 2).foldl (fun m p => if s.hifMode p = 0 then m else mapSet false m p false) s.perstOff
    { (if s.flag Reg.pwr Reg.PWR_PRESERVE then s.warmPreserved else s.warmBare) with perstOff := off }

/-! ## The other resets -/

def State.ringsDisable (s : State) : List Nat → State
  | [] => s
  | r :: rs => (s.ringDisable (Fin.ofNat 512 r)).ringsDisable rs
def State.hdmsOff (s : State) : List Nat → State
  | [] => s
  | w :: ws => ((s.recallWindow w).objDisable (.hdm (Fin.ofNat 64 w)) 0).hdmsOff ws
/-- FLR of function p (Table 19-6). -/
def State.flr (s : State) (p : Nat) : State :=
  let mine (k : Nat) : Bool := decide (k / 2048 = p)
  let win (w : Nat) : Bool := decide (w / 32 = p)
  let s1 : State := { s with
    msix := mapClear mine s.msix, pba := mapClear mine s.pba, decoders := mapClear win s.decoders, decoderErr := mapClear win s.decoderErr
    dfun := mapSet false s.dfun p (decide (s.dstate ≠ 0) && mapGet false s.dfun p) }
  (s1.ringsDisable (s1.enabledRings.filter (fun r => decide ((s1.ringPort r).val = p)))).hdmsOff (s1.enabledHdms.filter win)
/-- PORT_RESET: PERST of port p while the other port's MODE is 2. -/
def State.portReset (s : State) (p : Nat) : State :=
  if s.hifMode (1 - p) = 2 then ({ s.cxlDown p with perstOff := mapSet false s.perstOff p false } : State).flr p else s
def State.tearAll (s : State) : List Nat → State
  | [] => s
  | x :: xs => (s.beginTeardown x).tearAll xs
def State.dropRings (s : State) : List Nat → State
  | [] => s
  | x :: xs => (s.disableRings x s.enabledRings).dropRings xs
/-- A byte of a checkpoint store. -/
def State.inStore (s : State) (a : Nat) : Bool :=
  s.enabledStores.any (fun n => decide (s.rd (Reg.ckptStore n) Reg.STORE_BASE ≤ a) &&
    decide (a < s.rd (Reg.ckptStore n) Reg.STORE_BASE + s.rd (Reg.ckptStore n) Reg.STORE_BYTES))
/-- CXL_RESET, through either function: every context is torn down, and tier 1 is zeroed except the stores. -/
def State.cxlReset (s : State) : State :=
  if s.hifMode 0 = 0 ∧ s.hifMode 1 = 0 then s
  else
    let xs := s.enabledCtxs
    let s1 := (s.tearAll xs).dropRings xs
    let s2 := s1.zeroTier1 (fun a => !s1.inStore a)
    let s3 := s2.keepRegs (fun k => !inBlock (Reg.ctx 0) (1024 * 4096) k && !inBlock (Reg.streamTable 0) (128 * 4096) k && !telemetryKey k)
    { s3 with ctxs := [], cores := [], queues := [], pegs := [], pegSignals := [], migrating := [] }
/-- PERST_DEASSERT (Table 19-2): with every rail within tolerance. -/
def State.perstDeassert (s : State) (p : Nat) : State :=
  if s.railsGood && decide (s.railFault = 0) then { s with perstOff := mapSet false s.perstOff p true } else s
/-- MEMORY_ACTIVE_SET (R501): tier 1 has been zeroed. -/
def State.memorySet (s : State) : State :=
  if (mapGet false s.perstOff 0 || mapGet false s.perstOff 1) && decide (s.railFault = 0) && !s.recovery then { s with memActive := true } else s

/-! ## Rails -/

/-- A rail out of order or late (R501): every island but the Joiner is held in reset. -/
def State.railBad (s : State) : State := ({ s.warmBare with railFault := 1 } : State).pwrPost 0x8402
/-- A fault ends once every rail but VDD_AUX has been lowered and all have come up in order. -/
def State.railRecheck (s : State) : State :=
  if s.railFault = 1 ∧ s.auxAlone = true then { s with railFault := 2 }
  else if s.railFault = 2 ∧ s.railsGood = true then { s with railFault := 0 } else s
/-- RAIL_EVENT. -/
def State.railEvent (s : State) (r : Rail) (k : RailStep) : State :=
  let i := railKey r
  match k with
  | .rises => if s.rail i ≠ 0 then s else if s.railTurn i then s.setRail i 1 else (s.setRail i 1).railBad
  | .good => if s.rail i = 1 then (s.setRail i 2).railRecheck else s
  | .late => if s.rail i = 1 then s.railBad else s
  | .falls => ({ s.setRail i 0 with memActive := false } : State).railRecheck
def State.drainAll (s : State) : List Nat → State
  | [] => s
  | c :: cs => (s.drainCore c).drainAll cs
/-- RAIL_OUT_OF_TOLERANCE (R503), after 10 µs; still: also 1 ms later, and the rail has recovered since. -/
def State.outOfTolerance (s : State) (still : Bool) : State :=
  if s.dstate ≠ 0 then s
  else
    let s1 := ((s.haltAll 0x8402 s.allHolders).drainAll (upto 272)).pwrPost 0x8402
    if still then s1.coldReset false else s1

end Sys2Proof.Machine
end

