-- ==== Sys2Proof/Machine/Power.lean ====
section
/-! DEFINITION. The rows of power, clocks and reset (19) and of the package's lands (20 R521, R525, R526). -/
namespace Sys2Proof.Machine

/-- RAIL_EVENT (R501). -/
def execRailEvent (r : Rail) (k : RailStep) (s : State) : Out := .next (s.railEvent r k)
/-- RAIL_OUT_OF_TOLERANCE (R503). -/
def execRailOutOfTolerance (_ : Rail) (still : Bool) (s : State) : Out := .next (s.outOfTolerance still)
/-- DROOP_EVENT (R504): the island's clock stretches, so no value changes; the count feeds 09 R261. -/
def execDroopEvent (s : State) : Out :=
  .next { s.inc Reg.pwr Reg.PWR_DROOP_EVENTS with droops := s.droops + 1 }
/-- REFCLK_LOSS (R505). -/
def execRefclkLoss (k : RefClock) (s : State) : Out := .next (s.refclkLoss k)
/-- REFCLK_RETURN (R505). -/
def execRefclkReturn (k : RefClock) (s : State) : Out := .next (s.setClock (clockKey k) false)
/-- FREQUENCY_STEP (R507). -/
def execFrequencyStep (b : BayId) (s : State) : Out := .next (s.frequencyStep b.val)
/-- POWER_CAP_TEST (R508). -/
def execPowerCapTest (p10 p1 : Nat) (raise : Bool) (s : State) : Out := .next (s.powerCap p10 p1 raise)
/-- CORE_THERMAL_TRIP (R509). -/
def execCoreThermalTrip (c : CoreId) (s : State) : Out := .next (s.coreTrip c.val)
/-- POWER_LIMIT_UNREACHABLE (R510). -/
def execPowerLimitUnreachable (s : State) : Out := .next s.unreachable
/-- THERMTRIP (20 R521): PWR_THERMTRIP_N is held until cold reset. -/
def execThermtrip (s : State) : Out := .next { s with thermtrip := true }
/-- BAY_SLEEP (R511). -/
def execBaySleep (b : BayId) (s : State) : Out := .next (s.baySleep b.val)
/-- BAY_WAKE (R511). -/
def execBayWake (b : BayId) (s : State) : Out := .next (s.bayWake b.val)
/-- FUNCTION_D3HOT (R512). -/
def execFunctionD3hot (p : CxlId) (s : State) : Out := .next (s.functionSleep p.val)
/-- FUNCTION_D0_RETURN (R512). -/
def execFunctionD0Return (p : CxlId) (s : State) : Out := .next (s.functionWake p.val)
/-- D3HOT_ENTRY (R512). -/
def execD3hotEntry (s : State) : Out := .next s.d3hot
/-- D0_RETURN (R513). -/
def execD0Return (s : State) : Out := .next s.d0Return
/-- D3COLD_ENTRY (R513). -/
def execD3coldEntry (s : State) : Out := .next s.d3cold
/-- L0P_WIDTH_CHANGE (R514). -/
def execL0pWidthChange (p : CxlId) (w : CxlWidth) (s : State) : Out := .next (s.l0pChange p.val w)
/-- ASPM_L1 (R514). -/
def execAspmL1 (p : CxlId) (enter : Bool) (s : State) : Out := .next (s.aspm p.val enter)
/-- COLD_RESET (R515, R516). -/
def execColdReset (recover : Bool) (s : State) : Out := .next (s.coldReset recover)
/-- WARM_RESET (R515). -/
def execWarmReset (s : State) : Out := .next s.warmReset
/-- PORT_RESET (R515). -/
def execPortReset (p : CxlId) (s : State) : Out := .next (s.portReset p.val)
/-- CXL_RESET (R515). -/
def execCxlReset (s : State) : Out := .next s.cxlReset
/-- FLR (R515). -/
def execFlr (p : CxlId) (s : State) : Out := .next (s.flr p.val)
/-- PERST_DEASSERT (R501). -/
def execPerstDeassert (p : CxlId) (s : State) : Out := .next (s.perstDeassert p.val)
/-- MEMORY_ACTIVE_SET (R501). -/
def execMemoryActiveSet (s : State) : Out := .next s.memorySet
/-- CXL_LINK_TRAINED (18 R475). -/
def execCxlLinkTrained (p : CxlId) (l : CxlLink) (s : State) : Out := .next (s.cxlTrained p.val l)
/-- CXL_LINK_DOWN (R505). -/
def execCxlLinkDown (p : CxlId) (s : State) : Out := .next (s.cxlLost p.val)
/-- DOE_REQUEST (18 R475). -/
def execDoeRequest (p : CxlId) (k : DoeRequest) (s : State) : Out := .next (s.doe p.val k)
/-- DYNAMIC_ADDRESS_ASSIGNMENT (20 R525). -/
def execDynamicAddressAssignment (a : BitVec 7) (s : State) : Out := .next (s.assignAddress a)
/-- PWR_STATUS_READ (20 R525). -/
def execPwrStatusRead (s : State) : Out := .next s.statusRead
/-- TAP_INSTRUCTION (20 R526). -/
def execTapInstruction (i : TapInstr) (s : State) : Out := .next (s.tap i)

end Sys2Proof.Machine
end

