-- ==== Sys2Proof/Machine/Row.lean ====
section
/-! DEFINITION. The rows of the row engine (04 R114 to R121; 06 R190). -/
namespace Sys2Proof.Machine

/-- NORM_ACC (R118): Accumulate normalisation sums per row. -/
def execNormAcc (c : CoreId) (a : SlotArgs) (s : State) : Out := .next (s.runSlot c .V 0x70 a)

/-- NORM_FIN (R118): Finalise the mean and reciprocal standard deviation. -/
def execNormFin (c : CoreId) (a : SlotArgs) (s : State) : Out := .next (s.runSlot c .V 0x71 a)

/-- NORM_APPLY (R118): Apply the normalisation with gain and bias. -/
def execNormApply (c : CoreId) (a : SlotArgs) (s : State) : Out := .next (s.runSlot c .V 0x72 a)

/-- SMAX_ACC (R119): Accumulate the softmax running maximum and sum. -/
def execSmaxAcc (c : CoreId) (a : SlotArgs) (s : State) : Out := .next (s.runSlot c .V 0x73 a)

/-- SMAX_FIN (R119): Finalise the softmax LSE. -/
def execSmaxFin (c : CoreId) (a : SlotArgs) (s : State) : Out := .next (s.runSlot c .V 0x74 a)

/-- SMAX_APPLY (R119): Write softmax probabilities. -/
def execSmaxApply (c : CoreId) (a : SlotArgs) (s : State) : Out := .next (s.runSlot c .V 0x75 a)

/-- TOPK_INIT (R120): Initialise a top-k header and its empty entries. -/
def execTopkInit (c : CoreId) (a : SlotArgs) (s : State) : Out := .next (s.runSlot c .V 0x76 a)

/-- TOPK_MERGE (R120): Merge a tile's scaled candidates into the top-k list. -/
def execTopkMerge (c : CoreId) (a : SlotArgs) (s : State) : Out := .next (s.runSlot c .V 0x77 a)

/-- TOPK_EMIT (R121): Write top-k indices, log-probabilities, TAIL and LSE, and free the records. -/
def execTopkEmit (c : CoreId) (a : SlotArgs) (s : State) : Out := .next (s.runSlot c .V 0x78 a)

/-- CLEAR (R116): Clear one side-memory record to KIND 0. -/
def execClear (c : CoreId) (a : SlotArgs) (s : State) : Out := .next (s.runSlot c .V 0x79 a)

/-- STATSAVE (R117): Copy side-memory records to the scratchpad. -/
def execStatsave (c : CoreId) (a : SlotArgs) (s : State) : Out := .next (s.runSlot c .V 0x7A a)

/-- STATLOAD (R117): Copy side-memory records from the scratchpad, checking KIND and PHASE. -/
def execStatload (c : CoreId) (a : SlotArgs) (s : State) : Out := .next (s.runSlot c .V 0x7B a)

/-- NORM_BACC (R118): Accumulate the backward normalisation sums. -/
def execNormBacc (c : CoreId) (a : SlotArgs) (s : State) : Out := .next (s.runSlot c .V 0x80 a)

/-- NORM_BFIN (R118): Finalise the backward normalisation means. -/
def execNormBfin (c : CoreId) (a : SlotArgs) (s : State) : Out := .next (s.runSlot c .V 0x81 a)

/-- NORM_BAPPLY (R118): Write the normalisation input gradient. -/
def execNormBapply (c : CoreId) (a : SlotArgs) (s : State) : Out := .next (s.runSlot c .V 0x82 a)

/-- SMAX_BACC (R119): Accumulate dy times p for the softmax backward pass. -/
def execSmaxBacc (c : CoreId) (a : SlotArgs) (s : State) : Out := .next (s.runSlot c .V 0x83 a)

/-- SMAX_BFIN (R119): Finalise the softmax backward mean. -/
def execSmaxBfin (c : CoreId) (a : SlotArgs) (s : State) : Out := .next (s.runSlot c .V 0x84 a)

/-- SMAX_BAPPLY (R119): Write the softmax input gradient. -/
def execSmaxBapply (c : CoreId) (a : SlotArgs) (s : State) : Out := .next (s.runSlot c .V 0x85 a)

end Sys2Proof.Machine
end

