-- ==== Sys2Proof/Machine/Security.lean ====
section
/-! DEFINITION. The security rows (15 R408 to R428). -/
namespace Sys2Proof.Machine

/-- ROTATE (R409): a write of 1 to the ROTATE bit. -/
def execRotate (s : State) : Out := .next (s.bar (fun s => s.rotate))
/-- SWEEP_END (R411). -/
def execSweepEnd (s : State) : Out := .next s.sweepEnd
/-- ATTEST (R416). -/
def execAttest (e : Entry) (s : State) : Out := .next (s.command 0x22 e (fun s => s.attest e))
/-- ATTEST_REPORT_RECEIVE (R417). -/
def execAttestReportReceive (p : PortId) (r : SpanReport) (s : State) : Out := .next (s.reportIn p.val r)
/-- ATTEST_REPORT_LAPSE (R417). -/
def execAttestReportLapse (p : PortId) (s : State) : Out := .next (s.reportLapse p.val)
/-- SPAN_REPORT_SEND (R417). -/
def execSpanReportSend (s : State) : Out := .next s.spanReportSend
/-- DEBUG_UNLOCK (R427). -/
def execDebugUnlock (e : Entry) (s : State) : Out := .next (s.command 0x23 e (fun s => s.debugUnlock e))
/-- VENDOR_SIGNED (R406, R415). -/
def execVendorSigned (e : Entry) (s : State) : Out := .next (s.command 0x28 e (fun s => s.vendorSigned e))

end Sys2Proof.Machine
end

