-- ==== Sys2Proof/Machine/Service.lean ====
section
/-! DEFINITION. The rows of live service and the Ledger (17 R463 to R473; 10 R296). -/
namespace Sys2Proof.Machine

/-- FW_STAGE (R467). -/
def execFwStage (e : Entry) (s : State) : Out := .next (s.command 0x24 e (fun s => s.fwStage e))
/-- FW_ACTIVATE (R467). -/
def execFwActivate (e : Entry) (s : State) : Out := .next (s.command 0x25 e (fun s => s.fwActivate e))
/-- UCODE_STAGE (R468). -/
def execUcodeStage (e : Entry) (s : State) : Out := .next (s.command 0x26 e (fun s => s.ucodeStage e))
/-- CALIBRATE_TRUSS_LANE (10 R296). -/
def execCalibrateTrussLane (e : Entry) (s : State) : Out := .next (s.command 0x27 e (fun s => s.calibrate e))
/-- LANE_CAL_DONE (10 R296). -/
def execLaneCalDone (p : PortId) (l : LaneId) (s : State) : Out := .next (s.laneCalDone p l)
/-- CALIBRATE_DRAM_CHANNEL (R469). -/
def execCalibrateDramChannel (e : Entry) (s : State) : Out := .next (s.command 0x27 e (fun s => s.calibrate e))
/-- CALIBRATE_NVW_STACK (R469). -/
def execCalibrateNvwStack (e : Entry) (s : State) : Out := .next (s.command 0x27 e (fun s => s.calibrate e))
/-- CALIBRATION_DONE (R469). -/
def execCalibrationDone (t : CalTarget) (s : State) : Out := .next (s.calibrationDone t)
/-- JOINER_WATCHDOG (R466). -/
def execJoinerWatchdog (s : State) : Out := .next s.watchdog
/-- COMMAND_BUSY_TIMEOUT (R465). -/
def execCommandBusyTimeout (e : Entry) (op : BitVec 8) (s : State) : Out := .next (s.busyTimeout e op)
/-- TELEMETRY_SAMPLE (R465). -/
def execTelemetrySample (busy : Bool) (s : State) : Out := .next (s.telemetry busy)
/-- LEDGER_APPEND (R470). -/
def execLedgerAppend (rs : List LedgerRec) (s : State) : Out := .next (s.ledgerAppend rs)
/-- LEDGER_COMPACTION (R472). -/
def execLedgerCompaction (s : State) : Out := .next s.compaction
/-- COMPACTION_DONE (R472). -/
def execCompactionDone (s : State) : Out := .next s.compactionDone

end Sys2Proof.Machine
end

