-- ==== Sys2Proof/Machine/Streams.lean ====
section
/-! DEFINITION. The rows of 12: the stream table and its commands. A command row is what the engine executes: the host's
command where it names one, else a program's record. -/
namespace Sys2Proof.Machine

/-- STREAM_TABLE_ENABLE (R325): a write of 1 to ENABLE. -/
def execStreamTableEnable (x : CtxId) (s : State) : Out := .next (s.bar (fun t => t.requestEnable (.stream x)))
/-- STREAM_COMMAND_SUBMIT (R327). -/
def execStreamCommandSubmit (x : CtxId) (s : State) : Out := .next (s.streamSubmit x.val)
/-- OPEN (R333). -/
def execStreamOpen (x : CtxId) (r : StreamRec) (h : Option HostRef) (s : State) : Out := .next (s.streamCommand x 0x01 r false h)
/-- APPEND (R337). -/
def execStreamAppend (x : CtxId) (r : StreamRec) (h : Option HostRef) (s : State) : Out := .next (s.streamCommand x 0x02 r false h)
/-- COMMIT (R338). -/
def execStreamCommit (x : CtxId) (r : StreamRec) (h : Option HostRef) (s : State) : Out := .next (s.streamCommand x 0x03 r false h)
/-- MASK (R344). -/
def execStreamMask (x : CtxId) (r : StreamRec) (h : Option HostRef) (s : State) : Out := .next (s.streamCommand x 0x04 r false h)
/-- NEXT (R345). -/
def execStreamNext (x : CtxId) (r : StreamRec) (h : Option HostRef) (s : State) : Out := .next (s.streamCommand x 0x05 r false h)
/-- PAUSE (R347). -/
def execStreamPause (x : CtxId) (r : StreamRec) (h : Option HostRef) (s : State) : Out := .next (s.streamCommand x 0x06 r false h)
/-- STREAM_EXPIRE (R347); one that falls due in D3hot is posted at the return to D0 (19 R512). -/
def execStreamExpire (x : CtxId) (st : BitVec 16) (s : State) : Out := .next (if s.dstate = 0 then s.expireStream x.val st.toNat else s)
/-- RESUME (R348). -/
def execStreamResume (x : CtxId) (r : StreamRec) (h : Option HostRef) (s : State) : Out := .next (s.streamCommand x 0x07 r false h)
/-- CLOSE (Table 12-4). -/
def execStreamClose (x : CtxId) (r : StreamRec) (h : Option HostRef) (s : State) : Out := .next (s.streamCommand x 0x08 r false h)
/-- EXPORT (R349); whether the partner stream is in state 4 is what the partner answers. -/
def execStreamExport (x : CtxId) (r : StreamRec) (partnerReady : Bool) (h : Option HostRef) (s : State) : Out :=
  .next (s.streamCommand x 0x09 r partnerReady h)
/-- EXPORT_ACK (R349). -/
def execExportAck (x : CtxId) (st : BitVec 16) (s : State) : Out := .next (s.exportAcked x.val st.toNat)
/-- RECEIVE (R349). -/
def execStreamReceive (x : CtxId) (r : StreamRec) (h : Option HostRef) (s : State) : Out := .next (s.streamCommand x 0x0A r false h)
/-- ADAPTER_LOAD (R351). -/
def execStreamAdapterLoad (x : CtxId) (r : StreamRec) (h : Option HostRef) (s : State) : Out := .next (s.streamCommand x 0x10 r false h)
/-- GRAMMAR_LOAD (R341). -/
def execStreamGrammarLoad (x : CtxId) (r : StreamRec) (h : Option HostRef) (s : State) : Out := .next (s.streamCommand x 0x11 r false h)
/-- GRAMMAR_DROP (Table 12-4). -/
def execStreamGrammarDrop (x : CtxId) (r : StreamRec) (h : Option HostRef) (s : State) : Out := .next (s.streamCommand x 0x12 r false h)

end Sys2Proof.Machine
end

