-- ==== Sys2Proof/Machine/Vector.lean ====
section
/-! DEFINITION. The rows of the vector engine (04 R102 to R113; 06 R186 to R189, R192, R193). -/
namespace Sys2Proof.Machine

/-- VADD (R186): Vector add. -/
def execVadd (c : CoreId) (a : SlotArgs) (s : State) : Out := .next (s.runSlot c .V 0x01 a)

/-- VSUB (R186): Vector subtract. -/
def execVsub (c : CoreId) (a : SlotArgs) (s : State) : Out := .next (s.runSlot c .V 0x02 a)

/-- VMUL (R186): Vector multiply. -/
def execVmul (c : CoreId) (a : SlotArgs) (s : State) : Out := .next (s.runSlot c .V 0x03 a)

/-- VFMA (R186): Vector fused multiply-add. -/
def execVfma (c : CoreId) (a : SlotArgs) (s : State) : Out := .next (s.runSlot c .V 0x04 a)

/-- VMAX (R186): Vector maximum. -/
def execVmax (c : CoreId) (a : SlotArgs) (s : State) : Out := .next (s.runSlot c .V 0x05 a)

/-- VMIN (R186): Vector minimum. -/
def execVmin (c : CoreId) (a : SlotArgs) (s : State) : Out := .next (s.runSlot c .V 0x06 a)

/-- VCMP (R186): Vector compare into a predicate. -/
def execVcmp (c : CoreId) (a : SlotArgs) (s : State) : Out := .next (s.runSlot c .V 0x07 a)

/-- VIADD (R186): INT32 vector add. -/
def execViadd (c : CoreId) (a : SlotArgs) (s : State) : Out := .next (s.runSlot c .V 0x08 a)

/-- VISUB (R186): INT32 vector subtract. -/
def execVisub (c : CoreId) (a : SlotArgs) (s : State) : Out := .next (s.runSlot c .V 0x09 a)

/-- VSHL (R186): INT32 vector shift left. -/
def execVshl (c : CoreId) (a : SlotArgs) (s : State) : Out := .next (s.runSlot c .V 0x0A a)

/-- VSHR (R186): INT32 vector logical shift right. -/
def execVshr (c : CoreId) (a : SlotArgs) (s : State) : Out := .next (s.runSlot c .V 0x0B a)

/-- VSAR (R186): INT32 vector arithmetic shift right. -/
def execVsar (c : CoreId) (a : SlotArgs) (s : State) : Out := .next (s.runSlot c .V 0x0C a)

/-- VAND (R186): INT32 vector AND. -/
def execVand (c : CoreId) (a : SlotArgs) (s : State) : Out := .next (s.runSlot c .V 0x0D a)

/-- VOR (R186): INT32 vector OR. -/
def execVor (c : CoreId) (a : SlotArgs) (s : State) : Out := .next (s.runSlot c .V 0x0E a)

/-- VXOR (R186): INT32 vector XOR. -/
def execVxor (c : CoreId) (a : SlotArgs) (s : State) : Out := .next (s.runSlot c .V 0x0F a)

/-- VDIV (R103): Vector divide. -/
def execVdiv (c : CoreId) (a : SlotArgs) (s : State) : Out := .next (s.runSlot c .V 0x10 a)

/-- VSQRT (R103): Vector square root. -/
def execVsqrt (c : CoreId) (a : SlotArgs) (s : State) : Out := .next (s.runSlot c .V 0x11 a)

/-- VEXP (R104): Correctly rounded vector exponential. -/
def execVexp (c : CoreId) (a : SlotArgs) (s : State) : Out := .next (s.runSlot c .V 0x12 a)

/-- VLOG (R104): Correctly rounded vector logarithm. -/
def execVlog (c : CoreId) (a : SlotArgs) (s : State) : Out := .next (s.runSlot c .V 0x13 a)

/-- VSIG (R105): Vector sigmoid. -/
def execVsig (c : CoreId) (a : SlotArgs) (s : State) : Out := .next (s.runSlot c .V 0x14 a)

/-- VTANH (R105): Vector tanh. -/
def execVtanh (c : CoreId) (a : SlotArgs) (s : State) : Out := .next (s.runSlot c .V 0x15 a)

/-- VSILU (R105): Vector SiLU. -/
def execVsilu (c : CoreId) (a : SlotArgs) (s : State) : Out := .next (s.runSlot c .V 0x16 a)

/-- VGELU (R105): Vector GELU. -/
def execVgelu (c : CoreId) (a : SlotArgs) (s : State) : Out := .next (s.runSlot c .V 0x17 a)

/-- VSIGD (R105): Vector sigmoid derivative. -/
def execVsigd (c : CoreId) (a : SlotArgs) (s : State) : Out := .next (s.runSlot c .V 0x18 a)

/-- VTANHD (R105): Vector tanh derivative. -/
def execVtanhd (c : CoreId) (a : SlotArgs) (s : State) : Out := .next (s.runSlot c .V 0x19 a)

/-- VSILUD (R105): Vector SiLU derivative. -/
def execVsilud (c : CoreId) (a : SlotArgs) (s : State) : Out := .next (s.runSlot c .V 0x1A a)

/-- VGELUD (R105): Vector GELU derivative. -/
def execVgelud (c : CoreId) (a : SlotArgs) (s : State) : Out := .next (s.runSlot c .V 0x1B a)

/-- VLD (R187): Vector load with decode. -/
def execVld (c : CoreId) (a : SlotArgs) (s : State) : Out := .next (s.runSlot c .V 0x20 a)

/-- VST (R187): Vector store with encode. -/
def execVst (c : CoreId) (a : SlotArgs) (s : State) : Out := .next (s.runSlot c .V 0x21 a)

/-- VMPACK (R188): Store a predicate as a packed mask. -/
def execVmpack (c : CoreId) (a : SlotArgs) (s : State) : Out := .next (s.runSlot c .V 0x22 a)

/-- VMLOAD (R188): Load a packed mask into a predicate. -/
def execVmload (c : CoreId) (a : SlotArgs) (s : State) : Out := .next (s.runSlot c .V 0x23 a)

/-- VMSEL (R188): Select elements by a predicate mask. -/
def execVmsel (c : CoreId) (a : SlotArgs) (s : State) : Out := .next (s.runSlot c .V 0x24 a)

/-- CVT (R189): Convert a tensor, with given or automatic fine scales and a running maximum. -/
def execCvt (c : CoreId) (a : SlotArgs) (s : State) : Out := .next (s.runSlot c .V 0x60 a)

/-- VOPT (R109): Optimiser step on a shard, with working copy and norms. -/
def execVopt (c : CoreId) (a : SlotArgs) (s : State) : Out := .next (s.runSlot c .V 0xA0 a)

/-- VNRM (R113): Reduce 64 partial norms by a fixed pairwise tree. -/
def execVnrm (c : CoreId) (a : SlotArgs) (s : State) : Out := .next (s.runSlot c .V 0xA1 a)

/-- SEED (R64): Seed the selected lane generators and zero their counters. -/
def execSeed (c : CoreId) (a : SlotArgs) (s : State) : Out := .next (s.runSlot c .V 0xA8 a)

/-- RWND (R69): Step the selected lane generators back n draws. -/
def execRwnd (c : CoreId) (a : SlotArgs) (s : State) : Out := .next (s.runSlot c .V 0xA9 a)

end Sys2Proof.Machine
end

