-- ==== Sys2Proof/Machine/Dispatch.lean ====
section
/-! DEFINITION. The meaning of each command: one arm for each constructor of Instr, one call each. -/
namespace Sys2Proof.Machine

def exec (i : Instr) (s : State) : Host.Outcome State Fault Refusal :=
  match i with
  | .bundleIssue c => Sys2Proof.Machine.execBundleIssue c s
  | .unitComplete c u k => Sys2Proof.Machine.execUnitComplete c u k s
  | .deferredTrapPost c => Sys2Proof.Machine.execDeferredTrapPost c s
  | .noop c sl a => Sys2Proof.Machine.execNoop c sl a s
  | .add c a => Sys2Proof.Machine.execAdd c a s
  | .sub c a => Sys2Proof.Machine.execSub c a s
  | .mul c a => Sys2Proof.Machine.execMul c a s
  | .mulh c a => Sys2Proof.Machine.execMulh c a s
  | .and_ c a => Sys2Proof.Machine.execAnd c a s
  | .or_ c a => Sys2Proof.Machine.execOr c a s
  | .xor c a => Sys2Proof.Machine.execXor c a s
  | .shl c a => Sys2Proof.Machine.execShl c a s
  | .shr c a => Sys2Proof.Machine.execShr c a s
  | .sar c a => Sys2Proof.Machine.execSar c a s
  | .min_ c a => Sys2Proof.Machine.execMin c a s
  | .max_ c a => Sys2Proof.Machine.execMax c a s
  | .minu c a => Sys2Proof.Machine.execMinu c a s
  | .maxu c a => Sys2Proof.Machine.execMaxu c a s
  | .ldi c a => Sys2Proof.Machine.execLdi c a s
  | .ldih c a => Sys2Proof.Machine.execLdih c a s
  | .fadd c a => Sys2Proof.Machine.execFadd c a s
  | .fsub c a => Sys2Proof.Machine.execFsub c a s
  | .fmul c a => Sys2Proof.Machine.execFmul c a s
  | .fdiv c a => Sys2Proof.Machine.execFdiv c a s
  | .fmax c a => Sys2Proof.Machine.execFmax c a s
  | .fmin c a => Sys2Proof.Machine.execFmin c a s
  | .fcvt c a => Sys2Proof.Machine.execFcvt c a s
  | .sld c a => Sys2Proof.Machine.execSld c a s
  | .sst c a => Sys2Proof.Machine.execSst c a s
  | .tdld c a => Sys2Proof.Machine.execTdld c a s
  | .tdst c a => Sys2Proof.Machine.execTdst c a s
  | .tdfld c a => Sys2Proof.Machine.execTdfld c a s
  | .smovs c a => Sys2Proof.Machine.execSmovs c a s
  | .smovt c a => Sys2Proof.Machine.execSmovt c a s
  | .cmp c cond a => Sys2Proof.Machine.execCmp c cond a s
  | .fcmp c cond a => Sys2Proof.Machine.execFcmp c cond a s
  | .bra c a => Sys2Proof.Machine.execBra c a s
  | .brr c a => Sys2Proof.Machine.execBrr c a s
  | .call c a => Sys2Proof.Machine.execCall c a s
  | .pegs c a => Sys2Proof.Machine.execPegs c a s
  | .pegApply p => Sys2Proof.Machine.execPegApply p s
  | .pegw c a => Sys2Proof.Machine.execPegw c a s
  | .pegwRelease c => Sys2Proof.Machine.execPegwRelease c s
  | .fence c a => Sys2Proof.Machine.execFence c a s
  | .fenceClear c => Sys2Proof.Machine.execFenceClear c s
  | .trapnan c a => Sys2Proof.Machine.execTrapnan c a s
  | .halt c a => Sys2Proof.Machine.execHalt c a s
  | .coreHalted c => Sys2Proof.Machine.execCoreHalted c s
  | .mma c a => Sys2Proof.Machine.execMma c a s
  | .integerRetryPass c => Sys2Proof.Machine.execIntegerRetryPass c s
  | .mmx c a => Sys2Proof.Machine.execMmx c a s
  | .writeOut c a => Sys2Proof.Machine.execWriteOut c a s
  | .vadd c a => Sys2Proof.Machine.execVadd c a s
  | .vsub c a => Sys2Proof.Machine.execVsub c a s
  | .vmul c a => Sys2Proof.Machine.execVmul c a s
  | .vfma c a => Sys2Proof.Machine.execVfma c a s
  | .vmax c a => Sys2Proof.Machine.execVmax c a s
  | .vmin c a => Sys2Proof.Machine.execVmin c a s
  | .vcmp c a => Sys2Proof.Machine.execVcmp c a s
  | .viadd c a => Sys2Proof.Machine.execViadd c a s
  | .visub c a => Sys2Proof.Machine.execVisub c a s
  | .vshl c a => Sys2Proof.Machine.execVshl c a s
  | .vshr c a => Sys2Proof.Machine.execVshr c a s
  | .vsar c a => Sys2Proof.Machine.execVsar c a s
  | .vand c a => Sys2Proof.Machine.execVand c a s
  | .vor c a => Sys2Proof.Machine.execVor c a s
  | .vxor c a => Sys2Proof.Machine.execVxor c a s
  | .vdiv c a => Sys2Proof.Machine.execVdiv c a s
  | .vsqrt c a => Sys2Proof.Machine.execVsqrt c a s
  | .vexp c a => Sys2Proof.Machine.execVexp c a s
  | .vlog c a => Sys2Proof.Machine.execVlog c a s
  | .vsig c a => Sys2Proof.Machine.execVsig c a s
  | .vtanh c a => Sys2Proof.Machine.execVtanh c a s
  | .vsilu c a => Sys2Proof.Machine.execVsilu c a s
  | .vgelu c a => Sys2Proof.Machine.execVgelu c a s
  | .vsigd c a => Sys2Proof.Machine.execVsigd c a s
  | .vtanhd c a => Sys2Proof.Machine.execVtanhd c a s
  | .vsilud c a => Sys2Proof.Machine.execVsilud c a s
  | .vgelud c a => Sys2Proof.Machine.execVgelud c a s
  | .vld c a => Sys2Proof.Machine.execVld c a s
  | .vst c a => Sys2Proof.Machine.execVst c a s
  | .vmpack c a => Sys2Proof.Machine.execVmpack c a s
  | .vmload c a => Sys2Proof.Machine.execVmload c a s
  | .vmsel c a => Sys2Proof.Machine.execVmsel c a s
  | .cvt c a => Sys2Proof.Machine.execCvt c a s
  | .normAcc c a => Sys2Proof.Machine.execNormAcc c a s
  | .normFin c a => Sys2Proof.Machine.execNormFin c a s
  | .normApply c a => Sys2Proof.Machine.execNormApply c a s
  | .normBacc c a => Sys2Proof.Machine.execNormBacc c a s
  | .normBfin c a => Sys2Proof.Machine.execNormBfin c a s
  | .normBapply c a => Sys2Proof.Machine.execNormBapply c a s
  | .smaxAcc c a => Sys2Proof.Machine.execSmaxAcc c a s
  | .smaxFin c a => Sys2Proof.Machine.execSmaxFin c a s
  | .smaxApply c a => Sys2Proof.Machine.execSmaxApply c a s
  | .smaxBacc c a => Sys2Proof.Machine.execSmaxBacc c a s
  | .smaxBfin c a => Sys2Proof.Machine.execSmaxBfin c a s
  | .smaxBapply c a => Sys2Proof.Machine.execSmaxBapply c a s
  | .topkInit c a => Sys2Proof.Machine.execTopkInit c a s
  | .topkMerge c a => Sys2Proof.Machine.execTopkMerge c a s
  | .topkEmit c a => Sys2Proof.Machine.execTopkEmit c a s
  | .clear c a => Sys2Proof.Machine.execClear c a s
  | .statsave c a => Sys2Proof.Machine.execStatsave c a s
  | .statload c a => Sys2Proof.Machine.execStatload c a s
  | .gath c a => Sys2Proof.Machine.execGath c a s
  | .scat c a => Sys2Proof.Machine.execScat c a s
  | .segr c a => Sys2Proof.Machine.execSegr c a s
  | .vopt c a => Sys2Proof.Machine.execVopt c a s
  | .vnrm c a => Sys2Proof.Machine.execVnrm c a s
  | .seed c a => Sys2Proof.Machine.execSeed c a s
  | .rwnd c a => Sys2Proof.Machine.execRwnd c a s
  | .xfer c a => Sys2Proof.Machine.execXfer c a s
  | .xfert c a => Sys2Proof.Machine.execXfert c a s
  | .tier3ReadAbandon c => Sys2Proof.Machine.execTier3ReadAbandon c s
  | .wwput c a => Sys2Proof.Machine.execWwput c a s
  | .wwputTakeCredits x q => Sys2Proof.Machine.execWwputTakeCredits x q s
  | .wwget c a => Sys2Proof.Machine.execWwget c a s
  | .wwgetTakeRecords x q => Sys2Proof.Machine.execWwgetTakeRecords x q s
  | .recordDelivered x d => Sys2Proof.Machine.execRecordDelivered x d s
  | .remoteRecordArrive x q bs => Sys2Proof.Machine.execRemoteRecordArrive x q bs s
  | .remoteCreditArrive x q => Sys2Proof.Machine.execRemoteCreditArrive x q s
  | .legacyWordIssue c => Sys2Proof.Machine.execLegacyWordIssue c s
  | .lnop c a => Sys2Proof.Machine.execLnop c a s
  | .ladd c a => Sys2Proof.Machine.execLadd c a s
  | .lsub c a => Sys2Proof.Machine.execLsub c a s
  | .lmul c a => Sys2Proof.Machine.execLmul c a s
  | .land c a => Sys2Proof.Machine.execLand c a s
  | .lor c a => Sys2Proof.Machine.execLor c a s
  | .lxor c a => Sys2Proof.Machine.execLxor c a s
  | .lshl c a => Sys2Proof.Machine.execLshl c a s
  | .laddi c a => Sys2Proof.Machine.execLaddi c a s
  | .lldi c a => Sys2Proof.Machine.execLldi c a s
  | .lorsh c a => Sys2Proof.Machine.execLorsh c a s
  | .lld c a => Sys2Proof.Machine.execLld c a s
  | .lst c a => Sys2Proof.Machine.execLst c a s
  | .ltdld c a => Sys2Proof.Machine.execLtdld c a s
  | .lbr c a => Sys2Proof.Machine.execLbr c a s
  | .lbnz c a => Sys2Proof.Machine.execLbnz c a s
  | .lbz c a => Sys2Proof.Machine.execLbz c a s
  | .lbx c a => Sys2Proof.Machine.execLbx c a s
  | .lmma c a => Sys2Proof.Machine.execLmma c a s
  | .lwo c a => Sys2Proof.Machine.execLwo c a s
  | .lvadd c a => Sys2Proof.Machine.execLvadd c a s
  | .lvsub c a => Sys2Proof.Machine.execLvsub c a s
  | .lvmul c a => Sys2Proof.Machine.execLvmul c a s
  | .lvmax c a => Sys2Proof.Machine.execLvmax c a s
  | .lvmin c a => Sys2Proof.Machine.execLvmin c a s
  | .lvld c a => Sys2Proof.Machine.execLvld c a s
  | .lvst c a => Sys2Proof.Machine.execLvst c a s
  | .lxfer c a => Sys2Proof.Machine.execLxfer c a s
  | .lpegs c a => Sys2Proof.Machine.execLpegs c a s
  | .lpegw c a => Sys2Proof.Machine.execLpegw c a s
  | .lfence c a => Sys2Proof.Machine.execLfence c a s
  | .lhalt c a => Sys2Proof.Machine.execLhalt c a s
  | .drainRequest c => Sys2Proof.Machine.execDrainRequest c s
  | .coreDrained c => Sys2Proof.Machine.execCoreDrained c s
  | .counterClear x k v => Sys2Proof.Machine.execCounterClear x k v s
  | .queueEnable x q => Sys2Proof.Machine.execQueueEnable x q s
  | .queueDisable x q => Sys2Proof.Machine.execQueueDisable x q s
  | .queueClearDone x q => Sys2Proof.Machine.execQueueClearDone x q s
  | .stepOpen e => Sys2Proof.Machine.execStepOpen e s
  | .stepCommit e => Sys2Proof.Machine.execStepCommit e s
  | .gateDecide g => Sys2Proof.Machine.execGateDecide g s
  | .riskSample margin => Sys2Proof.Machine.execRiskSample margin s
  | .checkpointCaptureStart c => Sys2Proof.Machine.execCheckpointCaptureStart c s
  | .checkpointSecured x => Sys2Proof.Machine.execCheckpointSecured x s
  | .restore e src => Sys2Proof.Machine.execRestore e src s
  | .replayArm e => Sys2Proof.Machine.execReplayArm e s
  | .replay e run => Sys2Proof.Machine.execReplay e run s
  | .portEnable p => Sys2Proof.Machine.execPortEnable p s
  | .portDisable p => Sys2Proof.Machine.execPortDisable p s
  | .linkTrained p lanes => Sys2Proof.Machine.execLinkTrained p lanes s
  | .trsAddressEnable addr => Sys2Proof.Machine.execTrsAddressEnable addr s
  | .discoveryFlitSend p => Sys2Proof.Machine.execDiscoveryFlitSend p s
  | .discoveryFlitReceive p f => Sys2Proof.Machine.execDiscoveryFlitReceive p f s
  | .linkKeyExchange p ok => Sys2Proof.Machine.execLinkKeyExchange p ok s
  | .flitReceive p f fec tagOk => Sys2Proof.Machine.execFlitReceive p f fec tagOk s
  | .nakResend p ack => Sys2Proof.Machine.execNakResend p ack s
  | .keyChangeFlit p => Sys2Proof.Machine.execKeyChangeFlit p s
  | .retrain p cause => Sys2Proof.Machine.execRetrain p cause s
  | .retrainDone p low high => Sys2Proof.Machine.execRetrainDone p low high s
  | .routeTableWrite dest v => Sys2Proof.Machine.execRouteTableWrite dest v s
  | .channelOpen k peer => Sys2Proof.Machine.execChannelOpen k peer s
  | .packetSend pk => Sys2Proof.Machine.execPacketSend pk s
  | .packetReceive pk => Sys2Proof.Machine.execPacketReceive pk s
  | .packetResendTimeout k n => Sys2Proof.Machine.execPacketResendTimeout k n s
  | .frameEntryUpdate level ws => Sys2Proof.Machine.execFrameEntryUpdate level ws s
  | .bucketClose x => Sys2Proof.Machine.execBucketClose x s
  | .reducePacketReceive x r => Sys2Proof.Machine.execReducePacketReceive x r s
  | .bucketDeadlineExpire x b => Sys2Proof.Machine.execBucketDeadlineExpire x b s
  | .cutoffExpire x => Sys2Proof.Machine.execCutoffExpire x s
  | .abortPacketReceive x step attempt code => Sys2Proof.Machine.execAbortPacketReceive x step attempt code s
  | .summaryMerge x => Sys2Proof.Machine.execSummaryMerge x s
  | .summaryReceive x r => Sys2Proof.Machine.execSummaryReceive x r s
  | .gatherStart x => Sys2Proof.Machine.execGatherStart x s
  | .gatherChunkReceive x r => Sys2Proof.Machine.execGatherChunkReceive x r s
  | .streamTableEnable x => Sys2Proof.Machine.execStreamTableEnable x s
  | .streamCommandSubmit x => Sys2Proof.Machine.execStreamCommandSubmit x s
  | .streamOpen x r h => Sys2Proof.Machine.execStreamOpen x r h s
  | .streamAppend x r h => Sys2Proof.Machine.execStreamAppend x r h s
  | .streamCommit x r h => Sys2Proof.Machine.execStreamCommit x r h s
  | .streamMask x r h => Sys2Proof.Machine.execStreamMask x r h s
  | .streamNext x r h => Sys2Proof.Machine.execStreamNext x r h s
  | .streamPause x r h => Sys2Proof.Machine.execStreamPause x r h s
  | .streamExpire x st => Sys2Proof.Machine.execStreamExpire x st s
  | .streamResume x r h => Sys2Proof.Machine.execStreamResume x r h s
  | .streamClose x r h => Sys2Proof.Machine.execStreamClose x r h s
  | .streamExport x r partnerReady h => Sys2Proof.Machine.execStreamExport x r partnerReady h s
  | .exportAck x st => Sys2Proof.Machine.execExportAck x st s
  | .streamReceive x r h => Sys2Proof.Machine.execStreamReceive x r h s
  | .streamAdapterLoad x r h => Sys2Proof.Machine.execStreamAdapterLoad x r h s
  | .streamGrammarLoad x r h => Sys2Proof.Machine.execStreamGrammarLoad x r h s
  | .streamGrammarDrop x r h => Sys2Proof.Machine.execStreamGrammarDrop x r h s
  | .dchainTrainingAccess a o => Sys2Proof.Machine.execDchainTrainingAccess a o s
  | .patrolRead a o raced => Sys2Proof.Machine.execPatrolRead a o raced s
  | .dramTempBandChange g t => Sys2Proof.Machine.execDramTempBandChange g t s
  | .throttleStep islands => Sys2Proof.Machine.execThrottleStep islands s
  | .stackTrip g t => Sys2Proof.Machine.execStackTrip g t s
  | .trippedClear g => Sys2Proof.Machine.execTrippedClear g s
  | .nvwSlotEnable n => Sys2Proof.Machine.execNvwSlotEnable n s
  | .stagingDone n ok => Sys2Proof.Machine.execStagingDone n ok s
  | .nvwSlotDisable n => Sys2Proof.Machine.execNvwSlotDisable n s
  | .teacherInstall e => Sys2Proof.Machine.execTeacherInstall e s
  | .shardProgrammed n k o bs => Sys2Proof.Machine.execShardProgrammed n k o bs s
  | .installReadbackDone n ok => Sys2Proof.Machine.execInstallReadbackDone n ok s
  | .teacherErase e => Sys2Proof.Machine.execTeacherErase e s
  | .eraseDone n => Sys2Proof.Machine.execEraseDone n s
  | .verifyPass n stage ok => Sys2Proof.Machine.execVerifyPass n stage ok s
  | .ckptStoreEnable n => Sys2Proof.Machine.execCkptStoreEnable n s
  | .ckptStoreDisable n => Sys2Proof.Machine.execCkptStoreDisable n s
  | .captureReceive n r => Sys2Proof.Machine.execCaptureReceive n r s
  | .hdmEnable w => Sys2Proof.Machine.execHdmEnable w s
  | .hdmDisable w => Sys2Proof.Machine.execHdmDisable w s
  | .hdmHostAccess p a h => Sys2Proof.Machine.execHdmHostAccess p a h s
  | .hdmDecoderCommit w r => Sys2Proof.Machine.execHdmDecoderCommit w r s
  | .ctxEnable x => Sys2Proof.Machine.execCtxEnable x s
  | .ctxDisable x => Sys2Proof.Machine.execCtxDisable x s
  | .teardownDone x => Sys2Proof.Machine.execTeardownDone x s
  | .load e => Sys2Proof.Machine.execLoad e s
  | .placement => Sys2Proof.Machine.execPlacement s
  | .preemption => Sys2Proof.Machine.execPreemption s
  | .sliceExpire x => Sys2Proof.Machine.execSliceExpire x s
  | .switchSaveDone x ok => Sys2Proof.Machine.execSwitchSaveDone x ok s
  | .switchScrubDone x => Sys2Proof.Machine.execSwitchScrubDone x s
  | .switchRestoreDone x ok => Sys2Proof.Machine.execSwitchRestoreDone x ok s
  | .ctxStop e => Sys2Proof.Machine.execCtxStop e s
  | .ctxResume e => Sys2Proof.Machine.execCtxResume e s
  | .ctxUnload e => Sys2Proof.Machine.execCtxUnload e s
  | .bwRegulatorWindow b => Sys2Proof.Machine.execBwRegulatorWindow b s
  | .rotate => Sys2Proof.Machine.execRotate s
  | .sweepEnd => Sys2Proof.Machine.execSweepEnd s
  | .linkRekey p => Sys2Proof.Machine.execLinkRekey p s
  | .attest e => Sys2Proof.Machine.execAttest e s
  | .attestReportReceive p r => Sys2Proof.Machine.execAttestReportReceive p r s
  | .attestReportLapse p => Sys2Proof.Machine.execAttestReportLapse p s
  | .debugUnlock e => Sys2Proof.Machine.execDebugUnlock e s
  | .vendorSigned e => Sys2Proof.Machine.execVendorSigned e s
  | .faultDetect f => Sys2Proof.Machine.execFaultDetect f s
  | .retestDone c passed => Sys2Proof.Machine.execRetestDone c passed s
  | .slotEnd b passed => Sys2Proof.Machine.execSlotEnd b passed s
  | .uncoveredTest b passed => Sys2Proof.Machine.execUncoveredTest b passed s
  | .testRequestGo => Sys2Proof.Machine.execTestRequestGo s
  | .fenceGo => Sys2Proof.Machine.execFenceGo s
  | .fwStage e => Sys2Proof.Machine.execFwStage e s
  | .fwActivate e => Sys2Proof.Machine.execFwActivate e s
  | .ucodeStage e => Sys2Proof.Machine.execUcodeStage e s
  | .calibrateTrussLane e => Sys2Proof.Machine.execCalibrateTrussLane e s
  | .laneCalDone p l => Sys2Proof.Machine.execLaneCalDone p l s
  | .calibrateDramChannel e => Sys2Proof.Machine.execCalibrateDramChannel e s
  | .calibrateNvwStack e => Sys2Proof.Machine.execCalibrateNvwStack e s
  | .calibrationDone t => Sys2Proof.Machine.execCalibrationDone t s
  | .joinerWatchdog => Sys2Proof.Machine.execJoinerWatchdog s
  | .commandBusyTimeout e op => Sys2Proof.Machine.execCommandBusyTimeout e op s
  | .telemetrySample busy => Sys2Proof.Machine.execTelemetrySample busy s
  | .ledgerAppend rs => Sys2Proof.Machine.execLedgerAppend rs s
  | .ledgerCompaction => Sys2Proof.Machine.execLedgerCompaction s
  | .compactionDone => Sys2Proof.Machine.execCompactionDone s
  | .objectCheckEnd => Sys2Proof.Machine.execObjectCheckEnd s
  | .ringEnable r => Sys2Proof.Machine.execRingEnable r s
  | .ringDisable r => Sys2Proof.Machine.execRingDisable r s
  | .controlLineSnoop r st readOk => Sys2Proof.Machine.execControlLineSnoop r st readOk s
  | .ringPoll r st readOk => Sys2Proof.Machine.execRingPoll r st readOk s
  | .hostNop e => Sys2Proof.Machine.execHostNop e s
  | .completionRecordWrite r => Sys2Proof.Machine.execCompletionRecordWrite r s
  | .msixCoalesceExpire r => Sys2Proof.Machine.execMsixCoalesceExpire r s
  | .t3wEnable x => Sys2Proof.Machine.execT3wEnable x s
  | .t3wDisable x => Sys2Proof.Machine.execT3wDisable x s
  | .eventMsixSet => Sys2Proof.Machine.execEventMsixSet s
  | .registerWrite w => Sys2Proof.Machine.execRegisterWrite w s
  | .railEvent r k => Sys2Proof.Machine.execRailEvent r k s
  | .railOutOfTolerance r still => Sys2Proof.Machine.execRailOutOfTolerance r still s
  | .droopEvent => Sys2Proof.Machine.execDroopEvent s
  | .refclkLoss k => Sys2Proof.Machine.execRefclkLoss k s
  | .frequencyStep b => Sys2Proof.Machine.execFrequencyStep b s
  | .powerCapTest p10 p1 raise => Sys2Proof.Machine.execPowerCapTest p10 p1 raise s
  | .coreThermalTrip c => Sys2Proof.Machine.execCoreThermalTrip c s
  | .powerLimitUnreachable => Sys2Proof.Machine.execPowerLimitUnreachable s
  | .thermtrip => Sys2Proof.Machine.execThermtrip s
  | .baySleep b => Sys2Proof.Machine.execBaySleep b s
  | .bayWake b => Sys2Proof.Machine.execBayWake b s
  | .functionD3hot p => Sys2Proof.Machine.execFunctionD3hot p s
  | .d3hotEntry => Sys2Proof.Machine.execD3hotEntry s
  | .d0Return => Sys2Proof.Machine.execD0Return s
  | .d3coldEntry => Sys2Proof.Machine.execD3coldEntry s
  | .l0pWidthChange p w => Sys2Proof.Machine.execL0pWidthChange p w s
  | .coldReset recover => Sys2Proof.Machine.execColdReset recover s
  | .warmReset => Sys2Proof.Machine.execWarmReset s
  | .portReset p => Sys2Proof.Machine.execPortReset p s
  | .cxlReset => Sys2Proof.Machine.execCxlReset s
  | .flr p => Sys2Proof.Machine.execFlr p s
  | .tapInstruction t => Sys2Proof.Machine.execTapInstruction t s
  | .recoveryImageGo v => Sys2Proof.Machine.execRecoveryImageGo v s
  | .refclkReturn k => Sys2Proof.Machine.execRefclkReturn k s
  | .cxlLinkTrained p l => Sys2Proof.Machine.execCxlLinkTrained p l s
  | .cxlLinkDown p => Sys2Proof.Machine.execCxlLinkDown p s
  | .perstDeassert p => Sys2Proof.Machine.execPerstDeassert p s
  | .memoryActiveSet => Sys2Proof.Machine.execMemoryActiveSet s
  | .functionD0Return p => Sys2Proof.Machine.execFunctionD0Return p s
  | .spanReportSend => Sys2Proof.Machine.execSpanReportSend s
  | .thermalTripRelease t => Sys2Proof.Machine.execThermalTripRelease t s
  | .aspmL1 p enter => Sys2Proof.Machine.execAspmL1 p enter s
  | .doeRequest p k => Sys2Proof.Machine.execDoeRequest p k s
  | .dynamicAddressAssignment a => Sys2Proof.Machine.execDynamicAddressAssignment a s
  | .pwrStatusRead => Sys2Proof.Machine.execPwrStatusRead s
  | .tier3LineSnoop a => Sys2Proof.Machine.execTier3LineSnoop a s

end Sys2Proof.Machine
end

