-- ==== Sys2Proof/Machine/Tick.lean ====
section
/-! DEFINITION. What an idle step does (log entries 2 and 3): a microsecond passes, and what only counts time counts it: bay
time (14 Table 14-1), the waits of Windway orders (08 Table 08-1), a paused stream's time to live (12 R347), the time in
a self-test slot (16 Table 16-6), and the key sweep's progress (15 R410). -/
namespace Sys2Proof.Machine

/-- CTX_BAY_TIME_US: the sum over held bays. -/
def State.tickBays (s : State) : List Nat → State
  | [] => s
  | x :: xs => (s.bump (Reg.ctx x) Reg.CTX_BAY_TIME_US (s.ctx x).bayMap.length).tickBays xs
/-- Segment cycles in a microsecond, and in one unit of the wait counters. -/
def segmentMhz : Nat := 900
def waitUnit : Nat := 1024
/-- The head WWPUT of an order waits for credits. -/
def State.putWaits (s : State) (x q : Nat) : Bool :=
  match (s.queue x q).puts with
  | [] => false
  | r :: _ => match s.refInst r with
    | none => false
    | some i => !i.taken && decide (s.freeCredits x q < (viewOf s r.core.val i).wwDesc.rows)
/-- The head WWGET of an order waits for records. -/
def State.getWaits (s : State) (x q : Nat) : Bool :=
  match (s.queue x q).gets with
  | [] => false
  | r :: _ => match s.refInst r with
    | none => false
    | some i => decide ((s.queue x q).recs.length < (viewOf s r.core.val i).wwDesc.rows)
def State.tickQueue (s : State) (x q : Nat) : State :=
  let k := s.queue x q
  let p := k.putCycles + (if s.putWaits x q then segmentMhz else 0)
  let g := k.getCycles + (if s.getWaits x q then segmentMhz else 0)
  let s1 := (s.incBy (Reg.wwy x q) Reg.WWY_PUT_WAIT (p / waitUnit)).incBy (Reg.wwy x q) Reg.WWY_GET_WAIT (g / waitUnit)
  s1.setQueue x q { k with putCycles := p % waitUnit, getCycles := g % waitUnit }
def State.tickQueues (s : State) : List Nat → State
  | [] => s
  | key :: ks => (s.tickQueue (key / 256) (key % 256)).tickQueues ks
/-- A stream paused (one microsecond before `since`) a whole number of seconds ago has one second less to live. -/
def State.tickStream (s : State) (x st since : Nat) : State :=
  let d := s.nowUs + 1 - since
  if 0 < d ∧ d % 1000000 = 0 ∧ s.tableOn x = true ∧ s.ent x st Ent.STATE = 3 then
    s.setEnt x st Ent.TTL_LEFT_S (s.ent x st Ent.TTL_LEFT_S - 1)
  else s
def State.tickStreams (s : State) (x : Nat) : List (Nat × Nat) → State
  | [] => s
  | kv :: l => (s.tickStream x kv.1 kv.2).tickStreams x l
def State.tickTables (s : State) : List Nat → State
  | [] => s
  | x :: xs => (s.tickStreams x (s.eng x).pausedAt).tickTables xs
/-- A covered bent's slots follow one another; SLOT_MS counts in the slot that runs. -/
def State.tickBent (s : State) (h : Nat) : State :=
  let b := Reg.safBent h
  if noCore ≤ s.freeOf h ∨ s.dstate = 2 then s
  else if mapGet false s.migrating h || s.flag b Reg.BENT_SLOT_ACTIVE then s.wr b Reg.BENT_SLOT_MS ((s.nowUs - mapGet 0 s.slotAt h) / 1000)
  else
    let s1 : State := { s with slotAt := mapSet 0 s.slotAt h s.nowUs }
    s.sequencedBent h ((s1.wr b Reg.BENT_SLOT_ACTIVE 1).wr b Reg.BENT_SLOT_MS 0)
def State.tickBents (s : State) : List Nat → State
  | [] => s
  | h :: hs => (s.tickBent h).tickBents hs
def idleTick (s : State) : State :=
  let s1 : State := { s with nowUs := s.nowUs + 1 }
  let s2 := (s1.tickBays s1.ctxKeys).tickQueues (s1.queues.map (fun kv => kv.1))
  ((s2.tickTables s2.ctxKeys).tickBents (upto 16)).sweepOn

end Sys2Proof.Machine
end

