-- ==== Sys2Proof/Safety.lean ====
section
/-! DEFINITION. What counts as a safe run, and the terms the statements use. -/
namespace Sys2Proof

/-- A run of n steps that never faults and never is refused. -/
def runsTo : Nat → Machine.State → Option Machine.State
  | 0, s => some s
  | n + 1, s =>
    match Machine.step s with
    | .next t => runsTo n t
    | _ => none

namespace Machine

/-- A command completes: exec answers a next state, and that state is as said. -/
def Runs (i : Instr) (s : State) (P : State → Prop) : Prop := ∃ t, exec i s = .next t ∧ P t

/-! ## Slot rows -/

/-- The instruction a slot row gives core c, and what it sees. -/
def State.slotInst (s : State) (c : CoreId) (sl : Slot) (op : Nat) (a : SlotArgs) : InFlight :=
  instOf (s.core c.val) sl (slotWord op a) none
def State.slotView (s : State) (c : CoreId) (sl : Slot) (op : Nat) (a : SlotArgs) : View :=
  viewOf s c.val (s.slotInst c sl op a)
/-- The predicate lets the slot execute (05 R141): the register is nonzero, unless PNEG turns the test over. -/
def State.slotOn (s : State) (c : CoreId) (a : SlotArgs) : Bool := ((s.core c.val).regs.preg a.pred.toNat != 0) != a.pneg
/-- The declaration a core's instructions are held to: its program's, or the hardware's own limits (log entry 8). -/
def State.declOf (s : State) (c : CoreId) : Decl := match s.programOf c.val with | some p => p.decl | none => .hardware
/-- Registers of core c as an instruction reads them, by operand field. -/
def State.argS (s : State) (c : CoreId) (a : SlotArgs) (lo : Nat) : Word := (s.core c.val).regs.sreg (fld a.operands lo 6)
/-- IMM, sign-extended, and SB, which is IMM where USE_IMM is 1 (06 R177). -/
def SlotArgs.imm (a : SlotArgs) : Word := (BitVec.ofNat 32 (fld a.operands 19 32)).signExtend 64
def State.argSB (s : State) (c : CoreId) (a : SlotArgs) : Word := if a.operands.getLsbD 18 then SlotArgs.imm a else s.argS c a 12
/-- The rounding mode an RM code of core c names (02 R60): none for the reserved code. -/
def State.modeOf (s : State) (c : CoreId) (code : Nat) : Option RM :=
  if code = 6 then RM.ofCode (fld (s.core c.val).numStatus 8 3) else if code = 7 then none else RM.ofCode code
/-- Core c with its registers, its status or its scratchpad changed. -/
def State.withRegs (s : State) (c : CoreId) (f : RegFile → RegFile) : State :=
  s.setCore c.val { s.core c.val with regs := f (s.core c.val).regs }
/-- What a program's instructions compute with on one core: registers, accumulators, tiles, scratchpad, side memory,
NUMERIC_STATUS and counters. -/
def Core.data (k : Core) : RegFile × Map (BitVec 32) × Map (BitVec 16) × Map Byte × Map (BitVec 256) × Word × Map Nat :=
  (k.regs, k.acc, k.tileStatus, k.scratch, k.side, k.numStatus, k.counters)
/-- Two states hold the same data: every core's, every memory, and the pegs. -/
def SameData (m t : State) : Prop :=
  (∀ d, (t.core d).data = (m.core d).data) ∧ t.tier1 = m.tier1 ∧ t.hostMem = m.hostMem ∧ t.nvw = m.nvw ∧
  t.poison = m.poison ∧ t.drone = m.drone ∧ t.pegs = m.pegs
/-- A slot row of core c is clear to run: its word decodes, its predicate lets it execute and nothing stands against it
at issue (05 R141, R154). -/
def State.slotClear (s : State) (c : CoreId) (sl : Slot) (op : Nat) (a : SlotArgs) : Bool :=
  decide (decodeCause sl (slotWord op a) = []) && s.slotOn c a && decide (slotCauses (s.slotView c sl op a) = [])
/-- The state with an effect's data in it, and nothing else of it: core c's registers and the stores, after its draws are
reserved. -/
def State.withEffect (s : State) (c : CoreId) (v : View) (e : Effect) : State :=
  let k := s.core c.val
  storeAll (s.setCore c.val (e.onCore { k with regs := { k.regs with lanes := v.lanesAfter (drawsSlot v) } })) v.origin (joinWrites e.mem)
/-- The context on core c records its open step (09 R268): a completed instruction also writes the trace area. -/
def State.recording (s : State) (c : CoreId) : Bool := match s.place c.val with | some (x, _) => s.tracing x | none => false
/-- Byte n of tier 1 lies in the trace area of a context that records the step of core c. -/
def State.traceByte (s : State) (c : CoreId) (n : Nat) : Prop :=
  ∃ x k o, s.place c.val = some (x, k) ∧ s.tracing x = true ∧ o < s.rd (Reg.ctx x) Reg.CTX_TRACE_BYTES ∧
    n = s.regionAddr x (s.rd (Reg.ctx x) Reg.CTX_TRACE_BASE + o)
/-- Two states hold the same data but for what a recording of core c's step wrote into its trace area. -/
def SameDataTraced (s : State) (c : CoreId) (m t : State) : Prop :=
  (∀ d, (t.core d).data = (m.core d).data) ∧ t.hostMem = m.hostMem ∧ t.nvw = m.nvw ∧ t.pegs = m.pegs ∧
  (∀ n, ¬ s.traceByte c n → mapGet 0 t.tier1 n = mapGet 0 m.tier1 n) ∧
  (s.recording c = false → t.tier1 = m.tier1 ∧ t.poison = m.poison ∧ t.drone = m.drone)
/-! ## Legacy rows -/

/-- The 21 bits of a legacy row's operation, and what its translation sees (07 R208, R209). -/
def LegacyArgs.operation (op : Nat) (a : LegacyArgs) : Nat := op + a.operands.toNat * 64
def State.legacyView (s : State) (c : CoreId) (op : Nat) (a : LegacyArgs) : Option View :=
  (legacySlot (LegacyArgs.operation op a) (s.core c.val).regs).map (fun p =>
    viewOf s c.val (instOf (s.core c.val) p.1 p.2 (some (a.pos, legacyWord op a))))
/-- It decodes and nothing stands against it at issue; a legacy operation has no predicate. -/
def State.legacyClear (s : State) (c : CoreId) (op : Nat) (a : LegacyArgs) : Bool :=
  match s.legacyView c op a with | some v => decide (slotCauses v = []) | none => false
/-- The register that a legacy operand field of five bits names. -/
def State.legS (s : State) (c : CoreId) (a : LegacyArgs) (lo : Nat) : Word := (s.core c.val).regs.sreg (fld a.operands lo 5)
/-! ## Host commands (18 R493 to R497) -/

/-- A command entry that starts and is not refused: it is its ring's oldest or came in alone, does not wait for an earlier
one, and passes the entry check; its ring is not closing. -/
def State.admits (s : State) (op : Nat) (e : Entry) : Bool :=
  match s.startEntry op e with
  | some s1 => decide (s1.entryRefusal e op = none) && !(s.ring e.ring.val).closing
  | none => false
/-- The state its command acts on: the entry taken off its ring and counted as running. -/
def State.started (s : State) (op : Nat) (e : Entry) : State := (s.startEntry op e).getD s
/-- Its ring holds a final record of it with this status. -/
def Completes (t : State) (e : Entry) (op status : Nat) : Prop :=
  ∃ r ∈ (t.ring e.ring.val).records, r.cmdId = e.cmdId ∧ r.ctx = e.ctx ∧ r.final = true ∧ r.op = BitVec.ofNat 8 op ∧
    r.status = BitVec.ofNat 16 status
/-- BAR0 answers: tier 1 is up and the device is in D0 (18 R478, 19 R512). -/
def State.barOpen (s : State) : Bool := s.memActive && decide (s.dstate = 0)

end Machine

/-- No operand bit is set outside the fields named by lowest bit and width, counted from the operand field's own bit 0. -/
def SlotArgs.only (a : SlotArgs) (fs : List (Nat × Nat)) : Bool :=
  (Machine.upto 51).all (fun i => !a.operands.getLsbD i || fs.any (fun f => decide (f.1 ≤ i) && decide (i < f.1 + f.2)))

end Sys2Proof
end

