-- ==== Sys2Proof/Certificates/Slice0/Obligations.lean ====
section
/-! DEFINITION. The statements about the model, for the provers: def Obligations.<Name> : Prop, each with the rule or
section of spec/ that it formalises. Tables of rows and small predicates stand before the statements that use them. -/
section Statements
open Sys2Proof Sys2Proof.Machine

/-! ## The machine as a whole -/

/-- A step takes the command at the front of the queue and runs it with the queue's rest. -/
def Obligations.StepTakesFront : Prop :=
  ∀ (i : Instr) (rest : List Instr) (s : State), s.pending = i :: rest → step s = exec i { s with pending := rest }
/-- With no command waiting the block idles: the queue stays empty and one microsecond passes (the model's choice, log
entries 2 and 3). -/
def Obligations.IdleStepPassesTime : Prop :=
  ∀ s : State, s.pending = [] → ∃ t, step s = .next t ∧ t.pending = [] ∧ t.nowUs = s.nowUs + 1
/-- Every command answers a next state; none touches the queue or the clock, and the free values it draws are fresh. -/
def Obligations.EveryCommandAnswers : Prop :=
  ∀ (i : Instr) (s : State), Runs i s (fun t => t.pending = s.pending ∧ t.nowUs = s.nowUs ∧ s.free ≤ t.free)
/-- The byte memories and the arrays of parts are in canonical form. -/
def Sys2Proof.Machine.Canonical (s : State) : Prop :=
  Memory.wf s.tier1 = true ∧ Memory.wf s.hostMem = true ∧ Memory.wf s.nvw = true ∧ mapWf false s.poison = true ∧
  mapWf 0 s.drone = true ∧ mapWf Core.start s.cores = true ∧ mapWf Ctx.start s.ctxs = true ∧
  mapWf Queue.start s.queues = true ∧ mapWf Ring.start s.rings = true
/-- Every step keeps the canonical form, from any state that has it. -/
def Obligations.CanonicalKept : Prop := ∀ s t : State, Canonical s → step s = .next t → Canonical t
def Obligations.CanonicalAtReset : Prop := Canonical State.reset
/-- A register write is read back, cut to its width, and leaves every field at another place as it was. -/
def Sys2Proof.Machine.SaysRegisterReadAfterWrite : Prop :=
  ∀ (s : State) (b : Nat) (f : Field) (v : Nat), (s.wr b f v).rd b f = v % 2 ^ f.width ∧
    ∀ (b' : Nat) (f' : Field), f'.key b' ≠ f.key b → (s.wr b f v).rd b' f' = s.rd b' f'
/-- What a byte reads after a byte of the same place is written, for each place an access goes to; no other byte of the
place changes. Two region offsets may share one DRAM byte only if they are one address. -/
def Sys2Proof.Machine.SaysByteReadAfterWrite : Prop :=
  ∀ (s : State) (a : Nat) (b : Byte),
    (∀ c a', (s.setByte (.scratch c) a b).byteAt (.scratch c) a' = if a' = a then b else s.byteAt (.scratch c) a') ∧
    (∀ x a', (s.setByte (.tier1 x) a b).byteAt (.tier1 x) a' =
      if s.regionAddr x a' = s.regionAddr x a then b else s.byteAt (.tier1 x) a') ∧
    (∀ h a', (s.setByte (.host h) a b).byteAt (.host h) a' = if a' = a then b else s.byteAt (.host h) a') ∧
    (∀ x a', (s.setByte (.teacher x) a b).byteAt (.teacher x) a' = s.byteAt (.teacher x) a')

/-- Registers and bytes read back what was written, and a write leaves every other place as it was. -/
def Obligations.ReadsAfterWrites : Prop := SaysRegisterReadAfterWrite ∧ SaysByteReadAfterWrite
/-! ## Slot rows: off, or not decoded -/

/-- The slot rows but CMP and FCMP, with the slot and the opcode the tables of 06 give them. -/
def Sys2Proof.Machine.slotRows : List ((CoreId → SlotArgs → Instr) × Slot × Nat) :=
  [(.add, .S, 0x01), (.sub, .S, 0x02), (.mul, .S, 0x03), (.mulh, .S, 0x04), (.and_, .S, 0x05), (.or_, .S, 0x06),
   (.xor, .S, 0x07), (.shl, .S, 0x08), (.shr, .S, 0x09), (.sar, .S, 0x0A), (.min_, .S, 0x0B), (.max_, .S, 0x0C),
   (.minu, .S, 0x0D), (.maxu, .S, 0x0E), (.ldi, .S, 0x10), (.ldih, .S, 0x11), (.fadd, .S, 0x14), (.fsub, .S, 0x15),
   (.fmul, .S, 0x16), (.fdiv, .S, 0x17), (.fmax, .S, 0x18), (.fmin, .S, 0x19), (.fcvt, .S, 0x1B), (.sld, .S, 0x20),
   (.sst, .S, 0x21), (.tdld, .S, 0x22), (.tdst, .S, 0x23), (.tdfld, .S, 0x24), (.smovs, .S, 0x28), (.smovt, .S, 0x29),
   (.bra, .S, 0x40), (.brr, .S, 0x41), (.call, .S, 0x42), (.pegs, .S, 0x50), (.pegw, .S, 0x51), (.fence, .S, 0x52),
   (.trapnan, .S, 0x60), (.halt, .S, 0x7F)] ++
  [(.mma, .M, 0x01), (.mmx, .M, 0x10), (.writeOut, .M, 0x20)] ++
  [(.vadd, .V, 0x01), (.vsub, .V, 0x02), (.vmul, .V, 0x03), (.vfma, .V, 0x04), (.vmax, .V, 0x05), (.vmin, .V, 0x06),
   (.vcmp, .V, 0x07), (.viadd, .V, 0x08), (.visub, .V, 0x09), (.vshl, .V, 0x0A), (.vshr, .V, 0x0B), (.vsar, .V, 0x0C),
   (.vand, .V, 0x0D), (.vor, .V, 0x0E), (.vxor, .V, 0x0F), (.vdiv, .V, 0x10), (.vsqrt, .V, 0x11), (.vexp, .V, 0x12),
   (.vlog, .V, 0x13), (.vsig, .V, 0x14), (.vtanh, .V, 0x15), (.vsilu, .V, 0x16), (.vgelu, .V, 0x17), (.vsigd, .V, 0x18),
   (.vtanhd, .V, 0x19), (.vsilud, .V, 0x1A), (.vgelud, .V, 0x1B), (.vld, .V, 0x20), (.vst, .V, 0x21), (.vmpack, .V, 0x22),
   (.vmload, .V, 0x23), (.vmsel, .V, 0x24), (.cvt, .V, 0x60)] ++
  [(.normAcc, .V, 0x70), (.normFin, .V, 0x71), (.normApply, .V, 0x72), (.smaxAcc, .V, 0x73), (.smaxFin, .V, 0x74),
   (.smaxApply, .V, 0x75), (.topkInit, .V, 0x76), (.topkMerge, .V, 0x77), (.topkEmit, .V, 0x78), (.clear, .V, 0x79),
   (.statsave, .V, 0x7A), (.statload, .V, 0x7B), (.normBacc, .V, 0x80), (.normBfin, .V, 0x81), (.normBapply, .V, 0x82),
   (.smaxBacc, .V, 0x83), (.smaxBfin, .V, 0x84), (.smaxBapply, .V, 0x85), (.gath, .V, 0x90), (.scat, .V, 0x91),
   (.segr, .V, 0x92), (.vopt, .V, 0xA0), (.vnrm, .V, 0xA1), (.seed, .V, 0xA8), (.rwnd, .V, 0xA9)] ++
  [(.xfer, .D, 0x01), (.xfert, .D, 0x10), (.wwput, .D, 0x20), (.wwget, .D, 0x28)]
/-- A slot whose predicate holds it back has no effect, and neither has opcode 0x00 (05 R141, R139). -/
def Sys2Proof.Machine.SaysPredicatedOffDoesNothing : Prop :=
  ∀ (c : CoreId) (a : SlotArgs) (s : State),
    (s.slotOn c a = false →
      (∀ p ∈ slotRows, decodeCause p.2.1 (slotWord p.2.2 a) = [] → exec (p.1 c a) s = .next s) ∧
      (∀ cond, decodeCause .S (slotWord (0x30 + cond.toNat) a) = [] → exec (.cmp c cond a) s = .next s) ∧
      (∀ cond, decodeCause .S (slotWord (0x38 + cond.toNat) a) = [] → exec (.fcmp c cond a) s = .next s)) ∧
    (∀ sl, a.only [] = true → Runs (.noop c sl a) s (fun t => SameData s t ∧ t.regs = s.regs ∧ t.ctxs = s.ctxs ∧ t.queues = s.queues ∧
      ∀ d, t.core d = s.core d))
/-- A word with a reserved operand bit set traps at issue with 0x2101, its opcode in DETAIL, whatever its predicate: the
core stops with the record and no data changes (05 R140, R141, R156). -/
def Sys2Proof.Machine.SaysReservedBitsTrap : Prop :=
  ∀ (c : CoreId) (a : SlotArgs) (s : State), ∀ p ∈ slotRows, ∀ fs,
    assignedBits p.2.1 (slotWord p.2.2 a) = some fs → bitsClear (slotWord p.2.2 a) fs = false →
    Runs (p.1 c a) s (fun t => SameData s t ∧ (t.core c.val).run = .trapped ∧ (t.core c.val).pc = (s.core c.val).pc ∧
      recordReason (t.core c.val).trapRec = 0x2101 ∧ fld (t.core c.val).trapRec 384 64 = p.2.2)
/-- A slot held back by its predicate does nothing; a reserved operand bit traps (05 R139 to R141, R156). -/
def Obligations.SlotsOffOrReserved : Prop := SaysPredicatedOffDoesNothing ∧ SaysReservedBitsTrap

/-! ## The S slot (06 R177 to R183) -/

/-- The integer rows and what each computes from SA and SB (Table 06-5). -/
def Sys2Proof.Machine.integerRows : List ((CoreId → SlotArgs → Instr) × (Word → Word → Word)) :=
  [(.add, fun a b => a + b), (.sub, fun a b => a - b), (.mul, fun a b => a * b),
   (.mulh, fun a b => BitVec.ofInt 64 (a.toInt * b.toInt / (2 ^ 64 : Nat))),
   (.and_, fun a b => a &&& b), (.or_, fun a b => a ||| b), (.xor, fun a b => a ^^^ b),
   (.shl, fun a b => a <<< (b.toNat % 64)), (.shr, fun a b => a >>> (b.toNat % 64)),
   (.sar, fun a b => a.sshiftRight (b.toNat % 64)),
   (.min_, fun a b => if a.toInt ≤ b.toInt then a else b), (.max_, fun a b => if a.toInt ≤ b.toInt then b else a),
   (.minu, fun a b => if a.toNat ≤ b.toNat then a else b), (.maxu, fun a b => if a.toNat ≤ b.toNat then b else a)]
/-- The integer rows, LDI and LDIH write SD and nothing else; s0 discards the write (06 R177, 05 R131). -/
def Sys2Proof.Machine.SaysScalarInteger : Prop :=
  ∀ (c : CoreId) (a : SlotArgs) (s : State), s.slotOn c a = true →
    (∀ p ∈ integerRows, exec (p.1 c a) s =
      .next (s.withRegs c (fun r => r.setS (fld a.operands 0 6) (p.2 (s.argS c a 6) (s.argSB c a))))) ∧
    (a.only [(0, 6), (19, 32)] = true →
      exec (.ldi c a) s = .next (s.withRegs c (fun r => r.setS (fld a.operands 0 6) (SlotArgs.imm a))) ∧
      exec (.ldih c a) s = .next (s.withRegs c (fun r => r.setS (fld a.operands 0 6)
        (BitVec.ofNat 64 ((s.argS c a 0).toNat % 2 ^ 32 + 2 ^ 32 * fld a.operands 19 32)))))

/-- The format W names, and a register as a number of it. -/
def Sys2Proof.Machine.floatFmt (a : SlotArgs) : Fmt := if a.operands.getLsbD 22 then .b64 else .b32
def Sys2Proof.Machine.floatArg (a : SlotArgs) (w : Word) : Num := decodeFloat (floatFmt a) (w.toNat % 2 ^ (floatFmt a).width)
/-- The bits a scalar operation of lane 0 draws in SR mode (02 R67). -/
def Sys2Proof.Machine.scalarDraw (s : State) (c : CoreId) (m : RM) : Nat :=
  if m = .sr then drawAt (laneOf (s.core c.val).regs.lanes 0) 0 else 0
/-- A rounded result in SD with its flags, and one draw of lane 0 reserved where the row draws in SR mode. -/
def Sys2Proof.Machine.floatResult (s : State) (c : CoreId) (a : SlotArgs) (draws : Bool) (m : RM) (r : Rounded) : State :=
  let k := s.core c.val
  let l := k.regs.lanes
  s.setCore c.val { k with
    regs := { k.regs.setS (fld a.operands 0 6) (BitVec.ofNat 64 r.bits) with
      lanes := if draws && decide (m = .sr) then setLane l 0 ((laneOf l 0).reserve 1) else l }
    numStatus := k.numStatus ||| r.flags.zeroExtend 64 }
/-- The rows of Table 06-5 that round once: whether they draw in SR mode, and their exact result. -/
def Sys2Proof.Machine.floatRows : List ((CoreId → SlotArgs → Instr) × Bool × (RM → Num → Num → Exact)) :=
  [(.fadd, true, fun m a b => numAdd m a b), (.fsub, true, fun m a b => numAdd m a b.flip), (.fmul, true, fun _ a b => numMul a b),
   (.fdiv, true, fun _ a b => numDiv a b), (.fmax, false, fun _ a b => numMaxMin true a b),
   (.fmin, false, fun _ a b => numMaxMin false a b)]
/-- The lane may draw once more (02 R68). -/
def Sys2Proof.Machine.drawLeft (s : State) (c : CoreId) (m : RM) : Prop :=
  m = .sr → (laneOf (s.core c.val).regs.lanes 0).counter < drawLimit
/-- FADD, FSUB, FMUL, FDIV, FMAX and FMIN write the once-rounded result to SD and its flags to NUMERIC_STATUS; a produced
NaN also sets NAN_SEEN with its record where NAN_MODE is 0b00, and under 0b10 traps a core that no trap has stopped and
on which none is due (06 R178, 02 R80, R82; 05 R155). -/
def Sys2Proof.Machine.SaysScalarFloat : Prop :=
  ∀ (c : CoreId) (a : SlotArgs) (s : State) (m : RM), s.slotOn c a = true → s.modeOf c (fld a.operands 19 3) = some m →
    a.only [(0, 6), (6, 6), (12, 6), (19, 3), (22, 1)] = true → drawLeft s c m → ∀ p ∈ floatRows,
    let r := finish (floatFmt a) m (scalarDraw s c m) (p.2.2 m (floatArg a (s.argS c a 6)) (floatArg a (s.argS c a 12)))
    let t := floatResult s c a p.2.1 m r
    (r.produced = false ∨ nanSeen (s.core c.val).trapControl = true → exec (p.1 c a) s = .next t) ∧
    (r.produced = true → nanSeen (s.core c.val).trapControl = false → nanMode (s.core c.val).trapControl = 0 →
      Runs (p.1 c a) s (fun u => SameData t u ∧ u.regs = s.regs ∧ u.ctxs = s.ctxs ∧
        (u.core c.val).trapControl = (s.core c.val).trapControl ||| 4 ∧ (u.core c.val).run = (s.core c.val).run ∧
        recordReason (u.core c.val).nanRec = 0x7008)) ∧
    (r.produced = true → nanSeen (s.core c.val).trapControl = false → nanMode (s.core c.val).trapControl = 2 →
      (s.core c.val).run ≠ .trapped → (s.core c.val).deferred = [] → (s.core c.val).flight.any holdsIssue = false →
      Runs (p.1 c a) s (fun u => SameData t u ∧ (u.core c.val).run = .trapped ∧ recordReason (u.core c.val).trapRec = 0x7008))
/-- FCVT by CONV: int64 to W, W to int64, binary32 to binary64, binary64 to binary32 (06 R178). -/
def Sys2Proof.Machine.fcvtResult (s : State) (c : CoreId) (a : SlotArgs) (m : RM) : Rounded :=
  let w := s.argS c a 6
  let d := scalarDraw s c m
  match fld a.operands 23 2 with
  | 0 => finish (floatFmt a) m d { v := .fin (Q.ofInt w.toInt) }
  | 1 => toInt64 m d (floatArg a w)
  | 2 => let x := decodeFloat .b32 (w.toNat % 2 ^ 32); finish .b64 m d { v := x.quiet, flags := fIf x.isSnan fInvalid }
  | _ => let x := decodeFloat .b64 w.toNat; finish .b32 m d { v := x.quiet, flags := fIf x.isSnan fInvalid }
def Sys2Proof.Machine.SaysScalarConvert : Prop :=
  ∀ (c : CoreId) (a : SlotArgs) (s : State) (m : RM), s.slotOn c a = true → s.modeOf c (fld a.operands 19 3) = some m →
    a.only ([(0, 6), (6, 6), (19, 3), (23, 2)] ++ if fld a.operands 23 2 < 2 then [(22, 1)] else []) = true → drawLeft s c m →
    (fcvtResult s c a m).produced = false → exec (.fcvt c a) s = .next (floatResult s c a true m (fcvtResult s c a m))

/-- The floating rows of the S slot and FCVT (06 R178; 02 R80, R82). -/
def Obligations.ScalarFloatAndConvert : Prop := SaysScalarFloat ∧ SaysScalarConvert
/-- CMP's conditions EQ, NE, LT, LE, GT, GE, LTU, LEU in the order of their opcodes (Table 06-5). -/
def Sys2Proof.Machine.integerCond (cond : BitVec 3) (a b : Word) : Prop :=
  match cond.toNat with
  | 0 => a = b
  | 1 => a ≠ b
  | 2 => a.toInt < b.toInt
  | 3 => a.toInt ≤ b.toInt
  | 4 => b.toInt < a.toInt
  | 5 => b.toInt ≤ a.toInt
  | 6 => a.toNat < b.toNat
  | _ => a.toNat ≤ b.toNat
/-- FCMP's conditions EQ, NE, LT, LE, GT, GE, UNORD: every one but NE and UNORD is false of a NaN. -/
def Sys2Proof.Machine.floatCond (cond : BitVec 3) (o : Option Ordering) : Prop :=
  match cond.toNat with
  | 0 => o = some .eq
  | 1 => o ≠ some .eq
  | 2 => o = some .lt
  | 3 => o = some .lt ∨ o = some .eq
  | 4 => o = some .gt
  | 5 => o = some .gt ∨ o = some .eq
  | _ => o = none
/-- CMP and FCMP write all ones or all zeros to PD, p0 discarding the write; FCMP signals a signalling NaN only (06 R177,
R178, 05 R132). -/
def Sys2Proof.Machine.SaysScalarCompare : Prop :=
  ∀ (c : CoreId) (a : SlotArgs) (s : State), s.slotOn c a = true →
    (∀ cond, a.only [(0, 4), (6, 6), (12, 6), (18, 1), (19, 32)] = true → ∃ w : Word,
      (integerCond cond (s.argS c a 6) (s.argSB c a) → w = BitVec.allOnes 64) ∧
      (¬ integerCond cond (s.argS c a 6) (s.argSB c a) → w = 0) ∧
      exec (.cmp c cond a) s = .next (s.withRegs c (fun r => r.setP (fld a.operands 0 4) w))) ∧
    (∀ cond m, cond ≠ 7 → a.only [(0, 4), (6, 6), (12, 6), (19, 3), (22, 1)] = true →
      s.modeOf c (fld a.operands 19 3) = some m →
      let x := floatArg a (s.argS c a 6)
      let y := floatArg a (s.argS c a 12)
      ∃ w : Word, (floatCond cond (numCmp x y) → w = BitVec.allOnes 64) ∧ (¬ floatCond cond (numCmp x y) → w = 0) ∧
        exec (.fcmp c cond a) s = .next (s.setCore c.val { s.core c.val with
          regs := (s.core c.val).regs.setP (fld a.operands 0 4) w
          numStatus := (s.core c.val).numStatus ||| (fIf (x.isSnan || y.isSnan) fInvalid).zeroExtend 64 }))

/-- The integer rows, the loads of constants and the comparisons of the S slot (06 R177, R178; 05 R131, R132). -/
def Obligations.ScalarIntegerAndCompare : Prop := SaysScalarInteger ∧ SaysScalarCompare
/-- SA + IMM, modulo 2^64: the scratchpad offset of a load or store. -/
def Sys2Proof.Machine.scratchOffset (s : State) (c : CoreId) (a : SlotArgs) : Nat := (s.argS c a 6 + SlotArgs.imm a).toNat
/-- An aligned access of n bytes that ends at or below SCRATCH_BYTES (06 R179, 05 R148). -/
def Sys2Proof.Machine.scratchFits (s : State) (c : CoreId) (a : SlotArgs) (n : Nat) : Prop :=
  scratchOffset s c a % n = 0 ∧ scratchOffset s c a + n ≤ (s.declOf c).scratch
/-- SLD, SST, TDLD, TDST and TDFLD: the loads write their register, the stores exactly their bytes of the own scratchpad,
TDFLD one field of its descriptor (06 R179, R177). -/
def Sys2Proof.Machine.SaysScalarScratchpad : Prop :=
  ∀ (c : CoreId) (a : SlotArgs) (s : State), s.slotOn c a = true →
    let at_ := scratchOffset s c a
    let old (x : Nat) : Byte := mapGet 0 (s.core c.val).scratch x
    (a.only [(0, 6), (6, 6), (19, 32)] = true → scratchFits s c a 8 →
      exec (.sld c a) s = .next (s.withRegs c (fun r => r.setS (fld a.operands 0 6)
        (BitVec.ofNat 64 (leNat ((upto 8).map (fun j => old (at_ + j)))))))) ∧
    (a.only [(0, 5), (6, 6), (19, 32)] = true → scratchFits s c a 32 →
      exec (.tdld c a) s = .next (s.withRegs c (fun r => r.setTd (fld a.operands 0 5)
        (BitVec.ofNat 256 (leNat ((upto 32).map (fun j => old (at_ + j)))))))) ∧
    (a.only [(6, 6), (12, 6), (19, 32)] = true → scratchFits s c a 8 →
      Runs (.sst c a) s (fun t => t = s.setCore c.val { s.core c.val with scratch := (t.core c.val).scratch } ∧
        ∀ x, mapGet 0 (t.core c.val).scratch x =
          if at_ ≤ x ∧ x < at_ + 8 then BitVec.ofNat 8 ((s.argS c a 12).toNat >>> (8 * (x - at_))) else old x)) ∧
    (a.only [(0, 5), (6, 6), (19, 32)] = true → scratchFits s c a 32 →
      Runs (.tdst c a) s (fun t => t = s.setCore c.val { s.core c.val with scratch := (t.core c.val).scratch } ∧
        ∀ x, mapGet 0 (t.core c.val).scratch x =
          if at_ ≤ x ∧ x < at_ + 32 then
            BitVec.ofNat 8 (((s.core c.val).regs.tdreg (fld a.operands 0 5)).toNat >>> (8 * (x - at_))) else old x)) ∧
    (a.only [(0, 5), (6, 6), (12, 4), (19, 32)] = true → fld a.operands 12 3 < 6 →
      let td := (s.core c.val).regs.tdreg (fld a.operands 0 5)
      let place := [(0, 48), (96, 32), (128, 24), (152, 40), (192, 48), (64, 32)].getD (fld a.operands 12 3) (0, 0)
      let v := at_ + if a.operands.getLsbD 15 then fld td place.1 place.2 else 0
      Runs (.tdfld c a) s (fun t => t = s.withRegs c (fun r => r.setTd (fld a.operands 0 5) ((t.core c.val).regs.tdreg (fld a.operands 0 5))) ∧
        ∀ i, i < 256 → ((t.core c.val).regs.tdreg (fld a.operands 0 5)).getLsbD i =
          if place.1 ≤ i ∧ i < place.1 + place.2 then v.testBit (i - place.1) else td.getLsbD i))
/-- A misaligned or out-of-bounds scratchpad access traps with 0x2107 and changes no data (06 R179, 05 R148). -/
def Sys2Proof.Machine.SaysScratchpadBoundsTrap : Prop :=
  ∀ (c : CoreId) (a : SlotArgs) (s : State), s.slotOn c a = true →
    let traps (i : Instr) : Prop := Runs i s (fun t => SameData s t ∧ (t.core c.val).run = .trapped ∧
      recordReason (t.core c.val).trapRec = 0x2107)
    (a.only [(0, 6), (6, 6), (19, 32)] = true → ¬ scratchFits s c a 8 → traps (.sld c a)) ∧
    (a.only [(6, 6), (12, 6), (19, 32)] = true → ¬ scratchFits s c a 8 → traps (.sst c a)) ∧
    (a.only [(0, 5), (6, 6), (19, 32)] = true → ¬ scratchFits s c a 32 → traps (.tdld c a) ∧ traps (.tdst c a))

/-- The scratchpad rows of the S slot within their bounds, and outside them (06 R179; 05 R148). -/
def Obligations.ScalarScratchpadAccess : Prop := SaysScalarScratchpad ∧ SaysScratchpadBoundsTrap
/-- SMOVS reads a status register into SD, SMOVT writes NUMERIC_STATUS, TRAP_CONTROL and TILE_STATUS by their field rules
and ignores the read-only ones, TRAPNAN writes NAN_MODE and clears NAN_SEEN (05 R133, Tables 05-2 and 05-3, 06 R170, R182). -/
def Sys2Proof.Machine.SaysScalarStatus : Prop :=
  ∀ (c : CoreId) (a : SlotArgs) (s : State), s.slotOn c a = true →
    let k := s.core c.val
    let id := fld a.operands 19 12
    let w := s.argS c a 6
    let reads (v : Word) : Prop := exec (.smovs c a) s = .next (s.withRegs c (fun r => r.setS (fld a.operands 0 6) v))
    (a.only [(0, 6), (19, 12)] = true →
      (id = 0 → reads k.numStatus) ∧ (id = 1 → reads k.trapControl) ∧ (id = 2 → reads k.seq) ∧
      (id = 3 → ∃ v : Word, reads v ∧ ∀ x j p b, s.place c.val = some (x, j) → (s.ctx x).programOn (j / 4) = some p →
        (s.ctx x).bayMap[j / 4]? = some b → v = BitVec.ofNat 64 (j + popCount 64 p.bays.toNat * 2 ^ 8 + s.activeCores b.val * 2 ^ 15)) ∧
      (0x10 ≤ id → id ≤ 0x1F → reads ((mapGet 0 k.tileStatus (id - 0x10)).zeroExtend 64)) ∧
      (0x100 ≤ id → id ≤ 0x13F → reads (BitVec.ofNat 64 (laneOf k.regs.lanes (id - 0x100)).counter))) ∧
    (a.only [(6, 6), (19, 12)] = true →
      (id = 0 → ∃ v : Word, exec (.smovt c a) s = .next (s.setCore c.val { k with numStatus := v }) ∧
        (∀ i, i < 7 → v.getLsbD i = (k.numStatus.getLsbD i && !w.getLsbD i)) ∧ v.getLsbD 7 = false ∧
        fld v 8 3 = (if fld w 8 3 < 6 then fld w 8 3 else fld k.numStatus 8 3) ∧ ∀ i, 11 ≤ i → v.getLsbD i = false) ∧
      (id = 1 → ∃ v : Word, exec (.smovt c a) s = .next (s.setCore c.val { k with trapControl := v }) ∧
        nanMode v = (if fld w 0 2 = 3 then nanMode k.trapControl else fld w 0 2) ∧
        nanSeen v = (nanSeen k.trapControl && !w.getLsbD 2)) ∧
      (0x10 ≤ id → id ≤ 0x1F → Runs (.smovt c a) s (fun t =>
        t = s.setCore c.val { k with tileStatus := (t.core c.val).tileStatus } ∧
        ∀ n, mapGet 0 (t.core c.val).tileStatus n = if n = id - 0x10 ∧ w.getLsbD 4 = true then mapGet 0 k.tileStatus n &&& 0xFFEF#16
          else mapGet 0 k.tileStatus n)) ∧
      (id = 2 ∨ id = 3 ∨ (0x100 ≤ id ∧ id ≤ 0x13F) → exec (.smovt c a) s = .next (s.setCore c.val k))) ∧
    (a.only [(0, 4)] = true → ∃ v : Word, exec (.trapnan c a) s = .next (s.setCore c.val { k with trapControl := v }) ∧
      nanMode v = (if a.operands.getLsbD 2 || decide (fld a.operands 0 2 = 3) then nanMode k.trapControl else fld a.operands 0 2) ∧
      nanSeen v = (nanSeen k.trapControl && !a.operands.getLsbD 3))
/-- A legal branch target: a bundle or a legacy entry of the program, any bundle address on a core that runs none (05
R143, log entry 8). -/
def Sys2Proof.Machine.branchLegal (s : State) (c : CoreId) (t : Word) : Bool :=
  match s.programOf c.val with | none => decide (t.toNat % 32 = 0) | some p => inBundleCode p t.toNat || isLegacyEntry p t.toNat
/-- The legacy segment a target lies in, at which legacy mode is entered or left (07 R207). -/
def Sys2Proof.Machine.legacyOf (s : State) (c : CoreId) (t : Word) : Option Nat :=
  (s.programOf c.val).bind (fun p => (legacySeg p t.toNat).map (fun g => g.off))
/-- BRA and CALL go to the bundle address plus 32 × IMM, BRR to SA + IMM; CALL saves the next bundle's address in SD; HALT
stops issue. An illegal target traps with 0x2108 (06 R180, R177, R183; 05 R143). -/
def Obligations.ScalarBranch : Prop :=
  ∀ (c : CoreId) (a : SlotArgs) (s : State), s.slotOn c a = true →
    let k := s.core c.val
    let near := k.pc + 32 * SlotArgs.imm a
    let far := s.argS c a 6 + SlotArgs.imm a
    let traps (i : Instr) : Prop := Runs i s (fun t => SameData s t ∧ (t.core c.val).run = .trapped ∧ (t.core c.val).pc = k.pc ∧
      recordReason (t.core c.val).trapRec = 0x2108)
    (a.only [(19, 32)] = true →
      (branchLegal s c near = true → exec (.bra c a) s = .next (s.setCore c.val { k with pc := near, legacyAt := legacyOf s c near })) ∧
      (branchLegal s c near = false → traps (.bra c a))) ∧
    (a.only [(6, 6), (19, 32)] = true →
      (branchLegal s c far = true → exec (.brr c a) s = .next (s.setCore c.val { k with pc := far, legacyAt := legacyOf s c far })) ∧
      (branchLegal s c far = false → traps (.brr c a))) ∧
    (a.only [(0, 6), (19, 32)] = true →
      (branchLegal s c near = true → exec (.call c a) s =
        .next (s.setCore c.val { k with pc := near, legacyAt := legacyOf s c near, regs := k.regs.setS (fld a.operands 0 6) (k.pc + 32) })) ∧
      (branchLegal s c near = false → traps (.call c a))) ∧
    (a.only [] = true → exec (.halt c a) s = .next (s.setCore c.val { k with halt := true }))
/-- PEGS sends its increment to the context's peg, PEGW waits for its threshold under the modular test, FENCE leaves a
barrier unless its mask is zero, behind which nothing issues until no earlier instruction of its scopes is in flight; none of
them changes data (07 R198, R199, R201). -/
def Sys2Proof.Machine.SaysPegsAndFences : Prop :=
  ∀ (c : CoreId) (a : SlotArgs) (s : State), s.slotOn c a = true →
    let k := s.core c.val
    let n := fld a.operands 0 16
    (∀ x j, s.place c.val = some (x, j) → n < (s.declOf c).pegs →
      (a.only [(0, 16), (16, 8)] = true → fld a.operands 16 8 ≠ 0 →
        Runs (.pegs c a) s (fun t => SameData s t ∧
          t.pegSignals = s.pegSignals ++ [⟨s.rd (Reg.ctx x) Reg.CTX_PEG_BASE + n, BitVec.ofNat 32 (fld a.operands 16 8), some c⟩])) ∧
      (a.only [(0, 16), (19, 32)] = true →
        let peg := s.rd (Reg.ctx x) Reg.CTX_PEG_BASE + n
        let th := BitVec.ofNat 32 (fld a.operands 19 32)
        Runs (.pegw c a) s (fun t => SameData s t ∧ t.regs = s.regs ∧ ∃ w, (t.core c.val).pegWait = some w ∧ w.peg = peg ∧
          w.threshold = th ∧ (w.released = true ↔ (mapGet 0 s.pegs peg - th).toNat < 2 ^ 31)))) ∧
    (a.only [(0, 5)] = true →
      (fld a.operands 0 5 = 0 → Runs (.fence c a) s (fun t => SameData s t ∧ (t.core c.val).fence = k.fence)) ∧
      (fld a.operands 0 5 ≠ 0 → Runs (.fence c a) s (fun t => SameData s t ∧
        ∃ b, (t.core c.val).fence = some b ∧ b.mask = BitVec.ofNat 5 (fld a.operands 0 5) ∧ b.seq = k.seq))) ∧
    (∀ b, k.fence = some b → exec (.bundleIssue c) s = .next s ∧ exec (.legacyWordIssue c) s = .next s ∧
      let blocks := k.flight.any (fun e => decide (e.seq.toNat < b.seq.toNat) && decide (scopesOf (viewOf s c.val e) &&& b.mask.toNat ≠ 0))
      (blocks = true → exec (.fenceClear c) s = .next s) ∧
      (blocks = false → exec (.fenceClear c) s = .next (s.setCore c.val { k with fence := none })))
/-- Status moves of the S slot, and its pegs and fences (06 R180 to R183; 07 R198 to R202). -/
def Obligations.ScalarStatusAndPegs : Prop := SaysScalarStatus ∧ SaysPegsAndFences

/-! ## The vector engine (04 R102 to R106; 06 R186 to R189) -/

/-- Elements of a source register, VB being the broadcast SA where USE_SA is 1, and the mask bit of element j. -/
def Sys2Proof.Machine.vecSrc (s : State) (c : CoreId) (a : SlotArgs) (lo w j : Nat) : Nat :=
  velem ((s.core c.val).regs.vreg (fld a.operands lo 6)) w j
def Sys2Proof.Machine.vecSrcB (s : State) (c : CoreId) (a : SlotArgs) (w j : Nat) : Nat :=
  if a.operands.getLsbD 39 then (s.argS c a 33).toNat % 2 ^ w else vecSrc s c a 12 w j
def Sys2Proof.Machine.vecMask (s : State) (c : CoreId) (a : SlotArgs) (w j : Nat) : Bool :=
  ((s.core c.val).regs.preg (fld a.operands 29 4)).getLsbD (j * (w / 32))
/-- The INT32 rows: modulo 2^32, shifts by the low five bits of VB, signed maximum and minimum (Table 06-9, 04 R103). -/
def Sys2Proof.Machine.vecIntRows : List ((CoreId → SlotArgs → Instr) × Nat × (BitVec 32 → BitVec 32 → BitVec 32 → BitVec 32)) :=
  [(.vadd, 0x01, fun a b _ => a + b), (.vsub, 0x02, fun a b _ => a - b), (.vmul, 0x03, fun a b _ => a * b),
   (.vfma, 0x04, fun a b c => a * b + c), (.vmax, 0x05, fun a b _ => if a.toInt ≤ b.toInt then b else a),
   (.vmin, 0x06, fun a b _ => if a.toInt ≤ b.toInt then a else b), (.viadd, 0x08, fun a b _ => a + b),
   (.visub, 0x09, fun a b _ => a - b), (.vshl, 0x0A, fun a b _ => a <<< (b.toNat % 32)),
   (.vshr, 0x0B, fun a b _ => a >>> (b.toNat % 32)), (.vsar, 0x0C, fun a b _ => a.sshiftRight (b.toNat % 32)),
   (.vand, 0x0D, fun a b _ => a &&& b), (.vor, 0x0E, fun a b _ => a ||| b), (.vxor, 0x0F, fun a b _ => a ^^^ b)]
/-- In the INT32 view each unmasked element of VD is the operation of its sources, each masked one keeps its bits, and
nothing else changes: no flag, no draw, no other register. -/
def Obligations.VectorInteger : Prop :=
  ∀ (c : CoreId) (a : SlotArgs) (s : State), fld a.operands 27 2 = 2 → ∀ p ∈ vecIntRows, s.slotClear c .V p.2.1 a = true →
    ∃ w : BitVec 2048,
      (∀ j, j < 64 → velem w 32 j = if vecMask s c a 32 j then
          (p.2.2 (BitVec.ofNat 32 (vecSrc s c a 6 32 j)) (BitVec.ofNat 32 (vecSrcB s c a 32 j))
            (BitVec.ofNat 32 (vecSrc s c a 18 32 j))).toNat
        else vecSrc s c a 0 32 j) ∧
      Runs (p.1 c a) s (fun t => SameDataTraced s c (s.withRegs c (fun r => r.setV (fld a.operands 0 6) w)) t ∧ t.regs = s.regs)
/-- The floating rows: whether they round in RM, and their result of one element in a format (Table 06-9, 04 R104). -/
def Sys2Proof.Machine.vecFloatRows : List ((CoreId → SlotArgs → Instr) × Nat × Bool × (Fmt → RM → Nat → Num → Num → Num → Rounded)) :=
  [(.vadd, 0x01, true, fun f m d x y _ => finish f m d (numAdd m x y)),
   (.vsub, 0x02, true, fun f m d x y _ => finish f m d (numAdd m x y.flip)),
   (.vmul, 0x03, true, fun f m d x y _ => finish f m d (numMul x y)),
   (.vfma, 0x04, true, fun f m d x y z => finish f m d (numFma m x y z)),
   (.vmax, 0x05, false, fun f _ _ x y _ => finish f .rne 0 (numMaxMin true x y)),
   (.vmin, 0x06, false, fun f _ _ x y _ => finish f .rne 0 (numMaxMin false x y)),
   (.vdiv, 0x10, true, fun f m d x y _ => finish f m d (numDiv x y)),
   (.vsqrt, 0x11, true, fun f m d x _ _ => finish f m d (numSqrt x))]
/-- The functions of 04 R104 and R105, in binary32. -/
def Sys2Proof.Machine.vecFnRows : List ((CoreId → SlotArgs → Instr) × Nat × (FV → FV)) :=
  [(.vexp, 0x12, exp32), (.vlog, 0x13, log32), (.vsig, 0x14, fSigmoid), (.vtanh, 0x15, fTanh), (.vsilu, 0x16, fSilu),
   (.vgelu, 0x17, fGelu), (.vsigd, 0x18, fSigmoidD), (.vtanhd, 0x19, fTanhD), (.vsilud, 0x1A, fSiluD), (.vgelud, 0x1B, fGeluD)]
/-- A vector result: the results of the unmasked elements in VD, the masked elements' bits kept, the flags of the results
made sticky, and the draws of a rounding row reserved, one for every position (02 R66, R67). -/
def Sys2Proof.Machine.vecResult (s : State) (c : CoreId) (a : SlotArgs) (w : Nat) (draws : Bool) (r : Nat → Rounded) (t : State) : Prop :=
  let k := s.core c.val
  let on := (upto (2048 / w)).filter (vecMask s c a w)
  ∃ v : BitVec 2048,
    (∀ j, j < 2048 / w → velem v w j = if vecMask s c a w j then (r j).bits % 2 ^ w else vecSrc s c a 0 w j) ∧
    SameDataTraced s c (s.setCore c.val { k with
      regs := { k.regs.setV (fld a.operands 0 6) v with
        lanes := if draws && decide (s.modeOf c (fld a.operands 24 3) = some .sr) then reserveAll k.regs.lanes 0 (gridDraws 1 (2048 / w)) else k.regs.lanes }
      numStatus := k.numStatus ||| ((on.map r).foldl (fun (f : Flags) (x : Rounded) => f ||| x.flags) 0).zeroExtend 64 }) t
/-- In the binary32 and binary64 views, VADD to VMIN, VDIV and VSQRT round each element once, and the functions give
their binary32 results (04 R102 to R105; 06 R186). -/
def Obligations.VectorFloat : Prop :=
  ∀ (c : CoreId) (a : SlotArgs) (s : State) (m : RM), s.modeOf c (fld a.operands 24 3) = some m →
    (fld a.operands 27 2 < 2 → ∀ p ∈ vecFloatRows, s.slotClear c .V p.2.1 a = true →
      let f : Fmt := if fld a.operands 27 2 = 1 then .b64 else .b32
      let w := f.width
      let d (j : Nat) : Nat := if p.2.2.1 && decide (m = .sr) then gridRnd (s.core c.val).regs.lanes (2048 / w) 0 j else 0
      Runs (p.1 c a) s (vecResult s c a w p.2.2.1 (fun j => p.2.2.2 f m (d j) (decodeFloat f (vecSrc s c a 6 w j))
        (decodeFloat f (vecSrcB s c a w j)) (decodeFloat f (vecSrc s c a 18 w j))))) ∧
    (∀ p ∈ vecFnRows, s.slotClear c .V p.2.1 a = true →
      Runs (p.1 c a) s (vecResult s c a 32 false (fun j =>
        let y := p.2.2 { bits := vecSrc s c a 6 32 j }
        { bits := y.bits, flags := y.flags, produced := y.produced })))
/-- VCMP writes the mask of the elements that satisfy its condition, two bits an element in the binary64 view; VMSEL keeps
the elements whose mask bit is 1 and clears the others; SEED and RWND set the lanes of their mask (06 R186, R188, R193; 02
R64, R69). -/
def Sys2Proof.Machine.SaysVectorCompareSelectLanes : Prop :=
  ∀ (c : CoreId) (a : SlotArgs) (s : State),
    let k := s.core c.val
    let cond := fld a.operands 40 4
    let w := if fld a.operands 27 2 = 1 then 64 else 32
    let f : Fmt := if fld a.operands 27 2 = 1 then .b64 else .b32
    let x (j : Nat) := decodeFloat f (vecSrc s c a 6 w j)
    let y (j : Nat) := decodeFloat f (vecSrcB s c a w j)
    let holds (j : Nat) : Prop := if fld a.operands 27 2 = 2 then
        integerCond (BitVec.ofNat 3 cond) ((BitVec.ofNat 32 (vecSrc s c a 6 32 j)).signExtend 64) ((BitVec.ofNat 32 (vecSrcB s c a 32 j)).signExtend 64)
      else floatCond (if cond = 8 then 6 else BitVec.ofNat 3 cond) (numCmp (x j) (y j))
    (s.slotClear c .V 0x07 a = true → ∃ pd fl : Word,
      (∀ j, j < 2048 / w → ∀ b, b < w / 32 → (pd.getLsbD (j * (w / 32) + b) = true ↔ vecMask s c a w j = true ∧ holds j)) ∧
      (fl = 0 ∨ fl = fInvalid.zeroExtend 64) ∧
      (fl ≠ 0 ↔ fld a.operands 27 2 ≠ 2 ∧ ∃ j, j < 2048 / w ∧ vecMask s c a w j = true ∧ ((x j).isSnan || (y j).isSnan) = true) ∧
      Runs (.vcmp c a) s (fun t => t.regs = s.regs ∧ SameDataTraced s c (s.setCore c.val { k with
        regs := k.regs.setP (fld a.operands 0 4) pd, numStatus := k.numStatus ||| fl }) t)) ∧
    (s.slotClear c .V 0x24 a = true → ∃ v : BitVec 2048,
      (∀ j, j < 2048 / w → velem v w j = if vecMask s c a w j then vecSrc s c a 6 w j else 0) ∧
      Runs (.vmsel c a) s (fun t => t.regs = s.regs ∧ SameDataTraced s c (s.withRegs c (fun r => r.setV (fld a.operands 0 6) v)) t)) ∧
    (s.slotClear c .V 0xA8 a = true → Runs (.seed c a) s (fun t => t.regs = s.regs ∧
      (∃ l, SameDataTraced s c (s.withRegs c (fun r => { r with lanes := l })) t) ∧
      ∀ j, j < 64 → laneOf (t.core c.val).regs.lanes j =
        if (k.regs.preg (fld a.operands 6 4)).getLsbD j then
          Lane.seeded (match s.place c.val with | some (x, _) => BitVec.ofNat 64 (s.rd (Reg.ctx x) Reg.CTX_SEED) | none => 0)
            (BitVec.ofNat 64 ((s.argS c a 0).toNat % 2 ^ 32)) (match s.place c.val with | some (_, j) => j | none => 0) j
        else laneOf k.regs.lanes j)) ∧
    (s.slotClear c .V 0xA9 a = true → Runs (.rwnd c a) s (fun t => t.regs = s.regs ∧
      (∃ l, SameDataTraced s c (s.withRegs c (fun r => { r with lanes := l })) t) ∧
      ∀ j, j < 64 → laneOf (t.core c.val).regs.lanes j =
        if (k.regs.preg (fld a.operands 6 4)).getLsbD j then (laneOf k.regs.lanes j).rewind (s.argS c a 0).toNat
        else laneOf k.regs.lanes j))
/-- Drawing n times and rewinding n draws leaves a lane as it was (02 R69). -/
def Sys2Proof.Machine.SaysRewindUndoesDraws : Prop := ∀ (l : Lane) (n : Nat), (l.reserve n).rewind n = l
/-- VCMP, VMSEL, SEED and RWND, and that a rewind undoes as many draws (06 R186, R188, R193; 02 R64, R69). -/
def Obligations.CompareSelectAndLanes : Prop := SaysVectorCompareSelectLanes ∧ SaysRewindUndoesDraws

/-! ## The units that work on tensors -/

/-- The rows of the units that read and write tensors, with the effect each has on what it sees: the arrays (03), the
vector engine's moves (06 R187 to R189), the row engine (04 R114 to R121), the gather engine (04 R123 to R128), the
optimiser rows (04 R108 to R113) and Bellows (06 R194). -/
def Sys2Proof.Machine.unitRows : List ((CoreId → SlotArgs → Instr) × Slot × Nat × (View → Effect)) :=
  [(.mma, .M, 0x01, effMma), (.mmx, .M, 0x10, fun v => effFloatMma v .b32 32), (.writeOut, .M, 0x20, effWriteOut),
   (.vld, .V, 0x20, effVld), (.vst, .V, 0x21, effVst), (.vmpack, .V, 0x22, effVmpack), (.vmload, .V, 0x23, effVmload),
   (.cvt, .V, 0x60, effCvt)] ++
  [(.normAcc, .V, 0x70, rowMath), (.normFin, .V, 0x71, rowMath), (.normApply, .V, 0x72, rowMath),
   (.smaxAcc, .V, 0x73, rowMath), (.smaxFin, .V, 0x74, rowMath), (.smaxApply, .V, 0x75, rowMath),
   (.topkInit, .V, 0x76, topkInit), (.topkMerge, .V, 0x77, topkMerge), (.topkEmit, .V, 0x78, topkEmit),
   (.clear, .V, 0x79, rowClear), (.statsave, .V, 0x7A, rowSave), (.statload, .V, 0x7B, rowLoad),
   (.normBacc, .V, 0x80, rowMath), (.normBfin, .V, 0x81, rowMath), (.normBapply, .V, 0x82, rowMath),
   (.smaxBacc, .V, 0x83, rowMath), (.smaxBfin, .V, 0x84, rowMath), (.smaxBapply, .V, 0x85, rowMath)] ++
  [(.gath, .V, 0x90, effGath), (.scat, .V, 0x91, effScat), (.segr, .V, 0x92, effSegr), (.vopt, .V, 0xA0, effVopt),
   (.vnrm, .V, 0xA1, effVnrm), (.xfer, .D, 0x01, effXfer), (.xfert, .D, 0x10, effXfert)]
/-- Each of them completes with its own effect on the data, and reserves its draws. -/
def Obligations.UnitRowsComplete : Prop :=
  ∀ (c : CoreId) (a : SlotArgs) (s : State), ∀ p ∈ unitRows, s.slotClear c p.2.1 p.2.2.1 a = true →
    Runs (p.1 c a) s (fun t => SameDataTraced s c (s.withEffect c (s.slotView c p.2.1 p.2.2.1 a) (p.2.2.2 (s.slotView c p.2.1 p.2.2.1 a))) t)
/-- A physical byte that a list of stores names. -/
def Sys2Proof.Machine.storesScratch (ws : List MemWrite) (d x : Nat) : Prop :=
  ∃ w ∈ ws, w.loc = .scratch d ∧ w.addr ≤ x ∧ x < w.addr + w.bytes.length
def Sys2Proof.Machine.storesTier1 (s : State) (ws : List MemWrite) (x : Nat) : Prop :=
  ∃ w ∈ ws, ∃ y i, w.loc = .tier1 y ∧ i < w.bytes.length ∧ x = s.regionAddr y (w.addr + i)
def Sys2Proof.Machine.storesHost (ws : List MemWrite) (x : Nat) : Prop :=
  ∃ w ∈ ws, ∃ b i, w.loc = .host b ∧ i < w.bytes.length ∧ x = b + (w.addr + i)
/-- The frame of every slot row that runs: every other core's data but its scratchpad, every register, accumulator word,
tile and side record the effect does not name, and every byte it does not store to are as before, but for the trace area of
a context that records its step (09 R268). -/
def Obligations.SlotRowFrame : Prop :=
  ∀ (c : CoreId) (a : SlotArgs) (s : State), ∀ p ∈ slotRows, s.slotClear c p.2.1 p.2.2 a = true →
    let e := effSlot (s.slotView c p.2.1 p.2.2 a)
    Runs (p.1 c a) s (fun t =>
      (∀ d, d ≠ c.val → (t.core d).data = { (s.core d) with scratch := (t.core d).scratch }.data) ∧
      (∀ n, n ∉ e.s.map (·.1) → (t.core c.val).regs.sreg n = (s.core c.val).regs.sreg n) ∧
      (∀ n, n ∉ e.v.map (·.1) → (t.core c.val).regs.vreg n = (s.core c.val).regs.vreg n) ∧
      (∀ n, n ∉ e.p.map (·.1) → (t.core c.val).regs.preg n = (s.core c.val).regs.preg n) ∧
      (∀ n, n ∉ e.td.map (·.1) → (t.core c.val).regs.tdreg n = (s.core c.val).regs.tdreg n) ∧
      (∀ n, n ∉ e.acc.map (·.1) → mapGet 0 (t.core c.val).acc n = mapGet 0 (s.core c.val).acc n) ∧
      (∀ n, n ∉ e.tile.map (·.1) → mapGet 0 (t.core c.val).tileStatus n = mapGet 0 (s.core c.val).tileStatus n) ∧
      (∀ n, n ∉ e.side.map (·.1) → mapGet 0 (t.core c.val).side n = mapGet 0 (s.core c.val).side n) ∧
      (∀ d x, ¬ storesScratch e.mem d x → mapGet 0 (t.core d).scratch x = mapGet 0 (s.core d).scratch x) ∧
      (∀ x, ¬ storesTier1 s e.mem x → ¬ s.traceByte c x → mapGet 0 t.tier1 x = mapGet 0 s.tier1 x) ∧
      (∀ x, ¬ storesHost e.mem x → mapGet 0 t.hostMem x = mapGet 0 s.hostMem x) ∧ t.nvw = s.nvw ∧ t.pegs = s.pegs)
/-- An integer MMA with ACC = 0 whose exact dot products fit gives them: element (i, j) of the tile is the sum over k of
X[i, k] × Y[j, k], and the tile reads kind 1, shift 0 (03 R90 to R92). -/
def Sys2Proof.Machine.SaysIntegerMmaExact : Prop :=
  ∀ (c : CoreId) (a : SlotArgs) (s : State), s.slotClear c .M 0x01 a = true →
    let v := s.slotView c .M 0x01 a
    let x := v.ints v.tx
    let y := v.ints v.ty
    let dot (i j : Nat) : Int := ((x.getD i []).zip (y.getD j [])).foldl (fun n p => n + p.1 * p.2) 0
    isIntMma v = true → a.operands.getLsbD 14 = false →
    (∀ i j, i < v.tx.rows → j < v.ty.rows → -(2 ^ 31 : Int) ≤ dot i j ∧ dot i j < 2 ^ 31) →
    Runs (.mma c a) s (fun t => tileKind (mapGet 0 (t.core c.val).tileStatus (fld a.operands 10 4)) = 1 ∧
      tileShift (mapGet 0 (t.core c.val).tileStatus (fld a.operands 10 4)) = 0 ∧
      ∀ i j, i < v.tx.rows → j < v.ty.rows →
        (mapGet 0 (t.core c.val).acc (16384 * fld a.operands 10 4 + 128 * i + j)).toInt = dot i j)
/-- CLEAR zeroes the records of its rows; STATLOAD fills them from the rows of its tensor, bits [255:252] zero; no other record changes
(04 R116, R117). -/
def Sys2Proof.Machine.SaysSideRecordsMove : Prop :=
  ∀ (c : CoreId) (a : SlotArgs) (s : State),
    let base := fld a.operands 11 12
    let m := fld a.operands 38 7 + 1
    (s.slotClear c .V 0x79 a = true → Runs (.clear c a) s (fun t => ∀ n, mapGet 0 (t.core c.val).side n =
      if base ≤ n ∧ n < base + m then 0 else mapGet 0 (s.core c.val).side n)) ∧
    (s.slotClear c .V 0x7B a = true → let v := s.slotView c .V 0x7B a
      Runs (.statload c a) s (fun t => ∀ n, mapGet 0 (t.core c.val).side n =
        if base ≤ n ∧ n < base + m then
          BitVec.ofNat 256 (v.nat (v.rowAt (v.desc v.rTs) (n - base)).1 (v.rowAt (v.desc v.rTs) (n - base)).2 32 % 2 ^ 252)
        else mapGet 0 (s.core c.val).side n))
/-- An exact integer MMA (03 R90 to R92), and the side records of CLEAR and STATLOAD (04 R116, R117). -/
def Obligations.MmaAndSideRecords : Prop := SaysIntegerMmaExact ∧ SaysSideRecordsMove
/-- WWPUT and WWGET join their queue's order behind those before them and stay in flight; no data moves yet (08 R228). -/
def Obligations.WindwayRowsJoinOrder : Prop :=
  ∀ (c : CoreId) (a : SlotArgs) (s : State) (x j : Nat), s.place c.val = some (x, j) →
    let q := fld a.operands 5 8
    let id := (s.core c.val).nextId
    (s.slotClear c .D 0x20 a = true → Runs (.wwput c a) s (fun t => SameData s t ∧
      (t.queue x q).puts = (s.queue x q).puts ++ [⟨c, id⟩] ∧ (t.queue x q).gets = (s.queue x q).gets ∧
      (t.queue x q).recs = (s.queue x q).recs ∧ (∃ i, (t.core c.val).flight = (s.core c.val).flight ++ [i] ∧ i.id = id))) ∧
    (s.slotClear c .D 0x28 a = true → Runs (.wwget c a) s (fun t => SameData s t ∧
      (t.queue x q).gets = (s.queue x q).gets ++ [⟨c, id⟩] ∧ (t.queue x q).puts = (s.queue x q).puts ∧
      (t.queue x q).recs = (s.queue x q).recs ∧ (∃ i, (t.core c.val).flight = (s.core c.val).flight ++ [i] ∧ i.id = id)))

/-! ## W1 operations (07 R207 to R212) -/

/-- The legacy integer rows on D, A and B, and those with a 10-bit immediate, which is sign-extended but for LORSH (Table
07-5); LNOP does nothing. -/
def Sys2Proof.Machine.legacyRows : List ((CoreId → LegacyArgs → Instr) × (Word → Word → Word)) :=
  [(.ladd, fun a b => a + b), (.lsub, fun a b => a - b), (.lmul, fun a b => a * b), (.land, fun a b => a &&& b),
   (.lor, fun a b => a ||| b), (.lxor, fun a b => a ^^^ b), (.lshl, fun a b => a <<< (b.toNat % 64))]
def Sys2Proof.Machine.SaysLegacyInteger : Prop :=
  ∀ (c : CoreId) (a : LegacyArgs) (s : State),
    let d := fld a.operands 0 5
    let i10 := fld a.operands 5 10
    let sx := BitVec.ofInt 64 (signed 10 i10)
    (∀ p ∈ legacyRows, exec (p.1 c a) s = .next (s.withRegs c (fun r => r.setS d (p.2 (s.legS c a 5) (s.legS c a 10))))) ∧
    exec (.laddi c a) s = .next (s.withRegs c (fun r => r.setS d (s.legS c a 0 + sx))) ∧
    exec (.lldi c a) s = .next (s.withRegs c (fun r => r.setS d sx)) ∧
    exec (.lorsh c a) s = .next (s.withRegs c (fun r => r.setS d ((s.legS c a 0 <<< 10) ||| BitVec.ofNat 64 i10))) ∧
    (a.operands = 0 → exec (.lnop c a) s = .next (s.setCore c.val (s.core c.val)))
/-- The legacy scratchpad rows: LLD and LST at A + 8 × B, LTDLD at A + 32 × B, B being the field itself. -/
def Sys2Proof.Machine.SaysLegacyScratchpad : Prop :=
  ∀ (c : CoreId) (a : LegacyArgs) (s : State),
    let d := fld a.operands 0 5
    let b := fld a.operands 10 5
    let old (x : Nat) : Byte := mapGet 0 (s.core c.val).scratch x
    let at8 := (s.legS c a 5 + BitVec.ofNat 64 (8 * b)).toNat
    let at32 := (s.legS c a 5 + BitVec.ofNat 64 (32 * b)).toNat
    let lim := (s.declOf c).scratch
    (at8 % 8 = 0 → at8 + 8 ≤ lim → exec (.lld c a) s = .next (s.withRegs c (fun r => r.setS d
      (BitVec.ofNat 64 (leNat ((upto 8).map (fun j => old (at8 + j)))))))) ∧
    (at8 % 8 = 0 → at8 + 8 ≤ lim → Runs (.lst c a) s (fun t =>
      t = s.setCore c.val { s.core c.val with scratch := (t.core c.val).scratch } ∧
      ∀ x, mapGet 0 (t.core c.val).scratch x =
        if at8 ≤ x ∧ x < at8 + 8 then BitVec.ofNat 8 ((s.legS c a 0).toNat >>> (8 * (x - at8))) else old x)) ∧
    (at32 % 32 = 0 → at32 + 32 ≤ lim → exec (.ltdld c a) s = .next (s.withRegs c (fun r => r.setTd d
      (BitVec.ofNat 256 (leNat ((upto 32).map (fun j => old (at32 + j))))))))
/-- The legacy rows on registers and on the scratchpad (07 R207 to R211, Table 07-5). -/
def Obligations.LegacyData : Prop := SaysLegacyInteger ∧ SaysLegacyScratchpad
/-- The legacy branches LBR, LBNZ and LBZ count 64-byte groups from the word's own, LBX goes to the address in A; LPEGS
signals 1, LPEGW waits, LFENCE fences every scope, LHALT stops issue (07 R210, Table 07-5). -/
def Obligations.LegacyControl : Prop :=
  ∀ (c : CoreId) (a : LegacyArgs) (s : State),
    let k := s.core c.val
    let near := BitVec.ofNat 64 (k.pc.toNat / 64 * 64) + BitVec.ofInt 64 (64 * signed 10 (fld a.operands 5 10))
    let far := s.legS c a 5
    let goes (i : Instr) (t : Word) : Prop := exec i s = .next (s.setCore c.val { k with pc := t, legacyAt := legacyOf s c t })
    let stays (i : Instr) : Prop := exec i s = .next (s.setCore c.val k)
    (s.legacyClear c 0x18 a = true → goes (.lbr c a) near) ∧
    (s.legacyClear c 0x19 a = true → if s.legS c a 0 = 0 then stays (.lbnz c a) else goes (.lbnz c a) near) ∧
    (s.legacyClear c 0x1A a = true → if s.legS c a 0 = 0 then goes (.lbz c a) near else stays (.lbz c a)) ∧
    (s.legacyClear c 0x1B a = true → goes (.lbx c a) far) ∧
    (∀ x j, s.place c.val = some (x, j) →
      (s.legacyClear c 0x38 a = true → Runs (.lpegs c a) s (fun t => SameData s t ∧
        t.pegSignals = s.pegSignals ++ [⟨s.rd (Reg.ctx x) Reg.CTX_PEG_BASE + fld far 0 16, 1, some c⟩])) ∧
      (s.legacyClear c 0x39 a = true → Runs (.lpegw c a) s (fun t => SameData s t ∧ ∃ w, (t.core c.val).pegWait = some w ∧
        w.peg = s.rd (Reg.ctx x) Reg.CTX_PEG_BASE + fld far 0 16 ∧ w.threshold = BitVec.ofNat 32 (fld (s.legS c a 10) 0 32)))) ∧
    (a.operands = 0 → Runs (.lfence c a) s (fun t => SameData s t ∧ ∃ b, (t.core c.val).fence = some b ∧ b.mask = 31 ∧ b.seq = k.seq) ∧
      exec (.lhalt c a) s = .next (s.setCore c.val { k with halt := true }))
/-- The legacy rows of the other units run what their translation names, rounding to nearest even (07 R209, R211, R212). -/
def Sys2Proof.Machine.legacyUnitRows : List ((CoreId → LegacyArgs → Instr) × Nat × (View → Effect)) :=
  [(.lmma, 0x20, effMma), (.lwo, 0x21, effLwo), (.lvadd, 0x28, vecArith), (.lvsub, 0x29, vecArith), (.lvmul, 0x2A, vecArith),
   (.lvmax, 0x2B, vecArith), (.lvmin, 0x2C, vecArith), (.lvld, 0x2D, effVld), (.lvst, 0x2E, effVst), (.lxfer, 0x30, effXfer)]
def Obligations.LegacyUnitsComplete : Prop :=
  ∀ (c : CoreId) (a : LegacyArgs) (s : State), ∀ p ∈ legacyUnitRows, s.legacyClear c p.2.1 a = true →
    ∃ v, s.legacyView c p.2.1 a = some v ∧ (∀ code, v.rm code = some .rne) ∧
      Runs (p.1 c a) s (fun t => SameDataTraced s c (s.withEffect c v (p.2.2 v)) t)

/-! ## Issue, completion and drain (05 R146, R154 to R161; 06 R163 to R171; 07 R198 to R202) -/

/-- The four slots of the bundle at a core's pc, in slot order. -/
def Sys2Proof.Machine.bundleSlots (s : State) (c : CoreId) (p : Program) : List InFlight :=
  let w := s.fetch c.val p 32
  let word (j : Nat) : Word := BitVec.ofNat 64 (bitsAt w (64 * j) 64)
  let k := s.core c.val
  [instOf k .S (word 0) none, instOf k .M (word 1) none, instOf k .V (word 2) none, instOf k .D (word 3) none]
/-- A set of slots issues: no executing slot waits for one in flight, none has a cause, no two write one register. -/
def Sys2Proof.Machine.partsIssue (s : State) (c : CoreId) (parts : List InFlight) : Bool :=
  let th := threadLanes s c.val parts (s.core c.val).regs.lanes
  let run := th.filter (fun i => (viewOf s c.val i).executes)
  !run.any (waitsFor s c.val (s.core c.val).flight) && th.all (fun i => (issueCause (viewOf s c.val i)).isNone) &&
    (doubleWrite s c.val run).isNone
def Sys2Proof.Machine.partsBranch (s : State) (c : CoreId) (parts : List InFlight) : Bool :=
  (threadLanes s c.val parts (s.core c.val).regs.lanes).any (fun i => match (effSlot (viewOf s c.val i)).ctl with | .branch _ => true | _ => false)
/-- The fetch is served: its line is there or the bandwidth window still holds it, and no granule of it is poisoned. -/
def Sys2Proof.Machine.fetchServed (s : State) (c : CoreId) : Prop :=
  (s.regulateFetch c.val).2 = true ∧ s.fetchPoison c.val = none
/-- A bundle issues whole: BUNDLE_SEQ advances by one, the pc by 32 unless a slot branches, the core runs, and no accumulator
or byte changes until completion. One whose slots wait changes nothing (05 R146, R154; 06 R163). A legacy word of
three LNOPs does the same by 8 bytes (07 R209). -/
def Sys2Proof.Machine.SaysBundlesIssueInOrder : Prop :=
  ∀ (c : CoreId) (s : State) (p : Program), mayIssue s c.val = some p → (s.core c.val).withdrawn = [] → (s.core c.val).halt = false →
    let k := s.core c.val
    let parts := bundleSlots s c p
    let waits := parts.any (fun i => predWaits s c.val k.flight i.word)
    (k.legacyAt = none → inBundleCode p k.pc.toNat = true →
      (waits = true → exec (.bundleIssue c) s = .next s) ∧
      (waits = false → partsIssue s c parts = true → fetchServed s c → Runs (.bundleIssue c) s (fun t =>
        (t.core c.val).seq = k.seq + 1 ∧ (t.core c.val).run = .running ∧
        (partsBranch s c parts = false → (t.core c.val).pc = k.pc + 32) ∧
        (t.core c.val).acc = k.acc ∧ (t.core c.val).scratch = k.scratch ∧ (t.core c.val).side = k.side ∧
        t.tier1 = s.tier1 ∧ t.hostMem = s.hostMem ∧ t.pegs = s.pegs ∧ ∀ d, d ≠ c.val → t.core d = s.core d))) ∧
    (∀ off, k.legacyAt = some off → inLegacySeg p off k.pc.toNat = true → s.fetch c.val p 8 % 2 ^ 64 = 0 → fetchServed s c →
      Runs (.legacyWordIssue c) s (fun t => (t.core c.val).seq = k.seq + 1 ∧ (t.core c.val).pc = k.pc + 8 ∧
        (t.core c.val).flight = k.flight ∧ SameData s t))
/-- A bundle address outside the program's code traps with 0x2108, and so does a word past the legacy segment that the core
entered (05 R143; 07 R210). -/
def Sys2Proof.Machine.SaysIssueOutsideCodeTraps : Prop :=
  ∀ (c : CoreId) (s : State) (p : Program), mayIssue s c.val = some p → (s.core c.val).withdrawn = [] → (s.core c.val).halt = false →
    let k := s.core c.val
    let traps (i : Instr) : Prop := Runs i s (fun t => SameData s t ∧ (t.core c.val).run = .trapped ∧
      recordReason (t.core c.val).trapRec = 0x2108 ∧ (t.core c.val).pc = k.pc)
    (k.legacyAt = none → inBundleCode p k.pc.toNat = false → traps (.bundleIssue c)) ∧
    (∀ off, k.legacyAt = some off → inLegacySeg p off k.pc.toNat = false → traps (.legacyWordIssue c))
/-- Bundles and legacy words issue in order; outside the code they trap (05 R143, R146, R154; 07 R209). -/
def Obligations.BundlesIssue : Prop := SaysBundlesIssueInOrder ∧ SaysIssueOutsideCodeTraps
/-- The oldest instruction of a unit completes: its effect is applied from the values it read at issue, and it leaves its
unit; one whose stores must follow those of an earlier slot of its bundle, or whose accesses the bandwidth window does not
hold, waits, and so does an integer MMA pass that overflowed, for its retry (06 R165, R168, R171; 03 R92, R93; 14 R396). -/
def Obligations.UnitsComplete : Prop :=
  ∀ (c : CoreId) (u : ExecUnit) (n : Fin 4) (i : InFlight) (s : State), (u ≠ .bellows → n = 0) →
    onUnit (s.core c.val).flight u n.val = some i →
    let k := s.core c.val
    (isWw i = true ∨ passDone s c.val i = false ∨ storesAfter s c.val k.flight i = true → exec (.unitComplete c u n) s = .next s) ∧
    (isWw i = false → passDone s c.val i = true → storesAfter s c.val k.flight i = false → (s.regulate c.val i).2 = true →
      let v := viewOf s c.val i
      let e := effSlot v
      Runs (.unitComplete c u n) s (fun t =>
        SameDataTraced s c (storeAll (s.setCore c.val (e.onCore k)) v.origin (joinWrites (e.rest i.cursor).mem)) t ∧
        (t.core c.val).flight = k.flight.filter (fun j => decide (j.id ≠ i.id)))) ∧
    (u = .array → n = 0 → isIntMma (viewOf s c.val i) = true → passDone s c.val i = false →
      (k.run ≠ .draining → k.run ≠ .trapped → intStart (viewOf s c.val i) + i.retries < 2 →
        exec (.integerRetryPass c) s = .next (s.setCore c.val { k with
          flight := k.flight.map (fun e => if e.id = i.id then { e with retries := e.retries + 1 } else e) })) ∧
      (k.run = .draining ∨ k.run = .trapped → Runs (.integerRetryPass c) s (fun t =>
        (∃ j ∈ (t.core c.val).withdrawn, j.id = i.id ∧ j.retries = 0) ∧
        (t.core c.val).flight = k.flight.filter (fun e => decide (e.id ≠ i.id)) ∧ (t.core c.val).acc = k.acc)))
/-- A peg's slice applies its oldest signal indivisibly, modulo 2^32, and releases exactly the waiters of that peg whose
modular test then holds; a released PEGW stops waiting; a FENCE clears once no earlier access in its scopes is in flight
(07 R198, R199, R201). -/
def Obligations.PegsApplyAndRelease : Prop :=
  ∀ (s : State),
    (∀ (p : PegId) g rest, takeSignal p.val s.pegSignals = some (g, rest) → Runs (.pegApply p) s (fun t =>
      t.pegSignals = rest ∧ (∀ q, mapGet 0 t.pegs q = if q = p.val then mapGet 0 s.pegs q + g.inc else mapGet 0 s.pegs q) ∧
      (∀ d w, (t.core d).pegWait = some w → ∃ w0, (s.core d).pegWait = some w0 ∧ w.peg = w0.peg ∧ w.threshold = w0.threshold ∧
        (w.released = true → w0.released = true ∨ (w.peg = p.val ∧ (mapGet 0 t.pegs p.val - w.threshold).toNat < 2 ^ 31))) ∧
      (∀ d w0, (s.core d).pegWait = some w0 → w0.peg = p.val → (mapGet 0 t.pegs p.val - w0.threshold).toNat < 2 ^ 31 →
        ∃ w, (t.core d).pegWait = some w ∧ w.released = true) ∧
      (∀ d, (t.core d).data = (s.core d).data))) ∧
    (∀ (c : CoreId) w, (s.core c.val).pegWait = some w →
      (w.released = true → exec (.pegwRelease c) s = .next (s.setCore c.val { s.core c.val with pegWait := none })) ∧
      (w.released = false → exec (.pegwRelease c) s = .next s)) ∧
    (∀ (c : CoreId) b, (s.core c.val).fence = some b →
      let blocks := (s.core c.val).flight.any (fun e => decide (e.seq.toNat < b.seq.toNat) &&
        decide (scopesOf (viewOf s c.val e) &&& b.mask.toNat ≠ 0))
      (blocks = false → exec (.fenceClear c) s = .next (s.setCore c.val { s.core c.val with fence := none })) ∧
      (blocks = true → exec (.fenceClear c) s = .next s))
/-- Drains and halts: a request turns a running core to draining with no PEGW or FENCE left waiting, and where nothing in
flight waits, retries or moves, with all of it still in flight; a quiet draining core is drained; a quiet core past HALT has
halted; abandoned tier-3 reads are withdrawn, not lost; the first trap that is due is posted (05 R155, R156, R161; 06 R183; 03
R101). -/
def Obligations.CoresDrainAndHalt : Prop :=
  ∀ (c : CoreId) (s : State),
    let k := s.core c.val
    (k.run = .running → k.deferred = [] → Runs (.drainRequest c) s (fun t => (t.core c.val).run = .draining ∧
      (t.core c.val).pegWait = none ∧ (t.core c.val).fence = none ∧ (t.core c.val).regs = k.regs ∧ (t.core c.val).acc = k.acc ∧
      (t.core c.val).pc = k.pc ∧
      ((∀ i ∈ k.flight, isMove i = false) → (t.core c.val).scratch = k.scratch ∧ t.tier1 = s.tier1 ∧ ∀ d, d ≠ c.val → t.core d = s.core d) ∧
      ((∀ i ∈ k.flight, isMove i = false ∧ isWaiting k.flight i = false ∧ isAbandoned s c.val i = false) →
        (t.core c.val).flight = k.flight))) ∧
    (k.run = .draining → k.deferred = [] → s.quiet c.val = true → s.migrating = [] →
      exec (.coreDrained c) s = .next (s.setCore c.val { k with run := .drained })) ∧
    (∀ x b, s.place c.val = some (x, b) → s.ctxState x = stRunning → (s.ctx x).programOn (b / 4) = none →
      k.halt = true → k.run = .running ∨ k.run = .drained → k.withdrawn = [] → k.deferred = [] → s.quiet c.val = true →
      exec (.coreHalted c) s = .next (s.setCore c.val { k with run := .halted })) ∧
    (∀ x b p, s.place c.val = some (x, b) → s.ctxState x = stRunning → (s.ctx x).programOn (b / 4) = some p →
      k.halt = true → k.run = .running ∨ k.run = .drained → k.withdrawn = [] → k.deferred = [] → s.quiet c.val = true →
      (∃ d ∈ s.programCores x p, d ≠ c.val ∧ (s.core d).run ≠ .halted ∧ (s.core d).run ≠ .idle) →
      exec (.coreHalted c) s = .next (s.setCore c.val { k with run := .halted })) ∧
    (k.run = .draining ∨ k.run = .trapped → Runs (.tier3ReadAbandon c) s (fun t => ∀ i, i ∈ k.flight →
      (readsTier3 s c.val i = true → (∃ j ∈ (t.core c.val).withdrawn, j.id = i.id) ∧ i ∉ (t.core c.val).flight) ∧
      ((∀ j ∈ k.flight, readsTier3 s c.val j = true → j.id ≠ i.id) → i ∈ (t.core c.val).flight))) ∧
    (∀ d, firstDue k.deferred = some d → k.run ≠ .trapped → k.flight.any holdsIssue = false →
      Runs (.deferredTrapPost c) s (fun t => (t.core c.val).trapRec = d.record ∧ (t.core c.val).run = .trapped ∧
        (t.core c.val).deferred = [] ∧ SameData s t)) ∧
    (∀ (x : CtxId) (l : LogicalId) (v : Word), s.ctxCore x.val l.val = some c.val → s.memActive = true → v.getLsbD 0 = true →
      exec (.counterClear x l v) s = .next (s.setCore c.val { k with counters := [] }))
/-! ## Windway queues (08 R217 to R233) -/

/-- A queue's two orders and its records: the head WWPUT of a local queue takes credits and numbers for all its rows at once
and places its records under them, the head WWGET takes as many placed records from the front, each in its order; one that
cannot take all waits with nothing taken (08 R228, Table 08-5). -/
def Obligations.WindwayTakesInOrder : Prop :=
  ∀ (x : CtxId) (q : QueueId) (r : WRef) (rest : List WRef) (i : InFlight) (s : State),
    let k := s.queue x.val q.val
    let b := Reg.wwy x.val q.val
    s.refInst r = some i →
    (k.puts = r :: rest → s.isSender x.val q.val = false → i.taken = false →
      let v := viewOf s r.core.val i
      let n := v.wwDesc.rows
      let seq := s.rd b Reg.WWY_PUT_SEQ
      let out := s.putRows x.val q.val seq (s.recordSize x.val q.val) v (upto n)
      (s.freeCredits x.val q.val < n → exec (.wwputTakeCredits x q) s = .next s) ∧
      (n ≤ s.freeCredits x.val q.val → out.2 = none → Runs (.wwputTakeCredits x q) s (fun t =>
        (s.flag b Reg.WWY_SPILL = false → (t.queue x.val q.val).recs.map (fun w => w.bytes) = k.recs.map (fun w => w.bytes) ++ out.1) ∧
        (t.queue x.val q.val).recs.map (fun w => w.seq) = k.recs.map (fun w => w.seq) ++ (upto n).map (fun j => seq + j) ∧
        (t.queue x.val q.val).puts = (r :: rest).filter (fun p => decide (p ≠ r)) ∧
        (t.queue x.val q.val).outstanding = k.outstanding + n ∧
        t.rd b Reg.WWY_PUT_SEQ = (seq + n) % 2 ^ Reg.WWY_PUT_SEQ.width ∧
        (fld i.word 26 6 ≠ 0 → (t.core r.core.val).regs.sreg (fld i.word 26 6) = BitVec.ofNat 64 seq)))) ∧
    (k.gets = r :: rest →
      let n := (viewOf s r.core.val i).wwDesc.rows
      let seq := s.rd b Reg.WWY_GET_SEQ
      (k.recs.length < n → exec (.wwgetTakeRecords x q) s = .next s) ∧
      (n ≤ k.recs.length → Runs (.wwgetTakeRecords x q) s (fun t =>
        (t.queue x.val q.val).recs = k.recs.drop n ∧ (t.queue x.val q.val).gets = rest ∧
        (t.queue x.val q.val).delivering.map (fun d => d.rcd) = k.delivering.map (fun d => d.rcd) ++ k.recs.take n ∧
        t.rd b Reg.WWY_GET_SEQ = (seq + n) % 2 ^ Reg.WWY_GET_SEQ.width ∧
        (fld i.word 26 6 ≠ 0 → (t.core r.core.val).regs.sreg (fld i.word 26 6) = BitVec.ofNat 64 seq))))
/-- A delivered record whose check value passes is written into its row of the getter's scratchpad and frees its credit, one
that fails it is not and changes no data; a remote record joins the receiver's ring under the next number if it passes and a
credit is free; a returned credit frees one at the sender; a cleared queue holds no record and its ENABLE reads 0, and once
the ring and spill area it cleared longest read zero that clearing is over (08 R220, R228, R233). -/
def Obligations.WindwayDelivers : Prop :=
  ∀ (x : CtxId) (q : QueueId) (s : State),
    let k := s.queue x.val q.val
    let b := Reg.wwy x.val q.val
    (∀ d rest, k.delivering = d :: rest →
      (∀ i, s.refInst d.ref = some i → s.isReceiver x.val q.val = false → s.poisonMet x.val (s.recordReads x.val q.val d.rcd) [] = none →
        let bs := s.recordBytes x.val q.val d.rcd
        let at_ := (viewOf s d.ref.core.val i).wwRow d.row
        at_.1 = .scratch d.ref.core.val → Runs (.recordDelivered x ⟨q, true⟩) s (fun t =>
          (t.queue x.val q.val).delivering = rest ∧ (t.queue x.val q.val).outstanding = k.outstanding - 1 ∧
          ∀ a, mapGet 0 (t.core d.ref.core.val).scratch a =
            if at_.2 ≤ a ∧ a < at_.2 + bs.length then bs.getD (a - at_.2) 0 else mapGet 0 (s.core d.ref.core.val).scratch a)) ∧
      Runs (.recordDelivered x ⟨q, false⟩) s (fun t => SameData s t ∧ t.queue x.val q.val = k)) ∧
    (∀ bs out, s.queueOn x.val q.val = true → s.isReceiver x.val q.val = true → bs.length = s.recordSize x.val q.val →
      0 < s.freeCredits x.val q.val → s.placeRecord x.val q.val (s.rd b Reg.WWY_PUT_SEQ) bs = some out →
      Runs (.remoteRecordArrive x q bs) s (fun t =>
        (t.queue x.val q.val).recs.map (fun w => w.seq) = k.recs.map (fun w => w.seq) ++ [s.rd b Reg.WWY_PUT_SEQ] ∧
        (s.flag b Reg.WWY_SPILL = false → (t.queue x.val q.val).recs.map (fun w => w.bytes) = k.recs.map (fun w => w.bytes) ++ [out]) ∧
        (t.queue x.val q.val).outstanding = k.outstanding + 1)) ∧
    (s.queueOn x.val q.val = true → s.isSender x.val q.val = true → 0 < k.outstanding →
      Runs (.remoteCreditArrive x q) s (fun t => (t.queue x.val q.val).outstanding = k.outstanding - 1 ∧
        (t.queue x.val q.val).recs = k.recs)) ∧
    (s.memActive = true → s.dstate = 0 → s.checking (.queue x q) = false → s.queueOn x.val q.val = true →
      Runs (.queueDisable x q) s (fun t => (t.queue x.val q.val).recs = [] ∧ (t.queue x.val q.val).puts = [] ∧
        (t.queue x.val q.val).gets = [] ∧ (t.queue x.val q.val).outstanding = 0 ∧
        (t.queue x.val q.val).clearing = k.clearing ++ [s.clearingOf x.val q.val] ∧ t.queueOn x.val q.val = false)) ∧
    (∀ z zs, k.clearing = z :: zs → Runs (.queueClearDone x q) s (fun t => (t.queue x.val q.val).clearing = zs ∧
      ∀ a, mapGet 0 t.tier1 a = (match s.regionOff x.val a with
        | some o => if z.spill.1 ≤ o ∧ o < z.spill.1 + z.spill.2 then 0 else mapGet 0 s.tier1 a
        | none => mapGet 0 s.tier1 a)))


/-! ## Objects with an ENABLE bit (18 R481, R482) -/

/-- The command that writes 1 to an object's ENABLE (for TRS_ADDRESS, with an address). -/
def Sys2Proof.Machine.enableRow (addr : BitVec 16) (i : Instr) : ObjRef → Prop
  | .ctx x => i = .ctxEnable x
  | .queue x q => i = .queueEnable x q
  | .port p => i = .portEnable p
  | .address => i = .trsAddressEnable addr
  | .stream x => i = .streamTableEnable x
  | .slot n => i = .nvwSlotEnable n
  | .store n => i = .ckptStoreEnable n
  | .hdm w => i = .hdmEnable w
  | .t3w x => i = .t3wEnable x
  | .ring r => i = .ringEnable r
/-- A write of 1 to a clear ENABLE with no check running starts the object's check behind those that run: STATUS reads
0x1001, ENABLE stays 0, and no core, context or memory changes. On a set ENABLE, or during the check, it does nothing, and so
while BAR0 does not answer (18 R481, R482). -/
def Sys2Proof.Machine.SaysEnableStartsCheck : Prop :=
  ∀ (o : ObjRef) (addr : BitVec 16) (i : Instr) (s : State), enableRow addr i o →
    (s.barOpen = true → s.objOn o = false → s.checking o = false → Runs i s (fun t =>
      t.checks = s.checks ++ [o] ∧ t.objOn o = false ∧ (∀ f, o.status = some f → t.rd o.base f = 0x1001) ∧
      (o = .address → t.rd Reg.trsAddress Reg.TRSA_ADDRESS = addr.toNat) ∧
      (∀ r, o = .ring r → t.rd (Reg.ring r.val) Reg.RING_HEAD = 0 ∧ t.rd (Reg.ring r.val) Reg.RING_COMP_SEQ = 0) ∧
      t.cores = s.cores ∧ t.ctxs = s.ctxs ∧ t.queues = s.queues ∧ t.rings = s.rings ∧ t.tier1 = s.tier1 ∧ t.hostMem = s.hostMem)) ∧
    (s.barOpen = false ∨ s.objOn o = true ∨ s.checking o = true → exec i s = .next s)
/-- The oldest check ends: with a refusal the object keeps its ENABLE and STATUS reads the code; where it passes, ENABLE
reads 1 and STATUS 0, and a context is Idle with nothing loaded under a nonce of its own (18 R482; 14 R383). -/
def Sys2Proof.Machine.SaysChecksEndInTurn : Prop :=
  ∀ (s : State), (s.checks = [] → exec .objectCheckEnd s = .next s) ∧
    ∀ (o : ObjRef) (rest : List ObjRef), s.checks = o :: rest →
      let s1 := { s with checks := rest }
      (∀ code, s1.checkOf o = some code → Runs .objectCheckEnd s (fun t => t.checks = rest ∧ t.objOn o = s.objOn o ∧
        (∀ f, o.status = some f → t.rd o.base f = code % 2 ^ f.width) ∧ t.cores = s.cores ∧ t.ctxs = s.ctxs ∧ t.tier1 = s.tier1)) ∧
      (s1.checkOf o = none → (∀ n, o ≠ .slot n) → (∀ r, o ≠ .ring r) → (∀ p, o ≠ .port p) →
        Runs .objectCheckEnd s (fun t => t.checks = rest ∧ t.objOn o = true ∧ ∀ f, o.status = some f → t.rd o.base f = 0)) ∧
      (∀ x : CtxId, o = .ctx x → s1.checkOf o = none → Runs .objectCheckEnd s (fun t => t.ctxState x.val = stIdle ∧
        (t.ctx x.val).programs = [] ∧ (t.ctx x.val).bayMap = [] ∧ (t.ctx x.val).nonce = some s.free ∧ t.free = s.free + 1))
/-- Every ENABLE starts a check behind those that run, and checks end in turn (18 R481, R482). -/
def Obligations.ChecksStartAndEnd : Prop := SaysEnableStartsCheck ∧ SaysChecksEndInTurn

/-! ## Contexts (14 R382 to R399, 05 R149) -/

/-- Clearing a context's ENABLE ends its check with 0x1002, or begins its teardown with every open command answered; once its
cores stand still and no queue of it is clearing, its bays, programs and memory are given up: its region, its save area and its
pegs read zero and it is Disabled. Its queues, stream table, tier-3 window and HDM windows are disabled with 0x1003 when the
teardown begins, its rings when it is done (14 R399; 18 R482, R483). -/
def Obligations.ContextTeardown : Prop :=
  ∀ (x : CtxId) (s : State),
    (s.barOpen = true → s.checking (.ctx x) = true → Runs (.ctxDisable x) s (fun t =>
      ObjRef.ctx x ∉ t.checks ∧ t.rd (Reg.ctx x.val) Reg.CTX_STATUS = 0x1002 ∧ t.ctxState x.val = s.ctxState x.val)) ∧
    (s.barOpen = true → s.checking (.ctx x) = false → s.ctxState x.val ≠ stDisabled → s.ctxState x.val ≠ stTearing →
      Runs (.ctxDisable x) s (fun t => t.ctxState x.val = stTearing ∧ (t.ctx x.val).tickets = [] ∧
        (t.ctx x.val).goal = none ∧ (∀ p ∈ (t.ctx x.val).programs, p.ticket = none) ∧
        (∀ q : QueueId, s.queueOn x.val q.val = true → t.queueOn x.val q.val = false ∧ t.rd (Reg.wwy x.val q.val) Reg.WWY_STATUS = 0x1003) ∧
        (s.tableOn x.val = true → t.tableOn x.val = false ∧ t.rd (Reg.streamTable x.val) Reg.ST_STATUS = 0x1003) ∧
        (s.objOn (.t3w x) = true → t.objOn (.t3w x) = false ∧ t.rd (Reg.t3w x.val) Reg.T3W_STATUS = 0x1003) ∧
        (∀ w : HdmId, s.objOn (.hdm w) = true → s.rd (Reg.hdm w.val) Reg.HDM_CONTEXT = x.val →
          t.objOn (.hdm w) = false ∧ t.rd (Reg.hdm w.val) Reg.HDM_STATUS = 0x1003))) ∧
    (s.ctxState x.val = stTearing → s.settled x.val = true → (s.clearings).any (fun yc => decide (yc.1 = x.val)) = false →
      s.migrating = [] → Runs (.teardownDone x) s (fun t => t.ctxState x.val = stDisabled ∧ t.ctxOn x.val = false ∧
        (t.ctx x.val).bayMap = [] ∧ (t.ctx x.val).programs = [] ∧
        (∀ r : RingId, s.objOn (.ring r) = true → s.rd (Reg.ring r.val) Reg.RING_KIND = 1 → s.rd (Reg.ring r.val) Reg.RING_CONTEXT = x.val →
          t.objOn (.ring r) = false ∧ t.rd (Reg.ring r.val) Reg.RING_STATUS = 0x1003) ∧
        (∀ a, inStripe (s.groups x.val) (s.rd (Reg.ctx x.val) Reg.CTX_GROUP_BASE) (s.rd (Reg.ctx x.val) Reg.CTX_GROUP_BYTES) a = true ∨
          inStripe (s.groups x.val) (s.rd (Reg.ctx x.val) Reg.CTX_SAVE_BASE) (s.savePerGroup x.val) a = true → mapGet 0 t.tier1 a = 0) ∧
        (∀ p, s.rd (Reg.ctx x.val) Reg.CTX_PEG_BASE ≤ p →
          p < s.rd (Reg.ctx x.val) Reg.CTX_PEG_BASE + s.rd (Reg.ctx x.val) Reg.CTX_PEG_COUNT → mapGet 0 t.pegs p = 0) ∧
        ∀ kc ∈ s.ctxCores x.val, t.core kc.2 = Core.scrubbed))
/-- LOAD, CTX_STOP, CTX_RESUME and CTX_UNLOAD act in the states that R386 allows and are refused with 0x5002 in the others;
a program that does not fit is refused with the code of its first failed check; a torn context takes no program, and one that
a fault halted is not resumed (14 R386; 05 R149; 16 R441; 09 R252). -/
def Obligations.ContextCommands : Prop :=
  ∀ (e : Entry) (s : State),
    let x := e.ctx.val
    let st := s.ctxState x
    (s.admits 1 e = true →
      let m := s.started 1 e
      let bs := m.bytesAt (.host (entryArg e 0)) 0 (entryArg e 1)
      (st ≠ stIdle → st ≠ stWaiting → st ≠ stRunning → st ≠ stStopped → Runs (.load e) s (fun t => Completes t e 1 0x5002 ∧ t.ctxs = s.ctxs)) ∧
      (st = stIdle ∨ st = stWaiting ∨ st = stRunning ∨ st = stStopped → s.rd (Reg.ctx x) Reg.CTX_STEP_STATE = 6 →
        Runs (.load e) s (fun t => Completes t e 1 0x9201 ∧ t.ctxs = s.ctxs)) ∧
      (st = stIdle ∨ st = stWaiting ∨ st = stStopped → s.rd (Reg.ctx x) Reg.CTX_STEP_STATE ≠ 6 →
        (∀ code det, m.fitCheck x bs (entryArg e 1) (entryArg e 2) (entryArg e 3) = some (code, det) →
          Runs (.load e) s (fun t => Completes t e 1 code ∧ t.ctxs = s.ctxs ∧ t.tier1 = s.tier1)) ∧
        (m.fitCheck x bs (entryArg e 1) (entryArg e 2) (entryArg e 3) = none → Runs (.load e) s (fun t => t.ctxState x = stWaiting ∧
          ∃ p, (t.ctx x).programs = (s.ctx x).programs ++ [p] ∧ p.bays = e.args.getD 3 0 ∧ p.base = entryArg e 2 ∧ p.bytes = entryArg e 1 ∧
            p.entry = imgEntry bs ∧ p.decl = imgDecl bs ∧ p.started = false ∧
            p.args = (upto 8).map (fun i => BitVec.ofNat 64 (s.natAt (.host (entryArg e 4)) (8 * i) 8)))))) ∧
    (s.admits 4 e = true →
      (st = stRunning → Runs (.ctxStop e) s (fun t => t.ctxState x = stSwitching ∧ t.rd (Reg.ctx x) Reg.CTX_STATUS = 0x5005 ∧
        (t.ctx x).goal = some (.stop 0x5005) ∧ entryTicket e 4 ∈ (t.ctx x).tickets ∧ (t.ctx x).bayMap = (s.ctx x).bayMap ∧
        ∀ kc ∈ s.ctxCores x, (t.core kc.2).run ≠ .running)) ∧
      (st = stWaiting → Runs (.ctxStop e) s (fun t => t.ctxState x = stStopped ∧ Completes t e 4 0)) ∧
      (st ≠ stRunning → st ≠ stWaiting → Runs (.ctxStop e) s (fun t => Completes t e 4 0x5002 ∧ t.ctxs = s.ctxs))) ∧
    (s.admits 5 e = true →
      (st = stStopped → (s.ctx x).faulted = false → s.rd (Reg.ctx x) Reg.CTX_STEP_STATE ≠ 6 → Runs (.ctxResume e) s (fun t =>
        t.ctxState x = stWaiting ∧ t.rd (Reg.ctx x) Reg.CTX_RUN_SEQ = (s.runSeq + 1) % 2 ^ 32 ∧ Completes t e 5 0 ∧ t.ctxs = s.ctxs)) ∧
      (st = stStopped → (s.ctx x).faulted = true → Runs (.ctxResume e) s (fun t => Completes t e 5 0x8004 ∧ t.ctxState x = st)) ∧
      (st ≠ stStopped → Runs (.ctxResume e) s (fun t => Completes t e 5 0x5002 ∧ t.ctxState x = st))) ∧
    (s.admits 6 e = true →
      (st = stStopped → Runs (.ctxUnload e) s (fun t => t.ctxState x = stIdle ∧ (t.ctx x).programs = [] ∧ (t.ctx x).saved = [] ∧
        (t.ctx x).faulted = false ∧ Completes t e 6 0)) ∧
      (st ≠ stStopped → Runs (.ctxUnload e) s (fun t => Completes t e 6 0x5002 ∧ t.ctxs = s.ctxs)))
/-- The best-effort contexts that PREEMPTION takes for LC context x (14 R389). -/
def Sys2Proof.Machine.State.victims (s : State) (x : Nat) : Option (List Nat) :=
  let cands := s.candidates x
  takeVictims s cands (s.rd (Reg.ctx x) Reg.CTX_BAYS) (cands.filter s.bayLeaving) (sortBy s.victimBefore
    ((s.inState stRunning).filter (fun y => !s.isLc y && (s.ctx y).bayNums.any (fun b => cands.contains b))))
/-- The scheduler: a waiting context that its bays can never serve is stopped; the first that can be placed takes CTX_BAYS free candidates and switches; an LC context that
cannot makes best-effort contexts leave, and only those; a slice that has run out makes its context leave if another waits
(14 R387 to R390). -/
def Obligations.SchedulerPlacesAndPreempts : Prop :=
  ∀ (s : State),
    (∀ x, x ∈ s.waitingOrder → s.neverPlaceable x = true → Runs .placement s (fun t => t.ctxState x = stStopped)) ∧
    ((∀ x ∈ s.waitingOrder, s.neverPlaceable x = false) →
      (s.mayPlace = false → exec .placement s = .next s) ∧
      (∀ x rest, s.mayPlace = true → s.waitingOrder = x :: rest →
        (∀ bays, s.chosenBays x = some bays → Runs .placement s (fun t =>
          t.ctxState x = stSwitching ∧ (t.ctx x).bayNums = bays ∧ bays.length = s.rd (Reg.ctx x) Reg.CTX_BAYS ∧
          (∀ b ∈ bays, s.candidate x b = true ∧ s.bayFree b = true) ∧ (t.ctx x).goal = some .place ∧ (t.ctx x).phase = .restore ∧
          ∀ y, y ≠ x → t.ctx y = s.ctx y)) ∧
        (s.isLc x = true → s.chosenBays x = none →
          exec .placement s = .next s ∧
          (∀ l, s.victims x = some l → Runs .preemption s (fun t =>
            (∀ y ∈ l, s.ctxState y = stRunning ∧ s.isLc y = false ∧ t.ctxState y = stSwitching ∧ (t.ctx y).goal = some .preempt ∧
              (t.ctx y).phase = .drain) ∧ (∀ y, y ∉ l → t.ctx y = s.ctx y) ∧ t.tier1 = s.tier1)) ∧
          (s.victims x = none → exec .preemption s = .next s)))) ∧
    (∀ x : CtxId,
      let due := s.ctxState x.val = stRunning ∧ s.isLc x.val = false ∧ s.rd (Reg.ctx x.val) Reg.CTX_QUANTUM_MS ≠ 0 ∧
        (s.ctx x.val).placedUs + 1000 * s.rd (Reg.ctx x.val) Reg.CTX_QUANTUM_MS ≤ s.nowUs ∧
        ∃ y ∈ s.inState stWaiting, s.isLc y = false ∧ s.priority x.val ≤ s.priority y
      (due → Runs (.sliceExpire x) s (fun t => t.ctxState x.val = stSwitching ∧ (t.ctx x.val).goal = some .preempt ∧
        (∀ kc ∈ s.ctxCores x.val, (t.core kc.2).run ≠ .running) ∧ ∀ y, y ≠ x.val → t.ctx y = s.ctx y)) ∧
      (¬due → exec (.sliceExpire x) s = .next s))
/-- A switch out saves the cores, then frees the bays, and the context waits again under a new number or is Stopped; a switch
in gives the cores their contents and the context runs; a record that fails its check tears the context down with 0x5006; a
window of a bay ends with nothing used (14 R391 to R396). -/
def Obligations.SwitchesSaveAndRestore : Prop :=
  ∀ (x : CtxId) (s : State), s.migrating = [] →
    let k := s.ctx x.val
    (s.ctxState x.val = stSwitching → k.goal = some .preempt → k.phase = .drain → s.settled x.val = true →
      Runs (.switchSaveDone x true) s (fun t => (t.ctx x.val).saved = s.coresOf x.val ∧ (t.ctx x.val).hasSaved = true ∧
        (t.ctx x.val).phase = .scrub ∧ (t.ctx x.val).bayMap = k.bayMap ∧ t.cores = s.cores ∧
        t.rd (Reg.ctx x.val) Reg.CTX_SWITCHES = satInc 32 (s.rd (Reg.ctx x.val) Reg.CTX_SWITCHES) % 2 ^ 32) ∧
      Runs (.switchSaveDone x false) s (fun t => t.ctxState x.val = stTearing ∧ t.rd (Reg.ctx x.val) Reg.CTX_STATUS = 0x5006)) ∧
    (s.ctxState x.val = stSwitching → k.phase = .scrub →
      (k.goal = some .preempt → Runs (.switchScrubDone x) s (fun t => t.ctxState x.val = stWaiting ∧ (t.ctx x.val).bayMap = [] ∧
        (t.ctx x.val).saved = k.saved ∧ t.rd (Reg.ctx x.val) Reg.CTX_RUN_SEQ = (s.runSeq + 1) % 2 ^ 32 ∧
        ∀ kc ∈ s.ctxCores x.val, t.core kc.2 = Core.scrubbed)) ∧
      (∀ code, k.goal = some (.stop code) → Runs (.switchScrubDone x) s (fun t => t.ctxState x.val = stStopped ∧
        (t.ctx x.val).bayMap = [] ∧ (t.ctx x.val).saved = k.saved))) ∧
    (s.ctxState x.val = stSwitching → k.phase = .restore → s.asleep x.val = false →
      (k.goal = some .place → (s.windowBad x.val = false ∨ k.hasSaved = false) → (∀ b ∈ k.bayNums, k.coresNeeded ≤ s.activeCores b) → Runs (.switchRestoreDone x true) s (fun t =>
        t.ctxState x.val = stRunning ∧ (t.ctx x.val).goal = none ∧ (t.ctx x.val).saved = [] ∧ (t.ctx x.val).bayMap = k.bayMap)) ∧
      (k.hasSaved = true → Runs (.switchRestoreDone x false) s (fun t =>
        t.ctxState x.val = stTearing ∧ t.rd (Reg.ctx x.val) Reg.CTX_STATUS = 0x5006 ∧ (t.ctx x.val).bayMap = []))) ∧
    (∀ (b : BayId) y i, s.bayHolder b.val = some (y, i) → Runs (.bwRegulatorWindow b) s (fun t =>
      ∀ z j, mapGet 0 (t.ctx z).bwUsed j = if z = y ∧ j = i then 0 else mapGet 0 (s.ctx z).bwUsed j))

/-! ## Training (09 R249 to R269, R532) -/

/-- STEP_OPEN opens the next step with its positions and the loss scale of its opening; STEP_COMMIT of an open step waits for
the gate, of a step that gave up answers the gate's reason, and of a gated step closes it: STEP takes its number, the loss
scale moves as Table 09-5 says after COMMIT and a checkpoint falls due by R262. Each is refused in the other states (09 R249,
R251, R256, R262, R267). -/
def Obligations.StepsOpenAndClose : Prop :=
  ∀ (e : Entry) (s : State),
    let x := e.ctx.val
    let st := s.stepState x
    let n := s.stepNo x
    (s.admits 2 e = true → s.trains x = true →
      (st = 0 ∨ st = 4 → (∀ d, (s.ctx x).dataNextDue = some d → d = e.args.getD 0 0) → (s.exch x).early = [] →
        (s.exch x).earlySummaries = [] → Runs (.stepOpen e) s (fun t => t.stepState x = 1 ∧ Completes t e 2 0 ∧ t.cores = s.cores ∧
          ∃ o, (t.ctx x).step = some o ∧ o.dataPos = e.args.getD 0 0 ∧ o.dataNext = e.args.getD 1 0 ∧ o.evalReq = e.flags.getLsbD 0 ∧
            o.ckptForce = e.flags.getLsbD 1 ∧ o.lsExp = BitVec.ofNat 8 (s.cf x Reg.CTX_LS_EXP) ∧ o.stopEvent = none ∧
            o.countersAtOpen = s.counterSums x)) ∧
      (st = 0 ∨ st = 4 → (∀ d, (s.ctx x).dataNextDue = some d → d ≠ e.args.getD 0 0 →
        Runs (.stepOpen e) s (fun t => Completes t e 2 0x9008 ∧ t.ctxs = s.ctxs))) ∧
      (st = 6 → Runs (.stepOpen e) s (fun t => Completes t e 2 0x9201 ∧ t.ctxs = s.ctxs)) ∧
      (st ≠ 0 → st ≠ 4 → st ≠ 6 → Runs (.stepOpen e) s (fun t => Completes t e 2 0x5004 ∧ t.ctxs = s.ctxs))) ∧
    (s.admits 3 e = true → s.trains x = true →
      (st = 1 → Runs (.stepCommit e) s (fun t => t.stepState x = 1 ∧
        t.ctx x = { s.ctx x with tickets := (s.ctx x).tickets ++ [entryTicket e 3] })) ∧
      (st = 4 ∨ st = 5 → Runs (.stepCommit e) s (fun t => Completes t e 3 (s.ctx x).gateReason.toNat ∧ t.ctxs = s.ctxs)) ∧
      (∀ o, st = 2 ∨ st = 3 → (s.ctx x).step = some o → o.floorHalt = false → Runs (.stepCommit e) s (fun t =>
        Completes t e 3 0 ∧ t.stepState x = 0 ∧ t.cf x Reg.CTX_STEP = n % 2 ^ 64 ∧ (t.ctx x).step = none ∧
        (t.ctx x).lastDataNext = o.dataNext ∧ t.cf x Reg.CTX_ATTEMPT = 0 ∧
        (let iv := ckptInterval (s.cf x Reg.CTX_LOSS_BOUND) (s.cf x Reg.CTX_RISK_THRESHOLD) (s.cf x Reg.CTX_JOB_RISK)
         let due := iv ≤ n - s.cf x Reg.CTX_LAST_CKPT_STEP ∨ o.ckptForce = true ∨ (s.ctx x).replayArm = some (BitVec.ofNat 64 (n + 1))
         t.cf x Reg.CTX_CKPT_INTERVAL = iv % 2 ^ 16 ∧
         (due → ∃ d, (t.ctx x).captures = (s.ctx x).captures ++ [d] ∧ d.step = BitVec.ofNat 64 n ∧ d.dataNext = o.dataNext ∧ d.taken = none) ∧
         (¬due → (t.ctx x).captures = (s.ctx x).captures)) ∧
        (st = 3 → t.cf x Reg.CTX_LS_EXP = s.cf x Reg.CTX_LS_EXP ∧ t.cf x Reg.CTX_LS_CLEAN = s.cf x Reg.CTX_LS_CLEAN) ∧
        (st = 2 →
          let wait := s.cf x Reg.CTX_LS_CLEAN + 1 < s.cf x Reg.CTX_LS_INTERVAL
          let up := signed 8 (s.cf x Reg.CTX_LS_EXP) < signed 8 (s.cf x Reg.CTX_LS_MAX)
          t.cf x Reg.CTX_LS_FLOOR_RUN = 0 ∧ t.cf x Reg.CTX_LS_CLEAN = (if wait then (s.cf x Reg.CTX_LS_CLEAN + 1) % 2 ^ 16 else 0) ∧
          t.cf x Reg.CTX_LS_EXP = if ¬wait ∧ up then unsignedOf 8 (signed 8 (s.cf x Reg.CTX_LS_EXP) + 1) % 2 ^ 8
            else s.cf x Reg.CTX_LS_EXP))))
/-- The gate: with no open step, or with its inputs missing or checks still to drain, it does nothing. A stop event of a job that cannot run again on
its bays gives HALT with the event's code, of one that can REPEAT under the next attempt, an abort REPEAT; totals give SKIP
when they are non-finite, with the loss scale down as Table 09-5 says, and COMMIT otherwise (Table 09-6). -/
def Obligations.GateDecides : Prop :=
  ∀ (x : CtxId) (drained : Bool) (s : State),
    let e := s.exch x.val
    let out (t : State) (st : Nat) (code : BitVec 16) : Prop := t.stepState x.val = st ∧ (t.ctx x.val).gateReason = code
    (s.stepState x.val ≠ 1 → exec (.gateDecide ⟨x, drained⟩) s = .next s) ∧
    (∀ o, (s.ctx x.val).step = some o → s.stepState x.val = 1 →
      (∀ c, o.stopEvent = some c →
        (c = 0x3205 ∨ e.merged = true ∨ s.canRerun x.val = false → Runs (.gateDecide ⟨x, drained⟩) s (fun t => out t 5 c ∧ (t.ctx x.val).step = none)) ∧
        (c ≠ 0x3205 → e.merged = false → s.canRerun x.val = true → Runs (.gateDecide ⟨x, drained⟩) s (fun t => out t 4 c ∧
          (t.ctx x.val).step = none ∧ t.cf x.val Reg.CTX_ATTEMPT = (s.cf x.val Reg.CTX_ATTEMPT + 1) % 2 ^ 8))) ∧
      (o.stopEvent = none →
        (∀ c, e.abort = some c → Runs (.gateDecide ⟨x, drained⟩) s (fun t => out t 4 c ∧ (t.ctx x.val).step = none)) ∧
        (e.abort = none → e.totals = none → exec (.gateDecide ⟨x, drained⟩) s = .next s) ∧
        (e.abort = none → drained = false → exec (.gateDecide ⟨x, drained⟩) s = .next s) ∧
        (∀ r, e.abort = none → drained = true → e.totals = some r → (∀ d ∈ (s.ctx x.val).captures, d.taken.isSome = true) →
          s.cf x.val Reg.CTX_STEP + 1 - s.cf x.val Reg.CTX_LAST_CKPT_STEP ≤ s.cf x.val Reg.CTX_LOSS_BOUND →
          (∀ k ∈ (s.ctx x.val).tickets, k.op ≠ 3) →
          (r.nonfinite = true → Runs (.gateDecide ⟨x, drained⟩) s (fun t => out t 3 0 ∧ t.cf x.val Reg.CTX_LS_CLEAN = 0 ∧
            t.cf x.val Reg.CTX_JOB_RISK = r.risk.toNat ∧ t.cf x.val Reg.CTX_LS_EXP =
              if signed 8 (s.cf x.val Reg.CTX_LS_MIN) < signed 8 (s.cf x.val Reg.CTX_LS_EXP) then
                unsignedOf 8 (signed 8 (s.cf x.val Reg.CTX_LS_EXP) - 1) % 2 ^ 8 else s.cf x.val Reg.CTX_LS_EXP)) ∧
          (r.nonfinite = false → e.earlyChunks = [] → Runs (.gateDecide ⟨x, drained⟩) s (fun t => out t 2 0 ∧ (t.ctx x.val).step = some o ∧
            t.cf x.val Reg.CTX_JOB_RISK = r.risk.toNat ∧ (t.exch x.val).doneSignals = e.doneSignals + 1))))) ∧
    (∀ islands : Int, Runs (.riskSample islands) s (fun t =>
      let old := s.riskHist.getD 599 (0, 0, 0)
      let w (f : Field) : Nat := s.rd Reg.safRisk f
      t.risk = min 65535 (w Reg.RISK_W_CE * (s.corrected - old.1) + w Reg.RISK_W_RT * (s.retrains - old.2.1) +
        w Reg.RISK_W_TH * (max 0 (10 - s.thermalMargin islands)).toNat + w Reg.RISK_W_DR * (s.droops - old.2.2)) ∧
      t.riskHist.head? = some (s.corrected, s.retrains, s.droops) ∧ t.regs = s.regs ∧ t.ctxs = s.ctxs))
/-- What a replay's run differs in from the record: the first entry of the named cores. -/
def Sys2Proof.Machine.replayFinding (k : Ctx) (mask : Nat) (run : List TraceEntry) : Option TraceEntry :=
  let cores := (maskList 64 mask).flatMap (fun b => (upto 4).map (fun c => 4 * b + c))
  let mine := run.filter (fun t => cores.contains t.core.val)
  match firstMismatch k.trace k.traceTruncated [] mine with
  | some t => some t
  | none => firstMissing mine cores [] k.trace
/-- A due checkpoint is captured once its marks stand, where its bytes are sound; its packets arriving, its securing makes it
the latest. A region that fails its check halts the context with 0x3002 and nothing is captured (09 R263, R264, R267; 16
R436). -/
def Sys2Proof.Machine.SaysCheckpointsSecured : Prop :=
  ∀ (x : CtxId) (s : State), let k := s.ctx x.val
    (∀ before d after, splitDue k.captures = some (before, d, after) →
      s.marksReady x.val (d.step.toNat + 1) = true ∨ s.ctxState x.val = stStopped →
      (d.drain = true → s.drainLeaves x.val (s.windowBytes x.val) = false) →
      s.droneInRange x.val (s.cf x.val Reg.CTX_STATE_BASE) (s.cf x.val Reg.CTX_STATE_BYTES) = false →
      (s.poisonMet x.val (s.ckptReads x.val) [] = none → Runs (.checkpointCaptureStart ⟨x, true⟩) s (fun t => ∃ c first n,
        (t.ctx x.val).captures = before ++ { d with taken := some c, first := first, packets := n } :: after ∧
        c.ctx = x ∧ c.step = d.step ∧ c.dataNext = d.dataNext ∧ c.marks = s.markBytes x.val ∧
        c.stateBytes = s.bytesAt (.tier1 x.val) (s.cf x.val Reg.CTX_STATE_BASE) (s.cf x.val Reg.CTX_STATE_BYTES) ∧
        t.tier1 = s.tier1 ∧ t.cores = s.cores)) ∧
      Runs (.checkpointCaptureStart ⟨x, false⟩) s (fun t => (t.ctx x.val).captures = before ++ after ∧ SameData s t)) ∧
    (∀ d c rest, k.captures = d :: rest → d.taken = some c →
      (s.ckptArrived x d = true → Runs (.checkpointSecured x) s (fun t =>
        (t.ctx x.val).captures = rest ∧ t.cf x.val Reg.CTX_LAST_CKPT_STEP = c.step.toNat ∧ t.ckpts = keepTwo c s.ckpts ∧
        t.ledgerWait = s.ledgerWait ++ [[.ckptIndex x c.step]] ∧ (x, c.step) ∈ t.ckptIndex)) ∧
      (s.ckptArrived x d = false → exec (.checkpointSecured x) s = .next s))
/-- RESTORE brings a checkpoint's registers, its state bytes and its lanes back to an Idle context; each way it cannot is refused
with the code of R266, in order. -/
def Sys2Proof.Machine.SaysRestore : Prop :=
  ∀ (e : Entry) (src : RestoreSource) (s : State), let x := e.ctx.val
    s.admits 7 e = true →
      (s.ctxState x ≠ stIdle → Runs (.restore e src) s (fun t => Completes t e 7 0x5002 ∧ t.ctxs = s.ctxs ∧ t.tier1 = s.tier1)) ∧
      (s.ctxState x = stIdle →
        (∀ code, s.restoreFault x (e.args.getD 0 0) src = .error code → Runs (.restore e src) s (fun t =>
          Completes t e 7 code ∧ t.ctxs = s.ctxs ∧ t.tier1 = s.tier1)) ∧
        (∀ c, s.restoreFault x (e.args.getD 0 0) src = .ok c → Runs (.restore e src) s (fun t => Completes t e 7 0 ∧
          t.stepState x = 0 ∧ t.cf x Reg.CTX_LAST_CKPT_STEP = c.step.toNat ∧ (t.ctx x).dataNextDue = some c.dataNext ∧
          (∀ p ∈ (Reg.ctxTrainFields.filter isRo).zip c.block, p.1 ≠ Reg.CTX_STEP_STATE → p.1 ≠ Reg.CTX_LAST_CKPT_STEP →
            t.cf x p.1 = p.2 % 2 ^ p.1.width) ∧
          (t.ctx x).restoredLanes = (lanePairs c.bays).map (fun p => (64 * p.1 + p.2, restoredLane c p.1 p.2)))))
/-- REPLAY_ARM arms a step that is two ahead or later and whose predecessor's commit does not already wait (09 R268). -/
def Sys2Proof.Machine.SaysReplayArm : Prop :=
  ∀ (e : Entry) (s : State), let x := e.ctx.val
    let n := entryArg e 0
    let late := n < s.cf x Reg.CTX_STEP + 2 ∨ (n = s.cf x Reg.CTX_STEP + 2 ∧ ∃ t ∈ (s.ctx x).tickets, t.op.toNat = 3)
    s.admits 8 e = true →
      (late → Runs (.replayArm e) s (fun t => Completes t e 8 0x9103 ∧ t.ctxs = s.ctxs)) ∧
      (¬ late → Runs (.replayArm e) s (fun t => Completes t e 8 0 ∧
        t.ctx x = { s.ctx x with replayArm := some (BitVec.ofNat 64 n) }))
/-- REPLAY needs idle replay bays enough for the bays it names and the checkpoint before the recorded step; it runs the step's
programs from that checkpoint and answers the first entry that differs from the record, or that none does (09 R269). That a
missing checkpoint answers 0x9002, and no bays 0x9105, is the model's choice (log entry 112). -/
def Sys2Proof.Machine.SaysReplay : Prop :=
  ∀ (e : Entry) (run : List ReplayEvent) (s : State), let x := e.ctx.val
    let k := s.ctx x
    let bays := maskList 64 (s.cf x Reg.CTX_REPLAY_BAYS)
    let named := maskList 64 (entryArg e 0)
    let can := k.bayMap ≠ [] ∧ named.length ≤ bays.length ∧ named.length ≤ 4 ∧
      ∀ b ∈ bays, ∀ p, k.programOn b = some p → p.started = false
    let base := (s.ckpts ++ s.drains).find? (fun c => decide (c.ctx.val = x) && decide (c.step + 1 = k.traceStep))
    s.admits 9 e = true →
      (¬ can → Runs (.replay e run) s (fun t => Completes t e 9 0x9105 ∧ t.ctxs = s.ctxs)) ∧
      (can → base = none → Runs (.replay e run) s (fun t => Completes t e 9 0x9002 ∧ t.ctxs = s.ctxs)) ∧
      (∀ c, can → base = some c → Runs (.replay e run) s (fun t => t.ctxs = s.ctxs ∧
        match replayFinding k (entryArg e 0) ((s.started 9 e).replayRun x c named bays run) with
        | some _ => Completes t e 9 0x9101
        | none => Completes t e 9 (if k.traceTruncated then 0x9104 else 0x9102)))
/-- Checkpoints are captured and secured, restored to an Idle context, and a recorded step is replayed (09 R263 to R269). -/
def Obligations.CheckpointsAndReplay : Prop := SaysCheckpointsSecured ∧ SaysRestore ∧ SaysReplayArm ∧ SaysReplay
/-- CHECKPOINT_CAPTURE_START, CHECKPOINT_SECURED, RESTORE, REPLAY_ARM and REPLAY complete with their own effect: the first due
checkpoint is taken, the oldest is secured, an Idle context is restored, a later step is armed, and a replay ends with a record
of what it found (09 R263, R264, R266 to R269). -/
def Obligations.CheckpointRowsComplete : Prop :=
  (∀ (x : CtxId) (s : State) before d after, splitDue (s.ctx x.val).captures = some (before, d, after) →
    s.marksReady x.val (d.step.toNat + 1) = true → d.drain = false →
    s.droneInRange x.val (s.cf x.val Reg.CTX_STATE_BASE) (s.cf x.val Reg.CTX_STATE_BYTES) = false →
    s.poisonMet x.val (s.ckptReads x.val) [] = none →
    ∃ t, exec (.checkpointCaptureStart ⟨x, true⟩) s = .next t ∧
      (t.ctx x.val).captures.length = (s.ctx x.val).captures.length ∧
      ∃ c, (∃ d' ∈ (t.ctx x.val).captures, d'.taken = some c) ∧ c.step = d.step) ∧
  (∀ (x : CtxId) (s : State) d c rest, (s.ctx x.val).captures = d :: rest → d.taken = some c → s.ckptArrived x d = true →
    ∃ t, exec (.checkpointSecured x) s = .next t ∧ (t.ctx x.val).captures = rest ∧ (x, c.step) ∈ t.ckptIndex) ∧
  (∀ (e : Entry) (src : RestoreSource) (s : State) c, s.admits 7 e = true → s.ctxState e.ctx.val = stIdle →
    s.restoreFault e.ctx.val (e.args.getD 0 0) src = .ok c →
    ∃ t, exec (.restore e src) s = .next t ∧ Completes t e 7 0 ∧ (t.ctx e.ctx.val).dataNextDue = some c.dataNext) ∧
  (∀ (e : Entry) (s : State), s.admits 8 e = true → s.cf e.ctx.val Reg.CTX_STEP + 2 < entryArg e 0 →
    ∃ t, exec (.replayArm e) s = .next t ∧ Completes t e 8 0 ∧
      (t.ctx e.ctx.val).replayArm = some (BitVec.ofNat 64 (entryArg e 0))) ∧
  (∀ (e : Entry) (run : List ReplayEvent) (s : State) c, s.admits 9 e = true →
    (s.ctx e.ctx.val).bayMap ≠ [] → (maskList 64 (entryArg e 0)).length ≤ (maskList 64 (s.cf e.ctx.val Reg.CTX_REPLAY_BAYS)).length →
    (maskList 64 (entryArg e 0)).length ≤ 4 →
    (∀ b ∈ maskList 64 (s.cf e.ctx.val Reg.CTX_REPLAY_BAYS), ∀ p, (s.ctx e.ctx.val).programOn b = some p → p.started = false) →
    (s.ckpts ++ s.drains).find? (fun c => decide (c.ctx.val = e.ctx.val) && decide (c.step + 1 = (s.ctx e.ctx.val).traceStep)) = some c →
    ∃ t, exec (.replay e run) s = .next t ∧ t.tier1 = s.tier1 ∧
      (Completes t e 9 0x9101 ∨ Completes t e 9 0x9102 ∨ Completes t e 9 0x9104))

/-! ## The Truss (10 R273 to R293) -/

/-- Context x was Running and is on its way to Stopped with a code: its cores issue no more. -/
def Sys2Proof.Machine.Halts (s t : State) (x code : Nat) : Prop :=
  s.ctxState x = stRunning → t.ctxState x = stSwitching ∧ (t.ctx x).goal = some (.stop (BitVec.ofNat 16 code)) ∧
    ∀ kc ∈ s.ctxCores x, (t.core kc.2).run ≠ .running
/-- A port has gone down or failed with a code. -/
def Sys2Proof.Machine.PortLost (t : State) (p state code : Nat) : Prop :=
  t.rd (Reg.trsPort p) Reg.TRS_LINK_STATE = state ∧ t.rd (Reg.trsPort p) Reg.TRS_LANES_GOOD = 0 ∧
    t.rd (Reg.trsPort p) Reg.TRS_STATUS = code
/-- Training, discovery, link keys and retrains of a port: the state and lanes they give, and the code of each way they fail
(10 R273, R274, R278, R280, R283; 15 R412, R413). -/
def Obligations.TrussLinks : Prop :=
  ∀ (p : PortId) (s : State),
    let b := Reg.trsPort p.val
    let k := s.port p.val
    let st := s.rd b Reg.TRS_LINK_STATE
    (s.barOpen = true → s.checking (.port p) = false → s.objOn (.port p) = true → Runs (.portDisable p) s (fun t =>
      t.objOn (.port p) = false ∧ t.rd b Reg.TRS_LINK_STATE = 0 ∧ t.rd b Reg.TRS_LANES_GOOD = 0 ∧ t.port p.val = Port.start)) ∧
    (∀ lanes : BitVec 8,
      (st ≠ 1 → exec (.linkTrained p lanes) s = .next s) ∧
      (st = 1 → trainResult (s.rd b Reg.TRS_WIDTH) lanes.toNat = none → Runs (.linkTrained p lanes) s (fun t => PortLost t p.val 5 0x6001)) ∧
      (∀ r, st = 1 → trainResult (s.rd b Reg.TRS_WIDTH) lanes.toNat = some r → Runs (.linkTrained p lanes) s (fun t =>
        t.rd b Reg.TRS_LINK_STATE = r.1 ∧ t.rd b Reg.TRS_LANES_GOOD = r.2 ∧
        (s.rd b Reg.TRS_WIDTH = 0 ∧ r.1 = 3 → t.rd b Reg.TRS_STATUS = 0x6004)))) ∧
    (∀ low high : BitVec 4,
      (st ≠ 4 → exec (.retrainDone p low high) s = .next s) ∧
      (let good := trainResult (s.rd b Reg.TRS_WIDTH) ((high.toNat * 16 + low.toNat) &&& (255 - s.rd b Reg.TRS_LANE_CAL))
       let failed := s.within 1000000 (k.failTimes ++ [s.nowUs])
       (∀ r, st = 4 → good = some r → Runs (.retrainDone p low high) s (fun t =>
         t.rd b Reg.TRS_LINK_STATE = r.1 ∧ t.rd b Reg.TRS_LANES_GOOD = r.2)) ∧
       (st = 4 → good = none →
         (3 ≤ failed.length → Runs (.retrainDone p low high) s (fun t => PortLost t p.val 5 0x6003)) ∧
         (failed.length < 3 → Runs (.retrainDone p low high) s (fun t => t.rd b Reg.TRS_LINK_STATE = 4 ∧ t.retrains = s.retrains + 1 ∧
           (t.port p.val).failTimes = failed ∧ (t.port p.val).retry = k.retry))))) ∧
    (portUp s p.val = true → k.ctl = [] → k.retry.length < 2048 → Runs (.discoveryFlitSend p) s (fun t => t.regs = s.regs ∧
      ∃ f rest, (t.port p.val).out = k.out ++ f :: rest ∧ f.type = 2 ∧ f.seq = BitVec.ofNat 16 k.txSeq)) ∧
    (∀ (f : Discovery) (seq ack : BitVec 16), portUp s p.val = true →
      (seq.toNat ≠ (k.rxSeq + 1) % 65536 → Runs (.discoveryFlitReceive p ⟨seq, ack, f⟩) s (fun t => t.regs = s.regs ∧
        (t.port p.val).peerSeen = k.peerSeen ∧ (t.port p.val).rxSeq = k.rxSeq)) ∧
      (seq.toNat = (k.rxSeq + 1) % 65536 →
        (k.peerSeen = true → s.rd b Reg.TRS_PEER_IDENTITY ≠ f.identity.toNat → Runs (.discoveryFlitReceive p ⟨seq, ack, f⟩) s (fun t =>
          PortLost t p.val 0 0x6002)) ∧
        (k.peerSeen = false → f.addrValid = true → s.ownAddress = some f.address.toNat →
          Runs (.discoveryFlitReceive p ⟨seq, ack, f⟩) s (fun t => PortLost t p.val 0 0x1603)) ∧
        (k.peerSeen = false → f.addrValid = false ∨ s.ownAddress ≠ some f.address.toNat →
          Runs (.discoveryFlitReceive p ⟨seq, ack, f⟩) s (fun t => (t.port p.val).rxSeq = seq.toNat ∧
            (t.port p.val).peerSeen = true ∧ t.rd b Reg.TRS_PEER_IDENTITY = f.identity.toNat ∧ t.rd b Reg.TRS_PEER_PORT = f.port.val ∧
            t.flag b Reg.TRS_PEER_ADDR_VALID = f.addrValid ∧
            t.rd b Reg.TRS_PEER_ADDRESS = if f.addrValid then f.address.toNat else 0xFFFF)))) ∧
    (portUp s p.val = true → k.peerSeen = true →
      ((∀ f ∈ k.ctl, f.1 ≠ 3) → Runs (.linkKeyExchange p true) s (fun t =>
        (t.port p.val).keyed = true ∧ (t.port p.val).txGen = 0 ∧ (t.port p.val).rxGen = 0)) ∧
      Runs (.linkKeyExchange p false) s (fun t => PortLost t p.val 0 0x6009)) ∧
    (portUp s p.val = true → k.keyed = true → k.ctl = [] → k.retry.length < 2048 →
      let next (t : State) : Prop := (t.port p.val).txGen = k.txGen + 1 ∧ (t.port p.val).rxGen = k.rxGen ∧
        (k.nextClass = none → (t.port p.val).sealedCount = 0) ∧
        ∃ f rest, (t.port p.val).out = k.out ++ f :: rest ∧ f.type = 3 ∧ f.epoch = BitVec.ofNat 8 k.txGen
      Runs (.keyChangeFlit p) s next ∧ (k.rekeyDue = true ∨ 2 ^ 32 ≤ k.sealedCount → Runs (.linkRekey p) s next)) ∧
    (k.rekeyDue = false → k.sealedCount < 2 ^ 32 → exec (.linkRekey p) s = .next s) ∧
    (∀ cause, portUp s p.val = true →
      (s.retrainDue p.val cause = true → Runs (.retrain p cause) s (fun t =>
        t.rd b Reg.TRS_LINK_STATE = 4 ∧ t.rd b Reg.TRS_LANES_GOOD = 0 ∧ t.retrains = s.retrains + 1 ∧ (t.port p.val).retry = k.retry)) ∧
      (s.retrainDue p.val cause = false → exec (.retrain p cause) s = .next s))
/-- Flits: one that fails its codeword or its tag is counted and not taken; one in its turn is taken once, and adds the packets
that are whole in its class; one out of turn is not; a NAK resends what it does not acknowledge, in order, byte for byte (10
R277 to R279). -/
def Obligations.TrussFlits : Prop :=
  ∀ (p : PortId) (s : State), portUp s p.val = true →
    let b := Reg.trsPort p.val
    let k := s.port p.val
    let same (t : State) : Prop := (t.port p.val).rxSeq = k.rxSeq ∧ (t.port p.val).rx = k.rx ∧ (t.port p.val).inbound = k.inbound ∧
      (t.port p.val).rxGen = k.rxGen
    (∀ (f : Flit) (tagOk : Bool), Runs (.flitReceive p f .uncorrectable tagOk) s (fun t => same t ∧
      t.rd b Reg.TRS_FEC_UNCORRECTED = satInc Reg.TRS_FEC_UNCORRECTED.width (s.rd b Reg.TRS_FEC_UNCORRECTED) % 2 ^ Reg.TRS_FEC_UNCORRECTED.width)) ∧
    (∀ (f : Flit) (fec : EccOutcome), fec ≠ .uncorrectable →
      (∀ tagOk : Bool, 3 < f.type.toNat ∨ f.cls = 3 ∨ tagOk = false ∨ epochOk k f.epoch.toNat = false →
        Runs (.flitReceive p f fec tagOk) s (fun t => same t ∧
          t.rd b Reg.TRS_TAG_FAILS = satInc Reg.TRS_TAG_FAILS.width (s.rd b Reg.TRS_TAG_FAILS) % 2 ^ Reg.TRS_TAG_FAILS.width)) ∧
      (f.type.toNat ≤ 3 → f.cls ≠ 3 → f.nak = false → epochOk k f.epoch.toNat = true →
        (f.type = 0 ∨ f.seq.toNat ≠ (k.rxSeq + 1) % 65536 → Runs (.flitReceive p f fec true) s same) ∧
        (f.type = 1 → f.seq.toNat = (k.rxSeq + 1) % 65536 → Runs (.flitReceive p f fec true) s (fun t =>
          let bs := listAt [] k.rx f.cls.toNat ++ f.payload
          let out := parsePackets bs.length bs
          (t.port p.val).rxSeq = f.seq.toNat ∧ (t.port p.val).inbound = k.inbound ++ out.1 ∧
          (t.port p.val).rx = k.rx.set f.cls.toNat out.2 ∧ (t.port p.val).dropping = false)) ∧
        (f.type = 3 → f.seq.toNat = (k.rxSeq + 1) % 65536 → Runs (.flitReceive p f fec true) s (fun t =>
          (t.port p.val).rxSeq = f.seq.toNat ∧ (t.port p.val).rxGen = k.rxGen + 1 ∧ (t.port p.val).rxOld = true ∧
          (t.port p.val).inbound = k.inbound)))) ∧
    (∀ ack : BitVec 16, k.ctl = [] → k.nextClass = none → Runs (.nakResend p ack) s (fun t =>
      let left := k.retry.filter (fun e => !ackedBy ack.toNat e.1.seq.toNat)
      (t.port p.val).retry = left.map (fun e => (e.1, e.2 + 1)) ∧ (t.port p.val).out = k.out ++ left.map (fun e => e.1) ∧
      (t.port p.val).txSeq = k.txSeq ∧
      t.rd b Reg.TRS_RETRIES = min (s.rd b Reg.TRS_RETRIES + left.length) (2 ^ Reg.TRS_RETRIES.width - 1) % 2 ^ Reg.TRS_RETRIES.width))
/-- Routes, channels and packets: an entry is written whole; a channel opens for the object that owns it with the identity of its
far end, and not to an address of two; a packet leaves by its route and is held until acknowledged, or halts its context with
0x6008; a packet that its channel accepts is delivered once and acknowledged; unacknowledged packets are resent after 500 µs
until the channel is down; a frame entry takes its words (10 R284 to R291; 01 R22, R23). -/
def Obligations.TrussPackets : Prop :=
  ∀ (s : State),
    (∀ (dest : BitVec 16) (v : BitVec 32), s.barOpen = true → Runs (.routeTableWrite dest v) s (fun t =>
      let b := Reg.route dest.toNat
      t.rd b Reg.ROUTE_PORT_SET = bitsAt v.toNat 0 16 ∧ t.rd b Reg.ROUTE_ORDERED_PORT = bitsAt v.toNat 16 4 ∧
      t.rd b Reg.ROUTE_VALID = bitsAt v.toNat 20 1 ∧ t.rd b Reg.ROUTE_HOPS = bitsAt v.toNat 24 8)) ∧
    (∀ (k : ChannelKey) (peer : BitVec 64),
      let mine := s.ownAddress = some k.src.toNat
      ∀ far x, far = (if mine then k.dest.toNat else k.src.toNat) → x = (if mine then k.srcCtx.toNat else k.ctx.toNat) →
        let owned := s.channelQueues x k ≠ [] ∨ s.exchangeOwns x k = true
        (far ∉ s.conflicts → (∀ kv ∈ s.identities, kv.1 = far → kv.2 = peer) →
          (owned → Runs (.channelOpen k peer) s (fun t =>
            ∃ c, t.channel k = some c ∧ c.down = false ∧ (¬mine → c = freshChannel k true))) ∧
          (¬ owned → Runs (.channelOpen k peer) s (fun t => t.channels = s.channels))) ∧
        (∀ kv, s.identities.find? (fun e => decide (e.1 = far)) = some kv → kv.2 ≠ peer → Runs (.channelOpen k peer) s (fun t =>
          far ∈ t.conflicts ∧ t.channels = s.channels ∧ t.identities = s.identities ∧
          ∀ q ∈ s.channelQueues x k, t.rd (Reg.wwy x q) Reg.WWY_STATUS = 0x6006))) ∧
    (∀ pk : Packet,
      let s0 := { s with outbox := s.outbox.erase pk }
      (s.ownAddress ≠ some pk.key.dest.toNat →
        (s.windowShut pk = true → exec (.packetSend pk) s = .next s) ∧
        (∀ x, s.windowShut pk = false → s0.portFor pk = none → packetOwner pk = some x → Runs (.packetSend pk) s (fun t =>
          t.outbox = s.outbox.erase pk ∧ Halts s t x 0x6008)) ∧
        (∀ p, s.windowShut pk = false → s0.portFor pk = some p → pk.type ≠ 7 → pk.type ≠ 1 → Runs (.packetSend pk) s (fun t =>
          t.outbox = s.outbox.erase pk ∧ ∃ c, t.channel pk.key = some c ∧
            c.unacked = (s.channelOr pk.key pk.ordered).unacked ++ [(pk, 0, s.nowUs)]))) ∧
      (s.ownAddress = some pk.key.dest.toNat →
        (pk.type = 7 → ∀ c, s.channel (reverseKey pk.key) = some c → Runs (.packetReceive pk) s (fun t =>
          t.channel (reverseKey pk.key) = some { c with unacked := c.unacked.filter (fun e => decide (e.1.seq ≠ pk.seq)) } ∧
          t.delivered = s.delivered)) ∧
        (badGranule pk = true → Runs (.packetReceive pk) s (fun t => t.delivered = s.delivered ∧ t.outbox = s.outbox ∧
          t.channels = s.channels)) ∧
        (s.ctxOn pk.key.ctx.toNat = true → pk.type.toNat < 4 →
          ((s.channelOr pk.key pk.ordered).take pk.seq.toNat = none → Runs (.packetReceive pk) s (fun t => t.delivered = s.delivered ∧
            t.outbox = s.outbox ∧ t.channels = s.channels)) ∧
          (∀ c, (s.channelOr pk.key pk.ordered).take pk.seq.toNat = some c →
            Runs (.packetReceive pk) s (fun t => t.delivered = s.delivered ++ [pk] ∧ t.channel pk.key = some c ∧
              ∃ a, t.outbox = s.outbox ++ [a] ∧ a.type = 7 ∧ a.key = reverseKey pk.key ∧ a.seq = pk.seq))))) ∧
    (∀ (k : ChannelKey) (n : BitVec 32) (c : Channel), s.channel k = some c → c.down = false →
      let late (e : Packet × Nat × Nat) : Prop := e.1.seq = n ∧ e.2.2 + 500 ≤ s.nowUs
      ((∀ e ∈ c.unacked, ¬ late e) → exec (.packetResendTimeout k n) s = .next s) ∧
      ((∃ e ∈ c.unacked, late e ∧ 8 ≤ e.2.1) → Runs (.packetResendTimeout k n) s (fun t =>
        (∃ d, t.channel k = some d ∧ d.down = true ∧ d.unacked = []) ∧ Halts s t k.srcCtx.toNat 0x6007)) ∧
      ((∃ e ∈ c.unacked, late e) → (∀ e ∈ c.unacked, late e → e.2.1 < 8) → s.routeValid k.dest.toNat = true →
        (c.ordered = true → (s.orderedRoute k.dest.toNat).isSome = true) →
        Runs (.packetResendTimeout k n) s (fun t => ∃ d, t.channel k = some d ∧ d.down = false ∧
          d.unacked.map (fun e => e.1) = c.unacked.map (fun e => e.1) ∧
          ∀ e ∈ c.unacked, (late e → (e.1, e.2.1 + 1, s.nowUs) ∈ d.unacked) ∧ (¬ late e → e ∈ d.unacked)))) ∧
    (∀ (level : Fin 11) (ws : List Word), Runs (.frameEntryUpdate level ws) s (fun t =>
      let seq (u : State) (i : Nat) : Nat := mapGet 0 u.memberSeq i
      mapGet [] t.frames level.val = frameWords level.val ws ∧ t.regs = s.regs ∧
      (mapGet [] s.frames level.val ≠ frameWords level.val ws → seq t (355 + level.val) = (seq s (355 + level.val) + 2) % 2 ^ 64) ∧
      (mapGet [] s.frames level.val = frameWords level.val ws → seq t (355 + level.val) = seq s (355 + level.val)) ∧
      ∀ i, i ≠ 355 + level.val → i ≠ 354 → seq t i = seq s i))

/-! ## The gradient exchange (11 R299 to R321) -/

/-- The engine works on the open step's bucket closes: one more close is taken in order, and one past the last bucket halts its
context with 0x2109, and one that reads poisoned data with 0x3003; a late bucket is excluded and counted; an unfinished shard at the cutoff, or an abort packet of the open
attempt, aborts it (11 R302, R315, R317). -/
def Obligations.ExchangeBuckets : Prop :=
  ∀ (x : CtxId) (s : State), s.trains x.val = true → s.stepState x.val = 1 →
    let e := s.exch x.val
    let total := s.cf x.val Reg.CTX_BUCKETS
    (e.fillCount = 0 → exec (.bucketClose x) s = .next s) ∧
    (0 < e.fillCount → total ≤ e.closed → Runs (.bucketClose x) s (fun t => (t.exch x.val).fillCount = e.fillCount - 1 ∧
      (t.exch x.val).closed = e.closed ∧ Halts s t x.val 0x2109)) ∧
    (∀ code g, 0 < e.fillCount → e.closed < total → s.droneInRange x.val (s.slotBase x.val e.closed) (s.bucketBytes x.val) = false →
      s.poisonMet x.val (s.closeReads x.val e.closed) [] = some (code, g) →
      Runs (.bucketClose x) s (fun t => Halts s t x.val code ∧ (t.exch x.val).closed = e.closed)) ∧
    (0 < e.fillCount → e.closed < total → s.droneInRange x.val (s.slotBase x.val e.closed) (s.bucketBytes x.val) = false →
      s.poisonMet x.val (s.closeReads x.val e.closed) [] = none →
      Runs (.bucketClose x) s (fun t => (t.exch x.val).fillCount = e.fillCount - 1 ∧ (t.exch x.val).closed = e.closed + 1 ∧
        (s.exchanges x.val = false → ((t.exch x.val).bucket e.closed).closed = true ∧
          (t.exch x.val).doneSignals = e.doneSignals + if e.closed + 1 < total then 1 else 0))) ∧
    (∀ b : BitVec 16, s.exchanges x.val = true → s.cf x.val Reg.CTX_DEADLINE_US ≠ 0 → 0 < (e.bucket b.toNat).arrived →
      (e.bucket b.toNat).closed = false → (e.bucket b.toNat).excluded = false →
      Runs (.bucketDeadlineExpire x b) s (fun t => ((t.exch x.val).bucket b.toNat).excluded = true ∧ (t.exch x.val).late = e.late + 1)) ∧
    (∀ b : BitVec 16, s.cf x.val Reg.CTX_DEADLINE_US = 0 ∨ (e.bucket b.toNat).arrived = 0 ∨ (e.bucket b.toNat).closed = true →
      exec (.bucketDeadlineExpire x b) s = .next s) ∧
    (s.exchanges x.val = true → s.shardComplete x.val = false → e.merged = false → e.abort = none → Runs (.cutoffExpire x) s (fun t =>
      (t.exch x.val).abort = some 0x3204 ∧ t.outbox.length = s.outbox.length + (s.otherRanks x.val).length)) ∧
    (s.shardComplete x.val = true → exec (.cutoffExpire x) s = .next s) ∧
    (∀ step attempt code, e.totals = none → e.abort = none →
      (step.toNat = s.stepNo x.val → attempt.toNat = s.cf x.val Reg.CTX_ATTEMPT →
        exec (.abortPacketReceive x step attempt code) s = .next (s.setExch x.val { e with abort := some code })) ∧
      (step.toNat ≠ s.stepNo x.val ∨ attempt.toNat ≠ s.cf x.val Reg.CTX_ATTEMPT →
        exec (.abortPacketReceive x step attempt code) s = .next s))
/-- Packets of the exchange: one of a later step or attempt is kept, of an earlier one dropped; a reduce packet out of sequence
and a summary of another scale halt with 0x3205; the summary passes once through the ranks, and the last rank's is the totals;
a package that halted after its merge still passes the totals on; the all-gather sends the package's own piece once signalled; a
chunk with another STEP, HOP or LS_EXP halts with 0x3205, one that fails its check with 0x3002, and one of another attempt is
dropped (11 R306, R311 to R313, R318 to R320; 16 R436). -/
def Obligations.ExchangePackets : Prop :=
  ∀ (x : CtxId) (s : State), s.trains x.val = true →
    let e := s.exch x.val
    let n := s.ranks x.val
    let turn (step w attempt : Nat) : Turn := s.turnOf x.val step w attempt
    (∀ p : ReducePacket, 1 < n →
      (turn p.step.toNat 32 p.attempt.toNat = .past → exec (.reducePacketReceive x p) s = .next s) ∧
      (turn p.step.toNat 32 p.attempt.toNat = .later →
        exec (.reducePacketReceive x p) s = .next (s.setExch x.val { e with early := e.early ++ [p] })) ∧
      (turn p.step.toNat 32 p.attempt.toNat = .now → e.abort = none → s.exchanges x.val = true → ∀ b h j,
        s.expectedBucket x.val p.bucket.toNat = some b →
        (s.workItems x.val)[((s.workItems x.val).filter (fun hj => decide (hj.1 = 0))).length + (e.bucket b).arrived]? = some (h, j) →
        let g := segAt n (s.rank x.val) h
        let good := p.step.toNat = s.stepNo x.val % 2 ^ 32 ∧ p.bucket.toNat = b ∧ p.hop.toNat + 1 = h ∧ p.segment.toNat = g ∧
          p.lsExp = s.stepEByte x.val ∧ p.firstBlock.toNat = 224 * j ∧
          p.blocks.length = min 224 (segLen (s.blocksPerBucket x.val) n g - 224 * j)
        (good → Runs (.reducePacketReceive x p) s (fun t => ((t.exch x.val).bucket b).arrived = (e.bucket b).arrived + 1 ∧
          (t.exch x.val).closed = e.closed)) ∧
        (¬good → Runs (.reducePacketReceive x p) s (fun t => Halts s t x.val 0x3205)))) ∧
    (∀ r : Summary, 1 < n → s.stepState x.val = 5 → e.merged = true → r.broadcast = true → r.step.toNat = s.stepNo x.val →
      r.attempt.toNat = s.cf x.val Reg.CTX_ATTEMPT → Runs (.summaryReceive x r) s (fun t => t.exch x.val = e ∧
        t.outbox.length = s.outbox.length + if s.rank x.val + 2 < n then 1 else 0)) ∧
    (∀ r : Summary, 1 < n → (s.stepState x.val ≠ 5 ∨ e.merged = false ∨ r.broadcast = false) →
      (turn r.step.toNat 64 r.attempt.toNat = .past → exec (.summaryReceive x r) s = .next s) ∧
      (turn r.step.toNat 64 r.attempt.toNat = .later →
        exec (.summaryReceive x r) s = .next (s.setExch x.val { e with earlySummaries := e.earlySummaries ++ [r] })) ∧
      (turn r.step.toNat 64 r.attempt.toNat = .now → e.abort = none →
        (r.lsExp ≠ s.stepEByte x.val → Runs (.summaryReceive x r) s (fun t => Halts s t x.val 0x3205)) ∧
        (r.step.toNat = s.stepNo x.val → r.lsExp = s.stepEByte x.val → r.buckets = (s.ownSummary x.val).buckets →
          (r.broadcast = false → exec (.summaryReceive x r) s = .next (s.setExch x.val { e with soFar := some r })) ∧
          (r.broadcast = true → Runs (.summaryReceive x r) s (fun t => (t.exch x.val).totals = some r ∧
            t.outbox.length = s.outbox.length + if s.rank x.val + 2 < n then 1 else 0))))) ∧
    (∀ o, s.stepState x.val = 1 → e.merged = false → e.abort = none → (s.ctx x.val).step = some o → o.stopEvent = none → s.shardComplete x.val = true →
      (e.soFar = none → s.rank x.val ≠ 0 → exec (.summaryMerge x) s = .next s) ∧
      (∀ m, (e.soFar = none ∧ s.rank x.val = 0 ∧ m = s.ownSummary x.val) ∨ (∃ a, e.soFar = some a ∧ m = joinSummary a (s.ownSummary x.val)) →
        Runs (.summaryMerge x) s (fun t => (t.exch x.val).merged = true ∧ (t.exch x.val).soFar = none ∧
          (t.exch x.val).totals = (if s.rank x.val + 1 = n then some { m with broadcast := true } else e.totals) ∧
          t.outbox.length = s.outbox.length + if s.rank x.val + 1 = n ∧ n ≤ 1 then 0 else 1))) ∧
    (0 < e.gatherCount → s.stepState x.val = 2 → e.gathering = false →
      let piece := (s.workcopyAt x.val + s.rank x.val * s.pieceBytes x.val, s.pieceBytes x.val)
      s.droneInRange x.val piece.1 piece.2 = false →
      (∀ code g, s.poisonMet x.val [piece] [] = some (code, g) → Runs (.gatherStart x) s (fun t => Halts s t x.val code)) ∧
      (s.poisonMet x.val [piece] [] = none → Runs (.gatherStart x) s (fun t => (t.exch x.val).gatherCount = e.gatherCount - 1 ∧
        (n ≤ 1 → s.rank x.val = 0 → (t.exch x.val).gathering = false ∧ (t.exch x.val).doneSignals = e.doneSignals + 1)))) ∧
    (e.gatherCount = 0 ∨ s.stepState x.val ≠ 2 → exec (.gatherStart x) s = .next s) ∧
    (∀ c : Chunk, 1 < n → s.stepState x.val = 1 ∨ s.stepState x.val = 2 →
      let here := c.step.toNat = s.stepNo x.val % 2 ^ 32
      let mine := c.attempt.toNat = s.cf x.val Reg.CTX_ATTEMPT
      let right := here ∧ c.hop.toNat + 1 < n ∧ (c.owner.toNat + c.hop.toNat + 1) % n = s.rank x.val ∧ c.lsExp = s.stepEByte x.val
      (here → ¬mine → (s.stepState x.val = 2 ∨ attemptAhead c.attempt.toNat (s.cf x.val Reg.CTX_ATTEMPT) = false) →
        exec (.gatherChunkReceive x c) s = .next s) ∧
      (¬here ∨ mine → ¬right → Runs (.gatherChunkReceive x c) s (fun t => Halts s t x.val 0x3205)) ∧
      (mine → right → s.stepState x.val = 1 →
        exec (.gatherChunkReceive x c) s = .next (s.setExch x.val { e with earlyChunks := e.earlyChunks ++ [c] })) ∧
      (mine → right → s.stepState x.val = 2 → granuleChecks c.data ≠ c.checks → Runs (.gatherChunkReceive x c) s (fun t =>
        Halts s t x.val 0x3002)) ∧
      (mine → right → s.stepState x.val = 2 → granuleChecks c.data = c.checks → Runs (.gatherChunkReceive x c) s (fun t =>
        (t.exch x.val).gathered = e.gathered + 1 ∧ (t.exch x.val).heldScales = e.heldScales)))

/-! ## Streams (12 R324 to R351) -/

/-- The stream commands: each row, its opcode, and whether its partner is ready. -/
def Sys2Proof.Machine.streamRow (x : CtxId) (r : StreamRec) (ready : Bool) (i : Option HostRef → Instr) (op : Nat) : Prop :=
  (i = .streamOpen x r ∧ op = 0x01) ∨ (i = .streamAppend x r ∧ op = 0x02) ∨ (i = .streamCommit x r ∧ op = 0x03) ∨
  (i = .streamMask x r ∧ op = 0x04) ∨ (i = .streamNext x r ∧ op = 0x05) ∨ (i = .streamPause x r ∧ op = 0x06) ∨
  (i = .streamResume x r ∧ op = 0x07) ∨ (i = .streamClose x r ∧ op = 0x08) ∨ (i = .streamExport x r ready ∧ op = 0x09) ∨
  (i = .streamReceive x r ∧ op = 0x0A) ∨ (i = .streamAdapterLoad x r ∧ op = 0x10) ∨ (i = .streamGrammarLoad x r ∧ op = 0x11) ∨
  (i = .streamGrammarDrop x r ∧ op = 0x12)
/-- A stream command executes with P as a program's record, and as a host's with a final record of RESULT and RESULT_VALUE as
well (12 R327, 18 R493). -/
def Sys2Proof.Machine.StreamRuns (i : Option HostRef → Instr) (x : CtxId) (op : Nat) (r : StreamRec) (s : State) (code value : Nat)
    (P : State → Prop) : Prop :=
  Runs (i none) s P ∧ ∀ h : HostRef, let e := s.streamEntry x op r h
    s.admits 0x0A e = true → Runs (i (some h)) s (fun t => P t ∧ ∃ k ∈ (t.ring e.ring.val).records, k.cmdId = e.cmdId ∧
      k.final = true ∧ k.op = 0x0A ∧ k.status = BitVec.ofNat 16 code ∧ k.comp0 = BitVec.ofNat 64 value)
/-- The table is enabled, the command has no Reserved bit set and its stream is one of the table's. -/
def Sys2Proof.Machine.State.takesStream (s : State) (x : CtxId) (op : Nat) (r : StreamRec) : Prop :=
  s.tableOn x.val = true ∧ streamReserved op r = false ∧ r.stream.toNat < s.tf x.val Reg.ST_STREAMS
/-- A stream command is refused with 0x5301 before anything else where its table is disabled, a Reserved bit of it is set or its
stream is outside the table; then with the code of its first failed check; a refused command changes nothing of the engine
(12 R328). -/
def Obligations.StreamRefusals : Prop :=
  ∀ (x : CtxId) (r : StreamRec) (ready : Bool) (s : State),
    let st := r.stream.toNat
    let same (t : State) : Prop := t.ctxs = s.ctxs ∧ t.tier1 = s.tier1 ∧ t.pegs = s.pegs ∧ t.outbox = s.outbox
    let none' (op code : Nat) : Prop := ∀ i, streamRow x r ready i op → StreamRuns i x op r s code 0 same
    (∀ op, ¬s.takesStream x op r → none' op 0x5301) ∧
    (∀ op, op = 0x01 ∨ op = 0x0A → s.takesStream x op r → s.ent x.val st Ent.STATE ≠ 0 → none' op 0x5302) ∧
    (∀ op, op = 0x02 ∨ op = 0x03 ∨ op = 0x04 ∨ op = 0x06 ∨ op = 0x09 → s.takesStream x op r → s.live x.val st = false → none' op 0x5302) ∧
    (∀ op, op = 0x06 ∨ op = 0x09 → s.takesStream x op r → s.live x.val st = true → s.ent x.val st Ent.IN_STEP = 1 → none' op 0x5303) ∧
    (s.takesStream x 0x07 r → s.ent x.val st Ent.STATE ≠ 3 → none' 0x07 0x5302) ∧
    (s.takesStream x 0x08 r → s.ent x.val st Ent.STATE = 0 ∨ s.ent x.val st Ent.STATE = 5 → none' 0x08 0x5302) ∧
    (∀ op, op = 0x01 ∨ op = 0x0A → s.takesStream x op r → s.ent x.val st Ent.STATE = 0 → 8 < draftLen r → none' op 0x5305) ∧
    (s.takesStream x 0x11 r → s.grammarLoaded x.val (r.count.toNat % 64) = true → none' 0x11 0x5307) ∧
    (s.takesStream x 0x12 r → s.grammarLoaded x.val (r.count.toNat % 64) = false → none' 0x12 0x5307)
/-- What each stream command does when none of its checks fails: its result value and what changes in the engine (Table 12-4;
12 R333, R337, R338, R341, R344, R345, R347 to R349, R351). -/
def Obligations.StreamCommands : Prop :=
  ∀ (c : CtxId) (r : StreamRec) (s : State),
    let x := c.val
    let st := r.stream.toNat
    let n := r.count.toNat
    let ent (f : Field) : Nat := s.ent x st f
    let opens (t : State) (k : Nat) : Prop := t.opens x = k % 2 ^ Reg.ST_STREAMS_OPEN.width
    let start (t : State) : Prop := opens t (s.opens x + 1) ∧ mapGet 0 (t.eng x).opened st = s.nowUs ∧ mapGet 0 (t.eng x).committed st = s.nowUs
    let usable := ent Ent.STATE = 0 ∧ draftLen r ≤ 8 ∧ (useGrammar r = true → s.grammarLoaded x (argGrammar r) = true) ∧
      (useAdapter r = true → (s.currentAdapter x (argSlot r)).isSome = true)
    (s.takesStream c 0x01 r → usable → 0 < n → n + 9 ≤ s.tf x Reg.ST_MAX_TOKENS → s.badRange x (argList r) (4 * n) = false →
      badToken (s.listTokens x (argList r) n) = false → Runs (.streamOpen c r none) s start) ∧
    (s.takesStream c 0x0A r → usable → StreamRuns (.streamReceive c r) c 0x0A r s 0 0 start) ∧
    (let side := r.flags.toNat % 2
     let w := ent (Ent.written side)
     s.takesStream c 0x02 r → s.live x st = true → ceilDiv (w + n) 16 - ceilDiv w 16 ≤ s.available x side → 0 < n → n ≤ 2048 →
      (side = 1 → s.pool x 1 ≠ 0) → w + n ≤ s.tf x Reg.ST_MAX_TOKENS → w + n ≤ ent Ent.COMMIT + (if ent Ent.STATE = 2 then 8 else 2048) →
      StreamRuns (.streamAppend c r) c 0x02 r s 0 (w + n) (fun t => t.opens x = s.opens x ∧
        ∀ k b, k < 2 → (s.eng x).held k b ≤ (t.eng x).held k b ∧ (k ≠ side → (t.eng x).held k b = (s.eng x).held k b))) ∧
    (let old := ent Ent.COMMIT
     let fresh := old + n - max old (ent Ent.PROMPT_TOKENS)
     let toks := s.listTokens x (argList r) fresh
     s.takesStream c 0x03 r → s.live x st = true → n ≤ 2049 → old ≤ loPart r.arg2 → loPart r.arg2 ≤ old + n →
      (ent Ent.STATE = 2 → n ≤ ent Ent.DRAFT_LEN + 1) → (ent Ent.STATE ≠ 2 → old + n ≤ ent Ent.PROMPT_TOKENS + 1) →
      old + n ≤ s.tf x Reg.ST_MAX_TOKENS → s.badRange x (argList r) (4 * fresh) = false → badToken toks = false →
      (ent Ent.GRAMMAR_ON = 1 → (s.gWalk x (s.grammarAt x (ent Ent.GRAMMAR)).1 (ent Ent.GSTATE) toks).length = toks.length) →
      StreamRuns (.streamCommit c r) c 0x03 r s 0 (old + n) (fun t => t.opens x = s.opens x ∧
        mapGet 0 (t.eng x).committed st = if n = 0 then mapGet 0 (s.eng x).committed st else s.nowUs)) ∧
    (let g := (s.grammarAt x (ent Ent.GRAMMAR)).1
     let row := maskRowBytes (s.gHead x g).vocab
     let toks := s.listTokens x (argList r) n
     s.takesStream c 0x04 r → s.live x st = true → ent Ent.GRAMMAR_ON ≠ 0 → n ≤ 8 → badToken toks = false →
      s.badRange x (argList r) (4 * n) = false → s.badRange x (argOut r) ((n + 1) * row) = false →
      StreamRuns (.streamMask c r) c 0x04 r s 0 (s.gWalk x g (ent Ent.GSTATE) toks).length (fun t => t.eng x = s.eng x ∧
        ∀ a, (∀ j, j < (n + 1) * row → s.regionAddr x (argOut r + j) ≠ a) → mapGet 0 t.tier1 a = mapGet 0 s.tier1 a)) ∧
    (s.takesStream c 0x05 r → 0 < n → n ≤ 4096 → 0 < loPart r.arg1 → loPart r.arg1 ≤ 16384 → hiPart r.arg1 ≤ loPart r.arg1 →
      s.badRange x (argOut r) (16 * n) = false →
      StreamRuns (.streamNext c r) c 0x05 r s 0 (s.nextList x (loPart r.arg1) (hiPart r.arg1) n).length (fun t => t.eng x = s.eng x ∧
        t.opens x = s.opens x ∧ (s.nextList x (loPart r.arg1) (hiPart r.arg1) n).length ≤ n)) ∧
    (let s1 := (s.cutTo x st 0 (ent Ent.COMMIT)).cutTo x st 1 (ent Ent.COMMIT)
     let rs := s1.chanterRanges x st
     let len := ceilDiv (sumOf (rs.map (fun q => q.2))) 4068 * 4096
     s.takesStream c 0x06 r → s.live x st = true → ent Ent.IN_STEP ≠ 1 → s.gaps x len ≠ [] →
      (∀ q ∈ rs, s1.droneInRange x q.1 q.2 = false) → s.poisonMet x rs [] = none → StreamRuns (.streamPause c r) c 0x06 r s 0 0 (fun t =>
        mapGet 0 (t.eng x).pausedAt st = s.nowUs + 1 ∧
        ∃ p, (t.eng x).pauses = (s.eng x).pauses ++ [p] ∧ p.stream = st ∧ p.len = len ∧ p.off + p.len ≤ s.tf x Reg.ST_PAUSE_BYTES)) ∧
    (∀ p, s.takesStream c 0x07 r → ent Ent.STATE = 3 → ceilDiv (ent Ent.WRITTEN_C) 16 ≤ s.available x 0 → ent Ent.TTL_LEFT_S ≠ 0 →
      s.pauseOf x st = some p → s.bytesAt (s.pauseAddr x p.off).1 (s.pauseAddr x p.off).2 p.len = sealedBytes p.draw p.len →
      StreamRuns (.streamResume c r) c 0x07 r s 0 0 (fun t => t.pauseOf x st = none ∧ t.opens x = s.opens x)) ∧
    (s.takesStream c 0x08 r → ent Ent.STATE ≠ 0 → ent Ent.STATE ≠ 5 → StreamRuns (.streamClose c r) c 0x08 r s 0 0 (fun t =>
      opens t (s.opens x - 1) ∧ t.pauseOf x st = none)) ∧
    (let dev := bitsAt r.arg1.toNat 0 16
     s.takesStream c 0x09 r → s.live x st = true → ent Ent.IN_STEP ≠ 1 → s.routeValid dev = true →
      (ent Ent.WRITTEN_D = 0 ∨ s.spanReach dev = true) →
      (s.spanReach dev = true ∨ ∀ q ∈ s.chanterRanges x st, s.droneInRange x q.1 q.2 = false) →
      s.poisonMet x (s.exportRanges x st) [] = none →
      StreamRuns (.streamExport c r true) c 0x09 r s 0 0 (fun t => t.eng x = s.eng x ∧
        ∃ l, t.outbox = s.outbox ++ l ∧ l ≠ [] ∧ ∀ k ∈ l, k.type = 5 ∧ k.key.dest = BitVec.ofNat 16 dev)) ∧
    (∀ i, s.takesStream c 0x10 r → argOut r ≠ 0 → argOut r % 512 = 0 → argList r + argOut r ≤ s.regionBytes x →
      (let recs := (upto 4).map (fun j => s.adapter x (4 * (n % 256) + j))
       let last := mapGet 0 (s.eng x).lastVersion (n % 256)
       let v := if last = 65535 then 1 else last + 1
       firstIdx (fun a : Adapter => decide (a.version = 0)) recs 0 = some i → (∀ a ∈ recs, a.version ≠ v) →
        StreamRuns (.streamAdapterLoad c r) c 0x10 r s 0 (handleOf (n % 256) v) (fun t =>
          mapGet 0 (t.eng x).lastVersion (n % 256) = v ∧ t.adapter x (4 * (n % 256) + i) = ⟨v, true, 0, argList r, argOut r⟩))) ∧
    (s.takesStream c 0x11 r → s.grammarLoaded x (n % 64) = false → s.grammarValid x (argList r) (argOut r) = true →
      StreamRuns (.streamGrammarLoad c r) c 0x11 r s 0 0 (fun t => t.grammarAt x (n % 64) = (argList r, argOut r) ∧ t.tier1 = s.tier1)) ∧
    (s.takesStream c 0x12 r → s.grammarLoaded x (n % 64) = true →
      (∀ j, j < s.tf x Reg.ST_STREAMS → s.ent x j Ent.STATE = 0 ∨ s.ent x j Ent.GRAMMAR_ON ≠ 1 ∨ s.ent x j Ent.GRAMMAR ≠ n % 64) →
      StreamRuns (.streamGrammarDrop c r) c 0x12 r s 0 0 (fun t => t.grammarLoaded x (n % 64) = false ∧ t.tier1 = s.tier1))
/-- The engine takes the commands of CMD_PEG in order and signals DONE_PEG once for each that has a result; a paused stream
whose time to live is 0 expires, which is counted, and an acknowledged export ends (12 R327, R347, R349). -/
def Obligations.StreamEngine : Prop :=
  ∀ (x : CtxId) (s : State),
    let k := s.ctx x.val
    (k.cmdCount ≤ k.cmdNext ∨ s.tableOn x.val = false → exec (.streamCommandSubmit x) s = .next s) ∧
    (k.cmdNext < k.cmdCount → s.tableOn x.val = true →
      let a := s.tf x.val Reg.ST_CMD_BASE + 32 * (k.cmdNext % s.tf x.val Reg.ST_CMD_SLOTS)
      let w (i : Nat) : Nat := s.natAt (.tier1 x.val) (a + 8 * i) 8
      Runs (.streamCommandSubmit x) s (fun t => (t.ctx x.val).cmdNext = k.cmdNext + 1 ∧
        (streamReserved (w 0 % 256) (recOf (w 0) (w 1) (w 2)) = true → t.pegSignals = s.pegSignals ++
          [⟨s.pegOf x.val (s.tf x.val Reg.ST_DONE_PEG), 1, none⟩] ∧ t.eng x.val = s.eng x.val))) ∧
    (∀ st : BitVec 16, s.tableOn x.val = true → st.toNat < s.tf x.val Reg.ST_STREAMS →
      (s.dstate = 0 → s.ent x.val st.toNat Ent.STATE = 3 → s.ent x.val st.toNat Ent.TTL_LEFT_S = 0 → Runs (.streamExpire x st) s (fun t =>
        t.pauseOf x.val st.toNat = none ∧ t.opens x.val = s.opens x.val ∧
        t.tf x.val Reg.ST_EXPIRED = satInc Reg.ST_EXPIRED.width (s.tf x.val Reg.ST_EXPIRED) % 2 ^ Reg.ST_EXPIRED.width)) ∧
      (s.dstate ≠ 0 ∨ s.ent x.val st.toNat Ent.STATE ≠ 3 ∨ s.ent x.val st.toNat Ent.TTL_LEFT_S ≠ 0 → exec (.streamExpire x st) s = .next s) ∧
      (s.ent x.val st.toNat Ent.STATE = 5 → Runs (.exportAck x st) s (fun t =>
        t.opens x.val = (s.opens x.val - 1) % 2 ^ Reg.ST_STREAMS_OPEN.width ∧ t.pauseOf x.val st.toNat = none)) ∧
      (s.ent x.val st.toNat Ent.STATE ≠ 5 → exec (.exportAck x st) s = .next s))

/-! ## Memory tiers and the teacher store (13) -/

/-- A command still open is answered: its ring holds a final record of it with this status. -/
def Sys2Proof.Machine.Answered (t : State) (k : Ticket) (status : Nat) : Prop :=
  ∃ r ∈ (t.ring k.ring.val).records, r.cmdId = k.cmdId ∧ r.ctx = k.ctx ∧ r.op = k.op ∧ r.final = true ∧ r.status = BitVec.ofNat 16 status
/-- The counter of a register is one higher, or at its top. -/
def Sys2Proof.Machine.Counted (s t : State) (b : Nat) (f : Field) : Prop := t.rd b f = satInc f.width (s.rd b f) % 2 ^ f.width
/-- Granule reads count and poison by what ECC finds; the patrol reads the next granule of its stack; the refresh band follows
the temperature; bays over a stack of 100 °C or more, or with an island of 105 °C or more, lose 25 MHz down to 300, and get it
back below 98 °C; at 108 °C a stack trips and its half's contexts halt with 0x8401 (13 R357 to R362; 19 R509). -/
def Obligations.DramWatch : Prop :=
  ∀ (s : State),
    (∀ a : BitVec 39, let b := Reg.safDram (stackOf a.toNat)
      exec (.dchainTrainingAccess a .clean) s = .next s ∧
      Runs (.dchainTrainingAccess a .corrected) s (fun t => Counted s t b Reg.DRAM_CE_COUNT ∧ t.corrected = s.corrected + 1 ∧ t.tier1 = s.tier1 ∧
        t.poison = s.poison) ∧
      Runs (.dchainTrainingAccess a .uncorrectable) s (fun t => Counted s t b Reg.DRAM_UE_COUNT ∧ t.tier1 = s.tier1 ∧
        ∀ g, mapGet false t.poison g = if g = a.toNat / granule then true else mapGet false s.poison g)) ∧
    (∀ (a : BitVec 39) (o : EccOutcome) (raced : Bool), let g := stackOf a.toNat
      let n := mapGet 0 s.patrol g
      (s.dstate ≠ 0 ∨ a.toNat / granule ≠ g * 2 ^ 27 + n → exec (.patrolRead a o raced) s = .next s) ∧
      (s.dstate = 0 → a.toNat / granule = g * 2 ^ 27 + n → Runs (.patrolRead a o raced) s (fun t =>
        mapGet 0 t.patrol g = (n + 1) % 2 ^ 27 ∧ t.tier1 = s.tier1 ∧
        mapGet false t.poison (a.toNat / granule) = ((decide (o = .uncorrectable) && !raced) || mapGet false s.poison (a.toNat / granule)) ∧
        (n + 1 = 2 ^ 27 → Counted s t (Reg.safDram g) Reg.DRAM_PATROL_PASSES)))) ∧
    (∀ (g : StackId) (c : Nat), let b := Reg.safDram g.val
      Runs (.dramTempBandChange g c) s (fun t => t.rd b Reg.DRAM_TEMP_C = min c 255 ∧
        (95 ≤ c → t.rd b Reg.DRAM_REFRESH_BAND = 2) ∧ (85 ≤ c → c ≤ 93 → t.rd b Reg.DRAM_REFRESH_BAND = 1) ∧
        (c ≤ 83 → t.rd b Reg.DRAM_REFRESH_BAND = 0)) ∧
      (c < 108 → exec (.stackTrip g c) s = .next s) ∧
      (108 ≤ c → Runs (.stackTrip g c) s (fun t => t.flag b Reg.DRAM_TRIPPED = true ∧ mapGet false t.stackHot g.val = true ∧
        ∀ x ∈ s.holders (fun y => decide (y / 32 = g.val / 4)), Halts s t x 0x8401)) ∧
      (s.barOpen = true → Runs (.trippedClear g) s (fun t => t.rd b Reg.DRAM_TRIPPED = 0 ∧ t.stackHot = s.stackHot)) ∧
      Runs (.thermalTripRelease (.stack g)) s (fun t => mapGet false t.stackHot g.val = false ∧ t.regs = s.regs)) ∧
    (∀ c, Runs (.thermalTripRelease (.core c)) s (fun t => mapGet false t.coreHot c.val = false ∧ t.regs = s.regs)) ∧
    (∀ islands, Runs (.throttleStep islands) s (fun t =>
      (∀ g < 8, let h := s.rd (Reg.safDram g) Reg.DRAM_TEMP_C
        (100 ≤ h → h < 103 → ∀ b ∈ stackBays g, t.thermal g b = max 300 (s.thermal g b - 25)) ∧
        (h < 98 → ∀ b ∈ halfBays (g / 4), t.thermal g b =
          if s.thermal g b < s.target b then min (s.target b) (s.thermal g b + 25) else s.thermal g b)) ∧
      (∀ b < 64, let h := s.bayHeat islands b
        (105 ≤ h → t.thermal 8 b = max 300 (s.thermal 8 b - 25)) ∧ (98 ≤ h → h < 105 → t.thermal 8 b = s.thermal 8 b))))
/-- A teacher is installed shard by shard into free slots and read back, or its slots enter state 5 with the code; it is bound
to a context, staged, unbound; erased to zeros; a failed verify pass enters state 4 and halts the bound context; each is
refused by Procedure 13-1 where its slots or its manifest are not fit (13 R366 to R373). -/
def Obligations.TeacherSlots : Prop :=
  ∀ (s : State),
    (∀ (e : Entry), s.admits 0x20 e = true →
      let h := entryArg e 0 % 8
      let n := entryArg e 0 / 16 % 16
      let m := s.bytesAt (.host (entryArg e 1)) 0 (entryArg e 2)
      let st (k : Nat) : Nat := s.rd (Reg.nvwSlot k) Reg.SLOT_STATE
      (n = 0 ∨ 8 < h + n ∨ (∃ k ∈ slotRange h n, st k ≠ 0 ∧ st k ≠ 5) → Runs (.teacherInstall e) s (fun t => Completes t e 0x20 0x4401 ∧
        t.installs = s.installs)) ∧
      (n ≠ 0 → h + n ≤ 8 → (∀ k ∈ slotRange h n, st k = 0 ∨ st k = 5) →
        let recs := (upto (mBlocks m)).map (fun i => LedgerRec.wear (Fin.ofNat 8 ((4096 * h + i) / 4096)) (Fin.ofNat 4096 (4096 * h + i))
          (s.wearOf (4096 * h + i) + 1)) ++ slotRecs 2 h n (slotRange h n)
        Runs (.teacherInstall e) s (fun t => match s.manifestFault m n with
          | some _ => Completes t e 0x20 0x4402 ∧ t.installs = s.installs
          | none =>
            if (upto (mBlocks m)).any (fun i => decide (3000 ≤ s.wearOf (4096 * h + i))) then Completes t e 0x20 0x4403 ∧ t.installs = s.installs
            else if s.ledgerShort recs then Completes t e 0x20 0xA006 ∧ t.installs = s.installs
            else (∀ k ∈ slotRange h n, t.rd (Reg.nvwSlot k) Reg.SLOT_STATE = 2) ∧ mapGet [] t.manifests h = m ∧
              ∃ w, t.installs = s.installs ++ [w] ∧ w.head.val = h ∧ w.slots = n ∧ w.manifest = m ∧ w.programmed = []))) ∧
    (∀ (n : SlotId) (w : Install), s.installOf n.val = some w → 0 < w.slots → (s.ring w.ticket.ring.val).closing = false →
      let b := Reg.nvwSlot n.val
      let failed (code : Nat) (t : State) : Prop := t.installOf n.val = none ∧ t.rd b Reg.SLOT_STATE = 5 ∧ t.rd b Reg.SLOT_STATUS = code ∧
        Answered t w.ticket code
      (∀ (i : BitVec 32) bs, i.toNat < mBlocks w.manifest → i.toNat ∉ w.programmed →
        let sealed := (s.hostStores bs).bytesAt (.host w.source) (i.toNat * sealedShardBytes) sealedShardBytes
        Runs (.shardProgrammed n i .badDigest bs) s (failed 0x4404) ∧ Runs (.shardProgrammed n i .readFailed bs) s (failed 0x4407) ∧
        Runs (.shardProgrammed n i .programmed bs) s (fun t =>
          if shardGood w.manifest i.toNat sealed then ∃ v, t.installOf n.val = some v ∧ v.programmed = w.programmed ++ [i.toNat] ∧
            t.rd b Reg.SLOT_SHARDS_DONE = (s.rd b Reg.SLOT_SHARDS_DONE + 1) % 2 ^ Reg.SLOT_SHARDS_DONE.width
          else failed 0x4404 t)) ∧
      (w.programmed.length < mBlocks w.manifest → ∀ ok, exec (.installReadbackDone n ok) s = .next s) ∧
      (mBlocks w.manifest ≤ w.programmed.length → Runs (.installReadbackDone n false) s (failed 0x4404) ∧
        Runs (.installReadbackDone n true) s (fun t => t.installOf n.val = none ∧ t.rd b Reg.SLOT_STATE = 3 ∧ t.rd b Reg.SLOT_STATUS = 0 ∧
          t.rd b Reg.SLOT_MANIFEST_ID = mId w.manifest % 2 ^ Reg.SLOT_MANIFEST_ID.width ∧ Answered t w.ticket 0))) ∧
    (∀ (n : SlotId), let b := Reg.nvwSlot n.val
      let x := s.slotCtx n.val
      (n ∈ s.staging → s.ctxOn x = true → s.ctxState x ≠ stTearing →
        let stops (ok : Bool) (code : Nat) : Prop := Runs (.stagingDone n ok) s (fun t => n ∉ t.staging ∧
          t.objOn (.slot n) = s.objOn (.slot n) ∧ t.rd b Reg.SLOT_STATUS = code)
        (s.rd b Reg.SLOT_STATE = 3 → s.stageGood n.val = true → Runs (.stagingDone n true) s (fun t => n ∉ t.staging ∧
          t.objOn (.slot n) = true ∧ t.rd b Reg.SLOT_STATUS = 0)) ∧
        (∀ ok, s.rd b Reg.SLOT_STATE ≠ 3 → stops ok 0x1901) ∧
        (∀ ok, s.rd b Reg.SLOT_STATE = 3 → ok = false ∨ s.stageGood n.val = false → stops ok 0x1906)) ∧
      (∀ ok, n ∈ s.staging → s.ctxOn x = false ∨ s.ctxState x = stTearing → Runs (.stagingDone n ok) s (fun t => n ∉ t.staging ∧
        t.objOn (.slot n) = s.objOn (.slot n) ∧ t.rd b Reg.SLOT_STATUS = 0x1902)) ∧
      (n ∉ s.staging → ∀ ok, exec (.stagingDone n ok) s = .next s) ∧
      (s.barOpen = true → s.checking (.slot n) = false → s.objOn (.slot n) = true →
        ((∃ p ∈ (s.ctx x).programs, p.decl.nvw = true) → Runs (.nvwSlotDisable n) s (fun t => t.objOn (.slot n) = true ∧
          t.rd b Reg.SLOT_STATUS = 0x1907)) ∧
        ((∀ p ∈ (s.ctx x).programs, p.decl.nvw = false) → Runs (.nvwSlotDisable n) s (fun t => t.objOn (.slot n) = false ∧
          t.rd b Reg.SLOT_STATUS = 0))) ∧
      (∀ k, s.erasures.find? (fun y => decide (y.head.val = n.val)) = some k → (s.ring k.ticket.ring.val).closing = false →
        Runs (.eraseDone n) s (fun t => (∀ j ∈ s.headSlots n.val, t.rd (Reg.nvwSlot j) Reg.SLOT_STATE = 0) ∧ Answered t k.ticket 0 ∧
          ∀ a, mapGet 0 t.nvw a = if a / slotBytes ∈ s.headSlots n.val then 0 else mapGet 0 s.nvw a)) ∧
      (s.rd b Reg.SLOT_FIRST_SLOT ≠ n.val → ∀ p q, exec (.verifyPass n p q) s = .next s) ∧
      (s.rd b Reg.SLOT_FIRST_SLOT = n.val → s.rd b Reg.SLOT_STATE = 3 ∨ s.rd b Reg.SLOT_STATE = 4 →
        exec (.verifyPass n true true) s = .next s ∧
        (s.objOn (.slot n) = true → s.rd b Reg.SLOT_STAGE_BYTES ≠ 0 → Runs (.verifyPass n true false) s (fun t =>
          t.rd b Reg.SLOT_STATUS = 0x4406 ∧ Halts s t x 0x4406)) ∧
        Runs (.verifyPass n false true) s (fun t => t.ctxs = s.ctxs ∧ ∀ k ∈ s.headSlots n.val, t.rd (Reg.nvwSlot k) Reg.SLOT_VERIFY_PASSES =
          (s.rd (Reg.nvwSlot k) Reg.SLOT_VERIFY_PASSES + 1) % 2 ^ Reg.SLOT_VERIFY_PASSES.width) ∧
        Runs (.verifyPass n false false) s (fun t => t.rd b Reg.SLOT_STATUS = 0x4405 ∧
          (∀ k ∈ s.headSlots n.val, t.rd (Reg.nvwSlot k) Reg.SLOT_STATE = 4) ∧ (s.objOn (.slot n) = true → Halts s t x 0x4405)))) ∧
    (∀ (e : Entry), s.admits 0x21 e = true →
      let h := entryArg e 0 % 8
      let b := Reg.nvwSlot h
      let st := s.rd b Reg.SLOT_STATE
      (s.rd b Reg.SLOT_FIRST_SLOT ≠ h ∨ s.flag b Reg.SLOT_ENABLE = true ∨ st < 3 ∨ 5 < st → Runs (.teacherErase e) s (fun t =>
        Completes t e 0x21 0x4401 ∧ t.nvw = s.nvw ∧ t.erasures = s.erasures)) ∧
      (s.rd b Reg.SLOT_FIRST_SLOT = h → s.flag b Reg.SLOT_ENABLE = false → 3 ≤ st → st ≤ 5 →
        Runs (.teacherErase e) s (fun t =>
          if s.ledgerShort (slotRecs 1 h (s.rd b Reg.SLOT_SLOTS) (s.headSlots h)) then Completes t e 0x21 0xA006
          else (∀ k ∈ s.headSlots h, t.rd (Reg.nvwSlot k) Reg.SLOT_STATE = 1) ∧
            t.erasures = s.erasures ++ [⟨Fin.ofNat 8 h, entryTicket e 0x21⟩])))
/-- A checkpoint store takes a capture of its own source into its empty or older half, granule by granule, and holds the
checkpoint with the last; it refuses any other with 0x1A03. An HDM access goes to the window whose committed decoder holds its
host physical address: outside the protected areas it reads and writes the region, inside them it is blocked and counted, and
a read of poisoned data halts with 0x3001. Clearing ENABLE ends both, and the host's lines of the window are back-invalidated;
a decoder commits a range that its window agrees with (13 R375 to R379; 16 R436; 18 R486). -/
def Obligations.StoresAndWindows : Prop :=
  ∀ (s : State),
    (∀ n : StoreId, let b := Reg.ckptStore n.val
      (s.barOpen = true → s.checking (.store n) = false → s.objOn (.store n) = true → Runs (.ckptStoreDisable n) s (fun t =>
        t.objOn (.store n) = false ∧ t.rd b Reg.STORE_STATUS = 0 ∧ t.rd b Reg.STORE_STEP_A = 0 ∧ t.rd b Reg.STORE_STEP_B = 0 ∧
        ∀ i ∈ t.incoming, i.store ≠ n)) ∧
      ∀ r : Capture, let half := s.rd b Reg.STORE_BYTES / 2
        let at_ := s.rd b Reg.STORE_BASE + s.captureHalf n.val * half
        let taken := if s.captureHalf n.val = 0 then Reg.STORE_STEP_A else Reg.STORE_STEP_B
        let other := if s.captureHalf n.val = 0 then Reg.STORE_STEP_B else Reg.STORE_STEP_A
        let fits := s.objOn (.store n) = true ∧ r.device.toNat = s.rd b Reg.STORE_SOURCE_DEVICE ∧
          r.ctx.toNat = s.rd b Reg.STORE_SOURCE_CONTEXT ∧ r.bytes.toNat ≤ half
        let granules := ceilDiv r.bytes.toNat 512
        let i : Incoming := ⟨n, s.captureHalf n.val, r.step, r.device, r.ctx, at_, r.first, granules, granules⟩
        let ahead (pk : Packet) : Prop := pk.type = 4 ∧ isGranuleBody pk.body = true ∧ (i.place pk).isSome = true
        (¬fits → Runs (.captureReceive n r) s (fun t => t.tier1 = s.tier1 ∧ t.incoming = s.incoming ∧
          t.rd b Reg.STORE_REFUSED = (s.rd b Reg.STORE_REFUSED + 1) % 2 ^ Reg.STORE_REFUSED.width ∧
          ∃ k, t.outbox = s.outbox ++ [k] ∧ k.type = 4 ∧ k.key.dest = BitVec.ofNat 16 r.device.toNat ∧ k.body = leBytes 4 0x1A03)) ∧
        (fits → Runs (.captureReceive n r) s (fun t => t.outbox = s.outbox ∧ ∃ (m : State) (early : List Packet),
          (∀ pk, pk ∈ early ↔ pk ∈ s.delivered ∧ ahead pk) ∧ t = early.foldl (fun a pk => a.deliver pk) m ∧
          m.tier1 = s.tier1 ∧ m.incoming = s.incoming.filter (fun j => decide (j.store ≠ n)) ++ [i] ∧
          (∀ pk, pk ∈ m.delivered ↔ pk ∈ s.delivered ∧ ¬ ahead pk) ∧ m.rd b taken = 0 ∧ m.rd b other = s.rd b other))) ∧
    (∀ (pk : Packet) (i : Incoming) (rest : List Incoming) (a : Nat), s.incoming = i :: rest → pk.type = 4 →
      isGranuleBody pk.body = true → i.place pk = some a →
      let b := Reg.ckptStore i.store.val
      let t := s.deliver pk
      t.delivered = s.delivered ∧
      (∀ c, mapGet 0 t.tier1 c = if a ≤ c ∧ c < a + 512 then pk.body.getD (c - a) 0 else mapGet 0 s.tier1 c) ∧
      (i.left ≤ 1 → t.incoming = rest ∧ t.rd b Reg.STORE_CAPTURES = (s.rd b Reg.STORE_CAPTURES + 1) % 2 ^ Reg.STORE_CAPTURES.width ∧
        t.rd b (if i.half = 0 then Reg.STORE_STEP_A else Reg.STORE_STEP_B) = i.step.toNat % 2 ^ Reg.STORE_STEP_A.width) ∧
      (1 < i.left → t.regs = s.regs ∧ { i with left := i.left - 1 } ∈ t.incoming)) ∧
    (∀ w : HdmId, let b := Reg.hdm w.val
      let x := s.rd b Reg.HDM_CONTEXT
      (s.barOpen = true → s.checking (.hdm w) = false → s.objOn (.hdm w) = true → Runs (.hdmDisable w) s (fun t =>
        t.objOn (.hdm w) = false ∧ t.rd b Reg.HDM_STATUS = 0 ∧ t.tier1 = s.tier1 ∧
        ∀ l, s.meetsRegion x (s.rd b Reg.HDM_OFFSET) (s.rd b Reg.HDM_BYTES) hostLine (l * hostLine) = true →
          mapGet false t.hostHeld l = false ∧ (mapGet false s.hostHeld l = true → l ∈ t.backInv))) ∧
      (∀ r : DecoderRange, let bad := s.objOn (.hdm w) = true ∧ r.size.toNat ≠ s.rd b Reg.HDM_BYTES
        (bad → Runs (.hdmDecoderCommit w r) s (fun t => mapGet false t.decoderErr w.val = true ∧ t.decoders = s.decoders)) ∧
        (¬bad → Runs (.hdmDecoderCommit w r) s (fun t => mapGet false t.decoderErr w.val = false ∧
          mapGet (0, 0) t.decoders w.val = (r.base.toNat, r.size.toNat))))) ∧
    (∀ (p : CxlId) (a : BitVec 52) (acc : HostAccess), s.cxlMode p.val ≠ 2 ∨ s.windowAt a.toNat (accessBytes acc) = none →
      exec (.hdmHostAccess p a acc) s = .next s) ∧
    (∀ (p : CxlId) (a : BitVec 52) (n w off : Nat), s.cxlMode p.val = 2 → s.windowAt a.toNat n = some (w, off) →
      let b := Reg.hdm w
      let x := s.rd b Reg.HDM_CONTEXT
      let o := s.rd b Reg.HDM_OFFSET + off
      let shut := meetsAny (o, n) (s.protectedAreas x)
      (s.flag b Reg.HDM_ENABLE = true ∧ off + n ≤ s.rd b Reg.HDM_BYTES ∧
        ∃ base, (w, base, s.rd b Reg.HDM_BYTES) ∈ s.decoders ∧ a.toNat = base + off) ∧
      (∀ k : Fin 4097, n = k.val →
        ((shut || s.droneInRange x o n) = true → Runs (.hdmHostAccess p a (.read k)) s (fun t => t.reply = none ∧ t.tier1 = s.tier1 ∧
          t.rd b Reg.HDM_BLOCKED_READS = (s.rd b Reg.HDM_BLOCKED_READS + 1) % 2 ^ Reg.HDM_BLOCKED_READS.width)) ∧
        ((shut || s.droneInRange x o n) = false →
          (s.poisonIn x o n ≠ [] → Runs (.hdmHostAccess p a (.read k)) s (fun t => t.reply = none ∧ Halts s t x 0x3001)) ∧
          (s.poisonIn x o n = [] → Runs (.hdmHostAccess p a (.read k)) s (fun t => t.reply = some (s.bytesAt (.tier1 x) o n) ∧
            t.tier1 = s.tier1 ∧ t.regs = s.regs)))) ∧
      (∀ bs : List Byte, n = bs.length →
        (shut = true → Runs (.hdmHostAccess p a (.write bs)) s (fun t => t.tier1 = s.tier1 ∧
          t.rd b Reg.HDM_BLOCKED_WRITES = (s.rd b Reg.HDM_BLOCKED_WRITES + 1) % 2 ^ Reg.HDM_BLOCKED_WRITES.width)) ∧
        (shut = false → Runs (.hdmHostAccess p a (.write bs)) s (fun t => (s.poison = [] → t.regs = s.regs) ∧
          (∀ c, (∀ j, j < bs.length → s.regionAddr x (o + j) ≠ c) → mapGet 0 t.tier1 c = mapGet 0 s.tier1 c) ∧
          (∀ j, j < bs.length → (∀ i, j < i → i < bs.length → s.regionAddr x (o + i) ≠ s.regionAddr x (o + j)) →
            t.byteAt (.tier1 x) (o + j) = bs.getD j 0)))))

/-! ## Security (15 R408 to R428) -/

/-- ROTATE begins the next generation and its sweep, once at a time; a report is written whole with the nonce it was asked for; a
neighbour is a span neighbour while each report holds; an unlock token sets the scope and is counted, or is refused with its
first fault, and uses up the challenge either way; a vendor command revokes a key or raises a minimum version (15 R408 to R417,
R427; R406). -/
def Obligations.SecurityCommands : Prop :=
  ∀ (s : State), let k := Reg.jnrKeys
    (s.barOpen = true →
      (s.sweeping = true → Runs .rotate s (fun t => t.rd k Reg.KEYS_STATUS = 0x4301 ∧ t.keyGen = s.keyGen ∧ t.fresh = s.fresh)) ∧
      (s.sweeping = false → s.keyGen = 0xFFFFFFFF → Runs .rotate s (fun t => t.rd k Reg.KEYS_STATUS = 0x4302 ∧ t.keyGen = s.keyGen)) ∧
      (s.sweeping = false → s.keyGen ≠ 0xFFFFFFFF → Runs .rotate s (fun t => t.keyGen = (s.keyGen + 1) % 2 ^ 32 ∧ t.sweeping = true ∧
        t.rd k Reg.KEYS_STATUS = 0 ∧ t.rd k Reg.KEYS_SWEEP_BYTES = 0 ∧ t.fresh = [] ∧
        ∀ p : PortId, portUp s p.val = true → (t.port p.val).rekeyDue = true))) ∧
    (s.sweeping = false → exec .sweepEnd s = .next s) ∧
    (s.sweeping = true → Runs .sweepEnd s (fun t => t.sweeping = false ∧ t.keyGen = s.keyGen ∧ t.fresh = [] ∧
      t.flag Reg.hif Reg.HIF_EV_SECURITY = true ∧ t.rd k Reg.KEYS_SWEEP_BYTES = (2 ^ 39 - 512 * s.fresh.length) % 2 ^ Reg.KEYS_SWEEP_BYTES.width)) ∧
    (∀ e : Entry, s.admits 0x22 e = true → Runs (.attest e) s (fun t => Completes t e 0x22 0 ∧ t.tier1 = s.tier1 ∧ t.ctxs = s.ctxs ∧
      (∀ j, j < 32 → mapGet 0 t.hostMem (entryArg e 4 + 16 + j) = ((upto 4).flatMap (fun i => leBytes 8 (entryArg e i))).getD j 0) ∧
      ∀ a, a < entryArg e 4 ∨ entryArg e 4 + 12288 ≤ a → mapGet 0 t.hostMem a = mapGet 0 s.hostMem a)) ∧
    (∀ (p : PortId) (r : SpanReport), portUp s p.val = true →
      (s.reportHolds r = false → Runs (.attestReportReceive p r) s (fun t => t.flag (Reg.trsPort p.val) Reg.TRS_SPAN_OK = false ∧
        t.rd (Reg.trsPort p.val) Reg.TRS_STATUS = 0x4101)) ∧
      (∀ n, s.reportHolds r = true → s.slotUnder r.manifestId.toNat = some n → manifestBit (mapGet [] s.manifests n) 3 = true →
        (r.accepted = true → Runs (.attestReportReceive p r) s (fun t => t.flag (Reg.trsPort p.val) Reg.TRS_SPAN_OK = true ∧
          ∀ q : PortId, s.portAlive q.val = true →
            s.rd (Reg.trsPort q.val) Reg.TRS_PEER_IDENTITY = s.rd (Reg.trsPort p.val) Reg.TRS_PEER_IDENTITY →
            t.flag (Reg.trsPort q.val) Reg.TRS_SPAN_OK = true)) ∧
        (r.accepted = false → exec (.attestReportReceive p r) s = .next s))) ∧
    (∀ p : PortId,
      (s.flag (Reg.trsPort p.val) Reg.TRS_SPAN_OK = false → exec (.attestReportLapse p) s = .next s) ∧
      (s.flag (Reg.trsPort p.val) Reg.TRS_SPAN_OK = true → Runs (.attestReportLapse p) s (fun t =>
        t.flag (Reg.trsPort p.val) Reg.TRS_SPAN_OK = false ∧ t.rd (Reg.trsPort p.val) Reg.TRS_STATUS = 0x4101))) ∧
    (let spans := ∃ n ∈ s.enabledSlots, manifestBit (mapGet [] s.manifests n) 3 = true
     (¬spans → exec .spanReportSend s = .next s) ∧
     (spans → Runs .spanReportSend s (fun t => t.regs = s.regs ∧
      ∃ l, t.outbox = s.outbox ++ l ∧ l.length = s.spanPeers.length ∧ ∀ q ∈ l, q.type = 6))) ∧
    (∀ e : Entry, s.admits 0x23 e = true →
      let token := s.bytesAt (.host (entryArg e 0)) 0 (entryArg e 1)
      let d := Reg.jnrDebug
      Runs (.debugUnlock e) s (fun t => t.challenge = s.free ∧ match s.unlockFault token with
        | some code => Completes t e 0x23 code ∧ t.rd d Reg.DEBUG_STATUS = code % 2 ^ 16 ∧ t.rd d Reg.DEBUG_SCOPE = s.rd d Reg.DEBUG_SCOPE ∧
          t.meas3 = s.meas3
        | none => if s.ledgerShort [.counter 4 (s.rd d Reg.DEBUG_UNLOCKS + 1)] then Completes t e 0x23 0xA006 ∧ t.meas3 = s.meas3
          else Completes t e 0x23 0 ∧ t.rd d Reg.DEBUG_STATUS = 0 ∧
            t.rd d Reg.DEBUG_SCOPE = leNat ((token.drop 40).take 1) % 2 ^ Reg.DEBUG_SCOPE.width)) ∧
    (∀ e : Entry, s.admits 0x28 e = true →
      let bs := s.bytesAt (.host (entryArg e 0)) 0 (entryArg e 1)
      Runs (.vendorSigned e) s (fun t =>
        if Config.signatureVerifies bs = false then Completes t e 0x28 0x4001 ∧ t.revoked = s.revoked ∧ t.minVersion = s.minVersion
        else if s.revoked.testBit (Config.signingSlot bs).val then Completes t e 0x28 0x4002 ∧ t.revoked = s.revoked
        else match Config.vendorCommand bs with
          | (some slot, _) => Completes t e 0x28 0 ∧ t.revoked = s.revoked ||| 2 ^ slot.val
          | (none, kind, v) => t.revoked = s.revoked ∧
            if v % 65536 < mapGet 0 s.minVersion kind.val then Completes t e 0x28 0x4003 ∧ t.minVersion = s.minVersion
            else if s.ledgerShort [.minVersion kind (v % 65536)] then Completes t e 0x28 0xA006 ∧ t.minVersion = s.minVersion
            else Completes t e 0x28 0 ∧ mapGet 0 t.minVersion kind.val = v % 65536))

/-! ## Faults, fences and the self-test (16 R440 to R454) -/

/-- A fault is counted, logged at LOG_HEAD with its code, and halts its context; one that implicates a core suspects it, or
fences it at the limit; a retest clears or fences it; a slot's test is counted and a failure fences the free core; a test request
and a fence request are accepted or refused with 0x8104; the context on a fenced core's bay halts with 0x8005, or 0x8003 where
its quad degrades (16 R440 to R454, R458). -/
def Obligations.FaultsFencesAndTests : Prop :=
  ∀ (s : State), let safety := Reg.safSafety
    let head := s.rd safety Reg.SAF_LOG_HEAD
    let plus (t : State) (b : Nat) (f : Field) : Prop := t.rd b f = (s.rd b f + 1) % 2 ^ f.width
    let leaves (t : State) (x : Nat) : Prop := s.ctxState x = stRunning → t.ctxState x = stSwitching
    (∀ f : FaultEvent,
      (f.kind = .tier0Corrected → exec (.faultDetect f) s = .next { s with corrected := s.corrected + 1 }) ∧
      (f.kind ≠ .tier0Corrected → implicates f = false → Runs (.faultDetect f) s (fun t => plus t safety Reg.SAF_DATA_PATH_FAULTS ∧
        plus t safety Reg.SAF_LOG_HEAD ∧ fld (mapGet faultRecordReset t.faultLog (head % 256)) 0 16 = faultCode f.kind ∧
        Halts s t f.ctx.val (faultCode f.kind) ∧ t.fences = s.fences)) ∧
      (f.kind ≠ .tier0Corrected → implicates f = true → s.coreFence f.core.val = 0 → Runs (.faultDetect f) s (fun t =>
        plus t safety Reg.SAF_DATA_PATH_FAULTS ∧
        t.coreFence f.core.val = (if s.rd safety Reg.SAF_TRANSIENT_LIMIT ≤ s.recentTransients f.core.val then 2 else 1) ∧
        ∀ x i, s.place f.core.val = some (x, i) → leaves t x))) ∧
    (∀ c : CoreId, let bent := Reg.safBent (c.val / 17)
      (s.coreFence c.val ≠ 1 → ∀ ok, exec (.retestDone c ok) s = .next s) ∧
      (s.coreFence c.val = 1 →
        Runs (.retestDone c true) s (fun t => t.coreFence c.val = 0 ∧ plus t bent Reg.BENT_PASSES ∧ plus t safety Reg.SAF_TRANSIENTS ∧
          mapGet [] t.transients c.val = mapGet [] s.transients c.val ++ [s.nowUs] ∧ mapGet [] t.served c.val = []) ∧
        Runs (.retestDone c false) s (fun t => t.coreFence c.val = 2 ∧ plus t bent Reg.BENT_FAILS ∧ plus t safety Reg.SAF_FENCES))) ∧
    (∀ b : BentId, let bent := Reg.safBent b.val
      (272 ≤ s.freeOf b.val ∨ mapGet false s.migrating b.val = true → ∀ ok, exec (.slotEnd b ok) s = .next s) ∧
      (s.freeOf b.val < 272 → mapGet false s.migrating b.val = false →
        Runs (.slotEnd b true) s (fun t => plus t bent Reg.BENT_SLOTS ∧ plus t bent Reg.BENT_PASSES ∧ mapGet 0 t.slotAt b.val = s.nowUs) ∧
        Runs (.slotEnd b false) s (fun t => plus t bent Reg.BENT_SLOTS ∧ plus t bent Reg.BENT_FAILS ∧ t.coreFence (s.freeOf b.val) = 2)) ∧
      (s.flag bent Reg.BENT_UNCOVERED = false → ∀ ok, exec (.uncoveredTest b ok) s = .next s) ∧
      (∀ c, s.flag bent Reg.BENT_UNCOVERED = true → s.uncoveredNext b.val = some c →
        Runs (.uncoveredTest b true) s (fun t => plus t bent Reg.BENT_PASSES ∧ mapGet [] t.served c = [] ∧
          mapGet 0 t.uncovNext b.val = (c % 17 + 1) % 17) ∧
        Runs (.uncoveredTest b false) s (fun t => plus t bent Reg.BENT_FAILS ∧ t.coreFence c = 2))) ∧
    (s.barOpen = true → let c := s.rd Reg.safTest Reg.TEST_CORE
      let bad := 271 < c ∨ s.coreFence c = 2 ∨ s.coreFence c = 3 ∨ s.testAsked.isSome = true
      (bad → Runs .testRequestGo s (fun t => t.rd Reg.safTest Reg.TEST_STATUS = 0x8104 ∧ t.testAsked = s.testAsked)) ∧
      (¬bad → s.testEnd c = none → Runs .testRequestGo s (fun t => t.rd Reg.safTest Reg.TEST_STATUS = 0x8103 ∧ t.testAsked = none)) ∧
      (∀ us, ¬bad → s.testEnd c = some us → Runs .testRequestGo s (fun t => t.testAsked.map Fin.val = some c ∧
        t.flag Reg.safTest Reg.TEST_PENDING = true ∧
        t.rd Reg.safTest Reg.TEST_STATUS = if s.rd Reg.safTest Reg.TEST_DEADLINE_MS * 1000 < us then 0x8103 else 0))) ∧
    (s.barOpen = true → let c := s.rd safety Reg.SAF_FENCE_CORE
      let bad := 271 < c ∨ s.coreFence c = 2 ∨ s.coreFence c = 3
      (bad → Runs .fenceGo s (fun t => t.rd safety Reg.SAF_STATUS = 0x8104 ∧ t.fences = s.fences)) ∧
      (¬bad → Runs .fenceGo s (fun t => t.rd safety Reg.SAF_STATUS = 0 ∧ t.coreFence c = 2 ∧ plus t safety Reg.SAF_FENCES ∧
        ∀ x i, s.place c = some (x, i) →
          Halts s t x 0x8005 ∨ (s.flag (Reg.ctx x) Reg.CTX_ELASTIC = false ∧ Halts s t x 0x8003))))

/-! ## Live service and the Ledger (17 R463 to R473) -/

/-- Firmware, microcode and calibrations: each command is refused with the code of Table 17-2 in STATUS and in its record, or
takes effect; the Joiner's watchdog, its backlog and its telemetry are counted (17 R464 to R469; 10 R296). -/
def Obligations.LiveService : Prop :=
  ∀ (s : State), let j := Reg.jnrStatus
    let other := 1 - s.activeSlot
    let turned (e : Entry) (op code : Nat) (t : State) : Prop := Completes t e op code ∧ t.rd j Reg.JNR_STATUS = code % 2 ^ 16 ∧
      t.images = s.images ∧ t.calibs = s.calibs ∧ t.laneCals = s.laneCals
    (∀ e : Entry, let bs := s.bytesAt (.host (entryArg e 0)) 0 (entryArg e 1)
      (s.admits 0x24 e = true → Runs (.fwStage e) s (fun t => match s.imageFault 0 bs with
        | some code => turned e 0x24 code t
        | none => if s.ledgerShort [s.firmwareRecord] then turned e 0x24 0xA006 t
          else Completes t e 0x24 0 ∧ mapGet [] t.images other = bs ∧ t.slotValid other = true ∧ t.activeSlot = s.activeSlot)) ∧
      (s.admits 0x25 e = true →
        (s.slotValid other = false → Runs (.fwActivate e) s (turned e 0x25 0xA004)) ∧
        (s.slotValid other = true → Runs (.fwActivate e) s (fun t => if s.ledgerShort [s.firmwareRecord] then turned e 0x25 0xA006 t
          else Completes t e 0x25 0 ∧ t.activeSlot = other % 2 ∧ t.images = s.images))) ∧
      (s.admits 0x26 e = true → Runs (.ucodeStage e) s (fun t => match s.imageFault 1 bs with
        | some code => turned e 0x26 code t
        | none => if s.rd j Reg.JNR_UCODE_PENDING ≠ 0 then turned e 0x26 0xA002 t
          else if Config.resultClass bs ≠ Config.resultClass (mapGet [] s.images 2) ∧ s.enabledCtxs.any (fun x => s.trains x) = true
            then turned e 0x26 0xA005 t
          else if s.ledgerShort [s.firmwareRecord] then turned e 0x26 0xA006 t
          else Completes t e 0x26 0 ∧ mapGet [] t.images 3 = bs ∧ t.rd j Reg.JNR_UCODE_PENDING = s.unfencedCores % 2 ^ Reg.JNR_UCODE_PENDING.width))) ∧
    (∀ e : Entry, s.admits 0x27 e = true →
      let target := entryArg e 0 / 256 % 256
      (entryArg e 0 % 4 = 0 → target < 128 →
        let b := Reg.trsPort (target / 8)
        (s.rd b Reg.TRS_LANE_CAL ≠ 0 → Runs (.calibrateTrussLane e) s (turned e 0x27 0xA002)) ∧
        (s.rd b Reg.TRS_LANE_CAL = 0 → s.rd b Reg.TRS_LINK_STATE ≠ 2 ∨ s.rd b Reg.TRS_WIDTH = 1 →
          Runs (.calibrateTrussLane e) s (turned e 0x27 0xA003)) ∧
        (s.rd b Reg.TRS_LANE_CAL = 0 → s.rd b Reg.TRS_LINK_STATE = 2 → s.rd b Reg.TRS_WIDTH ≠ 1 → Runs (.calibrateTrussLane e) s (fun t =>
          if s.ledgerShort [.calibration 0 target] then turned e 0x27 0xA006 t else
          t.rd b Reg.TRS_LINK_STATE = 3 ∧ t.rd b Reg.TRS_LANE_CAL = 2 ^ (target % 8) ∧
          t.rd b Reg.TRS_LANES_GOOD = (if target % 8 < 4 then 0xF0 else 0x0F) ∧
          t.laneCals = s.laneCals ++ [((Fin.ofNat 16 (target / 8), Fin.ofNat 8 (target % 8)), entryTicket e 0x27)]))) ∧
      (entryArg e 0 % 4 = 1 → target < 128 →
        let d : CalTarget := .dram (Fin.ofNat 128 target)
        ((∃ c ∈ s.calibs, c.1 = d) → Runs (.calibrateDramChannel e) s (turned e 0x27 0xA002)) ∧
        ((∀ c ∈ s.calibs, c.1 ≠ d) → Runs (.calibrateDramChannel e) s (fun t => if s.ledgerShort [calRecord d] then turned e 0x27 0xA006 t
          else t.calibs = s.calibs ++ [(d, entryTicket e 0x27)] ∧ t.regs = s.regs))) ∧
      (entryArg e 0 % 4 = 2 → target < 4 →
        let d : CalTarget := .nvw (Fin.ofNat 4 target)
        ((∀ c ∈ s.calibs, c.1 ≠ d) →
          (stackBusy s target = true → Runs (.calibrateNvwStack e) s (turned e 0x27 0xA003)) ∧
          (stackBusy s target = false → Runs (.calibrateNvwStack e) s (fun t => if s.ledgerShort [calRecord d] then turned e 0x27 0xA006 t
            else t.calibs = s.calibs ++ [(d, entryTicket e 0x27)] ∧ t.regs = s.regs))))) ∧
    (∀ p l c, s.laneCals.find? (fun c => decide (c.1 = (p, l))) = some c → (s.ring c.2.ring.val).closing = false →
      Runs (.laneCalDone p l) s (fun t => let b := Reg.trsPort p.val
        Answered t c.2 0 ∧ t.rd b Reg.TRS_LANE_CAL = 0 ∧ (∀ d ∈ t.laneCals, d.1 ≠ (p, l)) ∧
        (s.rd b Reg.TRS_LANE_CAL ≠ 0 → s.rd b Reg.TRS_LINK_STATE = 3 → (s.port p.val).narrowed = true →
          t.rd b Reg.TRS_LINK_STATE = 2 ∧ t.rd b Reg.TRS_LANES_GOOD = 0xFF) ∧
        ((s.port p.val).narrowed = false → t.rd b Reg.TRS_LINK_STATE = s.rd b Reg.TRS_LINK_STATE ∧
          t.rd b Reg.TRS_LANES_GOOD = s.rd b Reg.TRS_LANES_GOOD))) ∧
    (∀ d c, s.calibs.find? (fun c => decide (c.1 = d)) = some c → (s.ring c.2.ring.val).closing = false →
      Runs (.calibrationDone d) s (fun t => Answered t c.2 0 ∧ (∀ k ∈ t.calibs, k.1 ≠ d) ∧ t.ledgerWait = s.ledgerWait ++ [[calRecord d]])) ∧
    Runs .joinerWatchdog s (fun t => t.rd j Reg.JNR_WATCHDOG_RESTARTS = (s.rd j Reg.JNR_WATCHDOG_RESTARTS + 1) % 2 ^ Reg.JNR_WATCHDOG_RESTARTS.width ∧
      t.activeSlot = if s.slotValid other then other % 2 else s.activeSlot) ∧
    (∀ (e : Entry) (op : BitVec 8),
      (isClass4 op.toNat = false → exec (.commandBusyTimeout e op) s = .next s) ∧
      (isClass4 op.toNat = true → (s.ring e.ring.val).closing = false → Runs (.commandBusyTimeout e op) s (fun t =>
        Completes t e op.toNat 0xA001 ∧
        (∃ k ∈ (t.ring e.ring.val).records, k.cmdId = e.cmdId ∧ k.status = 0xA001 ∧ 1 ≤ k.comp0.toNat ∧ k.comp0.toNat ≤ 1000) ∧
        t.ctxs = s.ctxs ∧ t.images = s.images ∧ t.calibs = s.calibs ∧ t.laneCals = s.laneCals ∧ t.installs = s.installs ∧
        t.erasures = s.erasures ∧ t.nvw = s.nvw ∧ t.revoked = s.revoked ∧ t.minVersion = s.minVersion ∧ t.ledgerWait = s.ledgerWait ∧
        t.rd j Reg.JNR_BUSY_REFUSALS = (s.rd j Reg.JNR_BUSY_REFUSALS + 1) % 2 ^ Reg.JNR_BUSY_REFUSALS.width))) ∧
    exec (.telemetrySample false) s = .next s ∧
    Runs (.telemetrySample true) s (fun t => Counted s t j Reg.JNR_TELEMETRY_LOST ∧ t.images = s.images)
/-- A group joins the active half, and the new half too while a compaction runs; compaction begins at 75 % of a half with the
current state in the other, and its end switches the halves, empties the old one and advances the epoch (17 R470, R472). -/
def Obligations.LedgerGrowsAndCompacts : Prop :=
  ∀ (s : State), let l := Reg.ldgStatus
    let a := s.activeHalf
    let busy := s.flag l Reg.LDG_COMPACTING
    (∀ rs, Runs (.ledgerAppend rs) s (fun t => mapGet [] t.journal a = mapGet [] s.journal a ++ [rs] ∧
      (a ≤ 1 → mapGet [] t.journal (1 - a) = if busy then mapGet [] s.journal (1 - a) ++ [rs] else mapGet [] s.journal (1 - a)) ∧
      t.ledgerWait = s.ledgerWait.erase rs ∧ t.activeHalf = a)) ∧
    Runs .ledgerCompaction s (fun t => if busy = true ∨ 100 * s.halfUsed a < 75 * 2 ^ 27 then t = s
      else t.flag l Reg.LDG_COMPACTING = true ∧ t.activeHalf = a ∧ mapGet [] t.journal (1 - a) = [s.currentRecs (mapGet [] s.journal a).flatten]) ∧
    (busy = false → exec .compactionDone s = .next s) ∧
    (busy = true → Runs .compactionDone s (fun t => t.flag l Reg.LDG_COMPACTING = false ∧ t.activeHalf = (1 - a) % 2 ∧
      mapGet [] t.journal a = [] ∧ t.rd l Reg.LDG_EPOCH = (s.rd l Reg.LDG_EPOCH + 1) % 2 ^ Reg.LDG_EPOCH.width ∧
      t.rd l Reg.LDG_COMPACTIONS = (s.rd l Reg.LDG_COMPACTIONS + 1) % 2 ^ Reg.LDG_COMPACTIONS.width))

/-! ## The host interface (18 R478 to R498; 20 R527) -/

/-- Entry v of function f's MSI-X table is sent, or is pending while it is masked or its function is in D3hot (18 R498). -/
def Sys2Proof.Machine.Messages (s t : State) (f : CxlId) (v : Nat) : Prop :=
  let e := mapGet MsixEntry.start s.msix (2048 * f.val + v)
  if e.masked = true ∨ s.fnAsleep f.val = true then mapGet false t.pba (2048 * f.val + v) = true ∧ t.msgs = s.msgs
  else t.msgs = s.msgs ++ [⟨f, v, e.addr, e.data⟩]
/-- A ring has read its control line: the entries up to SUB_TAIL are fetched, or it has stopped because the line asks for more
than its rings hold. -/
def Sys2Proof.Machine.ReadsLine (s t : State) (r : RingId) : Prop :=
  let b := Reg.ring r.val
  let line (o : Nat) : Nat := s.natAt (.host (s.rd b Reg.RING_CTRL_LINE)) o 4
  let head := s.rd b Reg.RING_HEAD
  let due := (line 0 + 2 ^ 32 - head) % 2 ^ 32
  let opened := (s.rd b Reg.RING_COMP_SEQ + 2 ^ 32 - line 4) % 2 ^ 32
  (t.ring r.val).hasCopy = true ∧ t.hostMem = s.hostMem ∧ t.ctxs = s.ctxs ∧
  if 2 ^ s.rd b Reg.RING_SUB_LOG2 < due ∨ 2 ^ s.rd b Reg.RING_COMP_LOG2 < opened then
    t.rd b Reg.RING_STOPPED = 1 ∧ t.rd b Reg.RING_STATUS = 0x1D06 ∧ (t.ring r.val).fetched = (s.ring r.val).fetched
  else t.rd b Reg.RING_HEAD = line 0 ∧
    ((∀ i < due, unassigned (s.entryAt r (head + i)) = false) →
      (t.ring r.val).fetched = (s.ring r.val).fetched ++ (upto due).map (fun i => s.entryAt r (head + i)))
/-- A ring that closes drops its records and keeps what it has fetched; one with nothing left is off. A snoop wakes a ring that
holds a copy of its line, and a poll one that does not; a line that cannot be read stops it (18 R490 to R492). -/
def Obligations.RingsFetch : Prop :=
  ∀ (r : RingId) (s : State), let b := Reg.ring r.val
    (s.barOpen = true → s.checks.contains (.ring r) = false → s.objOn (.ring r) = true → Runs (.ringDisable r) s (fun t =>
      (t.ring r.val).records = [] ∧ (t.ring r.val).hasCopy = false ∧ (t.ring r.val).fetched = (s.ring r.val).fetched ∧
      ((s.ring r.val).running = 0 → (s.ring r.val).fetched = [] → t.objOn (.ring r) = false ∧ t.rd b Reg.RING_STOPPED = 0 ∧
        t.ring r.val = Ring.start) ∧
      ((s.ring r.val).running ≠ 0 ∨ (s.ring r.val).fetched ≠ [] → (t.ring r.val).closing = true ∧ t.regs = s.regs))) ∧
    (∀ (st : List (Nat × Byte)) ok, let s1 := s.hostStores st
      s1.flag b Reg.RING_STOPPED = true → exec (.ringPoll r st ok) s = .next s1 ∧ Runs (.controlLineSnoop r st ok) s (fun t =>
        t.regs = s.regs ∧ (t.ring r.val).fetched = (s.ring r.val).fetched ∧ (t.ring r.val).records = (s.ring r.val).records)) ∧
    ∀ st : List (Nat × Byte), let s1 := s.hostStores st
      s1.rd b Reg.RING_HEAD < 2 ^ 32 → s1.fetching r.val = true →
      ((s1.ring r.val).hasCopy = true →
        Runs (.controlLineSnoop r st true) s (fun t => ReadsLine s1 t r ∧
          t.rd b Reg.RING_WAKES = (s1.rd b Reg.RING_WAKES + 1) % 2 ^ Reg.RING_WAKES.width) ∧
        Runs (.controlLineSnoop r st false) s (fun t => t.rd b Reg.RING_STOPPED = 1 ∧ t.rd b Reg.RING_STATUS = 0x1D07 ∧
          t.rings = s.rings) ∧
        ∀ ok, exec (.ringPoll r st ok) s = .next s1) ∧
      ((s1.ring r.val).hasCopy = false →
        Runs (.ringPoll r st true) s (fun t => ReadsLine s1 t r ∧ t.rd b Reg.RING_WAKES = s1.rd b Reg.RING_WAKES) ∧
        Runs (.ringPoll r st false) s (fun t => t.rd b Reg.RING_STOPPED = 1 ∧ t.rd b Reg.RING_STATUS = 0x1D07 ∧ t.rings = s.rings))
/-- Records and messages: NOP completes; the oldest record is written once there is room, its phase bit that of its lap; a
coalescing count or wait sends its message; an event sends one when none stood before, and EVENT_MSIX when one already stands; a tier-3 window that is needed stays
(18 R479, R488, R493, R495, R498). -/
def Obligations.RecordsAndMessages : Prop :=
  ∀ (s : State),
    (∀ e : Entry, s.admits 0 e = true → Runs (.hostNop e) s (fun t => Completes t e 0 0 ∧ t.ctxs = s.ctxs ∧ t.tier1 = s.tier1)) ∧
    (∀ r : RingId, let b := Reg.ring r.val
      let k := s.ring r.val
      let n := s.rd b Reg.RING_COMP_SEQ
      let log := s.rd b Reg.RING_COMP_LOG2
      let base := s.rd b Reg.RING_COMP_BASE
      let slot := 32 * (n % 2 ^ log)
      (k.records = [] ∨ 2 ^ log ≤ (n + 2 ^ 32 - k.compHead.toNat) % 2 ^ 32 → exec (.completionRecordWrite r) s = .next s) ∧
      (∀ rcd rest, k.records = rcd :: rest → (n + 2 ^ 32 - k.compHead.toNat) % 2 ^ 32 < 2 ^ log → s.objOn (.ring r) = true →
        s.cxlMode (s.ringPort r.val).val = 2 → s.fnAsleep (s.ringPort r.val).val = false → Runs (.completionRecordWrite r) s (fun t =>
          (t.ring r.val).records = rest ∧ t.rd b Reg.RING_COMP_SEQ = (n + 1) % 2 ^ 32 ∧
          t.natAt (.host base) slot 8 = rcd.cmdId.toNat + 2 ^ 32 * rcd.ctx.val + (if rcd.final then 2 ^ 44 else 0) + 2 ^ 48 * rcd.op.toNat +
            2 ^ 63 * ((n / 2 ^ log + 1) % 2) ∧
          t.natAt (.host base) (slot + 8) 8 = rcd.status.toNat ∧ t.natAt (.host base) (slot + 16) 8 = rcd.comp0.toNat ∧
          t.natAt (.host base) (slot + 24) 8 = rcd.comp1.toNat ∧
          (∀ a, a < base + slot ∨ base + slot + 32 ≤ a → mapGet 0 t.hostMem a = mapGet 0 s.hostMem a) ∧
          (rcd.noSignal = true ∨ s.rd b Reg.RING_MSIX_MODE = 0 → t.msgs = s.msgs ∧ t.pba = s.pba) ∧
          (rcd.noSignal = false → s.rd b Reg.RING_MSIX_MODE = 1 → Messages s t (s.ringPort r.val) (s.rd b Reg.RING_MSIX_VECTOR)) ∧
          (rcd.noSignal = false → s.rd b Reg.RING_MSIX_MODE = 2 → if s.rd b Reg.RING_COAL_COUNT ≤ k.sinceMsg + 1 then
              Messages s t (s.ringPort r.val) (s.rd b Reg.RING_MSIX_VECTOR) ∧ (t.ring r.val).sinceMsg = 0
            else t.msgs = s.msgs ∧ t.pba = s.pba ∧ (t.ring r.val).sinceMsg = k.sinceMsg + 1))) ∧
      (let due := s.rd b Reg.RING_MSIX_MODE = 2 ∧ s.rd b Reg.RING_COAL_US ≠ 0 ∧ k.sinceMsg ≠ 0
       (due → Runs (.msixCoalesceExpire r) s (fun t => (t.ring r.val).sinceMsg = 0 ∧ t.regs = s.regs ∧
         Messages s t (s.ringPort r.val) (s.rd b Reg.RING_MSIX_VECTOR))) ∧
       (¬due → exec (.msixCoalesceExpire r) s = .next s))) ∧
    (∀ f ∈ evFields, let fn : CxlId := if s.rd (Reg.hifPort 0) Reg.HIF_MODE = 2 then 0 else 1
      (s.event f).flag Reg.hif f = true ∧
      if s.flag Reg.hif Reg.HIF_EVENT_MSIX = true ∧ s.anyEvent = false then Messages s (s.event f) fn (s.rd Reg.hif Reg.HIF_EVENT_VECTOR)
      else (s.event f).msgs = s.msgs ∧ (s.event f).pba = s.pba) ∧
    (s.barOpen = true →
      Runs .eventMsixSet s (fun t => t.flag Reg.hif Reg.HIF_EVENT_MSIX = true ∧
        if s.flag Reg.hif Reg.HIF_EVENT_MSIX = false ∧ s.anyEvent = true then Messages s t s.eventFn (s.rd Reg.hif Reg.HIF_EVENT_VECTOR)
        else t.msgs = s.msgs ∧ t.pba = s.pba) ∧
      ∀ x : CtxId, s.checks.contains (.t3w x) = false → s.objOn (.t3w x) = true →
        ((∃ p ∈ (s.ctx x.val).programs, p.decl.tier3 ≠ 0) → Runs (.t3wDisable x) s (fun t => t.objOn (.t3w x) = true ∧
          t.rd (Reg.t3w x.val) Reg.T3W_STATUS = 0x1C04)) ∧
        ((∀ p ∈ (s.ctx x.val).programs, p.decl.tier3 = 0) → Runs (.t3wDisable x) s (fun t => t.objOn (.t3w x) = false ∧
          t.rd (Reg.t3w x.val) Reg.T3W_STATUS = 0)))
/-- Register writes: configuration space takes none; one of a wrong size or alignment is dropped and counted; a locked field of a context keeps its value while
its context is enabled or checked, an RO field always; a bay's target takes a multiple of 25 MHz from 300 to 600. A snoop of a
tier-3 line changes nothing a program reads; a recovery image is taken to slot A, or refused with its code (18 R478; 19 R507;
20 R527; 00 R7). -/
def Obligations.WritesAndRecovery : Prop :=
  ∀ (s : State),
    (∀ (w : RegWrite) (f : CxlId), w.space = .config f → exec (.registerWrite w) s = .next s) ∧
    (∀ w : RegWrite, w.space = .bar2 ∨ (∃ f, w.space = .bar0 f) →
      (s.barOpen = false → exec (.registerWrite w) s = .next s) ∧
      (s.barOpen = true → (w.size ≠ 4 ∧ w.size ≠ 8) ∨ w.off.toNat % w.size.val ≠ 0 → Runs (.registerWrite w) s (fun t =>
        Counted s t Reg.hif Reg.HIF_BAD_ACCESS ∧ t.ctxs = s.ctxs ∧ t.checks = s.checks))) ∧
    (∀ (f : CxlId) (x : CtxId) (v : Word), s.barOpen = true → mapGet false s.dfun f.val = false →
      ∀ k ∈ Reg.ctxCoreFields ++ Reg.ctxTrainFields ++ Reg.ctxExchFields, k.off ≠ 0 →
        Runs (.registerWrite ⟨.bar0 f, BitVec.ofNat 30 (Reg.ctx x.val + k.off), 8, v⟩) s (fun t =>
          (k.acc = .ro → t.rd (Reg.ctx x.val) k = s.rd (Reg.ctx x.val) k) ∧
          (k.acc = .rwe → s.objOn (.ctx x) = true ∨ s.checking (.ctx x) = true → t.rd (Reg.ctx x.val) k = s.rd (Reg.ctx x.val) k) ∧
          (k.acc = .rwe → s.objOn (.ctx x) = false → s.checking (.ctx x) = false →
            t.rd (Reg.ctx x.val) k = bitsAt v.toNat k.lo k.width))) ∧
    (∀ (b : BayId) (v : Word), s.dstate < 2 → s.target b.val < 1024 →
      Runs (.registerWrite ⟨.mgmt, BitVec.ofNat 30 (0x1100 + 8 * b.val), 8, v⟩) s (fun t => t.target b.val =
        if 300 ≤ v.toNat % 1024 ∧ v.toNat % 1024 ≤ 600 ∧ v.toNat % 1024 % 25 = 0 then v.toNat % 1024 else s.target b.val)) ∧
    (∀ a, exec (.tier3LineSnoop a) s = .next s) ∧
    (∀ v : Word, let bs := s.recBytes.take s.recLen
      (v ≠ 1 ∨ s.recovery = false ∨ 4 * mib < s.recLen → exec (.recoveryImageGo v) s = .next s) ∧
      (v = 1 → s.recovery = true → s.recLen ≤ 4 * mib → Runs (.recoveryImageGo v) s (fun t => t.recBytes = [] ∧ t.recLen = 0 ∧
        match s.imageFault 0 bs with
        | some code => t.recStatus = code ∧ t.images = s.images ∧ t.regs = s.regs
        | none => t.recStatus = 0 ∧ mapGet [] t.images 0 = bs ∧ t.slotValid 0 = true)))

/-! ## Power, clocks and resets (19; 18 R475; 20 R521, R525, R526) -/

/-- Every island but the Joiner has lost what it held. -/
def Sys2Proof.Machine.Wiped (t : State) : Prop :=
  t.cores = [] ∧ t.ctxs = [] ∧ t.tier1 = [] ∧ t.queues = [] ∧ t.rings = [] ∧ t.pegs = [] ∧ t.ports = [] ∧ t.channels = [] ∧
  t.checks = [] ∧ t.memActive = false
/-- Rails and clocks: a rail that rises in its turn is rising, one out of order or late is a rail fault with 0x8402, and so is a
fixed rail out of tolerance; a lost clock takes its link down, fails the Truss ports or halts every context; a bay moves 25 MHz
a step; the power test lowers or raises the bays in their order by 25 MHz; a hot core or an unreachable limit halts contexts
(19 R501 to R510; 20 R521). -/
def Obligations.RailsClocksAndPower : Prop :=
  ∀ (s : State), let pw (t : State) (code : Nat) : Prop := t.rd Reg.pwr Reg.PWR_STATUS = code
    (∀ r : Rail, let i := railKey r
      (s.rail i = 0 → s.railTurn i = true → exec (.railEvent r .rises) s = .next (s.setRail i 1)) ∧
      (s.rail i = 0 → s.railTurn i = false → Runs (.railEvent r .rises) s (fun t => Wiped t ∧ pw t 0x8402 ∧ t.railFault = 1)) ∧
      (s.rail i = 1 → Runs (.railEvent r .good) s (fun t => t.rail i = 2 ∧ t.regs = s.regs)) ∧
      (s.rail i = 1 → Runs (.railEvent r .late) s (fun t => Wiped t ∧ pw t 0x8402 ∧ t.railFault = 1)) ∧
      Runs (.railEvent r .falls) s (fun t => t.rail i = 0 ∧ t.memActive = false) ∧
      (s.dstate = 0 →
        Runs (.railOutOfTolerance r false) s (fun t => pw t 0x8402 ∧ (∀ x ∈ s.allHolders, Halts s t x 0x8402) ∧
          ∀ c < 272, (t.core c).run ≠ .running) ∧
        Runs (.railOutOfTolerance r true) s Wiped)) ∧
    Runs .droopEvent s (fun t => Counted s t Reg.pwr Reg.PWR_DROOP_EVENTS ∧ t.droops = s.droops + 1 ∧ t.cores = s.cores ∧ t.ctxs = s.ctxs) ∧
    (∀ p : CxlId, Runs (.refclkLoss (.hif p)) s (fun t => mapGet false t.clkLost p.val = true ∧ t.hifMode p.val = 0 ∧
      (∀ r, (s.ringPort r).val = p.val → (t.ring r).hasCopy = false) ∧ t.ctxs = s.ctxs)) ∧
    Runs (.refclkLoss .trs) s (fun t => pw t 0x8403 ∧
      ∀ p ∈ s.enabledPorts, s.rd (Reg.trsPort p) Reg.TRS_LINK_STATE ≠ 0 → PortLost t p 5 0x6003) ∧
    Runs (.refclkLoss .jnr) s (fun t => pw t 0x8403 ∧ ∀ x ∈ s.allHolders, Halts s t x 0x8403) ∧
    (∀ k : RefClock, Runs (.refclkReturn k) s (fun t => mapGet false t.clkLost (clockKey k) = false ∧ t.regs = s.regs ∧ t.ctxs = s.ctxs)) ∧
    (∀ b : BayId, let now := s.currentMhz b.val
      let goal := min (s.target b.val) (s.rd (Reg.pwrBay b.val) Reg.PWR_CEILING_MHZ)
      (now = goal → exec (.frequencyStep b) s = .next s) ∧
      (now ≠ goal → Runs (.frequencyStep b) s (fun t =>
        t.currentMhz b.val = (if now < goal then min goal (now + 25) else max goal (now - 25)) % 2 ^ Reg.PWR_CURRENT_MHZ.width))) ∧
    (∀ p10 p1 raise, let w10 := min p10 2047
      let w1 := min p1 2047
      let w (f : Field) : Nat := s.rd Reg.pwr f
      let above : Prop := w Reg.PWR_EXCURSION_W < w10 ∨ w Reg.PWR_SUSTAINED_W < w1
      let under : Prop := raise = true ∧ 100 * w10 ≤ 95 * w Reg.PWR_EXCURSION_W ∧ 100 * w1 ≤ 95 * w Reg.PWR_SUSTAINED_W
      Runs (.powerCapTest p10 p1 raise) s (fun t => w10 = t.rd Reg.pwr Reg.PWR_POWER_10MS_W ∧ w1 = t.rd Reg.pwr Reg.PWR_POWER_1S_W ∧
        (above → (∀ b, t.powerCeilOf b = if b ∈ s.capBays then max 300 (s.powerCeilOf b - 25) else s.powerCeilOf b) ∧
          t.rd Reg.pwr Reg.PWR_CAP_STEPS = min (w Reg.PWR_CAP_STEPS + s.capBays.length) (2 ^ Reg.PWR_CAP_STEPS.width - 1) %
            2 ^ Reg.PWR_CAP_STEPS.width) ∧
        (¬above → ∀ b, (under → t.powerCeilOf b = if b ∈ s.liftBays then min 600 (s.powerCeilOf b + 25) else s.powerCeilOf b) ∧
          (¬under → t.powerCeilOf b = s.powerCeilOf b)) ∧
        (t.flag Reg.pwr Reg.PWR_CAPPING = true ↔ t.powerCeil ≠ []))) ∧
    (∀ c : CoreId, Runs (.coreThermalTrip c) s (fun t => pw t 0x8405 ∧ mapGet false t.coreHot c.val = true ∧
      t.rd Reg.safSafety Reg.SAF_LOG_HEAD = (s.rd Reg.safSafety Reg.SAF_LOG_HEAD + 1) % 2 ^ Reg.SAF_LOG_HEAD.width ∧
      ∀ b, s.clockBay c.val = some b → ∀ x ∈ s.holders (fun y => decide (y = b)), Halts s t x 0x8405)) ∧
    (let stuck := s.overLimit = true ∧ (∃ b < 64, (s.bayHolder b).isSome = true) ∧
        ∀ b < 64, (s.bayHolder b).isSome = true → s.currentMhz b = 300
     (stuck → Runs .powerLimitUnreachable s (fun t => pw t 0x8404 ∧ ∀ x ∈ s.allHolders, Halts s t x 0x8404)) ∧
     (¬stuck → exec .powerLimitUnreachable s = .next s)) ∧
    exec .thermtrip s = .next { s with thermtrip := true }
/-- Sleep and links: a bay unheld for SLEEP_AFTER_MS sleeps where BAY_SLEEP is 1 and wakes scrubbed; a function alone, and then the device, go to
D3hot and back, and to D3cold; a link trains to a mode and a width, and its retrains count; it narrows within it, enters L1 only with no ring or window on
it, and goes down (19 R511 to R514; 18 R475; 19 R505). -/
def Obligations.SleepAndLinks : Prop :=
  ∀ (s : State),
    (∀ b : BayId, let sleeps := s.flag (Reg.pwrBay b.val) Reg.PWR_SLEEPING
      let allowed := s.flag Reg.pwr Reg.PWR_BAY_SLEEP
      let held := (s.bayHolder b.val).isSome
      let waited : Prop := mapGet 0 s.bayFreed b.val + 1000 * s.rd Reg.pwr Reg.PWR_SLEEP_AFTER_MS ≤ s.nowUs
      (allowed = true → held = false → waited → Runs (.baySleep b) s (fun t => t.flag (Reg.pwrBay b.val) Reg.PWR_SLEEPING = true ∧ t.cores = s.cores)) ∧
      (allowed = false ∨ held = true ∨ ¬waited → exec (.baySleep b) s = .next s) ∧
      (sleeps = true → allowed = false ∨ held = true → Runs (.bayWake b) s (fun t =>
        t.flag (Reg.pwrBay b.val) Reg.PWR_SLEEPING = false ∧ t.ctxs = s.ctxs ∧
        ∀ c < 272, t.core c = if c ∈ (upto 4).map (fun j => s.physOf (4 * b.val + j)) then Core.scrubbed else s.core c)) ∧
      (sleeps = false ∨ (allowed = true ∧ held = false) → exec (.bayWake b) s = .next s)) ∧
    (∀ p q : CxlId, p ≠ q →
      let up (k : CxlId) : Prop := s.hifMode k.val ≠ 0 ∧ mapGet false s.dfun k.val = false
      (s.dstate = 0 → up p → up q → Runs (.functionD3hot p) s (fun t => mapGet false t.dfun p.val = true ∧ t.regs = s.regs ∧
        ∀ r, (s.ringPort r).val = p.val → (t.ring r).hasCopy = false)) ∧
      (s.dstate ≠ 0 ∨ ¬up p ∨ ¬up q → exec (.functionD3hot p) s = .next s) ∧
      (s.dstate = 0 → up p → ¬up q → Runs .d3hotEntry s (fun t => t.dstate = 1 ∧
        (∀ k : CxlId, s.hifMode k.val ≠ 0 → mapGet false t.dfun k.val = true ∧ mapGet false t.l1 k.val = true) ∧
        ∀ x ∈ s.allHolders, s.ctxState x = stRunning → t.ctxState x = stSwitching))) ∧
    (∀ p : CxlId,
      (s.dstate = 0 → mapGet false s.dfun p.val = true → Runs (.functionD0Return p) s (fun t => mapGet false t.dfun p.val = false ∧
        t.ctxs = s.ctxs ∧ t.tier1 = s.tier1)) ∧
      (s.dstate ≠ 0 ∨ mapGet false s.dfun p.val = false → exec (.functionD0Return p) s = .next s)) ∧
    (s.dstate ≠ 0 → exec .d3hotEntry s = .next s) ∧
    (s.dstate = 1 →
      Runs .d0Return s (fun t => t.dstate = 0 ∧ t.dfun = [] ∧ t.l1 = [] ∧ t.ctxs = s.ctxs ∧ t.tier1 = s.tier1) ∧
      Runs .d3coldEntry s (fun t => t.dstate = 2 ∧ t.memActive = false ∧ t.dynAddr = none ∧ t.rail 0 = s.rail 0 ∧
        ∀ i, 1 ≤ i → i ≤ 9 → t.rail i = 0)) ∧
    (s.dstate ≠ 1 → exec .d0Return s = .next s ∧ exec .d3coldEntry s = .next s) ∧
    (∀ (p : CxlId), let b := Reg.hifPort p.val
      (∀ l : CxlLink,
        let may := mapGet false s.perstOff p.val = true ∧ s.recovery = false ∧ mapGet false s.clkLost p.val = false ∧
          s.hifMode p.val = 0
        (may → Runs (.cxlLinkTrained p l) s (fun t => t.rd b Reg.HIF_MODE = (if l.cxl then 2 else 1) ∧
          t.rd b Reg.HIF_WIDTH = cxlLanes l.width ∧ t.rd b Reg.HIF_RATE_64 = l.rate64.toNat ∧ t.rd b Reg.HIF_LATENCY_OPT = l.latencyOpt.toNat)) ∧
        (s.hifMode p.val ≠ 0 → Runs (.cxlLinkTrained p l) s (fun t => t.regs = s.regs ∧ t.retrains = s.retrains + 1 ∧
          ∀ r, (s.ringPort r).val = p.val → (t.ring r).hasCopy = false)) ∧
        (¬may → s.hifMode p.val = 0 → exec (.cxlLinkTrained p l) s = .next s)) ∧
      Runs (.cxlLinkDown p) s (fun t => t.hifMode p.val = 0 ∧
        t.retrains = s.retrains + (if s.hifMode p.val = 0 then 0 else 1) ∧ t.ctxs = s.ctxs ∧ t.tier1 = s.tier1 ∧
        ∀ r, (s.ringPort r).val = p.val → (t.ring r).hasCopy = false) ∧
      (∀ w : CxlWidth,
        (s.hifMode p.val ≠ 0 → cxlLanes w ≤ s.rd b Reg.HIF_WIDTH → Runs (.l0pWidthChange p w) s (fun t => mapGet .x16 t.l0p p.val = w ∧
          t.regs = s.regs)) ∧
        (s.hifMode p.val = 0 ∨ s.rd b Reg.HIF_WIDTH < cxlLanes w → exec (.l0pWidthChange p w) s = .next s)) ∧
      (let busy := (∃ r ∈ s.enabledRings, (s.ringPort r).val = p.val) ∨
          ∃ x ∈ s.enabledT3ws, (s.rd (Reg.t3w x) Reg.T3W_PORTS).testBit p.val = true
       (s.dstate = 0 → s.hifMode p.val ≠ 0 → ¬busy → Runs (.aspmL1 p true) s (fun t => mapGet false t.l1 p.val = true ∧ t.regs = s.regs)) ∧
       (s.dstate = 0 → s.hifMode p.val ≠ 0 → Runs (.aspmL1 p false) s (fun t => mapGet false t.l1 p.val = false ∧ t.regs = s.regs)) ∧
       (s.dstate ≠ 0 ∨ s.hifMode p.val = 0 ∨ busy → exec (.aspmL1 p true) s = .next s) ∧
       (s.dstate ≠ 0 → exec (.aspmL1 p false) s = .next s)))
/-- The package's own lands: PERST and Memory_Active in their order, the answers of DOE, the I3C address, the alert that a read
of STATUS releases, and the TAP, whose driving instructions act only in reset and whose private ones only when unlocked
(19 R501; 18 R475; 20 R525, R526). -/
def Obligations.LandsAndAnswers : Prop :=
  ∀ (s : State),
    (∀ p : CxlId,
      (s.railsGood = true → s.railFault = 0 → Runs (.perstDeassert p) s (fun t => mapGet false t.perstOff p.val = true ∧ t.regs = s.regs)) ∧
      (s.railsGood = false ∨ s.railFault ≠ 0 → exec (.perstDeassert p) s = .next s) ∧
      (∀ k, s.hifMode p.val = 0 → exec (.doeRequest p k) s = .next s) ∧
      (s.hifMode p.val ≠ 0 → let io := Reg.hifPort p.val
        exec (.doeRequest p .certificates) s = .next { s with reply := some (Config.certificates (s.meas 0)) } ∧
        exec (.doeRequest p .measurements) s = .next { s with reply := some ((upto 4).flatMap (fun i => leBytes 64 (s.meas i).toNat)) } ∧
        Runs (.doeRequest p .ideKeysIo) s (fun t => t.flag io Reg.HIF_IDE_IO = true) ∧
        Runs (.doeRequest p .ideKeysCachemem) s (fun t => t.flag io Reg.HIF_IDE_CACHEMEM = true))) ∧
    (let may := (mapGet false s.perstOff 0 = true ∨ mapGet false s.perstOff 1 = true) ∧ s.railFault = 0 ∧ s.recovery = false
     (may → exec .memoryActiveSet s = .next { s with memActive := true }) ∧ (¬may → exec .memoryActiveSet s = .next s)) ∧
    (∀ a, (s.dstate < 2 → s.rail 1 = 2 → exec (.dynamicAddressAssignment a) s = .next { s with dynAddr := some a }) ∧
      (2 ≤ s.dstate ∨ s.rail 1 ≠ 2 → exec (.dynamicAddressAssignment a) s = .next s)) ∧
    Runs .pwrStatusRead s (fun t => t.alert = false ∧ t.regs = s.regs ∧
      ∃ bs, t.reply = some bs ∧ bs = leBytes 8 (s.word Reg.pwr Reg.pwrFields 8)) ∧
    (∀ i : TapInstr, let powered := s.rail 1 = 2 ∧ s.rail 3 = 2
      (¬powered → exec (.tapInstruction i) s = .next s) ∧
      (powered →
        (i = .bypass ∨ i = .idcode ∨ i = .samplePreload → exec (.tapInstruction i) s = .next { s with tapIr := i }) ∧
        (i = .extest ∨ i = .clamp ∨ i = .highz ∨ i = .extestPulse ∨ i = .extestTrain → exec (.tapInstruction i) s = .next { s with
          tapIr := if mapGet false s.perstOff 0 = false ∧ mapGet false s.perstOff 1 = false then i else .bypass }) ∧
        (∀ ir, i = .private_ ir → exec (.tapInstruction i) s = .next { s with
          tapIr := if (s.rd Reg.jnrDebug Reg.DEBUG_SCOPE).testBit 0 then i else .bypass })))
/-- A byte of tier 1 in the spill area of an enabled queue, or of one that is still clearing. -/
def Sys2Proof.Machine.State.spillByte (s : State) (a : Nat) : Prop :=
  let inside (x : Nat) (r : Nat × Nat) : Prop := ∃ o, s.regionOff x a = some o ∧ r.1 ≤ o ∧ o < r.1 + r.2
  (∃ xq ∈ s.enabledQueues, ∃ r ∈ s.spillArea xq.1 xq.2, inside xq.1 r) ∨
  ∃ yc ∈ s.clearings, inside yc.1 yc.2.spill
/-- What each reset wipes and what it keeps: a cold reset leaves fences that the Ledger records, the host's and NVW's contents; a
warm one the Joiner's side and, under PRESERVE, tier 1 but for spilled records, with its contexts
Idle; a port reset its function; CXL Reset the
checkpoint stores; a function level reset all but its function's messages, decoders and rings (19 R515, R516; 17 R471). -/
def Obligations.Resets : Prop :=
  ∀ (s : State),
    (∀ recover, Runs (.coldReset recover) s (fun t => Wiped t ∧ t.hostMem = s.hostMem ∧ t.nvw = s.nvw ∧ t.revoked = s.revoked ∧
      t.dstate = 0 ∧ (recover = true → t.recovery = true) ∧
      let a := if mapGet 0 s.halfEpoch 0 < mapGet 0 s.halfEpoch 1 then 1 else 0
      mapGet [] t.journal a = mapGet [] s.journal a ∧ mapGet [] t.journal (1 - a) = [] ∧
      ∀ c, LedgerRec.fence c ∈ (mapGet [] s.journal a).flatten → t.coreFence c.val = 2 ∨ t.coreFence c.val = 3)) ∧
    (let off := s.hifMode 0 = 0 ∧ s.hifMode 1 = 0
     (off → exec .warmReset s = .next s ∧ exec .cxlReset s = .next s) ∧
     (¬off → s.flag Reg.pwr Reg.PWR_PRESERVE = false → Runs .warmReset s (fun t => Wiped t ∧ t.hostMem = s.hostMem ∧ t.nvw = s.nvw ∧
        t.journal = s.journal ∧ t.fences = s.fences ∧ t.images = s.images ∧ t.posCore = s.posCore ∧
        (∀ (b : Nat) (f : Field), warmHeld (f.key b) = true → f.key b ≠ Reg.KEYS_SWEEP_ACTIVE.key Reg.jnrKeys → t.rd b f = s.rd b f) ∧
        (∀ (b : Nat) (f : Field), warmHeld (f.key b) = false → (∀ p : PortId, f.key b ≠ Reg.TRS_LINK_STATE.key (Reg.trsPort p.val)) →
          t.rd b f = f.reset) ∧
        ∀ p : CxlId, s.hifMode p.val ≠ 0 → mapGet false t.perstOff p.val = false)) ∧
     (¬off → s.flag Reg.pwr Reg.PWR_PRESERVE = true → Runs .warmReset s (fun t =>
        (∀ a, (s.spillByte a → mapGet 0 t.tier1 a = 0) ∧ (¬s.spillByte a → mapGet 0 t.tier1 a = mapGet 0 s.tier1 a)) ∧
        (∀ g, mapGet false t.poison g = true → mapGet false s.poison g = true) ∧
        t.hostMem = s.hostMem ∧ t.nvw = s.nvw ∧ t.cores = [] ∧ t.rings = [] ∧
        (∀ r : RingId, t.objOn (.ring r) = false ∧ (s.objOn (.ring r) = true → t.rd (Reg.ring r.val) Reg.RING_STATUS = 0x1003)) ∧
        ∀ x : CtxId, (t.ctx x.val).bayMap = [] ∧ ((s.ctx x.val).bayMap ≠ [] → s.ctxState x.val ≠ stTearing →
          t.ctxState x.val = stIdle ∧ (t.ctx x.val).programs = []))) ∧
     (¬off → Runs .cxlReset s (fun t => t.ctxs = [] ∧ t.cores = [] ∧ t.queues = [] ∧ t.pegs = [] ∧
        (∀ (x : CtxId) (f : Field), f.off < 1024 → f.lo < 64 → f.off + 8 ≤ 1024 → t.rd (Reg.ctx x.val) f = f.reset) ∧
        ∀ a, t.inStore a = false → mapGet 0 t.tier1 a = 0))) ∧
    (∀ p q : CxlId, p ≠ q →
      (s.hifMode q.val = 2 → Runs (.portReset p) s (fun t => mapGet false t.perstOff p.val = false ∧ t.hifMode p.val = 0 ∧ t.ctxs = s.ctxs ∧
        t.tier1 = s.tier1)) ∧
      (s.hifMode q.val ≠ 2 → exec (.portReset p) s = .next s) ∧
      Runs (.flr p) s (fun t => t.ctxs = s.ctxs ∧ t.tier1 = s.tier1 ∧ (s.dstate = 0 → mapGet false t.dfun p.val = false) ∧
        ∀ v, v < 2048 → mapGet MsixEntry.start t.msix (2048 * p.val + v) = MsixEntry.start ∧ mapGet false t.pba (2048 * p.val + v) = false ∧
          mapGet MsixEntry.start t.msix (2048 * q.val + v) = mapGet MsixEntry.start s.msix (2048 * q.val + v)))
/-- After reset every register field reads its reset value, every memory reads zero, no peg, core, context, queue or ring has
been used, nothing is fetched, tier 1 does not answer, and no command waits. -/
def Obligations.ResetState : Prop :=
  let s := State.reset
  (∀ (b : Nat) (f : Field), s.rd b f = f.reset) ∧ Wiped s ∧ s.pending = [] ∧ s.dstate = 0 ∧
  (∀ a, mapGet 0 s.tier1 a = 0 ∧ mapGet 0 s.hostMem a = 0 ∧ mapGet 0 s.nvw a = 0 ∧ mapGet false s.poison a = false) ∧
  (∀ c, s.core c = Core.start) ∧ (∀ p, mapGet 0 s.pegs p = 0) ∧ (∀ x q, s.queue x q = Queue.start) ∧ (∀ r, s.ring r = Ring.start)
end Statements
end

