-- ==== Sys2Proof/Laws/Map.lean ====
section
/-! SUPPORT. Laws of the sparse arrays: a read after a write, a write elsewhere, and that every operation keeps the
canonical form. -/
namespace Sys2Proof.Machine

section Get
variable {α : Type}

@[simp] theorem mapGet_nil (d : α) (k : Nat) : mapGet d [] k = d := rfl

@[simp] theorem mapGet_mapErase_self (d : α) (m : Map α) (k : Nat) : mapGet d (mapErase m k) k = d := by
  induction m with
  | nil => rfl
  | cons kv m ih => obtain ⟨j, v⟩ := kv; by_cases h : j = k <;> simp [mapErase, mapGet, h, ih]

theorem mapGet_mapErase_ne (d : α) (m : Map α) {k a : Nat} (h : a ≠ k) : mapGet d (mapErase m k) a = mapGet d m a := by
  induction m with
  | nil => rfl
  | cons kv m ih =>
    obtain ⟨j, v⟩ := kv
    by_cases hj : j = k
    · subst hj; simp [mapErase, mapGet, ih, Ne.symm h]
    · by_cases ha : j = a
      · subst ha; simp [mapErase, mapGet, hj]
      · simp [mapErase, mapGet, hj, ha, ih]

theorem mapGet_mapInsert (d : α) (m : Map α) (k a : Nat) (v : α) (hk : ∀ w, (k, w) ∉ m) :
    mapGet d (mapInsert m k v) a = if a = k then v else mapGet d m a := by
  induction m with
  | nil => by_cases h : k = a <;> simp [mapInsert, mapGet, h, eq_comm]
  | cons kv m ih =>
    obtain ⟨j, w⟩ := kv
    have hj : j ≠ k := fun e => hk w (by simp [e])
    have ih' := ih (fun w hw => hk w (List.mem_cons_of_mem _ hw))
    by_cases hlt : k < j
    · by_cases h : k = a
      · subst h; simp [mapInsert, mapGet, hlt]
      · have h' : a ≠ k := fun e => h e.symm
        simp [mapInsert, mapGet, hlt, h, h']
    · by_cases h : j = a
      · subst h; simp [mapInsert, mapGet, hlt, hj]
      · simp [mapInsert, mapGet, hlt, h, ih']

theorem not_mem_mapErase (m : Map α) (k : Nat) (w : α) : (k, w) ∉ mapErase m k := by
  induction m with
  | nil => simp [mapErase]
  | cons kv m ih =>
    obtain ⟨j, v⟩ := kv
    by_cases h : j = k
    · simp [mapErase, h, ih]
    · have h' : ¬ k = j := fun e => h e.symm
      simp [mapErase, h, ih, h']

variable [DecidableEq α]

theorem mapGet_mapSet (d : α) (m : Map α) (k a : Nat) (v : α) :
    mapGet d (mapSet d m k v) a = if a = k then v else mapGet d m a := by
  unfold mapSet
  by_cases hv : v = d
  · by_cases ha : a = k
    · subst ha; simp [hv]
    · simp [hv, ha, mapGet_mapErase_ne]
  · rw [if_neg hv, mapGet_mapInsert _ _ _ _ _ (not_mem_mapErase m k)]
    by_cases ha : a = k <;> simp [ha, mapGet_mapErase_ne]

@[simp] theorem mapGet_mapSet_self (d : α) (m : Map α) (k : Nat) (v : α) : mapGet d (mapSet d m k v) k = v := by
  simp [mapGet_mapSet]

theorem mapGet_mapSet_ne (d : α) (m : Map α) {k a : Nat} (v : α) (h : a ≠ k) :
    mapGet d (mapSet d m k v) a = mapGet d m a := by simp [mapGet_mapSet, h]

/-- A write at another key, whatever each key reads as when it is not listed. -/
theorem mapGet_mapSet_other (d d' : α) (m : Map α) {k a : Nat} (v : α) (h : a ≠ k) :
    mapGet d' (mapSet d m k v) a = mapGet d' m a := by
  unfold mapSet
  split
  · exact mapGet_mapErase_ne _ _ h
  · rw [mapGet_mapInsert _ _ _ _ _ (not_mem_mapErase m k), if_neg h, mapGet_mapErase_ne _ _ h]

omit [DecidableEq α] in
theorem mapErase_mapErase (m : Map α) (k : Nat) : mapErase (mapErase m k) k = mapErase m k := by
  induction m with
  | nil => rfl
  | cons kv m ih => obtain ⟨j, v⟩ := kv; by_cases h : j = k <;> simp [mapErase, h, ih]

omit [DecidableEq α] in
theorem mapErase_mapInsert (m : Map α) (k : Nat) (v : α) : mapErase (mapInsert m k v) k = mapErase m k := by
  induction m with
  | nil => simp [mapInsert, mapErase]
  | cons kv m ih =>
    obtain ⟨j, w⟩ := kv
    by_cases hlt : k < j
    · simp [mapInsert, mapErase, hlt]
    · by_cases h : j = k
      · subst h; simp [mapInsert, mapErase, ih]
      · simp [mapInsert, mapErase, hlt, h, ih]

/-- The last of two writes at one key is the one that stays. -/
theorem mapSet_mapSet (d : α) (m : Map α) (k : Nat) (v w : α) : mapSet d (mapSet d m k v) k w = mapSet d m k w := by
  have h : mapErase (mapSet d m k v) k = mapErase m k := by
    unfold mapSet; split <;> simp [mapErase_mapErase, mapErase_mapInsert]
  unfold mapSet at h ⊢
  split <;> simp [h]

end Get

theorem mapGet_mapClear {α : Type} (d : α) (p : Nat → Bool) (m : Map α) (k : Nat) :
    mapGet d (mapClear p m) k = if p k then d else mapGet d m k := by
  induction m with
  | nil => simp [mapClear]
  | cons kv m ih =>
    obtain ⟨j, v⟩ := kv
    simp only [mapClear, List.filter_cons] at ih ⊢
    by_cases hp : p j
    · by_cases hj : j = k
      · subst hj; simp [hp, ih]
      · simp [hp, ih, mapGet, hj]
    · by_cases hj : j = k
      · subst hj; simp [mapGet, hp]
      · simp [mapGet, hp, ih, hj]

/-! ## The canonical form -/

section Wf
variable {α : Type}

theorem keysAbove_mono {b b' : Nat} {m : Map α} (h : keysAbove b m = true) (hb : b' ≤ b) : keysAbove b' m = true := by
  cases m with
  | nil => rfl
  | cons kv m => simp only [keysAbove, Bool.and_eq_true, decide_eq_true_eq] at h ⊢; exact ⟨by omega, h.2⟩

theorem keysAbove_mapErase {b : Nat} {m : Map α} (k : Nat) (h : keysAbove b m = true) : keysAbove b (mapErase m k) = true := by
  induction m generalizing b with
  | nil => rfl
  | cons kv m ih =>
    obtain ⟨j, v⟩ := kv
    simp only [keysAbove, Bool.and_eq_true, decide_eq_true_eq] at h
    by_cases hj : j = k
    · rw [mapErase, if_pos hj]; exact keysAbove_mono (ih h.2) (by omega)
    · rw [mapErase, if_neg hj]; simp [keysAbove, h.1, ih h.2]

theorem keysAbove_mapInsert {b : Nat} {m : Map α} {k : Nat} (v : α) (h : keysAbove b m = true) (hb : b ≤ k)
    (hk : ∀ w, (k, w) ∉ m) : keysAbove b (mapInsert m k v) = true := by
  induction m generalizing b with
  | nil => simp [mapInsert, keysAbove, hb]
  | cons kv m ih =>
    obtain ⟨j, w⟩ := kv
    have hj : j ≠ k := fun e => hk w (by simp [e])
    simp only [keysAbove, Bool.and_eq_true, decide_eq_true_eq] at h
    by_cases hlt : k < j
    · rw [mapInsert, if_pos hlt]
      simp only [keysAbove, Bool.and_eq_true, decide_eq_true_eq]
      exact ⟨hb, by omega, h.2⟩
    · rw [mapInsert, if_neg hlt]
      simp only [keysAbove, Bool.and_eq_true, decide_eq_true_eq]
      exact ⟨h.1, ih h.2 (by omega) (fun w hw => hk w (List.mem_cons_of_mem _ hw))⟩

theorem keysAbove_filter {b : Nat} {m : Map α} (q : Nat × α → Bool) (h : keysAbove b m = true) :
    keysAbove b (m.filter q) = true := by
  induction m generalizing b with
  | nil => rfl
  | cons kv m ih =>
    obtain ⟨j, v⟩ := kv
    simp only [keysAbove, Bool.and_eq_true, decide_eq_true_eq] at h
    rw [List.filter_cons]
    split
    · simp [keysAbove, h.1, ih h.2]
    · exact keysAbove_mono (ih h.2) (by omega)

theorem mem_of_mem_mapErase {m : Map α} {k : Nat} {x : Nat × α} (h : x ∈ mapErase m k) : x ∈ m := by
  induction m with
  | nil => exact h
  | cons kv m ih =>
    obtain ⟨j, v⟩ := kv
    by_cases hj : j = k
    · rw [mapErase, if_pos hj] at h; exact List.mem_cons_of_mem _ (ih h)
    · rw [mapErase, if_neg hj] at h
      rcases List.mem_cons.mp h with e | e
      · exact e ▸ List.mem_cons_self
      · exact List.mem_cons_of_mem _ (ih e)

theorem mem_of_mem_mapInsert {m : Map α} {k : Nat} {v : α} {x : Nat × α} (h : x ∈ mapInsert m k v) : x = (k, v) ∨ x ∈ m := by
  induction m with
  | nil => simpa [mapInsert] using h
  | cons kv m ih =>
    obtain ⟨j, w⟩ := kv
    by_cases hlt : k < j
    · rw [mapInsert, if_pos hlt] at h; exact List.mem_cons.mp h
    · rw [mapInsert, if_neg hlt] at h
      rcases List.mem_cons.mp h with e | e
      · exact .inr (e ▸ List.mem_cons_self)
      · exact (ih e).imp_right (List.mem_cons_of_mem _)

variable [DecidableEq α]

theorem mapWf_iff (d : α) (m : Map α) : mapWf d m = true ↔ keysAbove 0 m = true ∧ ∀ x ∈ m, x.2 ≠ d := by
  simp [mapWf]

@[simp] theorem mapWf_nil (d : α) : mapWf d [] = true := rfl

theorem mapWf_mapSet (d : α) (m : Map α) (k : Nat) (v : α) (h : mapWf d m = true) : mapWf d (mapSet d m k v) = true := by
  rw [mapWf_iff] at h ⊢
  unfold mapSet
  split
  · exact ⟨keysAbove_mapErase k h.1, fun x hx => h.2 x (mem_of_mem_mapErase hx)⟩
  · rename_i hv
    refine ⟨keysAbove_mapInsert v (keysAbove_mapErase k h.1) (Nat.zero_le k) (not_mem_mapErase m k), fun x hx => ?_⟩
    rcases mem_of_mem_mapInsert hx with e | e
    · subst e; exact hv
    · exact h.2 x (mem_of_mem_mapErase e)

theorem mapWf_filter (d : α) (m : Map α) (q : Nat × α → Bool) (h : mapWf d m = true) : mapWf d (m.filter q) = true := by
  rw [mapWf_iff] at h ⊢
  exact ⟨keysAbove_filter q h.1, fun x hx => h.2 x ((List.mem_filter.mp hx).1)⟩

theorem mapWf_mapClear (d : α) (p : Nat → Bool) (m : Map α) (h : mapWf d m = true) : mapWf d (mapClear p m) = true :=
  mapWf_filter d m _ h

theorem mapWf_mapWrite (d : α) (vs : List α) : ∀ (m : Map α) (k : Nat), mapWf d m = true → mapWf d (mapWrite d m k vs) = true := by
  induction vs with
  | nil => intro m k h; exact h
  | cons v vs ih => intro m k h; exact ih _ _ (mapWf_mapSet d m k v h)

omit [DecidableEq α] in
/-- A key below every listed key reads as the default. -/
theorem mapGet_of_keysAbove (d : α) {b : Nat} {m : Map α} (h : keysAbove b m = true) {k : Nat} (hk : k < b) : mapGet d m k = d := by
  induction m generalizing b with
  | nil => rfl
  | cons kv m ih =>
    obtain ⟨j, v⟩ := kv
    simp only [keysAbove, Bool.and_eq_true, decide_eq_true_eq] at h
    have : j ≠ k := by omega
    rw [mapGet, if_neg this]
    exact ih h.2 (by omega)

theorem memory_wf_mapSet (m : Map (BitVec 8)) (k : Nat) (v : BitVec 8) (h : Memory.wf m = true) :
    Memory.wf (mapSet 0 m k v) = true := mapWf_mapSet 0 m k v h
theorem memory_wf_mapClear (p : Nat → Bool) (m : Map (BitVec 8)) (h : Memory.wf m = true) :
    Memory.wf (mapClear p m) = true := mapWf_mapClear 0 p m h
theorem memory_wf_filter (q : Nat × BitVec 8 → Bool) (m : Map (BitVec 8)) (h : Memory.wf m = true) :
    Memory.wf (m.filter q) = true := mapWf_filter 0 m q h
theorem memory_wf_mapWrite (vs : List (BitVec 8)) (m : Map (BitVec 8)) (k : Nat) (h : Memory.wf m = true) :
    Memory.wf (mapWrite 0 m k vs) = true := mapWf_mapWrite 0 vs m k h

end Wf

end Sys2Proof.Machine
end

