-- ==== Sys2Proof/Laws/Kept.lean ====
section
/-! SUPPORT. What no command does, as one relation between the state before and after, and how it goes through the shapes
the meanings are written in. Each operation has its lemma of this form in the files beside this one. -/
namespace Sys2Proof.Machine
set_option linter.unusedTactic false
set_option linter.unreachableTactic false

/-- From r to t the queue and the clock stand, no free value is used twice, and every addressed memory and every array of
marks or parts keeps its canonical form. -/
structure Kept (r t : State) : Prop where
  pending : t.pending = r.pending
  nowUs : t.nowUs = r.nowUs
  free : r.free ≤ t.free
  tier1 : Memory.wf r.tier1 = true → Memory.wf t.tier1 = true
  hostMem : Memory.wf r.hostMem = true → Memory.wf t.hostMem = true
  nvw : Memory.wf r.nvw = true → Memory.wf t.nvw = true
  poison : mapWf false r.poison = true → mapWf false t.poison = true
  drone : mapWf 0 r.drone = true → mapWf 0 t.drone = true
  cores : mapWf Core.start r.cores = true → mapWf Core.start t.cores = true
  ctxs : mapWf Ctx.start r.ctxs = true → mapWf Ctx.start t.ctxs = true
  queues : mapWf Queue.start r.queues = true → mapWf Queue.start t.queues = true
  rings : mapWf Ring.start r.rings = true → mapWf Ring.start t.rings = true

theorem Kept.refl (s : State) : Kept s s :=
  ⟨rfl, rfl, Nat.le_refl _, id, id, id, id, id, id, id, id, id⟩

theorem Kept.trans {r s t : State} (h : Kept r s) (k : Kept s t) : Kept r t :=
  ⟨k.pending.trans h.pending, k.nowUs.trans h.nowUs, Nat.le_trans h.free k.free, k.tier1 ∘ h.tier1, k.hostMem ∘ h.hostMem,
   k.nvw ∘ h.nvw, k.poison ∘ h.poison, k.drone ∘ h.drone, k.cores ∘ h.cores, k.ctxs ∘ h.ctxs, k.queues ∘ h.queues,
   k.rings ∘ h.rings⟩

/-- An update of other fields. -/
theorem Kept.other {r s t : State} (h : Kept r s)
    (e : (t.pending, t.nowUs, t.free, t.tier1, t.hostMem, t.nvw, t.poison, t.drone, t.cores, t.ctxs, t.queues, t.rings) =
      (s.pending, s.nowUs, s.free, s.tier1, s.hostMem, s.nvw, s.poison, s.drone, s.cores, s.ctxs, s.queues, s.rings)) :
    Kept r t := by
  simp only [Prod.mk.injEq] at e
  obtain ⟨h1, h2, h3, h4, h5, h6, h7, h8, h9, h10, h11, h12⟩ := e
  exact h.trans ⟨h1, h2, Nat.le_of_eq h3.symm, h4 ▸ id, h5 ▸ id, h6 ▸ id, h7 ▸ id, h8 ▸ id, h9 ▸ id, h10 ▸ id, h11 ▸ id, h12 ▸ id⟩

/-- A use of free values beside an update of other fields. -/
theorem Kept.fresh {r s t : State} (h : Kept r s) (n : Nat)
    (e : (t.pending, t.nowUs, t.free, t.tier1, t.hostMem, t.nvw, t.poison, t.drone, t.cores, t.ctxs, t.queues, t.rings) =
      (s.pending, s.nowUs, s.free + n, s.tier1, s.hostMem, s.nvw, s.poison, s.drone, s.cores, s.ctxs, s.queues, s.rings)) :
    Kept r t := by
  simp only [Prod.mk.injEq] at e
  obtain ⟨h1, h2, h3, h4, h5, h6, h7, h8, h9, h10, h11, h12⟩ := e
  exact h.trans ⟨h1, h2, h3 ▸ Nat.le_add_right _ _, h4 ▸ id, h5 ▸ id, h6 ▸ id, h7 ▸ id, h8 ▸ id, h9 ▸ id, h10 ▸ id, h11 ▸ id, h12 ▸ id⟩

theorem Kept.ite {r a b : State} {c : Prop} [Decidable c] (ha : Kept r a) (hb : Kept r b) : Kept r (if c then a else b) := by
  split <;> assumption

theorem Kept.useFree {r s : State} (n : Nat) (h : Kept r s) : Kept r { s with free := s.free + n } := h.fresh n rfl

theorem Kept.setTier1 {r s : State} (m : Map Byte) (hm : Memory.wf s.tier1 = true → Memory.wf m = true) (h : Kept r s) :
    Kept r { s with tier1 := m } :=
  h.trans ⟨rfl, rfl, Nat.le_refl _, hm, id, id, id, id, id, id, id, id⟩
theorem Kept.setHostMem {r s : State} (m : Map Byte) (hm : Memory.wf s.hostMem = true → Memory.wf m = true) (h : Kept r s) :
    Kept r { s with hostMem := m } :=
  h.trans ⟨rfl, rfl, Nat.le_refl _, id, hm, id, id, id, id, id, id, id⟩
theorem Kept.setNvw {r s : State} (m : Map Byte) (hm : Memory.wf s.nvw = true → Memory.wf m = true) (h : Kept r s) :
    Kept r { s with nvw := m } :=
  h.trans ⟨rfl, rfl, Nat.le_refl _, id, id, hm, id, id, id, id, id, id⟩
theorem Kept.setPoison {r s : State} (k : Nat) (v : Bool) (h : Kept r s) : Kept r { s with poison := mapSet false s.poison k v } :=
  h.trans ⟨rfl, rfl, Nat.le_refl _, id, id, id, mapWf_mapSet _ _ _ _, id, id, id, id, id⟩
theorem Kept.setDrone {r s : State} (k v : Nat) (h : Kept r s) : Kept r { s with drone := mapSet 0 s.drone k v } :=
  h.trans ⟨rfl, rfl, Nat.le_refl _, id, id, id, id, mapWf_mapSet _ _ _ _, id, id, id, id⟩
theorem Kept.setCores {r s : State} (m : Map Core) (hm : mapWf Core.start s.cores = true → mapWf Core.start m = true) (h : Kept r s) :
    Kept r { s with cores := m } :=
  h.trans ⟨rfl, rfl, Nat.le_refl _, id, id, id, id, id, hm, id, id, id⟩
theorem Kept.setCtxs {r s : State} (m : Map Ctx) (hm : mapWf Ctx.start s.ctxs = true → mapWf Ctx.start m = true) (h : Kept r s) :
    Kept r { s with ctxs := m } :=
  h.trans ⟨rfl, rfl, Nat.le_refl _, id, id, id, id, id, id, hm, id, id⟩
theorem Kept.setQueues {r s : State} (m : Map Queue) (hm : mapWf Queue.start s.queues = true → mapWf Queue.start m = true)
    (h : Kept r s) : Kept r { s with queues := m } :=
  h.trans ⟨rfl, rfl, Nat.le_refl _, id, id, id, id, id, id, id, hm, id⟩
theorem Kept.setRings {r s : State} (m : Map Ring) (hm : mapWf Ring.start s.rings = true → mapWf Ring.start m = true) (h : Kept r s) :
    Kept r { s with rings := m } :=
  h.trans ⟨rfl, rfl, Nat.le_refl _, id, id, id, id, id, id, id, id, hm⟩

theorem Kept.foldl {α : Type} {r s : State} {f : State → α → State} (l : List α)
    (hf : ∀ a x, Kept r a → Kept r (f a x)) (h : Kept r s) : Kept r (l.foldl f s) := by
  induction l generalizing s with
  | nil => exact h
  | cons x l ih => exact ih (hf s x h)

end Sys2Proof.Machine
end

