-- ==== Sys2Proof/Laws/KeptCore.lean ====
section
/-! SUPPORT. Kept for the operations of cores: registers, memory, effects, traps, issue and completion: one lemma each, for a composition of any of them. -/
namespace Sys2Proof.Machine
set_option linter.unusedTactic false
set_option linter.unreachableTactic false

theorem State.setCore_kept {r0 s : State} (c : Nat) (k : Core) (hk : Kept r0 s) :
    Kept r0 (State.setCore s c k) :=
  ⟨hk.pending, hk.nowUs, hk.free, hk.tier1, hk.hostMem, hk.nvw, hk.poison, hk.drone, fun w => mapWf_mapSet _ _ _ _ (hk.cores w), hk.ctxs, hk.queues, hk.rings⟩

theorem State.setByte_kept {r0 s : State} (l : Loc) (a : Nat) (b : Byte) (hk : Kept r0 s) : Kept r0 (State.setByte s l a b) := by
  cases l with
  | scratch c => exact State.setCore_kept _ _ hk
  | tier1 x => exact ⟨hk.pending, hk.nowUs, hk.free, fun w => memory_wf_mapSet _ _ _ (hk.tier1 w), hk.hostMem, hk.nvw, hk.poison, hk.drone, hk.cores, hk.ctxs, hk.queues, hk.rings⟩
  | host base => exact ⟨hk.pending, hk.nowUs, hk.free, hk.tier1, fun w => memory_wf_mapSet _ _ _ (hk.hostMem w), hk.nvw, hk.poison, hk.drone, hk.cores, hk.ctxs, hk.queues, hk.rings⟩
  | teacher x => exact hk
  | absent => exact hk

theorem State.setBytes_kept {r0 s : State} (l : Loc) (a : Nat) (l1 : List Byte) (hk : Kept r0 s) :
    Kept r0 (State.setBytes s l a l1) := by
  induction l1 generalizing s l a with
  | nil => exact hk
  | cons y l ih =>
    unfold State.setBytes
    repeat' first
      | with_reducible assumption
      | with_reducible apply ih
      | with_reducible apply State.setByte_kept
      | split
      | with_reducible apply Kept.foldl
      | intro _ _ _
      | intro _ _
      | with_reducible exact Kept.refl _
      | with_reducible apply Kept.useFree
      | (refine Kept.other (s := ?_) ?_ ?_; rotate_left 2; (dsimp only; with_reducible rfl))
      | (refine Kept.fresh (s := ?_) ?_ 1 ?_; rotate_left 2; (dsimp only; with_reducible rfl))

theorem State.renewTag_kept {r0 s : State} (key : Nat) (hk : Kept r0 s) :
    Kept r0 (State.renewTag s key) := by
  unfold State.renewTag
  repeat' first
    | with_reducible assumption
    | split
    | with_reducible apply Kept.foldl
    | intro _ _ _
    | intro _ _
    | with_reducible exact Kept.refl _
    | with_reducible apply Kept.useFree
    | (refine Kept.other (s := ?_) ?_ ?_; rotate_left 2; (dsimp only; with_reducible rfl))
    | (refine Kept.fresh (s := ?_) ?_ 1 ?_; rotate_left 2; (dsimp only; with_reducible rfl))

theorem State.markGranules_kept {r0 s : State} (f : Nat → Nat) (a n origin l1 : Nat) (hk : Kept r0 s) :
    Kept r0 (State.markGranules s f a n origin l1) := by
  induction l1 generalizing s with
  | zero => exact hk
  | succ y ih =>
    refine ih (State.renewTag_kept _ ?_)
    have h1 : Kept r0 (if origin ≠ 0 then { s with drone := mapSet 0 s.drone (f ((a / granule + y) * granule) / granule) origin }
        else if (decide (a ≤ (a / granule + y) * granule) && decide ((a / granule + y + 1) * granule ≤ a + n)) = true then
          { s with drone := mapSet 0 s.drone (f ((a / granule + y) * granule) / granule) 0 } else s) :=
      Kept.ite (Kept.setDrone _ _ hk) (Kept.ite (Kept.setDrone _ _ hk) hk)
    exact Kept.ite (Kept.setPoison _ _ h1) h1

theorem State.put_kept {r0 s : State} (l : Loc) (a : Nat) (origin : Nat) (bs : List Byte) (hk : Kept r0 s) :
    Kept r0 (State.put s l a origin bs) := by
  unfold State.put
  repeat' first
    | with_reducible assumption
    | with_reducible apply State.setBytes_kept
    | with_reducible apply State.markGranules_kept
    | split
    | with_reducible apply Kept.foldl
    | intro _ _ _
    | intro _ _
    | with_reducible exact Kept.refl _
    | with_reducible apply Kept.useFree
    | (refine Kept.other (s := ?_) ?_ ?_; rotate_left 2; (dsimp only; with_reducible rfl))
    | (refine Kept.fresh (s := ?_) ?_ 1 ?_; rotate_left 2; (dsimp only; with_reducible rfl))

theorem State.backInvalidate_kept {r0 s : State} (p : Nat → Bool) (hk : Kept r0 s) :
    Kept r0 (State.backInvalidate s p) := by
  unfold State.backInvalidate
  repeat' first
    | with_reducible assumption
    | split
    | with_reducible apply Kept.foldl
    | intro _ _ _
    | intro _ _
    | with_reducible exact Kept.refl _
    | with_reducible apply Kept.useFree
    | (refine Kept.other (s := ?_) ?_ ?_; rotate_left 2; (dsimp only; with_reducible rfl))
    | (refine Kept.fresh (s := ?_) ?_ 1 ?_; rotate_left 2; (dsimp only; with_reducible rfl))

theorem State.store_kept {r0 s : State} (l : Loc) (a : Nat) (origin : Nat) (bs : List Byte) (hk : Kept r0 s) :
    Kept r0 (State.store s l a origin bs) := by
  unfold State.store
  repeat' first
    | with_reducible assumption
    | with_reducible apply State.put_kept
    | with_reducible apply State.backInvalidate_kept
    | split
    | with_reducible apply Kept.foldl
    | intro _ _ _
    | intro _ _
    | with_reducible exact Kept.refl _
    | with_reducible apply Kept.useFree
    | (refine Kept.other (s := ?_) ?_ ?_; rotate_left 2; (dsimp only; with_reducible rfl))
    | (refine Kept.fresh (s := ?_) ?_ 1 ?_; rotate_left 2; (dsimp only; with_reducible rfl))

theorem State.setCtx_kept {r0 s : State} (x : Nat) (k : Ctx) (hk : Kept r0 s) :
    Kept r0 (State.setCtx s x k) :=
  ⟨hk.pending, hk.nowUs, hk.free, hk.tier1, hk.hostMem, hk.nvw, hk.poison, hk.drone, hk.cores, fun w => mapWf_mapSet _ _ _ _ (hk.ctxs w), hk.queues, hk.rings⟩

theorem State.wr_kept {r0 s : State} (base : Nat) (f : Field) (v : Nat) (hk : Kept r0 s) :
    Kept r0 (State.wr s base f v) := by
  unfold State.wr
  repeat' first
    | with_reducible assumption
    | split
    | with_reducible apply Kept.foldl
    | intro _ _ _
    | intro _ _
    | with_reducible exact Kept.refl _
    | with_reducible apply Kept.useFree
    | (refine Kept.other (s := ?_) ?_ ?_; rotate_left 2; (dsimp only; with_reducible rfl))
    | (refine Kept.fresh (s := ?_) ?_ 1 ?_; rotate_left 2; (dsimp only; with_reducible rfl))

theorem State.ctxStatus_kept {r0 s : State} (x : Nat) (v : Nat) (hk : Kept r0 s) :
    Kept r0 (State.ctxStatus s x v) := by
  unfold State.ctxStatus
  repeat' first
    | with_reducible assumption
    | with_reducible apply State.wr_kept
    | split
    | with_reducible apply Kept.foldl
    | intro _ _ _
    | intro _ _
    | with_reducible exact Kept.refl _
    | with_reducible apply Kept.useFree
    | (refine Kept.other (s := ?_) ?_ ?_; rotate_left 2; (dsimp only; with_reducible rfl))
    | (refine Kept.fresh (s := ?_) ?_ 1 ?_; rotate_left 2; (dsimp only; with_reducible rfl))

theorem State.drainCore_kept {r0 s : State} (c : Nat) (hk : Kept r0 s) :
    Kept r0 (State.drainCore s c) := by
  unfold State.drainCore
  repeat' first
    | with_reducible assumption
    | with_reducible apply State.setCore_kept
    | split
    | with_reducible apply Kept.foldl
    | intro _ _ _
    | intro _ _
    | with_reducible exact Kept.refl _
    | with_reducible apply Kept.useFree
    | (refine Kept.other (s := ?_) ?_ ?_; rotate_left 2; (dsimp only; with_reducible rfl))
    | (refine Kept.fresh (s := ?_) ?_ 1 ?_; rotate_left 2; (dsimp only; with_reducible rfl))

theorem State.drainCores_kept {r0 s : State} (l1 : List (Nat × Nat)) (hk : Kept r0 s) :
    Kept r0 (State.drainCores s l1) := by
  induction l1 generalizing s with
  | nil => exact hk
  | cons y l ih =>
    unfold State.drainCores
    repeat' first
      | with_reducible assumption
      | with_reducible apply ih
      | with_reducible apply State.drainCore_kept
      | split
      | with_reducible apply Kept.foldl
      | intro _ _ _
      | intro _ _
      | with_reducible exact Kept.refl _
      | with_reducible apply Kept.useFree
      | (refine Kept.other (s := ?_) ?_ ?_; rotate_left 2; (dsimp only; with_reducible rfl))
      | (refine Kept.fresh (s := ?_) ?_ 1 ?_; rotate_left 2; (dsimp only; with_reducible rfl))

theorem State.setCtxState_kept {r0 s : State} (x : Nat) (v : Nat) (hk : Kept r0 s) :
    Kept r0 (State.setCtxState s x v) := by
  unfold State.setCtxState
  repeat' first
    | with_reducible assumption
    | with_reducible apply State.wr_kept
    | split
    | with_reducible apply Kept.foldl
    | intro _ _ _
    | intro _ _
    | with_reducible exact Kept.refl _
    | with_reducible apply Kept.useFree
    | (refine Kept.other (s := ?_) ?_ ?_; rotate_left 2; (dsimp only; with_reducible rfl))
    | (refine Kept.fresh (s := ?_) ?_ 1 ?_; rotate_left 2; (dsimp only; with_reducible rfl))

theorem State.setRing_kept {r0 s : State} (r : Nat) (k : Ring) (hk : Kept r0 s) :
    Kept r0 (State.setRing s r k) :=
  ⟨hk.pending, hk.nowUs, hk.free, hk.tier1, hk.hostMem, hk.nvw, hk.poison, hk.drone, hk.cores, hk.ctxs, hk.queues, fun w => mapWf_mapSet _ _ _ _ (hk.rings w)⟩

theorem State.bump_kept {r0 s : State} (base : Nat) (f : Field) (n : Nat) (hk : Kept r0 s) :
    Kept r0 (State.bump s base f n) := by
  unfold State.bump
  repeat' first
    | with_reducible assumption
    | with_reducible apply State.wr_kept
    | split
    | with_reducible apply Kept.foldl
    | intro _ _ _
    | intro _ _
    | with_reducible exact Kept.refl _
    | with_reducible apply Kept.useFree
    | (refine Kept.other (s := ?_) ?_ ?_; rotate_left 2; (dsimp only; with_reducible rfl))
    | (refine Kept.fresh (s := ?_) ?_ 1 ?_; rotate_left 2; (dsimp only; with_reducible rfl))

theorem State.settleRing_kept {r0 s : State} (r : Nat) (hk : Kept r0 s) :
    Kept r0 (State.settleRing s r) := by
  unfold State.settleRing
  repeat' first
    | with_reducible assumption
    | with_reducible apply State.wr_kept
    | with_reducible apply State.setRing_kept
    | split
    | with_reducible apply Kept.foldl
    | intro _ _ _
    | intro _ _
    | with_reducible exact Kept.refl _
    | with_reducible apply Kept.useFree
    | (refine Kept.other (s := ?_) ?_ ?_; rotate_left 2; (dsimp only; with_reducible rfl))
    | (refine Kept.fresh (s := ?_) ?_ 1 ?_; rotate_left 2; (dsimp only; with_reducible rfl))

theorem State.post_kept {r0 s : State} (t : Ticket) (final : Bool) (status : Nat) (c0 : Nat) (c1 : Nat) (hk : Kept r0 s) :
    Kept r0 (State.post s t final status c0 c1) := by
  unfold State.post
  repeat' first
    | with_reducible assumption
    | with_reducible apply State.setRing_kept
    | with_reducible apply State.bump_kept
    | with_reducible apply State.settleRing_kept
    | split
    | with_reducible apply Kept.foldl
    | intro _ _ _
    | intro _ _
    | with_reducible exact Kept.refl _
    | with_reducible apply Kept.useFree
    | (refine Kept.other (s := ?_) ?_ ?_; rotate_left 2; (dsimp only; with_reducible rfl))
    | (refine Kept.fresh (s := ?_) ?_ 1 ?_; rotate_left 2; (dsimp only; with_reducible rfl))

theorem State.finishTickets_kept {r0 s : State} (x : Nat) (op : Nat) (code : Nat) (hk : Kept r0 s) :
    Kept r0 (State.finishTickets s x op code) := by
  unfold State.finishTickets
  repeat' first
    | with_reducible assumption
    | with_reducible apply State.setCtx_kept
    | with_reducible apply State.post_kept
    | split
    | with_reducible apply Kept.foldl
    | intro _ _ _
    | intro _ _
    | with_reducible exact Kept.refl _
    | with_reducible apply Kept.useFree
    | (refine Kept.other (s := ?_) ?_ ?_; rotate_left 2; (dsimp only; with_reducible rfl))
    | (refine Kept.fresh (s := ?_) ?_ 1 ?_; rotate_left 2; (dsimp only; with_reducible rfl))

theorem State.sendMsix_kept {r0 s : State} (f : CxlId) (v : Nat) (hk : Kept r0 s) :
    Kept r0 (State.sendMsix s f v) := by
  unfold State.sendMsix
  repeat' first
    | with_reducible assumption
    | split
    | with_reducible apply Kept.foldl
    | intro _ _ _
    | intro _ _
    | with_reducible exact Kept.refl _
    | with_reducible apply Kept.useFree
    | (refine Kept.other (s := ?_) ?_ ?_; rotate_left 2; (dsimp only; with_reducible rfl))
    | (refine Kept.fresh (s := ?_) ?_ 1 ?_; rotate_left 2; (dsimp only; with_reducible rfl))

theorem State.eventMsg_kept {r0 s : State}  (hk : Kept r0 s) :
    Kept r0 (State.eventMsg s) := by
  unfold State.eventMsg
  repeat' first
    | with_reducible assumption
    | with_reducible apply State.sendMsix_kept
    | split
    | with_reducible apply Kept.foldl
    | intro _ _ _
    | intro _ _
    | with_reducible exact Kept.refl _
    | with_reducible apply Kept.useFree
    | (refine Kept.other (s := ?_) ?_ ?_; rotate_left 2; (dsimp only; with_reducible rfl))
    | (refine Kept.fresh (s := ?_) ?_ 1 ?_; rotate_left 2; (dsimp only; with_reducible rfl))

theorem State.event_kept {r0 s : State} (f : Field) (hk : Kept r0 s) :
    Kept r0 (State.event s f) := by
  unfold State.event
  repeat' first
    | with_reducible assumption
    | with_reducible apply State.wr_kept
    | with_reducible apply State.eventMsg_kept
    | split
    | with_reducible apply Kept.foldl
    | intro _ _ _
    | intro _ _
    | with_reducible exact Kept.refl _
    | with_reducible apply Kept.useFree
    | (refine Kept.other (s := ?_) ?_ ?_; rotate_left 2; (dsimp only; with_reducible rfl))
    | (refine Kept.fresh (s := ?_) ?_ 1 ?_; rotate_left 2; (dsimp only; with_reducible rfl))

theorem State.finishLoads_kept {r0 s : State} (x code : Nat) (hk : Kept r0 s) : Kept r0 (s.finishLoads x code).1 :=
  Kept.foldl _ (fun _ _ h => State.post_kept _ _ _ _ _ h) (State.setCtx_kept _ _ hk)
theorem State.enterStopped_kept {r0 s : State} (x code0 : Nat) (hk : Kept r0 s) : Kept r0 (State.enterStopped s x code0) := by
  have h4 := State.finishTickets_kept x 4 0 (State.finishLoads_kept x (haltCode (s.ctx x).saved code0)
    (State.ctxStatus_kept x (if decide (s.rd (Reg.ctx x) Reg.CTX_STEP_STATE = 6) = true then 0x9201 else haltCode (s.ctx x).saved code0)
      (State.setCtxState_kept x stStopped (State.setCtx_kept x { s.ctx x with goal := none, phase := .drain } hk))))
  exact Kept.ite h4 (State.event_kept _ h4)

theorem State.haltCtx_kept {r0 s : State} (x : Nat) (code : Nat) (hk : Kept r0 s) :
    Kept r0 (State.haltCtx s x code) := by
  unfold State.haltCtx
  repeat' first
    | with_reducible assumption
    | with_reducible apply State.setCtx_kept
    | with_reducible apply State.ctxStatus_kept
    | with_reducible apply State.wr_kept
    | with_reducible apply State.drainCores_kept
    | with_reducible apply State.setCtxState_kept
    | with_reducible apply State.enterStopped_kept
    | with_reducible apply State.event_kept
    | split
    | with_reducible apply Kept.foldl
    | intro _ _ _
    | intro _ _
    | with_reducible exact Kept.refl _
    | with_reducible apply Kept.useFree
    | (refine Kept.other (s := ?_) ?_ ?_; rotate_left 2; (dsimp only; with_reducible rfl))
    | (refine Kept.fresh (s := ?_) ?_ 1 ?_; rotate_left 2; (dsimp only; with_reducible rfl))

theorem State.setQueue_kept {r0 s : State} (x : Nat) (q : Nat) (k : Queue) (hk : Kept r0 s) :
    Kept r0 (State.setQueue s x q k) :=
  ⟨hk.pending, hk.nowUs, hk.free, hk.tier1, hk.hostMem, hk.nvw, hk.poison, hk.drone, hk.cores, hk.ctxs, fun w => mapWf_mapSet _ _ _ _ (hk.queues w), hk.rings⟩

theorem State.setPort_kept {r0 s : State} (p : Nat) (k : Port) (hk : Kept r0 s) :
    Kept r0 (State.setPort s p k) := by
  unfold State.setPort
  repeat' first
    | with_reducible assumption
    | split
    | with_reducible apply Kept.foldl
    | intro _ _ _
    | intro _ _
    | with_reducible exact Kept.refl _
    | with_reducible apply Kept.useFree
    | (refine Kept.other (s := ?_) ?_ ?_; rotate_left 2; (dsimp only; with_reducible rfl))
    | (refine Kept.fresh (s := ?_) ?_ 1 ?_; rotate_left 2; (dsimp only; with_reducible rfl))

theorem State.setPhys_kept {r0 s : State} (l : Nat) (c : Nat) (hk : Kept r0 s) :
    Kept r0 (State.setPhys s l c) := by
  unfold State.setPhys
  repeat' first
    | with_reducible assumption
    | split
    | with_reducible apply Kept.foldl
    | intro _ _ _
    | intro _ _
    | with_reducible exact Kept.refl _
    | with_reducible apply Kept.useFree
    | (refine Kept.other (s := ?_) ?_ ?_; rotate_left 2; (dsimp only; with_reducible rfl))
    | (refine Kept.fresh (s := ?_) ?_ 1 ?_; rotate_left 2; (dsimp only; with_reducible rfl))

theorem State.setFree_kept {r0 s : State} (h : Nat) (c : Nat) (hk : Kept r0 s) :
    Kept r0 (State.setFree s h c) := by
  unfold State.setFree
  repeat' first
    | with_reducible assumption
    | split
    | with_reducible apply Kept.foldl
    | intro _ _ _
    | intro _ _
    | with_reducible exact Kept.refl _
    | with_reducible apply Kept.useFree
    | (refine Kept.other (s := ?_) ?_ ?_; rotate_left 2; (dsimp only; with_reducible rfl))
    | (refine Kept.fresh (s := ?_) ?_ 1 ?_; rotate_left 2; (dsimp only; with_reducible rfl))

theorem State.inc_kept {r0 s : State} (base : Nat) (f : Field) (hk : Kept r0 s) :
    Kept r0 (State.inc s base f) := by
  unfold State.inc
  repeat' first
    | with_reducible assumption
    | with_reducible apply State.wr_kept
    | split
    | with_reducible apply Kept.foldl
    | intro _ _ _
    | intro _ _
    | with_reducible exact Kept.refl _
    | with_reducible apply Kept.useFree
    | (refine Kept.other (s := ?_) ?_ ?_; rotate_left 2; (dsimp only; with_reducible rfl))
    | (refine Kept.fresh (s := ?_) ?_ 1 ?_; rotate_left 2; (dsimp only; with_reducible rfl))

theorem State.done_kept {r0 s : State} (e : Entry) (op : Nat) (status : Nat) (hk : Kept r0 s) :
    Kept r0 (State.done s e op status) := by
  unfold State.done
  repeat' first
    | with_reducible assumption
    | with_reducible apply State.post_kept
    | split
    | with_reducible apply Kept.foldl
    | intro _ _ _
    | intro _ _
    | with_reducible exact Kept.refl _
    | with_reducible apply Kept.useFree
    | (refine Kept.other (s := ?_) ?_ ?_; rotate_left 2; (dsimp only; with_reducible rfl))
    | (refine Kept.fresh (s := ?_) ?_ 1 ?_; rotate_left 2; (dsimp only; with_reducible rfl))

theorem State.resetFields_kept {r0 s : State} (base : Nat) (l1 : List Field) (hk : Kept r0 s) :
    Kept r0 (State.resetFields s base l1) := by
  induction l1 generalizing s base with
  | nil => exact hk
  | cons y l ih =>
    unfold State.resetFields
    repeat' first
      | with_reducible assumption
      | with_reducible apply ih
      | with_reducible apply State.wr_kept
      | split
      | with_reducible apply Kept.foldl
      | intro _ _ _
      | intro _ _
      | with_reducible exact Kept.refl _
      | with_reducible apply Kept.useFree
      | (refine Kept.other (s := ?_) ?_ ?_; rotate_left 2; (dsimp only; with_reducible rfl))
      | (refine Kept.fresh (s := ?_) ?_ 1 ?_; rotate_left 2; (dsimp only; with_reducible rfl))

theorem State.signal_kept {r0 s : State} (x : Nat) (n : Nat) (inc : Nat) (c : Option CoreId) (hk : Kept r0 s) :
    Kept r0 (State.signal s x n inc c) := by
  unfold State.signal
  repeat' first
    | with_reducible assumption
    | split
    | with_reducible apply Kept.foldl
    | intro _ _ _
    | intro _ _
    | with_reducible exact Kept.refl _
    | with_reducible apply Kept.useFree
    | (refine Kept.other (s := ?_) ?_ ?_; rotate_left 2; (dsimp only; with_reducible rfl))
    | (refine Kept.fresh (s := ?_) ?_ 1 ?_; rotate_left 2; (dsimp only; with_reducible rfl))

theorem State.incBy_kept {r0 s : State} (base : Nat) (f : Field) (n : Nat) (hk : Kept r0 s) :
    Kept r0 (State.incBy s base f n) := by
  unfold State.incBy
  repeat' first
    | with_reducible assumption
    | with_reducible apply State.wr_kept
    | split
    | with_reducible apply Kept.foldl
    | intro _ _ _
    | intro _ _
    | with_reducible exact Kept.refl _
    | with_reducible apply Kept.useFree
    | (refine Kept.other (s := ?_) ?_ ?_; rotate_left 2; (dsimp only; with_reducible rfl))
    | (refine Kept.fresh (s := ?_) ?_ 1 ?_; rotate_left 2; (dsimp only; with_reducible rfl))

theorem State.goTo_kept {r0 s : State} (c : Nat) (t : Word) (hk : Kept r0 s) :
    Kept r0 (State.goTo s c t) := by
  unfold State.goTo
  repeat' first
    | with_reducible assumption
    | with_reducible apply State.setCore_kept
    | split
    | with_reducible apply Kept.foldl
    | intro _ _ _
    | intro _ _
    | with_reducible exact Kept.refl _
    | with_reducible apply Kept.useFree
    | (refine Kept.other (s := ?_) ?_ ?_; rotate_left 2; (dsimp only; with_reducible rfl))
    | (refine Kept.fresh (s := ?_) ?_ 1 ?_; rotate_left 2; (dsimp only; with_reducible rfl))

theorem State.takeTrap_kept {r0 s : State} (c : Nat) (rec : BitVec 2048) (hk : Kept r0 s) :
    Kept r0 (State.takeTrap s c rec) := by
  unfold State.takeTrap
  repeat' first
    | with_reducible assumption
    | with_reducible apply State.setCore_kept
    | with_reducible apply State.haltCtx_kept
    | split
    | with_reducible apply Kept.foldl
    | intro _ _ _
    | intro _ _
    | with_reducible exact Kept.refl _
    | with_reducible apply Kept.useFree
    | (refine Kept.other (s := ?_) ?_ ?_; rotate_left 2; (dsimp only; with_reducible rfl))
    | (refine Kept.fresh (s := ?_) ?_ 1 ?_; rotate_left 2; (dsimp only; with_reducible rfl))

theorem State.fillLine_kept {r0 s : State} (c : Nat) (line : Nat) (hk : Kept r0 s) :
    Kept r0 (State.fillLine s c line) := by
  unfold State.fillLine
  repeat' first
    | with_reducible assumption
    | with_reducible apply State.setCore_kept
    | split
    | with_reducible apply Kept.foldl
    | intro _ _ _
    | intro _ _
    | with_reducible exact Kept.refl _
    | with_reducible apply Kept.useFree
    | (refine Kept.other (s := ?_) ?_ ?_; rotate_left 2; (dsimp only; with_reducible rfl))
    | (refine Kept.fresh (s := ?_) ?_ 1 ?_; rotate_left 2; (dsimp only; with_reducible rfl))

theorem State.storeAt_kept {r0 s : State} (a : Nat) (bs : List Byte) (hk : Kept r0 s) : Kept r0 (State.storeAt s a bs) :=
  State.markGranules_kept _ _ _ _ _ (Kept.setTier1 _ (memory_wf_mapWrite _ _ _) hk)

theorem State.zeroTier1_kept {r0 s0 : State} (p : Nat → Bool) (hk : Kept r0 s0) :
    Kept r0 (State.zeroTier1 s0 p) :=
  ⟨hk.pending, hk.nowUs, hk.free, fun w => memory_wf_mapClear _ _ (hk.tier1 w), hk.hostMem, hk.nvw, fun w => mapWf_mapClear _ (fun g => p (g * granule)) _ (hk.poison w), fun w => mapWf_mapClear _ (fun g => p (g * granule)) _ (hk.drone w), hk.cores, hk.ctxs, hk.queues, hk.rings⟩

theorem State.zeroRegion_kept {r0 s : State} (x : Nat) (lo : Nat) (n : Nat) (hk : Kept r0 s) :
    Kept r0 (State.zeroRegion s x lo n) := by
  unfold State.zeroRegion
  repeat' first
    | with_reducible assumption
    | with_reducible apply State.zeroTier1_kept
    | split
    | with_reducible apply Kept.foldl
    | intro _ _ _
    | intro _ _
    | with_reducible exact Kept.refl _
    | with_reducible apply Kept.useFree
    | (refine Kept.other (s := ?_) ?_ ?_; rotate_left 2; (dsimp only; with_reducible rfl))
    | (refine Kept.fresh (s := ?_) ?_ 1 ?_; rotate_left 2; (dsimp only; with_reducible rfl))

theorem State.fillLines_kept {r0 s : State} (c : Nat) (l1 : List Nat) (hk : Kept r0 s) :
    Kept r0 (State.fillLines s c l1) := by
  induction l1 generalizing s c with
  | nil => exact hk
  | cons y l ih =>
    unfold State.fillLines
    repeat' first
      | with_reducible assumption
      | with_reducible apply ih
      | with_reducible apply State.fillLine_kept
      | split
      | with_reducible apply Kept.foldl
      | intro _ _ _
      | intro _ _
      | with_reducible exact Kept.refl _
      | with_reducible apply Kept.useFree
      | (refine Kept.other (s := ?_) ?_ ?_; rotate_left 2; (dsimp only; with_reducible rfl))
      | (refine Kept.fresh (s := ?_) ?_ 1 ?_; rotate_left 2; (dsimp only; with_reducible rfl))

theorem State.preload_kept {r0 s : State} (c : Nat) (p : Program) (hk : Kept r0 s) :
    Kept r0 (State.preload s c p) := by
  unfold State.preload
  repeat' first
    | with_reducible assumption
    | with_reducible apply State.fillLines_kept
    | split
    | with_reducible apply Kept.foldl
    | intro _ _ _
    | intro _ _
    | with_reducible exact Kept.refl _
    | with_reducible apply Kept.useFree
    | (refine Kept.other (s := ?_) ?_ ?_; rotate_left 2; (dsimp only; with_reducible rfl))
    | (refine Kept.fresh (s := ?_) ?_ 1 ?_; rotate_left 2; (dsimp only; with_reducible rfl))

theorem State.renewRange_kept {r0 s : State} (l1 : List Nat) (hk : Kept r0 s) :
    Kept r0 (State.renewRange s l1) := by
  induction l1 generalizing s with
  | nil => exact hk
  | cons y l ih =>
    unfold State.renewRange
    repeat' first
      | with_reducible assumption
      | with_reducible apply ih
      | with_reducible apply State.renewTag_kept
      | split
      | with_reducible apply Kept.foldl
      | intro _ _ _
      | intro _ _
      | with_reducible exact Kept.refl _
      | with_reducible apply Kept.useFree
      | (refine Kept.other (s := ?_) ?_ ?_; rotate_left 2; (dsimp only; with_reducible rfl))
      | (refine Kept.fresh (s := ?_) ?_ 1 ?_; rotate_left 2; (dsimp only; with_reducible rfl))

theorem State.asRead_kept {r0 s : State} (c : Nat) (i : InFlight) (hk : Kept r0 s) :
    Kept r0 (State.asRead s c i) := by
  unfold State.asRead
  repeat' first
    | with_reducible assumption
    | with_reducible apply State.setCore_kept
    | split
    | with_reducible apply Kept.foldl
    | intro _ _ _
    | intro _ _
    | with_reducible exact Kept.refl _
    | with_reducible apply Kept.useFree
    | (refine Kept.other (s := ?_) ?_ ?_; rotate_left 2; (dsimp only; with_reducible rfl))
    | (refine Kept.fresh (s := ?_) ?_ 1 ?_; rotate_left 2; (dsimp only; with_reducible rfl))

theorem storeAll_kept {r0 s : State} (origin : Nat) (l1 : List MemWrite) (hk : Kept r0 s) :
    Kept r0 (storeAll s origin l1) := by
  induction l1 generalizing s origin with
  | nil => exact hk
  | cons y l ih =>
    unfold storeAll
    repeat' first
      | with_reducible assumption
      | with_reducible apply ih
      | with_reducible apply State.store_kept
      | split
      | with_reducible apply Kept.foldl
      | intro _ _ _
      | intro _ _
      | with_reducible exact Kept.refl _
      | with_reducible apply Kept.useFree
      | (refine Kept.other (s := ?_) ?_ ?_; rotate_left 2; (dsimp only; with_reducible rfl))
      | (refine Kept.fresh (s := ?_) ?_ 1 ?_; rotate_left 2; (dsimp only; with_reducible rfl))

theorem State.addDue_kept {r0 s : State} (c : Nat) (d : Deferred) (hk : Kept r0 s) :
    Kept r0 (State.addDue s c d) := by
  unfold State.addDue
  repeat' first
    | with_reducible assumption
    | with_reducible apply State.setCore_kept
    | split
    | with_reducible apply Kept.foldl
    | intro _ _ _
    | intro _ _
    | with_reducible exact Kept.refl _
    | with_reducible apply Kept.useFree
    | (refine Kept.other (s := ?_) ?_ ?_; rotate_left 2; (dsimp only; with_reducible rfl))
    | (refine Kept.fresh (s := ?_) ?_ 1 ?_; rotate_left 2; (dsimp only; with_reducible rfl))

theorem State.deferTrap_kept {r0 s : State} (c : Nat) (i : InFlight) (p : PostTrap) (after : Bool) (hk : Kept r0 s) :
    Kept r0 (State.deferTrap s c i p after) := by
  unfold State.deferTrap
  repeat' first
    | with_reducible assumption
    | with_reducible apply State.addDue_kept
    | split
    | with_reducible apply Kept.foldl
    | intro _ _ _
    | intro _ _
    | with_reducible exact Kept.refl _
    | with_reducible apply Kept.useFree
    | (refine Kept.other (s := ?_) ?_ ?_; rotate_left 2; (dsimp only; with_reducible rfl))
    | (refine Kept.fresh (s := ?_) ?_ 1 ?_; rotate_left 2; (dsimp only; with_reducible rfl))

theorem State.control_kept {r0 s : State} (c : CoreId) (i : InFlight) (ctl : Ctl) (hk : Kept r0 s) :
    Kept r0 (State.control s c i ctl) := by
  unfold State.control
  repeat' first
    | with_reducible assumption
    | with_reducible apply State.goTo_kept
    | with_reducible apply State.setCore_kept
    | with_reducible apply State.signal_kept
    | with_reducible apply State.setQueue_kept
    | split
    | with_reducible apply Kept.foldl
    | intro _ _ _
    | intro _ _
    | with_reducible exact Kept.refl _
    | with_reducible apply Kept.useFree
    | (refine Kept.other (s := ?_) ?_ ?_; rotate_left 2; (dsimp only; with_reducible rfl))
    | (refine Kept.fresh (s := ?_) ?_ 1 ?_; rotate_left 2; (dsimp only; with_reducible rfl))

theorem State.trapAtIssue_kept {r0 s : State} (c : Nat) (i : InFlight) (cause : Cause) (hk : Kept r0 s) :
    Kept r0 (State.trapAtIssue s c i cause) := by
  unfold State.trapAtIssue
  repeat' first
    | with_reducible assumption
    | with_reducible apply State.takeTrap_kept
    | split
    | with_reducible apply Kept.foldl
    | intro _ _ _
    | intro _ _
    | with_reducible exact Kept.refl _
    | with_reducible apply Kept.useFree
    | (refine Kept.other (s := ?_) ?_ ?_; rotate_left 2; (dsimp only; with_reducible rfl))
    | (refine Kept.fresh (s := ?_) ?_ 1 ?_; rotate_left 2; (dsimp only; with_reducible rfl))

theorem State.latchNan_kept {r0 s : State} (c : Nat) (i : InFlight) (n : NanPos) (hk : Kept r0 s) :
    Kept r0 (State.latchNan s c i n) := by
  unfold State.latchNan
  repeat' first
    | with_reducible assumption
    | with_reducible apply State.setCore_kept
    | with_reducible apply State.addDue_kept
    | split
    | with_reducible apply Kept.foldl
    | intro _ _ _
    | intro _ _
    | with_reducible exact Kept.refl _
    | with_reducible apply Kept.useFree
    | (refine Kept.other (s := ?_) ?_ ?_; rotate_left 2; (dsimp only; with_reducible rfl))
    | (refine Kept.fresh (s := ?_) ?_ 1 ?_; rotate_left 2; (dsimp only; with_reducible rfl))

theorem State.deferAll_kept {r0 s : State} (c : Nat) (i : InFlight) (l1 : List PostTrap) (hk : Kept r0 s) :
    Kept r0 (State.deferAll s c i l1) := by
  induction l1 generalizing s c i with
  | nil => exact hk
  | cons y l ih =>
    unfold State.deferAll
    repeat' first
      | with_reducible assumption
      | with_reducible apply ih
      | with_reducible apply State.deferTrap_kept
      | split
      | with_reducible apply Kept.foldl
      | intro _ _ _
      | intro _ _
      | with_reducible exact Kept.refl _
      | with_reducible apply Kept.useFree
      | (refine Kept.other (s := ?_) ?_ ?_; rotate_left 2; (dsimp only; with_reducible rfl))
      | (refine Kept.fresh (s := ?_) ?_ 1 ?_; rotate_left 2; (dsimp only; with_reducible rfl))

theorem State.postDeferred_kept {r0 s : State} (c : Nat) (hk : Kept r0 s) :
    Kept r0 (State.postDeferred s c) := by
  unfold State.postDeferred
  repeat' first
    | with_reducible assumption
    | with_reducible apply State.takeTrap_kept
    | split
    | with_reducible apply Kept.foldl
    | intro _ _ _
    | intro _ _
    | with_reducible exact Kept.refl _
    | with_reducible apply Kept.useFree
    | (refine Kept.other (s := ?_) ?_ ?_; rotate_left 2; (dsimp only; with_reducible rfl))
    | (refine Kept.fresh (s := ?_) ?_ 1 ?_; rotate_left 2; (dsimp only; with_reducible rfl))

theorem State.settleHeld_kept {r0 s : State} (c : Nat) (hk : Kept r0 s) :
    Kept r0 (State.settleHeld s c) := by
  unfold State.settleHeld
  repeat' first
    | with_reducible assumption
    | with_reducible apply State.postDeferred_kept
    | split
    | with_reducible apply Kept.foldl
    | intro _ _ _
    | intro _ _
    | with_reducible exact Kept.refl _
    | with_reducible apply Kept.useFree
    | (refine Kept.other (s := ?_) ?_ ?_; rotate_left 2; (dsimp only; with_reducible rfl))
    | (refine Kept.fresh (s := ?_) ?_ 1 ?_; rotate_left 2; (dsimp only; with_reducible rfl))

theorem State.complete_kept {r0 s : State} (c : CoreId) (i : InFlight) (e : Effect) (hk : Kept r0 s) :
    Kept r0 (State.complete s c i e) := by
  unfold State.complete
  extract_lets origin s1 s2 s3 s4 s5
  have h2 : Kept r0 s2 := storeAll_kept _ _ (State.setCore_kept _ _ hk)
  have h3 : Kept r0 s3 := by
    simp only [s3]
    split
    · exact State.latchNan_kept _ _ _ h2
    · exact h2
  have h5 : Kept r0 s5 := State.control_kept _ _ _ (State.deferAll_kept _ _ _ h3)
  clear_value s5
  exact Kept.ite h5 (State.settleHeld_kept _ h5)

theorem State.traceStore_kept {r0 s : State} (x : Nat) (off : Nat) (bs : List Byte) (hk : Kept r0 s) :
    Kept r0 (State.traceStore s x off bs) := by
  unfold State.traceStore
  repeat' first
    | with_reducible assumption
    | with_reducible apply State.store_kept
    | split
    | with_reducible apply Kept.foldl
    | intro _ _ _
    | intro _ _
    | with_reducible exact Kept.refl _
    | with_reducible apply Kept.useFree
    | (refine Kept.other (s := ?_) ?_ ?_; rotate_left 2; (dsimp only; with_reducible rfl))
    | (refine Kept.fresh (s := ?_) ?_ 1 ?_; rotate_left 2; (dsimp only; with_reducible rfl))

theorem State.traceAppend_kept {r0 s : State} (x : Nat) (bs : List Byte) (f : Ctx → Ctx) (hk : Kept r0 s) :
    Kept r0 (State.traceAppend s x bs f) := by
  unfold State.traceAppend
  repeat' first
    | with_reducible assumption
    | with_reducible apply State.setCtx_kept
    | with_reducible apply State.traceStore_kept
    | split
    | with_reducible apply Kept.foldl
    | intro _ _ _
    | intro _ _
    | with_reducible exact Kept.refl _
    | with_reducible apply Kept.useFree
    | (refine Kept.other (s := ?_) ?_ ?_; rotate_left 2; (dsimp only; with_reducible rfl))
    | (refine Kept.fresh (s := ?_) ?_ 1 ?_; rotate_left 2; (dsimp only; with_reducible rfl))

theorem State.importBytes_kept {r0 s : State} (x : Nat) (core : Option LogicalId) (seq : Word) (sl : Slot) (sq : Word) (bs : List Byte) (hk : Kept r0 s) :
    Kept r0 (State.importBytes s x core seq sl sq bs) := by
  unfold State.importBytes
  repeat' first
    | with_reducible assumption
    | with_reducible apply State.traceAppend_kept
    | split
    | with_reducible apply Kept.foldl
    | intro _ _ _
    | intro _ _
    | with_reducible exact Kept.refl _
    | with_reducible apply Kept.useFree
    | (refine Kept.other (s := ?_) ?_ ?_; rotate_left 2; (dsimp only; with_reducible rfl))
    | (refine Kept.fresh (s := ?_) ?_ 1 ?_; rotate_left 2; (dsimp only; with_reducible rfl))

theorem State.traceInst_kept {r0 s : State} (x : Nat) (e : TraceEntry) (hk : Kept r0 s) :
    Kept r0 (State.traceInst s x e) := by
  unfold State.traceInst
  repeat' first
    | with_reducible assumption
    | with_reducible apply State.traceAppend_kept
    | split
    | with_reducible apply Kept.foldl
    | intro _ _ _
    | intro _ _
    | with_reducible exact Kept.refl _
    | with_reducible apply Kept.useFree
    | (refine Kept.other (s := ?_) ?_ ?_; rotate_left 2; (dsimp only; with_reducible rfl))
    | (refine Kept.fresh (s := ?_) ?_ 1 ?_; rotate_left 2; (dsimp only; with_reducible rfl))

theorem State.traceEffect_kept {r0 s1 : State} (c : CoreId) (i : InFlight) (e : Effect) (hk : Kept r0 s1) :
    Kept r0 (State.traceEffect s1 c i e) := by
  unfold State.traceEffect
  repeat' first
    | with_reducible assumption
    | with_reducible apply State.traceInst_kept
    | split
    | with_reducible apply Kept.foldl
    | intro _ _ _
    | intro _ _
    | with_reducible exact Kept.refl _
    | with_reducible apply Kept.useFree
    | (refine Kept.other (s := ?_) ?_ ?_; rotate_left 2; (dsimp only; with_reducible rfl))
    | (refine Kept.fresh (s := ?_) ?_ 1 ?_; rotate_left 2; (dsimp only; with_reducible rfl))

theorem State.completeTraced_kept {r0 s : State} (c : CoreId) (i : InFlight) (e : Effect) (hk : Kept r0 s) :
    Kept r0 (State.completeTraced s c i e) := by
  unfold State.completeTraced
  repeat' first
    | with_reducible assumption
    | with_reducible apply State.complete_kept
    | with_reducible apply State.traceEffect_kept
    | with_reducible apply State.importBytes_kept
    | with_reducible apply State.haltCtx_kept
    | split
    | with_reducible apply Kept.foldl
    | intro _ _ _
    | intro _ _
    | with_reducible exact Kept.refl _
    | with_reducible apply Kept.useFree
    | (refine Kept.other (s := ?_) ?_ ?_; rotate_left 2; (dsimp only; with_reducible rfl))
    | (refine Kept.fresh (s := ?_) ?_ 1 ?_; rotate_left 2; (dsimp only; with_reducible rfl))

theorem State.logFault_kept {r0 s : State} (f : FaultInfo) (hk : Kept r0 s) : Kept r0 (State.logFault s f) :=
  State.event_kept _ (State.bump_kept _ _ _ (Kept.fresh hk 1 rfl))

theorem State.dataFault_kept {r0 s : State} (x : Nat) (code : Nat) (f : FaultInfo) (hk : Kept r0 s) :
    Kept r0 (State.dataFault s x code f) := by
  unfold State.dataFault
  repeat' first
    | with_reducible assumption
    | with_reducible apply State.haltCtx_kept
    | with_reducible apply State.logFault_kept
    | with_reducible apply State.bump_kept
    | split
    | with_reducible apply Kept.foldl
    | intro _ _ _
    | intro _ _
    | with_reducible exact Kept.refl _
    | with_reducible apply Kept.useFree
    | (refine Kept.other (s := ?_) ?_ ?_; rotate_left 2; (dsimp only; with_reducible rfl))
    | (refine Kept.fresh (s := ?_) ?_ 1 ?_; rotate_left 2; (dsimp only; with_reducible rfl))

theorem State.poisonFault_kept {r0 s : State} (x : Nat) (code : Nat) (g : Nat) (hk : Kept r0 s) :
    Kept r0 (State.poisonFault s x code g) := by
  unfold State.poisonFault
  repeat' first
    | with_reducible assumption
    | with_reducible apply State.dataFault_kept
    | split
    | with_reducible apply Kept.foldl
    | intro _ _ _
    | intro _ _
    | with_reducible exact Kept.refl _
    | with_reducible apply Kept.useFree
    | (refine Kept.other (s := ?_) ?_ ?_; rotate_left 2; (dsimp only; with_reducible rfl))
    | (refine Kept.fresh (s := ?_) ?_ 1 ?_; rotate_left 2; (dsimp only; with_reducible rfl))

theorem State.afterPoison_kept {r0 s : State} (x : Nat) (reads : List (Nat × Nat)) (writes : List (Nat × Nat)) (t : State) (ht : Kept r0 t) (_hk : Kept r0 s) :
    Kept r0 (State.afterPoison s x reads writes t) := by
  unfold State.afterPoison
  repeat' first
    | with_reducible assumption
    | with_reducible apply State.poisonFault_kept
    | split
    | with_reducible apply Kept.foldl
    | intro _ _ _
    | intro _ _
    | with_reducible exact Kept.refl _
    | with_reducible apply Kept.useFree
    | (refine Kept.other (s := ?_) ?_ ?_; rotate_left 2; (dsimp only; with_reducible rfl))
    | (refine Kept.fresh (s := ?_) ?_ 1 ?_; rotate_left 2; (dsimp only; with_reducible rfl))

theorem State.hostPoison_kept {r0 s : State} (v : View) (t : State) (ht : Kept r0 t) : Kept r0 (State.hostPoison s v t) := by
  unfold State.hostPoison
  repeat' first
    | with_reducible assumption
    | with_reducible apply State.dataFault_kept
    | with_reducible apply State.bump_kept
    | split

theorem State.instPoison_kept {r0 s : State} (v : View) (e : Effect) (t : State) (ht : Kept r0 t) (hk : Kept r0 s) :
    Kept r0 (State.instPoison s v e t) := by
  unfold State.instPoison
  repeat' first
    | with_reducible assumption
    | with_reducible apply State.hostPoison_kept
    | with_reducible apply State.afterPoison_kept
    | split
    | with_reducible apply Kept.foldl
    | intro _ _ _
    | intro _ _
    | with_reducible exact Kept.refl _
    | with_reducible apply Kept.useFree
    | (refine Kept.other (s := ?_) ?_ ?_; rotate_left 2; (dsimp only; with_reducible rfl))
    | (refine Kept.fresh (s := ?_) ?_ 1 ?_; rotate_left 2; (dsimp only; with_reducible rfl))

theorem State.setLanes_kept {r0 s : State} (c : Nat) (m : Map Lane) (hk : Kept r0 s) :
    Kept r0 (State.setLanes s c m) := by
  unfold State.setLanes
  repeat' first
    | with_reducible assumption
    | with_reducible apply State.setCore_kept
    | split
    | with_reducible apply Kept.foldl
    | intro _ _ _
    | intro _ _
    | with_reducible exact Kept.refl _
    | with_reducible apply Kept.useFree
    | (refine Kept.other (s := ?_) ?_ ?_; rotate_left 2; (dsimp only; with_reducible rfl))
    | (refine Kept.fresh (s := ?_) ?_ 1 ?_; rotate_left 2; (dsimp only; with_reducible rfl))

theorem State.runInst_kept {r0 s : State} (c : CoreId) (i : InFlight) (hk : Kept r0 s) :
    Kept r0 (State.runInst s c i) := by
  unfold State.runInst
  repeat' first
    | with_reducible assumption
    | with_reducible apply State.trapAtIssue_kept
    | with_reducible apply State.instPoison_kept
    | with_reducible apply State.completeTraced_kept
    | with_reducible apply State.setLanes_kept
    | split
    | with_reducible apply Kept.foldl
    | intro _ _ _
    | intro _ _
    | with_reducible exact Kept.refl _
    | with_reducible apply Kept.useFree
    | (refine Kept.other (s := ?_) ?_ ?_; rotate_left 2; (dsimp only; with_reducible rfl))
    | (refine Kept.fresh (s := ?_) ?_ 1 ?_; rotate_left 2; (dsimp only; with_reducible rfl))

theorem State.runLegacy_kept {r0 s : State} (c : CoreId) (op : Nat) (a : LegacyArgs) (hk : Kept r0 s) :
    Kept r0 (State.runLegacy s c op a) := by
  unfold State.runLegacy
  repeat' first
    | with_reducible assumption
    | with_reducible apply State.runInst_kept
    | with_reducible apply State.trapAtIssue_kept
    | split
    | with_reducible apply Kept.foldl
    | intro _ _ _
    | intro _ _
    | with_reducible exact Kept.refl _
    | with_reducible apply Kept.useFree
    | (refine Kept.other (s := ?_) ?_ ?_; rotate_left 2; (dsimp only; with_reducible rfl))
    | (refine Kept.fresh (s := ?_) ?_ 1 ?_; rotate_left 2; (dsimp only; with_reducible rfl))

theorem State.runSlot_kept {r0 s : State} (c : CoreId) (sl : Slot) (op : Nat) (a : SlotArgs) (hk : Kept r0 s) :
    Kept r0 (State.runSlot s c sl op a) := by
  unfold State.runSlot
  repeat' first
    | with_reducible assumption
    | with_reducible apply State.runInst_kept
    | split
    | with_reducible apply Kept.foldl
    | intro _ _ _
    | intro _ _
    | with_reducible exact Kept.refl _
    | with_reducible apply Kept.useFree
    | (refine Kept.other (s := ?_) ?_ ?_; rotate_left 2; (dsimp only; with_reducible rfl))
    | (refine Kept.fresh (s := ?_) ?_ 1 ?_; rotate_left 2; (dsimp only; with_reducible rfl))

theorem State.stopMove_kept {r0 s : State} (c : Nat) (i : InFlight) (hk : Kept r0 s) :
    Kept r0 (State.stopMove s c i) := by
  unfold State.stopMove
  repeat' first
    | with_reducible assumption
    | with_reducible apply storeAll_kept
    | with_reducible apply State.instPoison_kept
    | with_reducible apply State.setCore_kept
    | split
    | with_reducible apply Kept.foldl
    | intro _ _ _
    | intro _ _
    | with_reducible exact Kept.refl _
    | with_reducible apply Kept.useFree
    | (refine Kept.other (s := ?_) ?_ ?_; rotate_left 2; (dsimp only; with_reducible rfl))
    | (refine Kept.fresh (s := ?_) ?_ 1 ?_; rotate_left 2; (dsimp only; with_reducible rfl))

theorem State.stopMoves_kept {r0 s : State} (c : Nat) (l1 : List InFlight) (hk : Kept r0 s) :
    Kept r0 (State.stopMoves s c l1) := by
  induction l1 generalizing s c with
  | nil => exact hk
  | cons y l ih =>
    unfold State.stopMoves
    repeat' first
      | with_reducible assumption
      | with_reducible apply ih
      | with_reducible apply State.stopMove_kept
      | split
      | with_reducible apply Kept.foldl
      | intro _ _ _
      | intro _ _
      | with_reducible exact Kept.refl _
      | with_reducible apply Kept.useFree
      | (refine Kept.other (s := ?_) ?_ ?_; rotate_left 2; (dsimp only; with_reducible rfl))
      | (refine Kept.fresh (s := ?_) ?_ 1 ?_; rotate_left 2; (dsimp only; with_reducible rfl))

theorem State.abandonReads_kept {r0 s : State} (c : CoreId) (hk : Kept r0 s) :
    Kept r0 (State.abandonReads s c) := by
  unfold State.abandonReads
  repeat' first
    | with_reducible assumption
    | with_reducible apply State.stopMoves_kept
    | split
    | with_reducible apply Kept.foldl
    | intro _ _ _
    | intro _ _
    | with_reducible exact Kept.refl _
    | with_reducible apply Kept.useFree
    | (refine Kept.other (s := ?_) ?_ ?_; rotate_left 2; (dsimp only; with_reducible rfl))
    | (refine Kept.fresh (s := ?_) ?_ 1 ?_; rotate_left 2; (dsimp only; with_reducible rfl))

theorem State.dropFlight_kept {r0 s : State} (c : Nat) (id : Nat) (hk : Kept r0 s) :
    Kept r0 (State.dropFlight s c id) := by
  unfold State.dropFlight
  repeat' first
    | with_reducible assumption
    | with_reducible apply State.setCore_kept
    | split
    | with_reducible apply Kept.foldl
    | intro _ _ _
    | intro _ _
    | with_reducible exact Kept.refl _
    | with_reducible apply Kept.useFree
    | (refine Kept.other (s := ?_) ?_ ?_; rotate_left 2; (dsimp only; with_reducible rfl))
    | (refine Kept.fresh (s := ?_) ?_ 1 ?_; rotate_left 2; (dsimp only; with_reducible rfl))

theorem State.scrubCores_kept {r0 s : State} (l1 : List Nat) (hk : Kept r0 s) : Kept r0 (State.scrubCores s l1) := by
  induction l1 with
  | nil => exact hk
  | cons y l ih => exact Kept.setCores _ (mapWf_mapSet _ _ _ _) ih

theorem State.joinQueue_kept {r0 s : State} (c : CoreId) (i : InFlight) (ctl : Ctl) (hk : Kept r0 s) :
    Kept r0 (State.joinQueue s c i ctl) := by
  unfold State.joinQueue
  repeat' first
    | with_reducible assumption
    | with_reducible apply State.deferTrap_kept
    | with_reducible apply State.control_kept
    | split
    | with_reducible apply Kept.foldl
    | intro _ _ _
    | intro _ _
    | with_reducible exact Kept.refl _
    | with_reducible apply Kept.useFree
    | (refine Kept.other (s := ?_) ?_ ?_; rotate_left 2; (dsimp only; with_reducible rfl))
    | (refine Kept.fresh (s := ?_) ?_ 1 ?_; rotate_left 2; (dsimp only; with_reducible rfl))

theorem State.reissue_kept {r0 s : State} (c : CoreId) (hk : Kept r0 s) :
    Kept r0 (State.reissue s c) := by
  unfold State.reissue
  repeat' first
    | with_reducible assumption
    | with_reducible apply State.setCore_kept
    | with_reducible apply State.joinQueue_kept
    | with_reducible apply State.control_kept
    | split
    | with_reducible apply Kept.foldl
    | intro _ _ _
    | intro _ _
    | with_reducible exact Kept.refl _
    | with_reducible apply Kept.useFree
    | (refine Kept.other (s := ?_) ?_ ?_; rotate_left 2; (dsimp only; with_reducible rfl))
    | (refine Kept.fresh (s := ?_) ?_ 1 ?_; rotate_left 2; (dsimp only; with_reducible rfl))

theorem State.countFetch_kept {r0 s : State} (c : Nat) (hk : Kept r0 s) :
    Kept r0 (State.countFetch s c) := by
  unfold State.countFetch
  repeat' first
    | with_reducible assumption
    | with_reducible apply State.fillLine_kept
    | with_reducible apply State.setCore_kept
    | split
    | with_reducible apply Kept.foldl
    | intro _ _ _
    | intro _ _
    | with_reducible exact Kept.refl _
    | with_reducible apply Kept.useFree
    | (refine Kept.other (s := ?_) ?_ ?_; rotate_left 2; (dsimp only; with_reducible rfl))
    | (refine Kept.fresh (s := ?_) ?_ 1 ?_; rotate_left 2; (dsimp only; with_reducible rfl))

theorem State.launch_kept {r0 s : State} (c : CoreId) (i : InFlight) (hk : Kept r0 s) :
    Kept r0 (State.launch s c i) := by
  unfold State.launch
  repeat' first
    | with_reducible assumption
    | with_reducible apply State.setCore_kept
    | with_reducible apply State.control_kept
    | with_reducible apply State.completeTraced_kept
    | split
    | with_reducible apply Kept.foldl
    | intro _ _ _
    | intro _ _
    | with_reducible exact Kept.refl _
    | with_reducible apply Kept.useFree
    | (refine Kept.other (s := ?_) ?_ ?_; rotate_left 2; (dsimp only; with_reducible rfl))
    | (refine Kept.fresh (s := ?_) ?_ 1 ?_; rotate_left 2; (dsimp only; with_reducible rfl))

theorem State.launchAll_kept {r0 s : State} (c : CoreId) (l1 : List InFlight) (hk : Kept r0 s) :
    Kept r0 (State.launchAll s c l1) := by
  induction l1 generalizing s c with
  | nil => exact hk
  | cons y l ih =>
    unfold State.launchAll
    repeat' first
      | with_reducible assumption
      | with_reducible apply ih
      | with_reducible apply State.launch_kept
      | split
      | with_reducible apply Kept.foldl
      | intro _ _ _
      | intro _ _
      | with_reducible exact Kept.refl _
      | with_reducible apply Kept.useFree
      | (refine Kept.other (s := ?_) ?_ ?_; rotate_left 2; (dsimp only; with_reducible rfl))
      | (refine Kept.fresh (s := ?_) ?_ 1 ?_; rotate_left 2; (dsimp only; with_reducible rfl))

theorem State.takeWindow_kept {r0 s : State} (c n : Nat) (hk : Kept r0 s) : Kept r0 (s.takeWindow c n).1 := by
  unfold State.takeWindow
  split
  · exact hk
  · split
    · exact hk
    · exact State.setCtx_kept _ _ hk
theorem State.regulateFetch_kept {r0 s : State} (c : Nat) (hk : Kept r0 s) : Kept r0 (s.regulateFetch c).1 := by
  have h1 := State.takeWindow_kept c (256 - (s.core c).fetchAsked) hk
  unfold State.regulateFetch
  extract_lets k need r
  split
  · exact hk
  · split <;> exact State.setCore_kept _ _ h1
theorem State.issueParts_kept {r0 s : State} (c : CoreId) (parts : List InFlight) (wait : Bool) (refuse : List (InFlight × Cause))
    (bytes : Nat) (hk : Kept r0 s) : Kept r0 (State.issueParts s c parts wait refuse bytes) := by
  have h1 := State.regulateFetch_kept c.val hk
  have h2 := State.countFetch_kept c.val h1
  unfold State.issueParts
  extract_lets k th run r causes two lanes s0 s1
  refine Kept.ite hk (Kept.ite h1 ?_)
  split
  · exact State.poisonFault_kept _ _ _ h2
  · split
    · exact State.trapAtIssue_kept _ _ _ h2
    · exact State.launchAll_kept _ _ (State.setCore_kept _ _ h2)

theorem State.bundleIssue_kept {r0 s : State} (c : CoreId) (hk : Kept r0 s) :
    Kept r0 (State.bundleIssue s c) := by
  unfold State.bundleIssue
  repeat' first
    | with_reducible assumption
    | with_reducible apply State.reissue_kept
    | with_reducible apply State.trapAtIssue_kept
    | with_reducible apply State.issueParts_kept
    | split
    | with_reducible apply Kept.foldl
    | intro _ _ _
    | intro _ _
    | with_reducible exact Kept.refl _
    | with_reducible apply Kept.useFree
    | (refine Kept.other (s := ?_) ?_ ?_; rotate_left 2; (dsimp only; with_reducible rfl))
    | (refine Kept.fresh (s := ?_) ?_ 1 ?_; rotate_left 2; (dsimp only; with_reducible rfl))

theorem State.coreDrained_kept {r0 s : State} (c : CoreId) (hk : Kept r0 s) :
    Kept r0 (State.coreDrained s c) := by
  unfold State.coreDrained
  repeat' first
    | with_reducible assumption
    | with_reducible apply State.setCore_kept
    | split
    | with_reducible apply Kept.foldl
    | intro _ _ _
    | intro _ _
    | with_reducible exact Kept.refl _
    | with_reducible apply Kept.useFree
    | (refine Kept.other (s := ?_) ?_ ?_; rotate_left 2; (dsimp only; with_reducible rfl))
    | (refine Kept.fresh (s := ?_) ?_ 1 ?_; rotate_left 2; (dsimp only; with_reducible rfl))

theorem State.releaseBays_kept {r0 s : State} (x : Nat) (hk : Kept r0 s) :
    Kept r0 (State.releaseBays s x) := by
  unfold State.releaseBays
  repeat' first
    | with_reducible assumption
    | with_reducible apply State.scrubCores_kept
    | with_reducible apply State.setCtx_kept
    | split
    | with_reducible apply Kept.foldl
    | intro _ _ _
    | intro _ _
    | with_reducible exact Kept.refl _
    | with_reducible apply Kept.useFree
    | (refine Kept.other (s := ?_) ?_ ?_; rotate_left 2; (dsimp only; with_reducible rfl))
    | (refine Kept.fresh (s := ?_) ?_ 1 ?_; rotate_left 2; (dsimp only; with_reducible rfl))

theorem State.programEnd_kept {r0 s : State} (x : Nat) (p : Program) (hk : Kept r0 s) :
    Kept r0 (State.programEnd s x p) := by
  unfold State.programEnd
  repeat' first
    | with_reducible assumption
    | with_reducible apply State.setCtx_kept
    | with_reducible apply State.post_kept
    | with_reducible apply State.setCtxState_kept
    | with_reducible apply State.releaseBays_kept
    | split
    | with_reducible apply Kept.foldl
    | intro _ _ _
    | intro _ _
    | with_reducible exact Kept.refl _
    | with_reducible apply Kept.useFree
    | (refine Kept.other (s := ?_) ?_ ?_; rotate_left 2; (dsimp only; with_reducible rfl))
    | (refine Kept.fresh (s := ?_) ?_ 1 ?_; rotate_left 2; (dsimp only; with_reducible rfl))

theorem State.coreHalted_kept {r0 s : State} (c : CoreId) (hk : Kept r0 s) :
    Kept r0 (State.coreHalted s c) := by
  unfold State.coreHalted
  repeat' first
    | with_reducible assumption
    | with_reducible apply State.setCore_kept
    | with_reducible apply State.programEnd_kept
    | split
    | with_reducible apply Kept.foldl
    | intro _ _ _
    | intro _ _
    | with_reducible exact Kept.refl _
    | with_reducible apply Kept.useFree
    | (refine Kept.other (s := ?_) ?_ ?_; rotate_left 2; (dsimp only; with_reducible rfl))
    | (refine Kept.fresh (s := ?_) ?_ 1 ?_; rotate_left 2; (dsimp only; with_reducible rfl))

theorem State.counterClear_kept {r0 s : State} (x : Nat) (k : Nat) (hk : Kept r0 s) :
    Kept r0 (State.counterClear s x k) := by
  unfold State.counterClear
  repeat' first
    | with_reducible assumption
    | with_reducible apply State.setCore_kept
    | split
    | with_reducible apply Kept.foldl
    | intro _ _ _
    | intro _ _
    | with_reducible exact Kept.refl _
    | with_reducible apply Kept.useFree
    | (refine Kept.other (s := ?_) ?_ ?_; rotate_left 2; (dsimp only; with_reducible rfl))
    | (refine Kept.fresh (s := ?_) ?_ 1 ?_; rotate_left 2; (dsimp only; with_reducible rfl))

theorem State.leaveQueues_kept {r0 s : State} (x : Nat) (c : Nat) (l1 : List InFlight) (hk : Kept r0 s) :
    Kept r0 (State.leaveQueues s x c l1) := by
  induction l1 generalizing s x c with
  | nil => exact hk
  | cons y l ih =>
    unfold State.leaveQueues
    repeat' first
      | with_reducible assumption
      | with_reducible apply ih
      | with_reducible apply State.setQueue_kept
      | split
      | with_reducible apply Kept.foldl
      | intro _ _ _
      | intro _ _
      | with_reducible exact Kept.refl _
      | with_reducible apply Kept.useFree
      | (refine Kept.other (s := ?_) ?_ ?_; rotate_left 2; (dsimp only; with_reducible rfl))
      | (refine Kept.fresh (s := ?_) ?_ 1 ?_; rotate_left 2; (dsimp only; with_reducible rfl))

theorem State.drainSlots_kept {r0 s0 : State} (c : Nat) (hk : Kept r0 s0) :
    Kept r0 (State.drainSlots s0 c) := by
  unfold State.drainSlots
  repeat' first
    | with_reducible assumption
    | with_reducible apply State.stopMoves_kept
    | with_reducible apply State.leaveQueues_kept
    | with_reducible apply State.settleHeld_kept
    | with_reducible apply State.setCore_kept
    | split
    | with_reducible apply Kept.foldl
    | intro _ _ _
    | intro _ _
    | with_reducible exact Kept.refl _
    | with_reducible apply Kept.useFree
    | (refine Kept.other (s := ?_) ?_ ?_; rotate_left 2; (dsimp only; with_reducible rfl))
    | (refine Kept.fresh (s := ?_) ?_ 1 ?_; rotate_left 2; (dsimp only; with_reducible rfl))

theorem State.drainRequest_kept {r0 s : State} (c : CoreId) (hk : Kept r0 s) :
    Kept r0 (State.drainRequest s c) := by
  unfold State.drainRequest
  repeat' first
    | with_reducible assumption
    | with_reducible apply State.drainSlots_kept
    | with_reducible apply State.setCore_kept
    | split
    | with_reducible apply Kept.foldl
    | intro _ _ _
    | intro _ _
    | with_reducible exact Kept.refl _
    | with_reducible apply Kept.useFree
    | (refine Kept.other (s := ?_) ?_ ?_; rotate_left 2; (dsimp only; with_reducible rfl))
    | (refine Kept.fresh (s := ?_) ?_ 1 ?_; rotate_left 2; (dsimp only; with_reducible rfl))

theorem State.fenceClear_kept {r0 s : State} (c : CoreId) (hk : Kept r0 s) :
    Kept r0 (State.fenceClear s c) := by
  unfold State.fenceClear
  repeat' first
    | with_reducible assumption
    | with_reducible apply State.setCore_kept
    | split
    | with_reducible apply Kept.foldl
    | intro _ _ _
    | intro _ _
    | with_reducible exact Kept.refl _
    | with_reducible apply Kept.useFree
    | (refine Kept.other (s := ?_) ?_ ?_; rotate_left 2; (dsimp only; with_reducible rfl))
    | (refine Kept.fresh (s := ?_) ?_ 1 ?_; rotate_left 2; (dsimp only; with_reducible rfl))

theorem State.finishInst_kept {r0 s : State} (c : CoreId) (i : InFlight) (hk : Kept r0 s) :
    Kept r0 (State.finishInst s c i) := by
  unfold State.finishInst
  repeat' first
    | with_reducible assumption
    | with_reducible apply State.instPoison_kept
    | with_reducible apply State.settleHeld_kept
    | with_reducible apply State.completeTraced_kept
    | with_reducible apply State.dropFlight_kept
    | split
    | with_reducible apply Kept.foldl
    | intro _ _ _
    | intro _ _
    | with_reducible exact Kept.refl _
    | with_reducible apply Kept.useFree
    | (refine Kept.other (s := ?_) ?_ ?_; rotate_left 2; (dsimp only; with_reducible rfl))
    | (refine Kept.fresh (s := ?_) ?_ 1 ?_; rotate_left 2; (dsimp only; with_reducible rfl))

theorem State.integerRetry_kept {r0 s : State} (c : CoreId) (hk : Kept r0 s) :
    Kept r0 (State.integerRetry s c) := by
  unfold State.integerRetry
  repeat' first
    | with_reducible assumption
    | with_reducible apply State.setCore_kept
    | with_reducible apply State.finishInst_kept
    | split
    | with_reducible apply Kept.foldl
    | intro _ _ _
    | intro _ _
    | with_reducible exact Kept.refl _
    | with_reducible apply Kept.useFree
    | (refine Kept.other (s := ?_) ?_ ?_; rotate_left 2; (dsimp only; with_reducible rfl))
    | (refine Kept.fresh (s := ?_) ?_ 1 ?_; rotate_left 2; (dsimp only; with_reducible rfl))

theorem State.legacyWordIssue_kept {r0 s : State} (c : CoreId) (hk : Kept r0 s) :
    Kept r0 (State.legacyWordIssue s c) := by
  unfold State.legacyWordIssue
  repeat' first
    | with_reducible assumption
    | with_reducible apply State.reissue_kept
    | with_reducible apply State.trapAtIssue_kept
    | with_reducible apply State.issueParts_kept
    | split
    | with_reducible apply Kept.foldl
    | intro _ _ _
    | intro _ _
    | with_reducible exact Kept.refl _
    | with_reducible apply Kept.useFree
    | (refine Kept.other (s := ?_) ?_ ?_; rotate_left 2; (dsimp only; with_reducible rfl))
    | (refine Kept.fresh (s := ?_) ?_ 1 ?_; rotate_left 2; (dsimp only; with_reducible rfl))

theorem releaseWaiters_kept {r0 s : State} (p : Nat) (l1 : List Nat) (hk : Kept r0 s) :
    Kept r0 (releaseWaiters s p l1) := by
  induction l1 generalizing s p with
  | nil => exact hk
  | cons y l ih =>
    unfold releaseWaiters
    repeat' first
      | with_reducible assumption
      | with_reducible apply ih
      | with_reducible apply State.setCore_kept
      | split
      | with_reducible apply Kept.foldl
      | intro _ _ _
      | intro _ _
      | with_reducible exact Kept.refl _
      | with_reducible apply Kept.useFree
      | (refine Kept.other (s := ?_) ?_ ?_; rotate_left 2; (dsimp only; with_reducible rfl))
      | (refine Kept.fresh (s := ?_) ?_ 1 ?_; rotate_left 2; (dsimp only; with_reducible rfl))

theorem countPeg_kept {r0 s : State} (p : Nat) (inc : Nat) (l1 : List Nat) (hk : Kept r0 s) :
    Kept r0 (countPeg s p inc l1) := by
  induction l1 generalizing s p inc with
  | nil => exact hk
  | cons y l ih =>
    unfold countPeg
    repeat' first
      | with_reducible assumption
      | with_reducible apply ih
      | with_reducible apply State.setCtx_kept
      | split
      | with_reducible apply Kept.foldl
      | intro _ _ _
      | intro _ _
      | with_reducible exact Kept.refl _
      | with_reducible apply Kept.useFree
      | (refine Kept.other (s := ?_) ?_ ?_; rotate_left 2; (dsimp only; with_reducible rfl))
      | (refine Kept.fresh (s := ?_) ?_ 1 ?_; rotate_left 2; (dsimp only; with_reducible rfl))

theorem State.pegApply_kept {r0 s : State} (p : Nat) (hk : Kept r0 s) :
    Kept r0 (State.pegApply s p) := by
  unfold State.pegApply
  repeat' first
    | with_reducible assumption
    | with_reducible apply releaseWaiters_kept
    | with_reducible apply countPeg_kept
    | split
    | with_reducible apply Kept.foldl
    | intro _ _ _
    | intro _ _
    | with_reducible exact Kept.refl _
    | with_reducible apply Kept.useFree
    | (refine Kept.other (s := ?_) ?_ ?_; rotate_left 2; (dsimp only; with_reducible rfl))
    | (refine Kept.fresh (s := ?_) ?_ 1 ?_; rotate_left 2; (dsimp only; with_reducible rfl))

theorem State.pegwRelease_kept {r0 s : State} (c : CoreId) (hk : Kept r0 s) :
    Kept r0 (State.pegwRelease s c) := by
  unfold State.pegwRelease
  repeat' first
    | with_reducible assumption
    | with_reducible apply State.setCore_kept
    | split
    | with_reducible apply Kept.foldl
    | intro _ _ _
    | intro _ _
    | with_reducible exact Kept.refl _
    | with_reducible apply Kept.useFree
    | (refine Kept.other (s := ?_) ?_ ?_; rotate_left 2; (dsimp only; with_reducible rfl))
    | (refine Kept.fresh (s := ?_) ?_ 1 ?_; rotate_left 2; (dsimp only; with_reducible rfl))

theorem State.regulate_kept {r0 s : State} (c : Nat) (i : InFlight) (hk : Kept r0 s) : Kept r0 (s.regulate c i).1 := by
  have h1 := State.takeWindow_kept c ((viewOf s c i).tierBytes - i.asked) hk
  unfold State.regulate
  extract_lets need r
  split
  · exact hk
  · split
    · exact h1
    · exact State.setCore_kept _ _ h1
theorem State.unitComplete_kept {r0 s : State} (c : CoreId) (u : ExecUnit) (n : Fin 4) (hk : Kept r0 s) :
    Kept r0 (State.unitComplete s c u n) := by
  unfold State.unitComplete
  split
  · exact hk
  · split
    · exact hk
    · split
      · exact hk
      · have h1 := State.regulate_kept c.val ‹_› hk
        exact Kept.ite (State.finishInst_kept _ _ h1) h1

end Sys2Proof.Machine
end

