-- ==== Sys2Proof/Laws/KeptTruss.lean ====
section
/-! SUPPORT. Kept for the operations of objects, links, packets and Windway queues: one lemma each, for a composition of any of them. -/
namespace Sys2Proof.Machine
set_option linter.unusedTactic false
set_option linter.unreachableTactic false

theorem State.portStatus_kept {r0 s : State} (p : Nat) (code : Nat) (hk : Kept r0 s) :
    Kept r0 (State.portStatus s p code) := by
  unfold State.portStatus
  repeat' first
    | with_reducible assumption
    | with_reducible apply State.wr_kept
    | with_reducible apply State.event_kept
    | split
    | with_reducible apply Kept.foldl
    | intro _ _ _
    | intro _ _
    | with_reducible exact Kept.refl _
    | with_reducible apply Kept.useFree
    | (refine Kept.other (s := ?_) ?_ ?_; rotate_left 2; (dsimp only; with_reducible rfl))
    | (refine Kept.fresh (s := ?_) ?_ 1 ?_; rotate_left 2; (dsimp only; with_reducible rfl))

theorem State.objPost_kept {r0 s : State} (o : ObjRef) (code : Nat) (hk : Kept r0 s) :
    Kept r0 (State.objPost s o code) := by
  unfold State.objPost
  repeat' first
    | with_reducible assumption
    | with_reducible apply State.portStatus_kept
    | with_reducible apply State.wr_kept
    | split
    | with_reducible apply Kept.foldl
    | intro _ _ _
    | intro _ _
    | with_reducible exact Kept.refl _
    | with_reducible apply Kept.useFree
    | (refine Kept.other (s := ?_) ?_ ?_; rotate_left 2; (dsimp only; with_reducible rfl))
    | (refine Kept.fresh (s := ?_) ?_ 1 ?_; rotate_left 2; (dsimp only; with_reducible rfl))

theorem State.cancelCheck_kept {r0 s : State} (o : ObjRef) (hk : Kept r0 s) :
    Kept r0 (State.cancelCheck s o) := by
  unfold State.cancelCheck
  repeat' first
    | with_reducible assumption
    | with_reducible apply State.objPost_kept
    | split
    | with_reducible apply Kept.foldl
    | intro _ _ _
    | intro _ _
    | with_reducible exact Kept.refl _
    | with_reducible apply Kept.useFree
    | (refine Kept.other (s := ?_) ?_ ?_; rotate_left 2; (dsimp only; with_reducible rfl))
    | (refine Kept.fresh (s := ?_) ?_ 1 ?_; rotate_left 2; (dsimp only; with_reducible rfl))

theorem State.bumpEntries_kept {r0 s : State} (l1 : List Nat) (hk : Kept r0 s) :
    Kept r0 (State.bumpEntries s l1) := by
  induction l1 generalizing s with
  | nil => exact hk
  | cons y l ih =>
    unfold State.bumpEntries
    repeat' first
      | with_reducible assumption
      | with_reducible apply ih
      | split
      | with_reducible apply Kept.foldl
      | intro _ _ _
      | intro _ _
      | with_reducible exact Kept.refl _
      | with_reducible apply Kept.useFree
      | (refine Kept.other (s := ?_) ?_ ?_; rotate_left 2; (dsimp only; with_reducible rfl))
      | (refine Kept.fresh (s := ?_) ?_ 1 ?_; rotate_left 2; (dsimp only; with_reducible rfl))

theorem State.objDisable_kept {r0 s : State} (o : ObjRef) (code : Nat) (hk : Kept r0 s) :
    Kept r0 (State.objDisable s o code) := by
  unfold State.objDisable
  repeat' first
    | with_reducible assumption
    | with_reducible apply State.objPost_kept
    | with_reducible apply State.wr_kept
    | split
    | with_reducible apply Kept.foldl
    | intro _ _ _
    | intro _ _
    | with_reducible exact Kept.refl _
    | with_reducible apply Kept.useFree
    | (refine Kept.other (s := ?_) ?_ ?_; rotate_left 2; (dsimp only; with_reducible rfl))
    | (refine Kept.fresh (s := ?_) ?_ 1 ?_; rotate_left 2; (dsimp only; with_reducible rfl))

theorem State.bar_kept {r0 s : State} (f : State → State) (hf : Kept r0 (f s)) (hk : Kept r0 s) : Kept r0 (State.bar s f) :=
  Kept.ite hf hk

theorem State.setLink_kept {r0 s : State} (p : Nat) (v : Nat) (hk : Kept r0 s) :
    Kept r0 (State.setLink s p v) := by
  unfold State.setLink
  repeat' first
    | with_reducible assumption
    | with_reducible apply State.wr_kept
    | with_reducible apply State.event_kept
    | split
    | with_reducible apply Kept.foldl
    | intro _ _ _
    | intro _ _
    | with_reducible exact Kept.refl _
    | with_reducible apply Kept.useFree
    | (refine Kept.other (s := ?_) ?_ ?_; rotate_left 2; (dsimp only; with_reducible rfl))
    | (refine Kept.fresh (s := ?_) ?_ 1 ?_; rotate_left 2; (dsimp only; with_reducible rfl))

theorem State.objEnable_kept {r0 s : State} (o : ObjRef) (hk : Kept r0 s) :
    Kept r0 (State.objEnable s o) := by
  unfold State.objEnable
  repeat' first
    | with_reducible assumption
    | with_reducible apply State.objPost_kept
    | with_reducible apply State.wr_kept
    | split
    | with_reducible apply Kept.foldl
    | intro _ _ _
    | intro _ _
    | with_reducible exact Kept.refl _
    | with_reducible apply Kept.useFree
    | (refine Kept.other (s := ?_) ?_ ?_; rotate_left 2; (dsimp only; with_reducible rfl))
    | (refine Kept.fresh (s := ?_) ?_ 1 ?_; rotate_left 2; (dsimp only; with_reducible rfl))

theorem State.startEntry_kept {r0 s t : State} (op : Nat) (e : Entry) (h : s.startEntry op e = some t) (hk : Kept r0 s) : Kept r0 t := by
  unfold State.startEntry at h
  simp only at h
  split at h
  · cases h
  · cases h; exact State.setRing_kept _ _ hk
theorem State.command_kept {r0 s : State} (op : Nat) (e : Entry) (act : State → State) (ha : ∀ t, Kept r0 t → Kept r0 (act t))
    (hk : Kept r0 s) : Kept r0 (State.command s op e act) := by
  unfold State.command
  split
  · exact hk
  · rename_i s1 h1
    have hs := State.startEntry_kept op e h1 hk
    split
    · exact State.done_kept _ _ _ hs
    · exact ha _ hs

theorem State.hold_kept {r0 s : State} (op : Nat) (e : Entry) (hk : Kept r0 s) :
    Kept r0 (State.hold s op e) := by
  unfold State.hold
  repeat' first
    | with_reducible assumption
    | with_reducible apply State.setCtx_kept
    | split
    | with_reducible apply Kept.foldl
    | intro _ _ _
    | intro _ _
    | with_reducible exact Kept.refl _
    | with_reducible apply Kept.useFree
    | (refine Kept.other (s := ?_) ?_ ?_; rotate_left 2; (dsimp only; with_reducible rfl))
    | (refine Kept.fresh (s := ?_) ?_ 1 ?_; rotate_left 2; (dsimp only; with_reducible rfl))

theorem State.requestEnable_kept {r0 s : State} (o : ObjRef) (hk : Kept r0 s) :
    Kept r0 (State.requestEnable s o) := by
  unfold State.requestEnable
  repeat' first
    | with_reducible assumption
    | with_reducible apply State.objPost_kept
    | split
    | with_reducible apply Kept.foldl
    | intro _ _ _
    | intro _ _
    | with_reducible exact Kept.refl _
    | with_reducible apply Kept.useFree
    | (refine Kept.other (s := ?_) ?_ ?_; rotate_left 2; (dsimp only; with_reducible rfl))
    | (refine Kept.fresh (s := ?_) ?_ 1 ?_; rotate_left 2; (dsimp only; with_reducible rfl))

theorem State.setChannel_kept {r0 s : State} (c : Channel) (hk : Kept r0 s) :
    Kept r0 (State.setChannel s c) := by
  unfold State.setChannel
  repeat' first
    | with_reducible assumption
    | split
    | with_reducible apply Kept.foldl
    | intro _ _ _
    | intro _ _
    | with_reducible exact Kept.refl _
    | with_reducible apply Kept.useFree
    | (refine Kept.other (s := ?_) ?_ ?_; rotate_left 2; (dsimp only; with_reducible rfl))
    | (refine Kept.fresh (s := ?_) ?_ 1 ?_; rotate_left 2; (dsimp only; with_reducible rfl))

theorem State.queuePacket_kept {r0 s : State} (k : ChannelKey) (ordered : Bool) (type : Nat) (body : List Byte) (hk : Kept r0 s) :
    Kept r0 (State.queuePacket s k ordered type body) := by
  unfold State.queuePacket
  repeat' first
    | with_reducible assumption
    | with_reducible apply State.setChannel_kept
    | split
    | with_reducible apply Kept.foldl
    | intro _ _ _
    | intro _ _
    | with_reducible exact Kept.refl _
    | with_reducible apply Kept.useFree
    | (refine Kept.other (s := ?_) ?_ ?_; rotate_left 2; (dsimp only; with_reducible rfl))
    | (refine Kept.fresh (s := ?_) ?_ 1 ?_; rotate_left 2; (dsimp only; with_reducible rfl))

theorem State.withdrawRefs_kept {r0 s : State} (q : Nat) (l1 : List WRef) (hk : Kept r0 s) :
    Kept r0 (State.withdrawRefs s q l1) := by
  induction l1 generalizing s q with
  | nil => exact hk
  | cons y l ih =>
    unfold State.withdrawRefs
    repeat' first
      | with_reducible assumption
      | with_reducible apply ih
      | with_reducible apply State.deferTrap_kept
      | with_reducible apply State.dropFlight_kept
      | split
      | with_reducible apply Kept.foldl
      | intro _ _ _
      | intro _ _
      | with_reducible exact Kept.refl _
      | with_reducible apply Kept.useFree
      | (refine Kept.other (s := ?_) ?_ ?_; rotate_left 2; (dsimp only; with_reducible rfl))
      | (refine Kept.fresh (s := ?_) ?_ 1 ?_; rotate_left 2; (dsimp only; with_reducible rfl))

theorem State.absentQueue_kept {r0 s : State} (x : Nat) (q : Nat) (hk : Kept r0 s) :
    Kept r0 (State.absentQueue s x q) := by
  unfold State.absentQueue
  repeat' first
    | with_reducible assumption
    | with_reducible apply State.withdrawRefs_kept
    | with_reducible apply State.setQueue_kept
    | with_reducible apply State.wr_kept
    | split
    | with_reducible apply Kept.foldl
    | intro _ _ _
    | intro _ _
    | with_reducible exact Kept.refl _
    | with_reducible apply Kept.useFree
    | (refine Kept.other (s := ?_) ?_ ?_; rotate_left 2; (dsimp only; with_reducible rfl))
    | (refine Kept.fresh (s := ?_) ?_ 1 ?_; rotate_left 2; (dsimp only; with_reducible rfl))

theorem State.absentQueues_kept {r0 s : State} (x : Nat) (l1 : List Nat) (hk : Kept r0 s) :
    Kept r0 (State.absentQueues s x l1) := by
  induction l1 generalizing s x with
  | nil => exact hk
  | cons y l ih =>
    unfold State.absentQueues
    repeat' first
      | with_reducible assumption
      | with_reducible apply ih
      | with_reducible apply State.absentQueue_kept
      | split
      | with_reducible apply Kept.foldl
      | intro _ _ _
      | intro _ _
      | with_reducible exact Kept.refl _
      | with_reducible apply Kept.useFree
      | (refine Kept.other (s := ?_) ?_ ?_; rotate_left 2; (dsimp only; with_reducible rfl))
      | (refine Kept.fresh (s := ?_) ?_ 1 ?_; rotate_left 2; (dsimp only; with_reducible rfl))

theorem State.putFlit_kept {r0 s : State} (p : Nat) (type : Nat) (cls : Nat) (payload : List Byte) (hk : Kept r0 s) :
    Kept r0 (State.putFlit s p type cls payload) := by
  unfold State.putFlit
  repeat' first
    | with_reducible assumption
    | with_reducible apply State.setPort_kept
    | split
    | with_reducible apply Kept.foldl
    | intro _ _ _
    | intro _ _
    | with_reducible exact Kept.refl _
    | with_reducible apply Kept.useFree
    | (refine Kept.other (s := ?_) ?_ ?_; rotate_left 2; (dsimp only; with_reducible rfl))
    | (refine Kept.fresh (s := ?_) ?_ 1 ?_; rotate_left 2; (dsimp only; with_reducible rfl))

theorem State.putData_kept {r0 s : State} (p : Nat) (c : Nat) (hk : Kept r0 s) :
    Kept r0 (State.putData s p c) := by
  unfold State.putData
  repeat' first
    | with_reducible assumption
    | with_reducible apply State.putFlit_kept
    | with_reducible apply State.setPort_kept
    | split
    | with_reducible apply Kept.foldl
    | intro _ _ _
    | intro _ _
    | with_reducible exact Kept.refl _
    | with_reducible apply Kept.useFree
    | (refine Kept.other (s := ?_) ?_ ?_; rotate_left 2; (dsimp only; with_reducible rfl))
    | (refine Kept.fresh (s := ?_) ?_ 1 ?_; rotate_left 2; (dsimp only; with_reducible rfl))

theorem State.sendSome_kept {r0 s : State} (p : Nat) (l1 : Nat) (hk : Kept r0 s) :
    Kept r0 (State.sendSome s p l1) := by
  induction l1 generalizing s p with
  | zero => exact hk
  | succ y ih =>
    unfold State.sendSome
    repeat' first
      | with_reducible assumption
      | with_reducible apply ih
      | with_reducible apply State.setPort_kept
      | with_reducible apply State.putFlit_kept
      | with_reducible apply State.putData_kept
      | split
      | with_reducible apply Kept.foldl
      | intro _ _ _
      | intro _ _
      | with_reducible exact Kept.refl _
      | with_reducible apply Kept.useFree
      | (refine Kept.other (s := ?_) ?_ ?_; rotate_left 2; (dsimp only; with_reducible rfl))
      | (refine Kept.fresh (s := ?_) ?_ 1 ?_; rotate_left 2; (dsimp only; with_reducible rfl))

theorem State.sendOut_kept {r0 s : State} (p : Nat) (hk : Kept r0 s) :
    Kept r0 (State.sendOut s p) := by
  unfold State.sendOut
  repeat' first
    | with_reducible assumption
    | with_reducible apply State.sendSome_kept
    | split
    | with_reducible apply Kept.foldl
    | intro _ _ _
    | intro _ _
    | with_reducible exact Kept.refl _
    | with_reducible apply Kept.useFree
    | (refine Kept.other (s := ?_) ?_ ?_; rotate_left 2; (dsimp only; with_reducible rfl))
    | (refine Kept.fresh (s := ?_) ?_ 1 ?_; rotate_left 2; (dsimp only; with_reducible rfl))

theorem State.sendCtl_kept {r0 s : State} (p : Nat) (type : Nat) (cls : Nat) (payload : List Byte) (hk : Kept r0 s) :
    Kept r0 (State.sendCtl s p type cls payload) := by
  unfold State.sendCtl
  repeat' first
    | with_reducible assumption
    | with_reducible apply State.sendOut_kept
    | with_reducible apply State.setPort_kept
    | split
    | with_reducible apply Kept.foldl
    | intro _ _ _
    | intro _ _
    | with_reducible exact Kept.refl _
    | with_reducible apply Kept.useFree
    | (refine Kept.other (s := ?_) ?_ ?_; rotate_left 2; (dsimp only; with_reducible rfl))
    | (refine Kept.fresh (s := ?_) ?_ 1 ?_; rotate_left 2; (dsimp only; with_reducible rfl))

theorem State.clearQueue_kept {r0 s : State} (x : Nat) (q : Nat) (code : Option Nat) (hk : Kept r0 s) :
    Kept r0 (State.clearQueue s x q code) := by
  unfold State.clearQueue
  repeat' first
    | with_reducible assumption
    | with_reducible apply State.withdrawRefs_kept
    | with_reducible apply State.wr_kept
    | with_reducible apply State.setQueue_kept
    | split
    | with_reducible apply Kept.foldl
    | intro _ _ _
    | intro _ _
    | with_reducible exact Kept.refl _
    | with_reducible apply Kept.useFree
    | (refine Kept.other (s := ?_) ?_ ?_; rotate_left 2; (dsimp only; with_reducible rfl))
    | (refine Kept.fresh (s := ?_) ?_ 1 ?_; rotate_left 2; (dsimp only; with_reducible rfl))

theorem State.clearPair_kept {r0 s : State} (x : Nat) (q : Nat) (code : Option Nat) (hk : Kept r0 s) :
    Kept r0 (State.clearPair s x q code) := by
  unfold State.clearPair
  repeat' first
    | with_reducible assumption
    | with_reducible apply State.clearQueue_kept
    | with_reducible apply State.queuePacket_kept
    | split
    | with_reducible apply Kept.foldl
    | intro _ _ _
    | intro _ _
    | with_reducible exact Kept.refl _
    | with_reducible apply Kept.useFree
    | (refine Kept.other (s := ?_) ?_ ?_; rotate_left 2; (dsimp only; with_reducible rfl))
    | (refine Kept.fresh (s := ?_) ?_ 1 ?_; rotate_left 2; (dsimp only; with_reducible rfl))

theorem State.clearPairs_kept {r0 s : State} (x : Nat) (code : Option Nat) (l1 : List Nat) (hk : Kept r0 s) :
    Kept r0 (State.clearPairs s x code l1) := by
  induction l1 generalizing s x code with
  | nil => exact hk
  | cons y l ih =>
    unfold State.clearPairs
    repeat' first
      | with_reducible assumption
      | with_reducible apply ih
      | with_reducible apply State.clearPair_kept
      | split
      | with_reducible apply Kept.foldl
      | intro _ _ _
      | intro _ _
      | with_reducible exact Kept.refl _
      | with_reducible apply Kept.useFree
      | (refine Kept.other (s := ?_) ?_ ?_; rotate_left 2; (dsimp only; with_reducible rfl))
      | (refine Kept.fresh (s := ?_) ?_ 1 ?_; rotate_left 2; (dsimp only; with_reducible rfl))

theorem State.dropSpanPairs_kept {r0 s : State} (l1 : List (Nat × Nat)) (hk : Kept r0 s) :
    Kept r0 (State.dropSpanPairs s l1) := by
  induction l1 generalizing s with
  | nil => exact hk
  | cons y l ih =>
    unfold State.dropSpanPairs
    repeat' first
      | with_reducible assumption
      | with_reducible apply ih
      | with_reducible apply State.haltCtx_kept
      | with_reducible apply State.clearPair_kept
      | split
      | with_reducible apply Kept.foldl
      | intro _ _ _
      | intro _ _
      | with_reducible exact Kept.refl _
      | with_reducible apply Kept.useFree
      | (refine Kept.other (s := ?_) ?_ ?_; rotate_left 2; (dsimp only; with_reducible rfl))
      | (refine Kept.fresh (s := ?_) ?_ 1 ?_; rotate_left 2; (dsimp only; with_reducible rfl))

theorem State.clearSpan_kept {r0 s : State} (p : Nat) (hk : Kept r0 s) :
    Kept r0 (State.clearSpan s p) := by
  unfold State.clearSpan
  repeat' first
    | with_reducible assumption
    | with_reducible apply State.event_kept
    | with_reducible apply State.wr_kept
    | split
    | with_reducible apply Kept.foldl
    | intro _ _ _
    | intro _ _
    | with_reducible exact Kept.refl _
    | with_reducible apply Kept.useFree
    | (refine Kept.other (s := ?_) ?_ ?_; rotate_left 2; (dsimp only; with_reducible rfl))
    | (refine Kept.fresh (s := ?_) ?_ 1 ?_; rotate_left 2; (dsimp only; with_reducible rfl))

theorem State.loseSpan_kept {r0 s : State} (p : Nat) (hk : Kept r0 s) :
    Kept r0 (State.loseSpan s p) := by
  unfold State.loseSpan
  repeat' first
    | with_reducible assumption
    | with_reducible apply State.dropSpanPairs_kept
    | with_reducible apply State.clearSpan_kept
    | split
    | with_reducible apply Kept.foldl
    | intro _ _ _
    | intro _ _
    | with_reducible exact Kept.refl _
    | with_reducible apply Kept.useFree
    | (refine Kept.other (s := ?_) ?_ ?_; rotate_left 2; (dsimp only; with_reducible rfl))
    | (refine Kept.fresh (s := ?_) ?_ 1 ?_; rotate_left 2; (dsimp only; with_reducible rfl))

theorem State.spanRecheck_kept {r0 s : State}  (hk : Kept r0 s) :
    Kept r0 (State.spanRecheck s) := by
  unfold State.spanRecheck
  repeat' first
    | with_reducible assumption
    | with_reducible apply State.loseSpan_kept
    | split
    | with_reducible apply Kept.foldl
    | intro _ _ _
    | intro _ _
    | with_reducible exact Kept.refl _
    | with_reducible apply Kept.useFree
    | (refine Kept.other (s := ?_) ?_ ?_; rotate_left 2; (dsimp only; with_reducible rfl))
    | (refine Kept.fresh (s := ?_) ?_ 1 ?_; rotate_left 2; (dsimp only; with_reducible rfl))

theorem State.resendAll_kept {r0 s : State} (p : Nat) (count : Bool) (hk : Kept r0 s) :
    Kept r0 (State.resendAll s p count) := by
  unfold State.resendAll
  repeat' first
    | with_reducible assumption
    | with_reducible apply State.setPort_kept
    | with_reducible apply State.incBy_kept
    | split
    | with_reducible apply Kept.foldl
    | intro _ _ _
    | intro _ _
    | with_reducible exact Kept.refl _
    | with_reducible apply Kept.useFree
    | (refine Kept.other (s := ?_) ?_ ?_; rotate_left 2; (dsimp only; with_reducible rfl))
    | (refine Kept.fresh (s := ?_) ?_ 1 ?_; rotate_left 2; (dsimp only; with_reducible rfl))

theorem State.linkGoesOn_kept {r0 s : State} (p : Nat) (hk : Kept r0 s) :
    Kept r0 (State.linkGoesOn s p) := by
  unfold State.linkGoesOn
  repeat' first
    | with_reducible assumption
    | with_reducible apply State.sendOut_kept
    | with_reducible apply State.resendAll_kept
    | split
    | with_reducible apply Kept.foldl
    | intro _ _ _
    | intro _ _
    | with_reducible exact Kept.refl _
    | with_reducible apply Kept.useFree
    | (refine Kept.other (s := ?_) ?_ ?_; rotate_left 2; (dsimp only; with_reducible rfl))
    | (refine Kept.fresh (s := ?_) ?_ 1 ?_; rotate_left 2; (dsimp only; with_reducible rfl))

theorem State.queueBodies_kept {r0 s : State} (k : ChannelKey) (ordered : Bool) (type : Nat) (l1 : List (List Byte)) (hk : Kept r0 s) :
    Kept r0 (State.queueBodies s k ordered type l1) := by
  induction l1 generalizing s k ordered type with
  | nil => exact hk
  | cons y l ih =>
    unfold State.queueBodies
    repeat' first
      | with_reducible assumption
      | with_reducible apply ih
      | with_reducible apply State.queuePacket_kept
      | split
      | with_reducible apply Kept.foldl
      | intro _ _ _
      | intro _ _
      | with_reducible exact Kept.refl _
      | with_reducible apply Kept.useFree
      | (refine Kept.other (s := ?_) ?_ ?_; rotate_left 2; (dsimp only; with_reducible rfl))
      | (refine Kept.fresh (s := ?_) ?_ 1 ?_; rotate_left 2; (dsimp only; with_reducible rfl))

theorem State.dropTaken_kept {r0 s : State} (x : Nat) (hk : Kept r0 s) :
    Kept r0 (State.dropTaken s x) := by
  unfold State.dropTaken
  repeat' first
    | with_reducible assumption
    | with_reducible apply State.setCtx_kept
    | split
    | with_reducible apply Kept.foldl
    | intro _ _ _
    | intro _ _
    | with_reducible exact Kept.refl _
    | with_reducible apply Kept.useFree
    | (refine Kept.other (s := ?_) ?_ ?_; rotate_left 2; (dsimp only; with_reducible rfl))
    | (refine Kept.fresh (s := ?_) ?_ 1 ?_; rotate_left 2; (dsimp only; with_reducible rfl))

theorem State.channelDown_kept {r0 s : State} (c : Channel) (hk : Kept r0 s) :
    Kept r0 (State.channelDown s c) := by
  unfold State.channelDown
  repeat' first
    | with_reducible assumption
    | with_reducible apply State.setChannel_kept
    | with_reducible apply State.dropTaken_kept
    | with_reducible apply State.haltCtx_kept
    | with_reducible apply State.clearPairs_kept
    | split
    | with_reducible apply Kept.foldl
    | intro _ _ _
    | intro _ _
    | with_reducible exact Kept.refl _
    | with_reducible apply Kept.useFree
    | (refine Kept.other (s := ?_) ?_ ?_; rotate_left 2; (dsimp only; with_reducible rfl))
    | (refine Kept.fresh (s := ?_) ?_ 1 ?_; rotate_left 2; (dsimp only; with_reducible rfl))

theorem State.openChannel_kept {r0 s : State} (k : ChannelKey) (o : Bool) (hk : Kept r0 s) :
    Kept r0 (State.openChannel s k o) := by
  unfold State.openChannel
  repeat' first
    | with_reducible assumption
    | with_reducible apply State.setChannel_kept
    | split
    | with_reducible apply Kept.foldl
    | intro _ _ _
    | intro _ _
    | with_reducible exact Kept.refl _
    | with_reducible apply Kept.useFree
    | (refine Kept.other (s := ?_) ?_ ?_; rotate_left 2; (dsimp only; with_reducible rfl))
    | (refine Kept.fresh (s := ?_) ?_ 1 ?_; rotate_left 2; (dsimp only; with_reducible rfl))

theorem State.channelsDown_kept {r0 s : State} (l1 : List Channel) (hk : Kept r0 s) :
    Kept r0 (State.channelsDown s l1) := by
  induction l1 generalizing s with
  | nil => exact hk
  | cons y l ih =>
    unfold State.channelsDown
    repeat' first
      | with_reducible assumption
      | with_reducible apply ih
      | with_reducible apply State.channelDown_kept
      | split
      | with_reducible apply Kept.foldl
      | intro _ _ _
      | intro _ _
      | with_reducible exact Kept.refl _
      | with_reducible apply Kept.useFree
      | (refine Kept.other (s := ?_) ?_ ?_; rotate_left 2; (dsimp only; with_reducible rfl))
      | (refine Kept.fresh (s := ?_) ?_ 1 ?_; rotate_left 2; (dsimp only; with_reducible rfl))

theorem State.portGone_kept {r0 s : State} (p : Nat) (hk : Kept r0 s) :
    Kept r0 (State.portGone s p) := by
  unfold State.portGone
  repeat' first
    | with_reducible assumption
    | with_reducible apply State.channelsDown_kept
    | split
    | with_reducible apply Kept.foldl
    | intro _ _ _
    | intro _ _
    | with_reducible exact Kept.refl _
    | with_reducible apply Kept.useFree
    | (refine Kept.other (s := ?_) ?_ ?_; rotate_left 2; (dsimp only; with_reducible rfl))
    | (refine Kept.fresh (s := ?_) ?_ 1 ?_; rotate_left 2; (dsimp only; with_reducible rfl))

theorem State.takeAck_kept {r0 s : State} (p : Nat) (ack : Nat) (hk : Kept r0 s) :
    Kept r0 (State.takeAck s p ack) := by
  unfold State.takeAck
  repeat' first
    | with_reducible assumption
    | with_reducible apply State.sendOut_kept
    | with_reducible apply State.setPort_kept
    | split
    | with_reducible apply Kept.foldl
    | intro _ _ _
    | intro _ _
    | with_reducible exact Kept.refl _
    | with_reducible apply Kept.useFree
    | (refine Kept.other (s := ?_) ?_ ?_; rotate_left 2; (dsimp only; with_reducible rfl))
    | (refine Kept.fresh (s := ?_) ?_ 1 ?_; rotate_left 2; (dsimp only; with_reducible rfl))

theorem State.linkLost_kept {r0 s : State} (p : Nat) (state : Nat) (code : Nat) (hk : Kept r0 s) :
    Kept r0 (State.linkLost s p state code) := by
  unfold State.linkLost
  repeat' first
    | with_reducible assumption
    | with_reducible apply State.portGone_kept
    | with_reducible apply State.portStatus_kept
    | with_reducible apply State.clearSpan_kept
    | with_reducible apply State.wr_kept
    | with_reducible apply State.setLink_kept
    | split
    | with_reducible apply Kept.foldl
    | intro _ _ _
    | intro _ _
    | with_reducible exact Kept.refl _
    | with_reducible apply Kept.useFree
    | (refine Kept.other (s := ?_) ?_ ?_; rotate_left 2; (dsimp only; with_reducible rfl))
    | (refine Kept.fresh (s := ?_) ?_ 1 ?_; rotate_left 2; (dsimp only; with_reducible rfl))

theorem State.sendNak_kept {r0 s : State} (p : Nat) (hk : Kept r0 s) :
    Kept r0 (State.sendNak s p) := by
  unfold State.sendNak
  repeat' first
    | with_reducible assumption
    | with_reducible apply State.setPort_kept
    | split
    | with_reducible apply Kept.foldl
    | intro _ _ _
    | intro _ _
    | with_reducible exact Kept.refl _
    | with_reducible apply Kept.useFree
    | (refine Kept.other (s := ?_) ?_ ?_; rotate_left 2; (dsimp only; with_reducible rfl))
    | (refine Kept.fresh (s := ?_) ?_ 1 ?_; rotate_left 2; (dsimp only; with_reducible rfl))

theorem State.linkUp_kept {r0 s : State} (p : Nat) (r : Nat × Nat) (hk : Kept r0 s) :
    Kept r0 (State.linkUp s p r) := by
  unfold State.linkUp
  repeat' first
    | with_reducible assumption
    | with_reducible apply State.wr_kept
    | with_reducible apply State.setLink_kept
    | with_reducible apply State.portStatus_kept
    | split
    | with_reducible apply Kept.foldl
    | intro _ _ _
    | intro _ _
    | with_reducible exact Kept.refl _
    | with_reducible apply Kept.useFree
    | (refine Kept.other (s := ?_) ?_ ?_; rotate_left 2; (dsimp only; with_reducible rfl))
    | (refine Kept.fresh (s := ?_) ?_ 1 ?_; rotate_left 2; (dsimp only; with_reducible rfl))

theorem State.partnerCleared_kept {r0 s : State} (x : Nat) (dev : Nat) (channel : Nat) (putSide : Bool) (hk : Kept r0 s) :
    Kept r0 (State.partnerCleared s x dev channel putSide) := by
  unfold State.partnerCleared
  repeat' first
    | with_reducible assumption
    | with_reducible apply State.clearQueue_kept
    | split
    | with_reducible apply Kept.foldl
    | intro _ _ _
    | intro _ _
    | with_reducible exact Kept.refl _
    | with_reducible apply Kept.useFree
    | (refine Kept.other (s := ?_) ?_ ?_; rotate_left 2; (dsimp only; with_reducible rfl))
    | (refine Kept.fresh (s := ?_) ?_ 1 ?_; rotate_left 2; (dsimp only; with_reducible rfl))

theorem State.sendOn_kept {r0 s : State} (p : Nat) (pk : Packet) (hk : Kept r0 s) :
    Kept r0 (State.sendOn s p pk) := by
  unfold State.sendOn
  repeat' first
    | with_reducible assumption
    | with_reducible apply State.sendOut_kept
    | with_reducible apply State.setPort_kept
    | split
    | with_reducible apply Kept.foldl
    | intro _ _ _
    | intro _ _
    | with_reducible exact Kept.refl _
    | with_reducible apply Kept.useFree
    | (refine Kept.other (s := ?_) ?_ ?_; rotate_left 2; (dsimp only; with_reducible rfl))
    | (refine Kept.fresh (s := ?_) ?_ 1 ?_; rotate_left 2; (dsimp only; with_reducible rfl))

theorem State.startQueue_kept {r0 s : State} (x q : Nat) (hk : Kept r0 s) : Kept r0 (State.startQueue s x q) := by
  unfold State.startQueue
  extract_lets b k src s1 s2 src'
  have h2 : Kept r0 s2 := State.wr_kept _ _ _ (State.wr_kept _ _ _ (State.setQueue_kept _ _ _ hk))
  have h3 : Kept r0 src' := State.openChannel_kept _ _ (State.openChannel_kept _ _ h2)
  clear_value src'
  split
  · exact State.queuePacket_kept _ _ _ _ ⟨h3.pending, h3.nowUs, Nat.le_succ_of_le hk.free, h3.tier1, h3.hostMem, h3.nvw, h3.poison, h3.drone, h3.cores, h3.ctxs, h3.queues, h3.rings⟩
  · exact h2

theorem State.clearDone_kept {r0 s : State} (x : Nat) (q : Nat) (hk : Kept r0 s) :
    Kept r0 (State.clearDone s x q) := by
  unfold State.clearDone
  repeat' first
    | with_reducible assumption
    | with_reducible apply State.zeroRegion_kept
    | with_reducible apply State.setQueue_kept
    | split
    | with_reducible apply Kept.foldl
    | intro _ _ _
    | intro _ _
    | with_reducible exact Kept.refl _
    | with_reducible apply Kept.useFree
    | (refine Kept.other (s := ?_) ?_ ?_; rotate_left 2; (dsimp only; with_reducible rfl))
    | (refine Kept.fresh (s := ?_) ?_ 1 ?_; rotate_left 2; (dsimp only; with_reducible rfl))

theorem State.importWw_kept {r0 s : State} (r : WRef) (i : InFlight) (n : Nat) (bs : List Byte) (hk : Kept r0 s) :
    Kept r0 (State.importWw s r i n bs) := by
  unfold State.importWw
  repeat' first
    | with_reducible assumption
    | with_reducible apply State.importBytes_kept
    | split
    | with_reducible apply Kept.foldl
    | intro _ _ _
    | intro _ _
    | with_reducible exact Kept.refl _
    | with_reducible apply Kept.useFree
    | (refine Kept.other (s := ?_) ?_ ?_; rotate_left 2; (dsimp only; with_reducible rfl))
    | (refine Kept.fresh (s := ?_) ?_ 1 ?_; rotate_left 2; (dsimp only; with_reducible rfl))

theorem State.deliverGood_kept {r0 s : State} (x : Nat) (q : Nat) (hk : Kept r0 s) :
    Kept r0 (State.deliverGood s x q) := by
  unfold State.deliverGood
  repeat' first
    | with_reducible assumption
    | with_reducible apply State.setQueue_kept
    | with_reducible apply State.importWw_kept
    | with_reducible apply State.store_kept
    | with_reducible apply State.traceEffect_kept
    | with_reducible apply State.dropFlight_kept
    | with_reducible apply State.queuePacket_kept
    | split
    | with_reducible apply Kept.foldl
    | intro _ _ _
    | intro _ _
    | with_reducible exact Kept.refl _
    | with_reducible apply Kept.useFree
    | (refine Kept.other (s := ?_) ?_ ?_; rotate_left 2; (dsimp only; with_reducible rfl))
    | (refine Kept.fresh (s := ?_) ?_ 1 ?_; rotate_left 2; (dsimp only; with_reducible rfl))

theorem State.deliverRecord_kept {r0 s : State} (x : Nat) (q : Nat) (good : Bool) (hk : Kept r0 s) :
    Kept r0 (State.deliverRecord s x q good) := by
  unfold State.deliverRecord
  repeat' first
    | with_reducible assumption
    | with_reducible apply State.dataFault_kept
    | with_reducible apply State.poisonFault_kept
    | with_reducible apply State.deliverGood_kept
    | split
    | with_reducible apply Kept.foldl
    | intro _ _ _
    | intro _ _
    | with_reducible exact Kept.refl _
    | with_reducible apply Kept.useFree
    | (refine Kept.other (s := ?_) ?_ ?_; rotate_left 2; (dsimp only; with_reducible rfl))
    | (refine Kept.fresh (s := ?_) ?_ 1 ?_; rotate_left 2; (dsimp only; with_reducible rfl))

theorem State.enqueue_kept {r0 s : State} (x : Nat) (q : Nat) (seq : Nat) (bs : List Byte) (hk : Kept r0 s) :
    Kept r0 (State.enqueue s x q seq bs) := by
  unfold State.enqueue
  repeat' first
    | with_reducible assumption
    | with_reducible apply State.afterPoison_kept
    | with_reducible apply State.store_kept
    | with_reducible apply State.setQueue_kept
    | split
    | with_reducible apply Kept.foldl
    | intro _ _ _
    | intro _ _
    | with_reducible exact Kept.refl _
    | with_reducible apply Kept.useFree
    | (refine Kept.other (s := ?_) ?_ ?_; rotate_left 2; (dsimp only; with_reducible rfl))
    | (refine Kept.fresh (s := ?_) ?_ 1 ?_; rotate_left 2; (dsimp only; with_reducible rfl))

theorem State.enqueueAll_kept {r0 s : State} (x : Nat) (q : Nat) (seq : Nat) (l1 : List (List Byte)) (hk : Kept r0 s) :
    Kept r0 (State.enqueueAll s x q seq l1) := by
  induction l1 generalizing s x q seq with
  | nil => exact hk
  | cons y l ih =>
    unfold State.enqueueAll
    repeat' first
      | with_reducible assumption
      | with_reducible apply ih
      | with_reducible apply State.enqueue_kept
      | split
      | with_reducible apply Kept.foldl
      | intro _ _ _
      | intro _ _
      | with_reducible exact Kept.refl _
      | with_reducible apply Kept.useFree
      | (refine Kept.other (s := ?_) ?_ ?_; rotate_left 2; (dsimp only; with_reducible rfl))
      | (refine Kept.fresh (s := ?_) ?_ 1 ?_; rotate_left 2; (dsimp only; with_reducible rfl))

theorem State.giveSeq_kept {r0 s : State} (r : WRef) (i : InFlight) (n : Nat) (hk : Kept r0 s) :
    Kept r0 (State.giveSeq s r i n) := by
  unfold State.giveSeq
  repeat' first
    | with_reducible assumption
    | with_reducible apply State.importWw_kept
    | with_reducible apply State.complete_kept
    | split
    | with_reducible apply Kept.foldl
    | intro _ _ _
    | intro _ _
    | with_reducible exact Kept.refl _
    | with_reducible apply Kept.useFree
    | (refine Kept.other (s := ?_) ?_ ?_; rotate_left 2; (dsimp only; with_reducible rfl))
    | (refine Kept.fresh (s := ?_) ?_ 1 ?_; rotate_left 2; (dsimp only; with_reducible rfl))

theorem State.markTaken_kept {r0 s : State} (r : WRef) (hk : Kept r0 s) :
    Kept r0 (State.markTaken s r) := by
  unfold State.markTaken
  repeat' first
    | with_reducible assumption
    | with_reducible apply State.setCore_kept
    | split
    | with_reducible apply Kept.foldl
    | intro _ _ _
    | intro _ _
    | with_reducible exact Kept.refl _
    | with_reducible apply Kept.useFree
    | (refine Kept.other (s := ?_) ?_ ?_; rotate_left 2; (dsimp only; with_reducible rfl))
    | (refine Kept.fresh (s := ?_) ?_ 1 ?_; rotate_left 2; (dsimp only; with_reducible rfl))

theorem State.getTake_kept {r0 s : State} (x : Nat) (q : Nat) (hk : Kept r0 s) :
    Kept r0 (State.getTake s x q) := by
  unfold State.getTake
  repeat' first
    | with_reducible assumption
    | with_reducible apply State.wr_kept
    | with_reducible apply State.setQueue_kept
    | with_reducible apply State.giveSeq_kept
    | with_reducible apply State.markTaken_kept
    | split
    | with_reducible apply Kept.foldl
    | intro _ _ _
    | intro _ _
    | with_reducible exact Kept.refl _
    | with_reducible apply Kept.useFree
    | (refine Kept.other (s := ?_) ?_ ?_; rotate_left 2; (dsimp only; with_reducible rfl))
    | (refine Kept.fresh (s := ?_) ?_ 1 ?_; rotate_left 2; (dsimp only; with_reducible rfl))

theorem State.putDone_kept {r0 s : State} (x : Nat) (q : Nat) (r : WRef) (i : InFlight) (bad : Option Nat) (hk : Kept r0 s) :
    Kept r0 (State.putDone s x q r i bad) := by
  unfold State.putDone
  repeat' first
    | with_reducible assumption
    | with_reducible apply State.traceEffect_kept
    | with_reducible apply State.dropFlight_kept
    | with_reducible apply State.setQueue_kept
    | with_reducible apply State.deferTrap_kept
    | split
    | with_reducible apply Kept.foldl
    | intro _ _ _
    | intro _ _
    | with_reducible exact Kept.refl _
    | with_reducible apply Kept.useFree
    | (refine Kept.other (s := ?_) ?_ ?_; rotate_left 2; (dsimp only; with_reducible rfl))
    | (refine Kept.fresh (s := ?_) ?_ 1 ?_; rotate_left 2; (dsimp only; with_reducible rfl))

theorem State.remotePutSent_kept {r0 s : State} (x : Nat) (q : Nat) (hk : Kept r0 s) :
    Kept r0 (State.remotePutSent s x q) := by
  unfold State.remotePutSent
  repeat' first
    | with_reducible assumption
    | with_reducible apply State.putDone_kept
    | split
    | with_reducible apply Kept.foldl
    | intro _ _ _
    | intro _ _
    | with_reducible exact Kept.refl _
    | with_reducible apply Kept.useFree
    | (refine Kept.other (s := ?_) ?_ ?_; rotate_left 2; (dsimp only; with_reducible rfl))
    | (refine Kept.fresh (s := ?_) ?_ 1 ?_; rotate_left 2; (dsimp only; with_reducible rfl))

theorem State.setFailing_kept {r0 s : State} (r : WRef) (row : Nat) (hk : Kept r0 s) :
    Kept r0 (State.setFailing s r row) := by
  unfold State.setFailing
  repeat' first
    | with_reducible assumption
    | with_reducible apply State.setCore_kept
    | split
    | with_reducible apply Kept.foldl
    | intro _ _ _
    | intro _ _
    | with_reducible exact Kept.refl _
    | with_reducible apply Kept.useFree
    | (refine Kept.other (s := ?_) ?_ ?_; rotate_left 2; (dsimp only; with_reducible rfl))
    | (refine Kept.fresh (s := ?_) ?_ 1 ?_; rotate_left 2; (dsimp only; with_reducible rfl))

theorem State.putTake_kept {r0 s : State} (x : Nat) (q : Nat) (hk : Kept r0 s) :
    Kept r0 (State.putTake s x q) := by
  unfold State.putTake
  repeat' first
    | with_reducible assumption
    | with_reducible apply State.wr_kept
    | with_reducible apply State.setQueue_kept
    | with_reducible apply State.giveSeq_kept
    | with_reducible apply State.markTaken_kept
    | with_reducible apply State.queueBodies_kept
    | with_reducible apply State.putDone_kept
    | with_reducible apply State.setFailing_kept
    | with_reducible apply State.enqueueAll_kept
    | split
    | with_reducible apply Kept.foldl
    | intro _ _ _
    | intro _ _
    | with_reducible exact Kept.refl _
    | with_reducible apply Kept.useFree
    | (refine Kept.other (s := ?_) ?_ ?_; rotate_left 2; (dsimp only; with_reducible rfl))
    | (refine Kept.fresh (s := ?_) ?_ 1 ?_; rotate_left 2; (dsimp only; with_reducible rfl))

theorem State.remoteCredit_kept {r0 s : State} (x : Nat) (q : Nat) (hk : Kept r0 s) :
    Kept r0 (State.remoteCredit s x q) := by
  unfold State.remoteCredit
  repeat' first
    | with_reducible assumption
    | with_reducible apply State.setQueue_kept
    | split
    | with_reducible apply Kept.foldl
    | intro _ _ _
    | intro _ _
    | with_reducible exact Kept.refl _
    | with_reducible apply Kept.useFree
    | (refine Kept.other (s := ?_) ?_ ?_; rotate_left 2; (dsimp only; with_reducible rfl))
    | (refine Kept.fresh (s := ?_) ?_ 1 ?_; rotate_left 2; (dsimp only; with_reducible rfl))

theorem State.remoteRecord_kept {r0 s : State} (x : Nat) (q : Nat) (bs : List Byte) (hk : Kept r0 s) :
    Kept r0 (State.remoteRecord s x q bs) := by
  unfold State.remoteRecord
  repeat' first
    | with_reducible assumption
    | with_reducible apply State.enqueue_kept
    | with_reducible apply State.wr_kept
    | with_reducible apply State.setQueue_kept
    | split
    | with_reducible apply Kept.foldl
    | intro _ _ _
    | intro _ _
    | with_reducible exact Kept.refl _
    | with_reducible apply Kept.useFree
    | (refine Kept.other (s := ?_) ?_ ?_; rotate_left 2; (dsimp only; with_reducible rfl))
    | (refine Kept.fresh (s := ?_) ?_ 1 ?_; rotate_left 2; (dsimp only; with_reducible rfl))

end Sys2Proof.Machine
end

