-- ==== Sys2Proof/Laws/KeptJobs.lean ====
section
/-! SUPPORT. Kept for the operations of contexts, the exchange engine, faults and the rotation: one lemma each, for a composition of any of them. -/
namespace Sys2Proof.Machine
set_option linter.unusedTactic false
set_option linter.unreachableTactic false

theorem State.finishAll_kept {r0 s : State} (x : Nat) (code : Nat) (hk : Kept r0 s) :
    Kept r0 (State.finishAll s x code) := by
  unfold State.finishAll
  repeat' first
    | with_reducible assumption
    | with_reducible apply State.setCtx_kept
    | with_reducible apply State.post_kept
    | split
    | with_reducible apply Kept.foldl
    | intro _ _ _
    | intro _ _
    | with_reducible exact Kept.refl _
    | with_reducible apply Kept.useFree
    | (refine Kept.other (s := ?_) ?_ ?_; rotate_left 2; (dsimp only; with_reducible rfl))
    | (refine Kept.fresh (s := ?_) ?_ 1 ?_; rotate_left 2; (dsimp only; with_reducible rfl))

theorem State.stopTable_kept {r0 s : State} (x : Nat) (hk : Kept r0 s) :
    Kept r0 (State.stopTable s x) := by
  unfold State.stopTable
  repeat' first
    | with_reducible assumption
    | with_reducible apply State.setCtx_kept
    | with_reducible apply State.resetFields_kept
    | split
    | with_reducible apply Kept.foldl
    | intro _ _ _
    | intro _ _
    | with_reducible exact Kept.refl _
    | with_reducible apply Kept.useFree
    | (refine Kept.other (s := ?_) ?_ ?_; rotate_left 2; (dsimp only; with_reducible rfl))
    | (refine Kept.fresh (s := ?_) ?_ 1 ?_; rotate_left 2; (dsimp only; with_reducible rfl))

theorem State.recallWindow_kept {r0 s : State} (w : Nat) (hk : Kept r0 s) :
    Kept r0 (State.recallWindow s w) := by
  unfold State.recallWindow
  repeat' first
    | with_reducible assumption
    | with_reducible apply State.backInvalidate_kept
    | split
    | with_reducible apply Kept.foldl
    | intro _ _ _
    | intro _ _
    | with_reducible exact Kept.refl _
    | with_reducible apply Kept.useFree
    | (refine Kept.other (s := ?_) ?_ ?_; rotate_left 2; (dsimp only; with_reducible rfl))
    | (refine Kept.fresh (s := ?_) ?_ 1 ?_; rotate_left 2; (dsimp only; with_reducible rfl))

theorem State.disableHdms_kept {r0 s : State} (x : Nat) (l1 : List Nat) (hk : Kept r0 s) :
    Kept r0 (State.disableHdms s x l1) := by
  induction l1 generalizing s x with
  | nil => exact hk
  | cons y l ih =>
    unfold State.disableHdms
    repeat' first
      | with_reducible assumption
      | with_reducible apply ih
      | with_reducible apply State.recallWindow_kept
      | with_reducible apply State.wr_kept
      | split
      | with_reducible apply Kept.foldl
      | intro _ _ _
      | intro _ _
      | with_reducible exact Kept.refl _
      | with_reducible apply Kept.useFree
      | (refine Kept.other (s := ?_) ?_ ?_; rotate_left 2; (dsimp only; with_reducible rfl))
      | (refine Kept.fresh (s := ?_) ?_ 1 ?_; rotate_left 2; (dsimp only; with_reducible rfl))

theorem State.dropChecks_kept {r0 s : State} (x : Nat) (hk : Kept r0 s) :
    Kept r0 (State.dropChecks s x) := by
  unfold State.dropChecks
  repeat' first
    | with_reducible assumption
    | split
    | with_reducible apply Kept.foldl
    | intro _ _ _
    | intro _ _
    | with_reducible exact Kept.refl _
    | with_reducible apply Kept.useFree
    | (refine Kept.other (s := ?_) ?_ ?_; rotate_left 2; (dsimp only; with_reducible rfl))
    | (refine Kept.fresh (s := ?_) ?_ 1 ?_; rotate_left 2; (dsimp only; with_reducible rfl))

theorem State.unbind_kept {r0 s : State} (x : Nat) (hk : Kept r0 s) :
    Kept r0 (State.unbind s x) := by
  unfold State.unbind
  repeat' first
    | with_reducible assumption
    | with_reducible apply State.spanRecheck_kept
    | with_reducible apply State.wr_kept
    | split
    | with_reducible apply Kept.foldl
    | intro _ _ _
    | intro _ _
    | with_reducible exact Kept.refl _
    | with_reducible apply Kept.useFree
    | (refine Kept.other (s := ?_) ?_ ?_; rotate_left 2; (dsimp only; with_reducible rfl))
    | (refine Kept.fresh (s := ?_) ?_ 1 ?_; rotate_left 2; (dsimp only; with_reducible rfl))

theorem State.beginTeardown_kept {r0 s : State} (x : Nat) (hk : Kept r0 s) :
    Kept r0 (State.beginTeardown s x) := by
  unfold State.beginTeardown
  repeat' first
    | with_reducible assumption
    | with_reducible apply State.setCtxState_kept
    | with_reducible apply State.setCtx_kept
    | with_reducible apply State.finishAll_kept
    | with_reducible apply State.drainCores_kept
    | with_reducible apply State.clearPairs_kept
    | with_reducible apply State.wr_kept
    | with_reducible apply State.stopTable_kept
    | with_reducible apply State.disableHdms_kept
    | with_reducible apply State.dropChecks_kept
    | with_reducible apply State.unbind_kept
    | split
    | with_reducible apply Kept.foldl
    | intro _ _ _
    | intro _ _
    | with_reducible exact Kept.refl _
    | with_reducible apply Kept.useFree
    | (refine Kept.other (s := ?_) ?_ ?_; rotate_left 2; (dsimp only; with_reducible rfl))
    | (refine Kept.fresh (s := ?_) ?_ 1 ?_; rotate_left 2; (dsimp only; with_reducible rfl))

theorem State.copySegments_kept {r0 s : State} (x : Nat) (bs : List Byte) (l1 : List Segment) (hk : Kept r0 s) :
    Kept r0 (State.copySegments s x bs l1) := by
  induction l1 generalizing s x bs with
  | nil => exact hk
  | cons y l ih =>
    unfold State.copySegments
    repeat' first
      | with_reducible assumption
      | with_reducible apply ih
      | with_reducible apply State.store_kept
      | split
      | with_reducible apply Kept.foldl
      | intro _ _ _
      | intro _ _
      | with_reducible exact Kept.refl _
      | with_reducible apply Kept.useFree
      | (refine Kept.other (s := ?_) ?_ ?_; rotate_left 2; (dsimp only; with_reducible rfl))
      | (refine Kept.fresh (s := ?_) ?_ 1 ?_; rotate_left 2; (dsimp only; with_reducible rfl))

theorem State.enterWaiting_kept {r0 s : State} (x : Nat) (hk : Kept r0 s) :
    Kept r0 (State.enterWaiting s x) := by
  unfold State.enterWaiting
  repeat' first
    | with_reducible assumption
    | with_reducible apply State.setCtxState_kept
    | with_reducible apply State.wr_kept
    | split
    | with_reducible apply Kept.foldl
    | intro _ _ _
    | intro _ _
    | with_reducible exact Kept.refl _
    | with_reducible apply Kept.useFree
    | (refine Kept.other (s := ?_) ?_ ?_; rotate_left 2; (dsimp only; with_reducible rfl))
    | (refine Kept.fresh (s := ?_) ?_ 1 ?_; rotate_left 2; (dsimp only; with_reducible rfl))

theorem State.ctxResume_kept {r0 s : State} (e : Entry) (hk : Kept r0 s) :
    Kept r0 (State.ctxResume s e) := by
  unfold State.ctxResume
  repeat' first
    | with_reducible assumption
    | with_reducible apply State.done_kept
    | with_reducible apply State.enterWaiting_kept
    | split
    | with_reducible apply Kept.foldl
    | intro _ _ _
    | intro _ _
    | with_reducible exact Kept.refl _
    | with_reducible apply Kept.useFree
    | (refine Kept.other (s := ?_) ?_ ?_; rotate_left 2; (dsimp only; with_reducible rfl))
    | (refine Kept.fresh (s := ?_) ?_ 1 ?_; rotate_left 2; (dsimp only; with_reducible rfl))

theorem State.ctxStop_kept {r0 s : State} (e : Entry) (hk : Kept r0 s) :
    Kept r0 (State.ctxStop s e) := by
  unfold State.ctxStop
  repeat' first
    | with_reducible assumption
    | with_reducible apply State.haltCtx_kept
    | with_reducible apply State.hold_kept
    | with_reducible apply State.done_kept
    | split
    | with_reducible apply Kept.foldl
    | intro _ _ _
    | intro _ _
    | with_reducible exact Kept.refl _
    | with_reducible apply Kept.useFree
    | (refine Kept.other (s := ?_) ?_ ?_; rotate_left 2; (dsimp only; with_reducible rfl))
    | (refine Kept.fresh (s := ?_) ?_ 1 ?_; rotate_left 2; (dsimp only; with_reducible rfl))

theorem State.ctxUnload_kept {r0 s : State} (e : Entry) (hk : Kept r0 s) :
    Kept r0 (State.ctxUnload s e) := by
  unfold State.ctxUnload
  repeat' first
    | with_reducible assumption
    | with_reducible apply State.done_kept
    | with_reducible apply State.setCtxState_kept
    | with_reducible apply State.setCtx_kept
    | split
    | with_reducible apply Kept.foldl
    | intro _ _ _
    | intro _ _
    | with_reducible exact Kept.refl _
    | with_reducible apply Kept.useFree
    | (refine Kept.other (s := ?_) ?_ ?_; rotate_left 2; (dsimp only; with_reducible rfl))
    | (refine Kept.fresh (s := ?_) ?_ 1 ?_; rotate_left 2; (dsimp only; with_reducible rfl))

theorem State.disableRings_kept {r0 s : State} (x : Nat) (l1 : List Nat) (hk : Kept r0 s) :
    Kept r0 (State.disableRings s x l1) := by
  induction l1 generalizing s x with
  | nil => exact hk
  | cons y l ih =>
    unfold State.disableRings
    repeat' first
      | with_reducible assumption
      | with_reducible apply ih
      | with_reducible apply State.wr_kept
      | with_reducible apply State.setRing_kept
      | split
      | with_reducible apply Kept.foldl
      | intro _ _ _
      | intro _ _
      | with_reducible exact Kept.refl _
      | with_reducible apply Kept.useFree
      | (refine Kept.other (s := ?_) ?_ ?_; rotate_left 2; (dsimp only; with_reducible rfl))
      | (refine Kept.fresh (s := ?_) ?_ 1 ?_; rotate_left 2; (dsimp only; with_reducible rfl))

theorem State.resumeCore_kept {r0 s : State} (c : Nat) (hk : Kept r0 s) :
    Kept r0 (State.resumeCore s c) := by
  unfold State.resumeCore
  repeat' first
    | with_reducible assumption
    | with_reducible apply State.preload_kept
    | with_reducible apply State.goTo_kept
    | split
    | with_reducible apply Kept.foldl
    | intro _ _ _
    | intro _ _
    | with_reducible exact Kept.refl _
    | with_reducible apply Kept.useFree
    | (refine Kept.other (s := ?_) ?_ ?_; rotate_left 2; (dsimp only; with_reducible rfl))
    | (refine Kept.fresh (s := ?_) ?_ 1 ?_; rotate_left 2; (dsimp only; with_reducible rfl))

theorem State.noteServed_kept {r0 s : State} (c : Nat) (x : Nat) (hk : Kept r0 s) :
    Kept r0 (State.noteServed s c x) := by
  unfold State.noteServed
  repeat' first
    | with_reducible assumption
    | split
    | with_reducible apply Kept.foldl
    | intro _ _ _
    | intro _ _
    | with_reducible exact Kept.refl _
    | with_reducible apply Kept.useFree
    | (refine Kept.other (s := ?_) ?_ ?_; rotate_left 2; (dsimp only; with_reducible rfl))
    | (refine Kept.fresh (s := ?_) ?_ 1 ?_; rotate_left 2; (dsimp only; with_reducible rfl))

theorem State.zeroProgramPegs_kept {r0 s : State} (x : Nat) (n : Nat) (hk : Kept r0 s) :
    Kept r0 (State.zeroProgramPegs s x n) := by
  unfold State.zeroProgramPegs
  repeat' first
    | with_reducible assumption
    | with_reducible apply State.setCtx_kept
    | split
    | with_reducible apply Kept.foldl
    | intro _ _ _
    | intro _ _
    | with_reducible exact Kept.refl _
    | with_reducible apply Kept.useFree
    | (refine Kept.other (s := ?_) ?_ ?_; rotate_left 2; (dsimp only; with_reducible rfl))
    | (refine Kept.fresh (s := ?_) ?_ 1 ?_; rotate_left 2; (dsimp only; with_reducible rfl))

theorem State.startCore_kept {r0 s : State} (x : Nat) (p : Program) (kc : Nat × Nat) (hk : Kept r0 s) :
    Kept r0 (State.startCore s x p kc) := by
  unfold State.startCore
  repeat' first
    | with_reducible assumption
    | with_reducible apply State.preload_kept
    | with_reducible apply State.setCore_kept
    | split
    | with_reducible apply Kept.foldl
    | intro _ _ _
    | intro _ _
    | with_reducible exact Kept.refl _
    | with_reducible apply Kept.useFree
    | (refine Kept.other (s := ?_) ?_ ?_; rotate_left 2; (dsimp only; with_reducible rfl))
    | (refine Kept.fresh (s := ?_) ?_ 1 ?_; rotate_left 2; (dsimp only; with_reducible rfl))

theorem State.startCores_kept {r0 s : State} (x : Nat) (p : Program) (l1 : List (Nat × Nat)) (hk : Kept r0 s) :
    Kept r0 (State.startCores s x p l1) := by
  induction l1 generalizing s x p with
  | nil => exact hk
  | cons y l ih =>
    unfold State.startCores
    repeat' first
      | with_reducible assumption
      | with_reducible apply ih
      | with_reducible apply State.startCore_kept
      | split
      | with_reducible apply Kept.foldl
      | intro _ _ _
      | intro _ _
      | with_reducible exact Kept.refl _
      | with_reducible apply Kept.useFree
      | (refine Kept.other (s := ?_) ?_ ?_; rotate_left 2; (dsimp only; with_reducible rfl))
      | (refine Kept.fresh (s := ?_) ?_ 1 ?_; rotate_left 2; (dsimp only; with_reducible rfl))

theorem State.startProgram_kept {r0 s : State} (x : Nat) (p : Program) (hk : Kept r0 s) :
    Kept r0 (State.startProgram s x p) := by
  unfold State.startProgram
  repeat' first
    | with_reducible assumption
    | with_reducible apply State.startCores_kept
    | with_reducible apply State.setCtx_kept
    | with_reducible apply State.post_kept
    | split
    | with_reducible apply Kept.foldl
    | intro _ _ _
    | intro _ _
    | with_reducible exact Kept.refl _
    | with_reducible apply Kept.useFree
    | (refine Kept.other (s := ?_) ?_ ?_; rotate_left 2; (dsimp only; with_reducible rfl))
    | (refine Kept.fresh (s := ?_) ?_ 1 ?_; rotate_left 2; (dsimp only; with_reducible rfl))

theorem State.load_kept {r0 s : State} (e : Entry) (hk : Kept r0 s) :
    Kept r0 (State.load s e) := by
  unfold State.load
  repeat' first
    | with_reducible assumption
    | with_reducible apply State.done_kept
    | with_reducible apply State.post_kept
    | with_reducible apply State.copySegments_kept
    | with_reducible apply State.store_kept
    | with_reducible apply State.zeroProgramPegs_kept
    | with_reducible apply State.setCtx_kept
    | with_reducible apply State.startProgram_kept
    | with_reducible apply State.enterWaiting_kept
    | split
    | with_reducible apply Kept.foldl
    | intro _ _ _
    | intro _ _
    | with_reducible exact Kept.refl _
    | with_reducible apply Kept.useFree
    | (refine Kept.other (s := ?_) ?_ ?_; rotate_left 2; (dsimp only; with_reducible rfl))
    | (refine Kept.fresh (s := ?_) ?_ 1 ?_; rotate_left 2; (dsimp only; with_reducible rfl))

theorem State.noteServedAll_kept {r0 s : State} (x : Nat) (l1 : List Nat) (hk : Kept r0 s) :
    Kept r0 (State.noteServedAll s x l1) := by
  induction l1 generalizing s x with
  | nil => exact hk
  | cons y l ih =>
    unfold State.noteServedAll
    repeat' first
      | with_reducible assumption
      | with_reducible apply ih
      | with_reducible apply State.noteServed_kept
      | split
      | with_reducible apply Kept.foldl
      | intro _ _ _
      | intro _ _
      | with_reducible exact Kept.refl _
      | with_reducible apply Kept.useFree
      | (refine Kept.other (s := ?_) ?_ ?_; rotate_left 2; (dsimp only; with_reducible rfl))
      | (refine Kept.fresh (s := ?_) ?_ 1 ?_; rotate_left 2; (dsimp only; with_reducible rfl))

theorem State.placeCtx_kept {r0 s : State} (x : Nat) (bays : List Nat) (hk : Kept r0 s) :
    Kept r0 (State.placeCtx s x bays) := by
  unfold State.placeCtx
  repeat' first
    | with_reducible assumption
    | with_reducible apply State.setCtxState_kept
    | with_reducible apply State.setCtx_kept
    | with_reducible apply State.wr_kept
    | with_reducible apply State.absentQueues_kept
    | with_reducible apply State.noteServedAll_kept
    | split
    | with_reducible apply Kept.foldl
    | intro _ _ _
    | intro _ _
    | with_reducible exact Kept.refl _
    | with_reducible apply Kept.useFree
    | (refine Kept.other (s := ?_) ?_ ?_; rotate_left 2; (dsimp only; with_reducible rfl))
    | (refine Kept.fresh (s := ?_) ?_ 1 ?_; rotate_left 2; (dsimp only; with_reducible rfl))

theorem State.placeFirst_kept {r0 s : State} (l1 : List Nat) (hk : Kept r0 s) :
    Kept r0 (State.placeFirst s l1) := by
  induction l1 generalizing s with
  | nil => exact hk
  | cons y l ih =>
    unfold State.placeFirst
    repeat' first
      | with_reducible assumption
      | with_reducible apply ih
      | with_reducible apply State.placeCtx_kept
      | split
      | with_reducible apply Kept.foldl
      | intro _ _ _
      | intro _ _
      | with_reducible exact Kept.refl _
      | with_reducible apply Kept.useFree
      | (refine Kept.other (s := ?_) ?_ ?_; rotate_left 2; (dsimp only; with_reducible rfl))
      | (refine Kept.fresh (s := ?_) ?_ 1 ?_; rotate_left 2; (dsimp only; with_reducible rfl))

theorem State.stopHopeless_kept {r0 s : State} (l1 : List Nat) (hk : Kept r0 s) :
    Kept r0 (State.stopHopeless s l1) := by
  induction l1 generalizing s with
  | nil => exact hk
  | cons y l ih =>
    unfold State.stopHopeless
    repeat' first
      | with_reducible assumption
      | with_reducible apply ih
      | with_reducible apply State.enterStopped_kept
      | split
      | with_reducible apply Kept.foldl
      | intro _ _ _
      | intro _ _
      | with_reducible exact Kept.refl _
      | with_reducible apply Kept.useFree
      | (refine Kept.other (s := ?_) ?_ ?_; rotate_left 2; (dsimp only; with_reducible rfl))
      | (refine Kept.fresh (s := ?_) ?_ 1 ?_; rotate_left 2; (dsimp only; with_reducible rfl))

theorem State.placement_kept {r0 s : State}  (hk : Kept r0 s) :
    Kept r0 (State.placement s) := by
  unfold State.placement
  repeat' first
    | with_reducible assumption
    | with_reducible apply State.stopHopeless_kept
    | with_reducible apply State.placeFirst_kept
    | split
    | with_reducible apply Kept.foldl
    | intro _ _ _
    | intro _ _
    | with_reducible exact Kept.refl _
    | with_reducible apply Kept.useFree
    | (refine Kept.other (s := ?_) ?_ ?_; rotate_left 2; (dsimp only; with_reducible rfl))
    | (refine Kept.fresh (s := ?_) ?_ 1 ?_; rotate_left 2; (dsimp only; with_reducible rfl))

theorem State.preempt_kept {r0 s : State} (x : Nat) (hk : Kept r0 s) :
    Kept r0 (State.preempt s x) := by
  unfold State.preempt
  repeat' first
    | with_reducible assumption
    | with_reducible apply State.drainCores_kept
    | with_reducible apply State.setCtxState_kept
    | with_reducible apply State.setCtx_kept
    | split
    | with_reducible apply Kept.foldl
    | intro _ _ _
    | intro _ _
    | with_reducible exact Kept.refl _
    | with_reducible apply Kept.useFree
    | (refine Kept.other (s := ?_) ?_ ?_; rotate_left 2; (dsimp only; with_reducible rfl))
    | (refine Kept.fresh (s := ?_) ?_ 1 ?_; rotate_left 2; (dsimp only; with_reducible rfl))

theorem State.preemptAll_kept {r0 s : State} (l1 : List Nat) (hk : Kept r0 s) :
    Kept r0 (State.preemptAll s l1) := by
  induction l1 generalizing s with
  | nil => exact hk
  | cons y l ih =>
    unfold State.preemptAll
    repeat' first
      | with_reducible assumption
      | with_reducible apply ih
      | with_reducible apply State.preempt_kept
      | split
      | with_reducible apply Kept.foldl
      | intro _ _ _
      | intro _ _
      | with_reducible exact Kept.refl _
      | with_reducible apply Kept.useFree
      | (refine Kept.other (s := ?_) ?_ ?_; rotate_left 2; (dsimp only; with_reducible rfl))
      | (refine Kept.fresh (s := ?_) ?_ 1 ?_; rotate_left 2; (dsimp only; with_reducible rfl))

theorem State.preemption_kept {r0 s : State}  (hk : Kept r0 s) :
    Kept r0 (State.preemption s) := by
  unfold State.preemption
  repeat' first
    | with_reducible assumption
    | with_reducible apply State.preemptAll_kept
    | split
    | with_reducible apply Kept.foldl
    | intro _ _ _
    | intro _ _
    | with_reducible exact Kept.refl _
    | with_reducible apply Kept.useFree
    | (refine Kept.other (s := ?_) ?_ ?_; rotate_left 2; (dsimp only; with_reducible rfl))
    | (refine Kept.fresh (s := ?_) ?_ 1 ?_; rotate_left 2; (dsimp only; with_reducible rfl))

theorem State.startPending_kept {r0 s : State} (x : Nat) (l1 : List Program) (hk : Kept r0 s) :
    Kept r0 (State.startPending s x l1) := by
  induction l1 generalizing s x with
  | nil => exact hk
  | cons y l ih =>
    unfold State.startPending
    repeat' first
      | with_reducible assumption
      | with_reducible apply ih
      | with_reducible apply State.startProgram_kept
      | split
      | with_reducible apply Kept.foldl
      | intro _ _ _
      | intro _ _
      | with_reducible exact Kept.refl _
      | with_reducible apply Kept.useFree
      | (refine Kept.other (s := ?_) ?_ ?_; rotate_left 2; (dsimp only; with_reducible rfl))
      | (refine Kept.fresh (s := ?_) ?_ 1 ?_; rotate_left 2; (dsimp only; with_reducible rfl))

theorem State.restoreCores_kept {r0 s : State} (k : Ctx) (l1 : List (Nat × Nat)) (hk : Kept r0 s) :
    Kept r0 (State.restoreCores s k l1) := by
  induction l1 generalizing s k with
  | nil => exact hk
  | cons y l ih =>
    unfold State.restoreCores
    repeat' first
      | with_reducible assumption
      | with_reducible apply ih
      | with_reducible apply State.resumeCore_kept
      | with_reducible apply State.setCore_kept
      | split
      | with_reducible apply Kept.foldl
      | intro _ _ _
      | intro _ _
      | with_reducible exact Kept.refl _
      | with_reducible apply Kept.useFree
      | (refine Kept.other (s := ?_) ?_ ?_; rotate_left 2; (dsimp only; with_reducible rfl))
      | (refine Kept.fresh (s := ?_) ?_ 1 ?_; rotate_left 2; (dsimp only; with_reducible rfl))

theorem State.sliceExpire_kept {r0 s : State} (x : Nat) (hk : Kept r0 s) :
    Kept r0 (State.sliceExpire s x) := by
  unfold State.sliceExpire
  repeat' first
    | with_reducible assumption
    | with_reducible apply State.preempt_kept
    | split
    | with_reducible apply Kept.foldl
    | intro _ _ _
    | intro _ _
    | with_reducible exact Kept.refl _
    | with_reducible apply Kept.useFree
    | (refine Kept.other (s := ?_) ?_ ?_; rotate_left 2; (dsimp only; with_reducible rfl))
    | (refine Kept.fresh (s := ?_) ?_ 1 ?_; rotate_left 2; (dsimp only; with_reducible rfl))

theorem State.teardownWith_kept {r0 s : State} (x : Nat) (code : Nat) (hk : Kept r0 s) :
    Kept r0 (State.teardownWith s x code) := by
  unfold State.teardownWith
  repeat' first
    | with_reducible assumption
    | with_reducible apply State.beginTeardown_kept
    | with_reducible apply State.ctxStatus_kept
    | split
    | with_reducible apply Kept.foldl
    | intro _ _ _
    | intro _ _
    | with_reducible exact Kept.refl _
    | with_reducible apply Kept.useFree
    | (refine Kept.other (s := ?_) ?_ ?_; rotate_left 2; (dsimp only; with_reducible rfl))
    | (refine Kept.fresh (s := ?_) ?_ 1 ?_; rotate_left 2; (dsimp only; with_reducible rfl))

theorem State.switchRestored_kept {r0 s : State} (x : Nat) (ok : Bool) (hk : Kept r0 s) : Kept r0 (State.switchRestored s x ok) := by
  have hr := State.releaseBays_kept x hk
  unfold State.switchRestored
  extract_lets k s1
  have h1 : Kept r0 s1 := State.setCtx_kept _ _ (State.restoreCores_kept _ _ hk)
  clear_value s1 k
  generalize s.releaseBays x = t at hr ⊢
  refine Kept.ite (Kept.ite (State.teardownWith_kept _ _ hr) ?_) hk
  generalize k.goal = g
  cases g with
  | none => exact hk
  | some g => cases g with
    | preempt => exact hk
    | stop code => exact State.enterStopped_kept _ _ hr
    | place => exact Kept.ite (State.enterStopped_kept _ _ hr) (State.startPending_kept _ _ (State.setCtxState_kept _ _ h1))

theorem State.writeWindow_kept {r0 s : State} (x : Nat) (hk : Kept r0 s) : Kept r0 (State.writeWindow s x) := by
  unfold State.writeWindow
  extract_lets s1
  have h1 : Kept r0 s1 := hk.trans ⟨rfl, rfl, Nat.le_refl _, id, id, id, mapWf_mapClear _ (fun g => s.inSaveWindow x (g * granule)) _,
    mapWf_mapClear _ (fun g => s.inSaveWindow x (g * granule)) _,
    id, id, id, id⟩
  clear_value s1
  exact Kept.ite (State.renewRange_kept _ h1) h1

theorem State.switchSaved_kept {r0 s : State} (x : Nat) (ok : Bool) (hk : Kept r0 s) :
    Kept r0 (State.switchSaved s x ok) := by
  unfold State.switchSaved
  repeat' first
    | with_reducible assumption
    | with_reducible apply State.teardownWith_kept
    | with_reducible apply State.inc_kept
    | with_reducible apply State.setCtx_kept
    | with_reducible apply State.writeWindow_kept
    | split
    | with_reducible apply Kept.foldl
    | intro _ _ _
    | intro _ _
    | with_reducible exact Kept.refl _
    | with_reducible apply Kept.useFree
    | (refine Kept.other (s := ?_) ?_ ?_; rotate_left 2; (dsimp only; with_reducible rfl))
    | (refine Kept.fresh (s := ?_) ?_ 1 ?_; rotate_left 2; (dsimp only; with_reducible rfl))

theorem State.switchScrubbed_kept {r0 s : State} (x : Nat) (hk : Kept r0 s) :
    Kept r0 (State.switchScrubbed s x) := by
  unfold State.switchScrubbed
  repeat' first
    | with_reducible assumption
    | with_reducible apply State.enterWaiting_kept
    | with_reducible apply State.releaseBays_kept
    | with_reducible apply State.enterStopped_kept
    | split
    | with_reducible apply Kept.foldl
    | intro _ _ _
    | intro _ _
    | with_reducible exact Kept.refl _
    | with_reducible apply Kept.useFree
    | (refine Kept.other (s := ?_) ?_ ?_; rotate_left 2; (dsimp only; with_reducible rfl))
    | (refine Kept.fresh (s := ?_) ?_ 1 ?_; rotate_left 2; (dsimp only; with_reducible rfl))

theorem State.zeroPegs_kept {r0 s : State} (base : Nat) (n : Nat) (hk : Kept r0 s) :
    Kept r0 (State.zeroPegs s base n) := by
  unfold State.zeroPegs
  repeat' first
    | with_reducible assumption
    | split
    | with_reducible apply Kept.foldl
    | intro _ _ _
    | intro _ _
    | with_reducible exact Kept.refl _
    | with_reducible apply Kept.useFree
    | (refine Kept.other (s := ?_) ?_ ?_; rotate_left 2; (dsimp only; with_reducible rfl))
    | (refine Kept.fresh (s := ?_) ?_ 1 ?_; rotate_left 2; (dsimp only; with_reducible rfl))

theorem State.teardownDone_kept {r0 s : State} (x : Nat) (hk : Kept r0 s) :
    Kept r0 (State.teardownDone s x) := by
  unfold State.teardownDone
  repeat' first
    | with_reducible assumption
    | with_reducible apply State.zeroPegs_kept
    | with_reducible apply State.releaseBays_kept
    | with_reducible apply State.zeroTier1_kept
    | with_reducible apply State.setCtx_kept
    | with_reducible apply State.disableRings_kept
    | with_reducible apply State.resetFields_kept
    | with_reducible apply State.setCtxState_kept
    | with_reducible apply State.wr_kept
    | with_reducible apply State.event_kept
    | split
    | with_reducible apply Kept.foldl
    | intro _ _ _
    | intro _ _
    | with_reducible exact Kept.refl _
    | with_reducible apply Kept.useFree
    | (refine Kept.other (s := ?_) ?_ ?_; rotate_left 2; (dsimp only; with_reducible rfl))
    | (refine Kept.fresh (s := ?_) ?_ 1 ?_; rotate_left 2; (dsimp only; with_reducible rfl))

theorem State.sendAborts_kept {r0 s : State} (x : Nat) (code : Nat) (l1 : List Nat) (hk : Kept r0 s) :
    Kept r0 (State.sendAborts s x code l1) := by
  induction l1 generalizing s x code with
  | nil => exact hk
  | cons y l ih =>
    unfold State.sendAborts
    repeat' first
      | with_reducible assumption
      | with_reducible apply ih
      | with_reducible apply State.queuePacket_kept
      | split
      | with_reducible apply Kept.foldl
      | intro _ _ _
      | intro _ _
      | with_reducible exact Kept.refl _
      | with_reducible apply Kept.useFree
      | (refine Kept.other (s := ?_) ?_ ?_; rotate_left 2; (dsimp only; with_reducible rfl))
      | (refine Kept.fresh (s := ?_) ?_ 1 ?_; rotate_left 2; (dsimp only; with_reducible rfl))

theorem State.setExch_kept {r0 s : State} (x : Nat) (e : Exchange) (hk : Kept r0 s) :
    Kept r0 (State.setExch s x e) := by
  unfold State.setExch
  repeat' first
    | with_reducible assumption
    | with_reducible apply State.setCtx_kept
    | split
    | with_reducible apply Kept.foldl
    | intro _ _ _
    | intro _ _
    | with_reducible exact Kept.refl _
    | with_reducible apply Kept.useFree
    | (refine Kept.other (s := ?_) ?_ ?_; rotate_left 2; (dsimp only; with_reducible rfl))
    | (refine Kept.fresh (s := ?_) ?_ 1 ?_; rotate_left 2; (dsimp only; with_reducible rfl))

theorem State.abortAttempt_kept {r0 s : State} (x : Nat) (code : Nat) (hk : Kept r0 s) :
    Kept r0 (State.abortAttempt s x code) := by
  unfold State.abortAttempt
  repeat' first
    | with_reducible assumption
    | with_reducible apply State.sendAborts_kept
    | with_reducible apply State.setExch_kept
    | split
    | with_reducible apply Kept.foldl
    | intro _ _ _
    | intro _ _
    | with_reducible exact Kept.refl _
    | with_reducible apply Kept.useFree
    | (refine Kept.other (s := ?_) ?_ ?_; rotate_left 2; (dsimp only; with_reducible rfl))
    | (refine Kept.fresh (s := ?_) ?_ 1 ?_; rotate_left 2; (dsimp only; with_reducible rfl))

theorem State.abortIn_kept {r0 s : State} (x : Nat) (step : Word) (attempt : BitVec 8) (code : BitVec 16) (hk : Kept r0 s) :
    Kept r0 (State.abortIn s x step attempt code) := by
  unfold State.abortIn
  repeat' first
    | with_reducible assumption
    | with_reducible apply State.setExch_kept
    | split
    | with_reducible apply Kept.foldl
    | intro _ _ _
    | intro _ _
    | with_reducible exact Kept.refl _
    | with_reducible apply Kept.useFree
    | (refine Kept.other (s := ?_) ?_ ?_; rotate_left 2; (dsimp only; with_reducible rfl))
    | (refine Kept.fresh (s := ?_) ?_ 1 ?_; rotate_left 2; (dsimp only; with_reducible rfl))

theorem State.foldCarry_kept {r0 s : State} (x : Nat) (b : Nat) (c : Carry) (hk : Kept r0 s) :
    Kept r0 (State.foldCarry s x b c) := by
  unfold State.foldCarry
  repeat' first
    | with_reducible assumption
    | with_reducible apply State.store_kept
    | split
    | with_reducible apply Kept.foldl
    | intro _ _ _
    | intro _ _
    | with_reducible exact Kept.refl _
    | with_reducible apply Kept.useFree
    | (refine Kept.other (s := ?_) ?_ ?_; rotate_left 2; (dsimp only; with_reducible rfl))
    | (refine Kept.fresh (s := ?_) ?_ 1 ?_; rotate_left 2; (dsimp only; with_reducible rfl))

theorem State.engineSignal_kept {r0 s : State} (x : Nat) (f : Field) (hk : Kept r0 s) :
    Kept r0 (State.engineSignal s x f) := by
  unfold State.engineSignal
  repeat' first
    | with_reducible assumption
    | with_reducible apply State.signal_kept
    | split
    | with_reducible apply Kept.foldl
    | intro _ _ _
    | intro _ _
    | with_reducible exact Kept.refl _
    | with_reducible apply Kept.useFree
    | (refine Kept.other (s := ?_) ?_ ?_; rotate_left 2; (dsimp only; with_reducible rfl))
    | (refine Kept.fresh (s := ?_) ?_ 1 ?_; rotate_left 2; (dsimp only; with_reducible rfl))

theorem State.signalDone_kept {r0 s : State} (x : Nat) (hk : Kept r0 s) :
    Kept r0 (State.signalDone s x) := by
  unfold State.signalDone
  repeat' first
    | with_reducible assumption
    | with_reducible apply State.engineSignal_kept
    | with_reducible apply State.setExch_kept
    | split
    | with_reducible apply Kept.foldl
    | intro _ _ _
    | intro _ _
    | with_reducible exact Kept.refl _
    | with_reducible apply Kept.useFree
    | (refine Kept.other (s := ?_) ?_ ?_; rotate_left 2; (dsimp only; with_reducible rfl))
    | (refine Kept.fresh (s := ?_) ?_ 1 ?_; rotate_left 2; (dsimp only; with_reducible rfl))

theorem State.deliverBuckets_kept {r0 s : State} (x : Nat) (l1 : Nat) (hk : Kept r0 s) :
    Kept r0 (State.deliverBuckets s x l1) := by
  induction l1 generalizing s x with
  | zero => exact hk
  | succ y ih =>
    unfold State.deliverBuckets
    repeat' first
      | with_reducible assumption
      | with_reducible apply ih
      | with_reducible apply State.setExch_kept
      | with_reducible apply State.importBytes_kept
      | with_reducible apply State.signalDone_kept
      | split
      | with_reducible apply Kept.foldl
      | intro _ _ _
      | intro _ _
      | with_reducible exact Kept.refl _
      | with_reducible apply Kept.useFree
      | (refine Kept.other (s := ?_) ?_ ?_; rotate_left 2; (dsimp only; with_reducible rfl))
      | (refine Kept.fresh (s := ?_) ?_ 1 ?_; rotate_left 2; (dsimp only; with_reducible rfl))

theorem State.setBucket_kept {r0 s : State} (x : Nat) (k : Bucket) (hk : Kept r0 s) :
    Kept r0 (State.setBucket s x k) := by
  unfold State.setBucket
  repeat' first
    | with_reducible assumption
    | with_reducible apply State.setExch_kept
    | split
    | with_reducible apply Kept.foldl
    | intro _ _ _
    | intro _ _
    | with_reducible exact Kept.refl _
    | with_reducible apply Kept.useFree
    | (refine Kept.other (s := ?_) ?_ ?_; rotate_left 2; (dsimp only; with_reducible rfl))
    | (refine Kept.fresh (s := ?_) ?_ 1 ?_; rotate_left 2; (dsimp only; with_reducible rfl))

theorem State.ownBlocks_kept {r0 s : State} (x : Nat) (b : Nat) (first : Nat) (l1 : List (Nat × List Int × Nat × Nat)) (hk : Kept r0 s) :
    Kept r0 (State.ownBlocks s x b first l1) := by
  induction l1 generalizing s x b first with
  | nil => exact hk
  | cons y l ih =>
    unfold State.ownBlocks
    repeat' first
      | with_reducible assumption
      | with_reducible apply ih
      | with_reducible apply State.store_kept
      | with_reducible apply State.setExch_kept
      | split
      | with_reducible apply Kept.foldl
      | intro _ _ _
      | intro _ _
      | with_reducible exact Kept.refl _
      | with_reducible apply Kept.useFree
      | (refine Kept.other (s := ?_) ?_ ?_; rotate_left 2; (dsimp only; with_reducible rfl))
      | (refine Kept.fresh (s := ?_) ?_ 1 ?_; rotate_left 2; (dsimp only; with_reducible rfl))

theorem State.exchSend_kept {r0 s : State} (x : Nat) (i : Nat) (body : List Byte) (hk : Kept r0 s) :
    Kept r0 (State.exchSend s x i body) := by
  unfold State.exchSend
  repeat' first
    | with_reducible assumption
    | with_reducible apply State.queuePacket_kept
    | split
    | with_reducible apply Kept.foldl
    | intro _ _ _
    | intro _ _
    | with_reducible exact Kept.refl _
    | with_reducible apply Kept.useFree
    | (refine Kept.other (s := ?_) ?_ ?_; rotate_left 2; (dsimp only; with_reducible rfl))
    | (refine Kept.fresh (s := ?_) ?_ 1 ?_; rotate_left 2; (dsimp only; with_reducible rfl))

theorem State.workOne_kept {r0 s : State} (x : Nat) (k : Bucket) (h : Nat) (j : Nat) (inc : Option ReducePacket) (hk : Kept r0 s) :
    Kept r0 (State.workOne s x k h j inc) := by
  unfold State.workOne
  repeat' first
    | with_reducible assumption
    | with_reducible apply State.haltCtx_kept
    | with_reducible apply State.abortAttempt_kept
    | with_reducible apply State.setBucket_kept
    | with_reducible apply State.afterPoison_kept
    | with_reducible apply State.ownBlocks_kept
    | with_reducible apply State.incBy_kept
    | with_reducible apply State.store_kept
    | with_reducible apply State.exchSend_kept
    | split
    | with_reducible apply Kept.foldl
    | intro _ _ _
    | intro _ _
    | with_reducible exact Kept.refl _
    | with_reducible apply Kept.useFree
    | (refine Kept.other (s := ?_) ?_ ?_; rotate_left 2; (dsimp only; with_reducible rfl))
    | (refine Kept.fresh (s := ?_) ?_ 1 ?_; rotate_left 2; (dsimp only; with_reducible rfl))

theorem State.workBucket_kept {r0 s : State} (x : Nat) (b : Nat) (l1 : Nat) (hk : Kept r0 s) :
    Kept r0 (State.workBucket s x b l1) := by
  induction l1 generalizing s x b with
  | zero => exact hk
  | succ y ih =>
    unfold State.workBucket
    repeat' first
      | with_reducible assumption
      | with_reducible apply ih
      | with_reducible apply State.workOne_kept
      | split
      | with_reducible apply Kept.foldl
      | intro _ _ _
      | intro _ _
      | with_reducible exact Kept.refl _
      | with_reducible apply Kept.useFree
      | (refine Kept.other (s := ?_) ?_ ?_; rotate_left 2; (dsimp only; with_reducible rfl))
      | (refine Kept.fresh (s := ?_) ?_ 1 ?_; rotate_left 2; (dsimp only; with_reducible rfl))

theorem State.workBuckets_kept {r0 s : State} (x : Nat) (l1 : List Nat) (hk : Kept r0 s) :
    Kept r0 (State.workBuckets s x l1) := by
  induction l1 generalizing s x with
  | nil => exact hk
  | cons y l ih =>
    unfold State.workBuckets
    repeat' first
      | with_reducible assumption
      | with_reducible apply ih
      | with_reducible apply State.workBucket_kept
      | split
      | with_reducible apply Kept.foldl
      | intro _ _ _
      | intro _ _
      | with_reducible exact Kept.refl _
      | with_reducible apply Kept.useFree
      | (refine Kept.other (s := ?_) ?_ ?_; rotate_left 2; (dsimp only; with_reducible rfl))
      | (refine Kept.fresh (s := ?_) ?_ 1 ?_; rotate_left 2; (dsimp only; with_reducible rfl))

theorem State.pump_kept {r0 s : State} (x : Nat) (hk : Kept r0 s) :
    Kept r0 (State.pump s x) := by
  unfold State.pump
  repeat' first
    | with_reducible assumption
    | with_reducible apply State.deliverBuckets_kept
    | with_reducible apply State.workBuckets_kept
    | split
    | with_reducible apply Kept.foldl
    | intro _ _ _
    | intro _ _
    | with_reducible exact Kept.refl _
    | with_reducible apply Kept.useFree
    | (refine Kept.other (s := ?_) ?_ ?_; rotate_left 2; (dsimp only; with_reducible rfl))
    | (refine Kept.fresh (s := ?_) ?_ 1 ?_; rotate_left 2; (dsimp only; with_reducible rfl))

theorem State.lateClose_kept {r0 s : State} (x : Nat) (b : Nat) (nonfinite : Bool) (risk : Nat) (hk : Kept r0 s) :
    Kept r0 (State.lateClose s x b nonfinite risk) := by
  unfold State.lateClose
  repeat' first
    | with_reducible assumption
    | with_reducible apply State.inc_kept
    | with_reducible apply State.store_kept
    | with_reducible apply State.setExch_kept
    | split
    | with_reducible apply Kept.foldl
    | intro _ _ _
    | intro _ _
    | with_reducible exact Kept.refl _
    | with_reducible apply Kept.useFree
    | (refine Kept.other (s := ?_) ?_ ?_; rotate_left 2; (dsimp only; with_reducible rfl))
    | (refine Kept.fresh (s := ?_) ?_ 1 ?_; rotate_left 2; (dsimp only; with_reducible rfl))

theorem State.bucketClose_kept {r0 s : State} (x : Nat) (hk : Kept r0 s) :
    Kept r0 (State.bucketClose s x) := by
  unfold State.bucketClose
  repeat' first
    | with_reducible assumption
    | with_reducible apply State.setExch_kept
    | with_reducible apply State.haltCtx_kept
    | with_reducible apply State.poisonFault_kept
    | with_reducible apply State.foldCarry_kept
    | with_reducible apply State.pump_kept
    | with_reducible apply State.lateClose_kept
    | with_reducible apply State.signalDone_kept
    | split
    | with_reducible apply Kept.foldl
    | intro _ _ _
    | intro _ _
    | with_reducible exact Kept.refl _
    | with_reducible apply Kept.useFree
    | (refine Kept.other (s := ?_) ?_ ?_; rotate_left 2; (dsimp only; with_reducible rfl))
    | (refine Kept.fresh (s := ?_) ?_ 1 ?_; rotate_left 2; (dsimp only; with_reducible rfl))

theorem State.openExchange_kept {r0 s : State} (x : Nat) (hk : Kept r0 s) :
    Kept r0 (State.openExchange s x) := by
  unfold State.openExchange
  repeat' first
    | with_reducible assumption
    | with_reducible apply State.openChannel_kept
    | with_reducible apply State.queuePacket_kept
    | split
    | with_reducible apply Kept.foldl
    | intro _ _ _
    | intro _ _
    | with_reducible exact Kept.refl _
    | with_reducible apply Kept.useFree
    | (refine Kept.other (s := ?_) ?_ ?_; rotate_left 2; (dsimp only; with_reducible rfl))
    | (refine Kept.fresh (s := ?_) ?_ 1 ?_; rotate_left 2; (dsimp only; with_reducible rfl))

theorem State.writeEntries_kept {r0 s : State} (x : Nat) (l1 : List (Nat × Byte)) (hk : Kept r0 s) :
    Kept r0 (State.writeEntries s x l1) := by
  induction l1 generalizing s x with
  | nil => exact hk
  | cons y l ih =>
    unfold State.writeEntries
    repeat' first
      | with_reducible assumption
      | with_reducible apply ih
      | with_reducible apply State.store_kept
      | split
      | with_reducible apply Kept.foldl
      | intro _ _ _
      | intro _ _
      | with_reducible exact Kept.refl _
      | with_reducible apply Kept.useFree
      | (refine Kept.other (s := ?_) ?_ ?_; rotate_left 2; (dsimp only; with_reducible rfl))
      | (refine Kept.fresh (s := ?_) ?_ 1 ?_; rotate_left 2; (dsimp only; with_reducible rfl))

theorem State.sendChunk_kept {r0 s : State} (x : Nat) (c : Chunk) (hk : Kept r0 s) :
    Kept r0 (State.sendChunk s x c) := by
  unfold State.sendChunk
  repeat' first
    | with_reducible assumption
    | with_reducible apply State.exchSend_kept
    | split
    | with_reducible apply Kept.foldl
    | intro _ _ _
    | intro _ _
    | with_reducible exact Kept.refl _
    | with_reducible apply Kept.useFree
    | (refine Kept.other (s := ?_) ?_ ?_; rotate_left 2; (dsimp only; with_reducible rfl))
    | (refine Kept.fresh (s := ?_) ?_ 1 ?_; rotate_left 2; (dsimp only; with_reducible rfl))

theorem State.gatherEnd_kept {r0 s : State} (x : Nat) (hk : Kept r0 s) :
    Kept r0 (State.gatherEnd s x) := by
  unfold State.gatherEnd
  repeat' first
    | with_reducible assumption
    | with_reducible apply State.signalDone_kept
    | with_reducible apply State.setExch_kept
    | split
    | with_reducible apply Kept.foldl
    | intro _ _ _
    | intro _ _
    | with_reducible exact Kept.refl _
    | with_reducible apply Kept.useFree
    | (refine Kept.other (s := ?_) ?_ ?_; rotate_left 2; (dsimp only; with_reducible rfl))
    | (refine Kept.fresh (s := ?_) ?_ 1 ?_; rotate_left 2; (dsimp only; with_reducible rfl))

theorem State.chunkIn_kept {r0 s : State} (x : Nat) (c : Chunk) (hk : Kept r0 s) :
    Kept r0 (State.chunkIn s x c) := by
  unfold State.chunkIn
  repeat' first
    | with_reducible assumption
    | with_reducible apply State.setExch_kept
    | with_reducible apply State.haltCtx_kept
    | with_reducible apply State.writeEntries_kept
    | with_reducible apply State.store_kept
    | with_reducible apply State.sendChunk_kept
    | with_reducible apply State.gatherEnd_kept
    | split
    | with_reducible apply Kept.foldl
    | intro _ _ _
    | intro _ _
    | with_reducible exact Kept.refl _
    | with_reducible apply Kept.useFree
    | (refine Kept.other (s := ?_) ?_ ?_; rotate_left 2; (dsimp only; with_reducible rfl))
    | (refine Kept.fresh (s := ?_) ?_ 1 ?_; rotate_left 2; (dsimp only; with_reducible rfl))

theorem State.exchCommit_kept {r0 s : State} (x : Nat) (hk : Kept r0 s) :
    Kept r0 (State.exchCommit s x) := by
  unfold State.exchCommit
  repeat' first
    | with_reducible assumption
    | with_reducible apply State.zeroRegion_kept
    | with_reducible apply State.setExch_kept
    | with_reducible apply State.wr_kept
    | split
    | with_reducible apply Kept.foldl
    | intro _ _ _
    | intro _ _
    | with_reducible exact Kept.refl _
    | with_reducible apply Kept.useFree
    | (refine Kept.other (s := ?_) ?_ ?_; rotate_left 2; (dsimp only; with_reducible rfl))
    | (refine Kept.fresh (s := ?_) ?_ 1 ?_; rotate_left 2; (dsimp only; with_reducible rfl))

theorem State.cutoff_kept {r0 s : State} (x : Nat) (hk : Kept r0 s) :
    Kept r0 (State.cutoff s x) := by
  unfold State.cutoff
  repeat' first
    | with_reducible assumption
    | with_reducible apply State.abortAttempt_kept
    | split
    | with_reducible apply Kept.foldl
    | intro _ _ _
    | intro _ _
    | with_reducible exact Kept.refl _
    | with_reducible apply Kept.useFree
    | (refine Kept.other (s := ?_) ?_ ?_; rotate_left 2; (dsimp only; with_reducible rfl))
    | (refine Kept.fresh (s := ?_) ?_ 1 ?_; rotate_left 2; (dsimp only; with_reducible rfl))

theorem State.deadlineExpire_kept {r0 s : State} (x : Nat) (b : Nat) (hk : Kept r0 s) :
    Kept r0 (State.deadlineExpire s x b) := by
  unfold State.deadlineExpire
  repeat' first
    | with_reducible assumption
    | with_reducible apply State.pump_kept
    | with_reducible apply State.inc_kept
    | with_reducible apply State.setExch_kept
    | split
    | with_reducible apply Kept.foldl
    | intro _ _ _
    | intro _ _
    | with_reducible exact Kept.refl _
    | with_reducible apply Kept.useFree
    | (refine Kept.other (s := ?_) ?_ ?_; rotate_left 2; (dsimp only; with_reducible rfl))
    | (refine Kept.fresh (s := ?_) ?_ 1 ?_; rotate_left 2; (dsimp only; with_reducible rfl))

theorem State.dropFormed_kept {r0 s : State} (x : Nat) (hk : Kept r0 s) :
    Kept r0 (State.dropFormed s x) := by
  unfold State.dropFormed
  repeat' first
    | with_reducible assumption
    | with_reducible apply State.setExch_kept
    | with_reducible apply State.incBy_kept
    | split
    | with_reducible apply Kept.foldl
    | intro _ _ _
    | intro _ _
    | with_reducible exact Kept.refl _
    | with_reducible apply Kept.useFree
    | (refine Kept.other (s := ?_) ?_ ?_; rotate_left 2; (dsimp only; with_reducible rfl))
    | (refine Kept.fresh (s := ?_) ?_ 1 ?_; rotate_left 2; (dsimp only; with_reducible rfl))

theorem State.exchRepeat_kept {r0 s : State} (x : Nat) (hk : Kept r0 s) :
    Kept r0 (State.exchRepeat s x) := by
  unfold State.exchRepeat
  repeat' first
    | with_reducible assumption
    | with_reducible apply State.dropFormed_kept
    | with_reducible apply State.setExch_kept
    | with_reducible apply State.inc_kept
    | with_reducible apply State.bump_kept
    | split
    | with_reducible apply Kept.foldl
    | intro _ _ _
    | intro _ _
    | with_reducible exact Kept.refl _
    | with_reducible apply Kept.useFree
    | (refine Kept.other (s := ?_) ?_ ?_; rotate_left 2; (dsimp only; with_reducible rfl))
    | (refine Kept.fresh (s := ?_) ?_ 1 ?_; rotate_left 2; (dsimp only; with_reducible rfl))

theorem State.takeEarlyChunks_kept {r0 s : State} (x : Nat) (hk : Kept r0 s) :
    Kept r0 (State.takeEarlyChunks s x) := by
  unfold State.takeEarlyChunks
  repeat' first
    | with_reducible assumption
    | with_reducible apply State.chunkIn_kept
    | with_reducible apply State.setExch_kept
    | split
    | with_reducible apply Kept.foldl
    | intro _ _ _
    | intro _ _
    | with_reducible exact Kept.refl _
    | with_reducible apply Kept.useFree
    | (refine Kept.other (s := ?_) ?_ ?_; rotate_left 2; (dsimp only; with_reducible rfl))
    | (refine Kept.fresh (s := ?_) ?_ 1 ?_; rotate_left 2; (dsimp only; with_reducible rfl))

theorem State.sendChunks_kept {r0 s : State} (x : Nat) (l1 : List Chunk) (hk : Kept r0 s) :
    Kept r0 (State.sendChunks s x l1) := by
  induction l1 generalizing s x with
  | nil => exact hk
  | cons y l ih =>
    unfold State.sendChunks
    repeat' first
      | with_reducible assumption
      | with_reducible apply ih
      | with_reducible apply State.sendChunk_kept
      | split
      | with_reducible apply Kept.foldl
      | intro _ _ _
      | intro _ _
      | with_reducible exact Kept.refl _
      | with_reducible apply Kept.useFree
      | (refine Kept.other (s := ?_) ?_ ?_; rotate_left 2; (dsimp only; with_reducible rfl))
      | (refine Kept.fresh (s := ?_) ?_ 1 ?_; rotate_left 2; (dsimp only; with_reducible rfl))

theorem State.gatherStart_kept {r0 s : State} (x : Nat) (hk : Kept r0 s) :
    Kept r0 (State.gatherStart s x) := by
  unfold State.gatherStart
  repeat' first
    | with_reducible assumption
    | with_reducible apply State.haltCtx_kept
    | with_reducible apply State.poisonFault_kept
    | with_reducible apply State.setExch_kept
    | with_reducible apply State.writeEntries_kept
    | with_reducible apply State.sendChunks_kept
    | with_reducible apply State.gatherEnd_kept
    | split
    | with_reducible apply Kept.foldl
    | intro _ _ _
    | intro _ _
    | with_reducible exact Kept.refl _
    | with_reducible apply Kept.useFree
    | (refine Kept.other (s := ?_) ?_ ?_; rotate_left 2; (dsimp only; with_reducible rfl))
    | (refine Kept.fresh (s := ?_) ?_ 1 ?_; rotate_left 2; (dsimp only; with_reducible rfl))

theorem State.sendSummary_kept {r0 s : State} (x : Nat) (r : Summary) (hk : Kept r0 s) :
    Kept r0 (State.sendSummary s x r) := by
  unfold State.sendSummary
  repeat' first
    | with_reducible assumption
    | with_reducible apply State.exchSend_kept
    | split
    | with_reducible apply Kept.foldl
    | intro _ _ _
    | intro _ _
    | with_reducible exact Kept.refl _
    | with_reducible apply Kept.useFree
    | (refine Kept.other (s := ?_) ?_ ?_; rotate_left 2; (dsimp only; with_reducible rfl))
    | (refine Kept.fresh (s := ?_) ?_ 1 ?_; rotate_left 2; (dsimp only; with_reducible rfl))

theorem State.takeTotals_kept {r0 s : State} (x : Nat) (r : Summary) (hk : Kept r0 s) :
    Kept r0 (State.takeTotals s x r) := by
  unfold State.takeTotals
  repeat' first
    | with_reducible assumption
    | with_reducible apply State.setExch_kept
    | with_reducible apply State.store_kept
    | split
    | with_reducible apply Kept.foldl
    | intro _ _ _
    | intro _ _
    | with_reducible exact Kept.refl _
    | with_reducible apply Kept.useFree
    | (refine Kept.other (s := ?_) ?_ ?_; rotate_left 2; (dsimp only; with_reducible rfl))
    | (refine Kept.fresh (s := ?_) ?_ 1 ?_; rotate_left 2; (dsimp only; with_reducible rfl))

theorem State.summaryIn_kept {r0 s : State} (x : Nat) (r : Summary) (hk : Kept r0 s) :
    Kept r0 (State.summaryIn s x r) := by
  unfold State.summaryIn
  repeat' first
    | with_reducible assumption
    | with_reducible apply State.sendSummary_kept
    | with_reducible apply State.setExch_kept
    | with_reducible apply State.haltCtx_kept
    | with_reducible apply State.takeTotals_kept
    | split
    | with_reducible apply Kept.foldl
    | intro _ _ _
    | intro _ _
    | with_reducible exact Kept.refl _
    | with_reducible apply Kept.useFree
    | (refine Kept.other (s := ?_) ?_ ?_; rotate_left 2; (dsimp only; with_reducible rfl))
    | (refine Kept.fresh (s := ?_) ?_ 1 ?_; rotate_left 2; (dsimp only; with_reducible rfl))

theorem State.reduceIn_kept {r0 s : State} (x : Nat) (p : ReducePacket) (hk : Kept r0 s) :
    Kept r0 (State.reduceIn s x p) := by
  unfold State.reduceIn
  repeat' first
    | with_reducible assumption
    | with_reducible apply State.setExch_kept
    | with_reducible apply State.haltCtx_kept
    | with_reducible apply State.pump_kept
    | with_reducible apply State.setBucket_kept
    | split
    | with_reducible apply Kept.foldl
    | intro _ _ _
    | intro _ _
    | with_reducible exact Kept.refl _
    | with_reducible apply Kept.useFree
    | (refine Kept.other (s := ?_) ?_ ?_; rotate_left 2; (dsimp only; with_reducible rfl))
    | (refine Kept.fresh (s := ?_) ?_ 1 ?_; rotate_left 2; (dsimp only; with_reducible rfl))

theorem State.takeEarly_kept {r0 s : State} (x : Nat) (hk : Kept r0 s) :
    Kept r0 (State.takeEarly s x) := by
  unfold State.takeEarly
  repeat' first
    | with_reducible assumption
    | with_reducible apply State.setExch_kept
    | with_reducible apply State.summaryIn_kept
    | with_reducible apply State.reduceIn_kept
    | split
    | with_reducible apply Kept.foldl
    | intro _ _ _
    | intro _ _
    | with_reducible exact Kept.refl _
    | with_reducible apply Kept.useFree
    | (refine Kept.other (s := ?_) ?_ ?_; rotate_left 2; (dsimp only; with_reducible rfl))
    | (refine Kept.fresh (s := ?_) ?_ 1 ?_; rotate_left 2; (dsimp only; with_reducible rfl))

theorem State.summaryMerge_kept {r0 s : State} (x : Nat) (hk : Kept r0 s) :
    Kept r0 (State.summaryMerge s x) := by
  unfold State.summaryMerge
  repeat' first
    | with_reducible assumption
    | with_reducible apply State.setExch_kept
    | with_reducible apply State.takeTotals_kept
    | with_reducible apply State.sendSummary_kept
    | split
    | with_reducible apply Kept.foldl
    | intro _ _ _
    | intro _ _
    | with_reducible exact Kept.refl _
    | with_reducible apply Kept.useFree
    | (refine Kept.other (s := ?_) ?_ ?_; rotate_left 2; (dsimp only; with_reducible rfl))
    | (refine Kept.fresh (s := ?_) ?_ 1 ?_; rotate_left 2; (dsimp only; with_reducible rfl))

theorem State.showFree_kept {r0 s : State} (h : Nat) (hk : Kept r0 s) :
    Kept r0 (State.showFree s h) := by
  unfold State.showFree
  repeat' first
    | with_reducible assumption
    | with_reducible apply State.wr_kept
    | split
    | with_reducible apply Kept.foldl
    | intro _ _ _
    | intro _ _
    | with_reducible exact Kept.refl _
    | with_reducible apply Kept.useFree
    | (refine Kept.other (s := ?_) ?_ ?_; rotate_left 2; (dsimp only; with_reducible rfl))
    | (refine Kept.fresh (s := ?_) ?_ 1 ?_; rotate_left 2; (dsimp only; with_reducible rfl))

theorem State.ledger_kept {r0 s : State} (rs : List LedgerRec) (hk : Kept r0 s) :
    Kept r0 (State.ledger s rs) := by
  unfold State.ledger
  repeat' first
    | with_reducible assumption
    | split
    | with_reducible apply Kept.foldl
    | intro _ _ _
    | intro _ _
    | with_reducible exact Kept.refl _
    | with_reducible apply Kept.useFree
    | (refine Kept.other (s := ?_) ?_ ?_; rotate_left 2; (dsimp only; with_reducible rfl))
    | (refine Kept.fresh (s := ?_) ?_ 1 ?_; rotate_left 2; (dsimp only; with_reducible rfl))

theorem State.countTest_kept {r0 s : State} (h : Nat) (passed : Bool) (hk : Kept r0 s) :
    Kept r0 (State.countTest s h passed) := by
  unfold State.countTest
  repeat' first
    | with_reducible assumption
    | with_reducible apply State.bump_kept
    | split
    | with_reducible apply Kept.foldl
    | intro _ _ _
    | intro _ _
    | with_reducible exact Kept.refl _
    | with_reducible apply Kept.useFree
    | (refine Kept.other (s := ?_) ?_ ?_; rotate_left 2; (dsimp only; with_reducible rfl))
    | (refine Kept.fresh (s := ?_) ?_ 1 ?_; rotate_left 2; (dsimp only; with_reducible rfl))

theorem State.setPositions_kept {r0 s : State} (b : Nat) (cores : List Nat) (l1 : List Nat) (hk : Kept r0 s) :
    Kept r0 (State.setPositions s b cores l1) := by
  induction l1 generalizing s b cores with
  | nil => exact hk
  | cons y l ih =>
    unfold State.setPositions
    repeat' first
      | with_reducible assumption
      | with_reducible apply ih
      | with_reducible apply State.setPhys_kept
      | split
      | with_reducible apply Kept.foldl
      | intro _ _ _
      | intro _ _
      | with_reducible exact Kept.refl _
      | with_reducible apply Kept.useFree
      | (refine Kept.other (s := ?_) ?_ ?_; rotate_left 2; (dsimp only; with_reducible rfl))
      | (refine Kept.fresh (s := ?_) ?_ 1 ?_; rotate_left 2; (dsimp only; with_reducible rfl))

theorem State.degradeCtx_kept {r0 s : State} (c : Nat) (detect : Nat) (x : Nat) (hk : Kept r0 s) :
    Kept r0 (State.degradeCtx s c detect x) := by
  unfold State.degradeCtx
  repeat' first
    | with_reducible assumption
    | with_reducible apply State.setCtx_kept
    | with_reducible apply State.ctxStatus_kept
    | with_reducible apply State.logFault_kept
    | split
    | with_reducible apply Kept.foldl
    | intro _ _ _
    | intro _ _
    | with_reducible exact Kept.refl _
    | with_reducible apply Kept.useFree
    | (refine Kept.other (s := ?_) ?_ ?_; rotate_left 2; (dsimp only; with_reducible rfl))
    | (refine Kept.fresh (s := ?_) ?_ 1 ?_; rotate_left 2; (dsimp only; with_reducible rfl))

theorem State.degradeCtxs_kept {r0 s : State} (c : Nat) (detect : Nat) (l1 : List Nat) (hk : Kept r0 s) :
    Kept r0 (State.degradeCtxs s c detect l1) := by
  induction l1 generalizing s c detect with
  | nil => exact hk
  | cons y l ih =>
    unfold State.degradeCtxs
    repeat' first
      | with_reducible assumption
      | with_reducible apply ih
      | with_reducible apply State.degradeCtx_kept
      | split
      | with_reducible apply Kept.foldl
      | intro _ _ _
      | intro _ _
      | with_reducible exact Kept.refl _
      | with_reducible apply Kept.useFree
      | (refine Kept.other (s := ?_) ?_ ?_; rotate_left 2; (dsimp only; with_reducible rfl))
      | (refine Kept.fresh (s := ?_) ?_ 1 ?_; rotate_left 2; (dsimp only; with_reducible rfl))

theorem State.degrade_kept {r0 s : State} (b : Nat) (c : Nat) (detect : Nat) (ctxs : List Nat) (hk : Kept r0 s) :
    Kept r0 (State.degrade s b c detect ctxs) := by
  unfold State.degrade
  repeat' first
    | with_reducible assumption
    | with_reducible apply State.setPositions_kept
    | with_reducible apply State.ledger_kept
    | with_reducible apply State.absentQueues_kept
    | with_reducible apply State.degradeCtxs_kept
    | split
    | with_reducible apply Kept.foldl
    | intro _ _ _
    | intro _ _
    | with_reducible exact Kept.refl _
    | with_reducible apply Kept.useFree
    | (refine Kept.other (s := ?_) ?_ ?_; rotate_left 2; (dsimp only; with_reducible rfl))
    | (refine Kept.fresh (s := ?_) ?_ 1 ?_; rotate_left 2; (dsimp only; with_reducible rfl))

theorem State.expose_kept {r0 s : State} (c : Nat) (l1 : List (Nat × Word × Option Nat)) (hk : Kept r0 s) :
    Kept r0 (State.expose s c l1) := by
  induction l1 generalizing s c with
  | nil => exact hk
  | cons y l ih =>
    unfold State.expose
    repeat' first
      | with_reducible assumption
      | with_reducible apply ih
      | with_reducible apply State.logFault_kept
      | with_reducible apply State.haltCtx_kept
      | split
      | with_reducible apply Kept.foldl
      | intro _ _ _
      | intro _ _
      | with_reducible exact Kept.refl _
      | with_reducible apply Kept.useFree
      | (refine Kept.other (s := ?_) ?_ ?_; rotate_left 2; (dsimp only; with_reducible rfl))
      | (refine Kept.fresh (s := ?_) ?_ 1 ?_; rotate_left 2; (dsimp only; with_reducible rfl))

theorem State.failLedger_kept {r0 s : State} (h : Nat) (hk : Kept r0 s) :
    Kept r0 (State.failLedger s h) := by
  unfold State.failLedger
  repeat' first
    | with_reducible assumption
    | with_reducible apply State.ledger_kept
    | split
    | with_reducible apply Kept.foldl
    | intro _ _ _
    | intro _ _
    | with_reducible exact Kept.refl _
    | with_reducible apply Kept.useFree
    | (refine Kept.other (s := ?_) ?_ ?_; rotate_left 2; (dsimp only; with_reducible rfl))
    | (refine Kept.fresh (s := ?_) ?_ 1 ?_; rotate_left 2; (dsimp only; with_reducible rfl))

theorem State.haltOpt_kept {r0 s : State} (x : Option Nat) (code : Nat) (hk : Kept r0 s) :
    Kept r0 (State.haltOpt s x code) := by
  unfold State.haltOpt
  repeat' first
    | with_reducible assumption
    | with_reducible apply State.haltCtx_kept
    | split
    | with_reducible apply Kept.foldl
    | intro _ _ _
    | intro _ _
    | with_reducible exact Kept.refl _
    | with_reducible apply Kept.useFree
    | (refine Kept.other (s := ?_) ?_ ?_; rotate_left 2; (dsimp only; with_reducible rfl))
    | (refine Kept.fresh (s := ?_) ?_ 1 ?_; rotate_left 2; (dsimp only; with_reducible rfl))

theorem State.stopExchange_kept {r0 s : State} (x : Nat) (code : Nat) (hk : Kept r0 s) :
    Kept r0 (State.stopExchange s x code) := by
  unfold State.stopExchange
  repeat' first
    | with_reducible assumption
    | with_reducible apply State.abortAttempt_kept
    | split
    | with_reducible apply Kept.foldl
    | intro _ _ _
    | intro _ _
    | with_reducible exact Kept.refl _
    | with_reducible apply Kept.useFree
    | (refine Kept.other (s := ?_) ?_ ?_; rotate_left 2; (dsimp only; with_reducible rfl))
    | (refine Kept.fresh (s := ?_) ?_ 1 ?_; rotate_left 2; (dsimp only; with_reducible rfl))

theorem State.ucodeLess_kept {r0 s : State} (c : Nat) (hk : Kept r0 s) :
    Kept r0 (State.ucodeLess s c) := by
  unfold State.ucodeLess
  repeat' first
    | with_reducible assumption
    | with_reducible apply State.wr_kept
    | split
    | with_reducible apply Kept.foldl
    | intro _ _ _
    | intro _ _
    | with_reducible exact Kept.refl _
    | with_reducible apply Kept.useFree
    | (refine Kept.other (s := ?_) ?_ ?_; rotate_left 2; (dsimp only; with_reducible rfl))
    | (refine Kept.fresh (s := ?_) ?_ 1 ?_; rotate_left 2; (dsimp only; with_reducible rfl))

theorem State.postTest_kept {r0 s : State} (c : Nat) (passed : Bool) (hk : Kept r0 s) :
    Kept r0 (State.postTest s c passed) := by
  unfold State.postTest
  repeat' first
    | with_reducible assumption
    | with_reducible apply State.wr_kept
    | split
    | with_reducible apply Kept.foldl
    | intro _ _ _
    | intro _ _
    | with_reducible exact Kept.refl _
    | with_reducible apply Kept.useFree
    | (refine Kept.other (s := ?_) ?_ ?_; rotate_left 2; (dsimp only; with_reducible rfl))
    | (refine Kept.fresh (s := ?_) ?_ 1 ?_; rotate_left 2; (dsimp only; with_reducible rfl))

theorem State.uncover_kept {r0 s : State} (h : Nat) (c : Nat) (detect : Nat) (hk : Kept r0 s) :
    Kept r0 (State.uncover s h c detect) := by
  unfold State.uncover
  repeat' first
    | with_reducible assumption
    | with_reducible apply State.wr_kept
    | with_reducible apply State.showFree_kept
    | with_reducible apply State.setFree_kept
    | with_reducible apply State.logFault_kept
    | split
    | with_reducible apply Kept.foldl
    | intro _ _ _
    | intro _ _
    | with_reducible exact Kept.refl _
    | with_reducible apply Kept.useFree
    | (refine Kept.other (s := ?_) ?_ ?_; rotate_left 2; (dsimp only; with_reducible rfl))
    | (refine Kept.fresh (s := ?_) ?_ 1 ?_; rotate_left 2; (dsimp only; with_reducible rfl))

theorem State.fenceCore_kept {r0 s : State} (c : Nat) (hk : Kept r0 s) :
    Kept r0 (State.fenceCore s c) := by
  unfold State.fenceCore
  repeat' first
    | with_reducible assumption
    | with_reducible apply State.bump_kept
    | with_reducible apply State.ledger_kept
    | with_reducible apply State.ucodeLess_kept
    | with_reducible apply State.postTest_kept
    | with_reducible apply State.uncover_kept
    | with_reducible apply State.degrade_kept
    | split
    | with_reducible apply Kept.foldl
    | intro _ _ _
    | intro _ _
    | with_reducible exact Kept.refl _
    | with_reducible apply Kept.useFree
    | (refine Kept.other (s := ?_) ?_ ?_; rotate_left 2; (dsimp only; with_reducible rfl))
    | (refine Kept.fresh (s := ?_) ?_ 1 ?_; rotate_left 2; (dsimp only; with_reducible rfl))

theorem State.suspect_kept {r0 s : State} (c : Nat) (code : Nat) (f : FaultInfo) (hk : Kept r0 s) :
    Kept r0 (State.suspect s c code f) := by
  unfold State.suspect
  repeat' first
    | with_reducible assumption
    | with_reducible apply State.logFault_kept
    | with_reducible apply State.haltOpt_kept
    | with_reducible apply State.stopExchange_kept
    | with_reducible apply State.fenceCore_kept
    | split
    | with_reducible apply Kept.foldl
    | intro _ _ _
    | intro _ _
    | with_reducible exact Kept.refl _
    | with_reducible apply Kept.useFree
    | (refine Kept.other (s := ?_) ?_ ?_; rotate_left 2; (dsimp only; with_reducible rfl))
    | (refine Kept.fresh (s := ?_) ?_ 1 ?_; rotate_left 2; (dsimp only; with_reducible rfl))

theorem State.islandFault_kept {r0 s : State} (id : Nat) (hk : Kept r0 s) :
    Kept r0 (State.islandFault s id) := by
  unfold State.islandFault
  repeat' first
    | with_reducible assumption
    | with_reducible apply State.wr_kept
    | split
    | with_reducible apply Kept.foldl
    | intro _ _ _
    | intro _ _
    | with_reducible exact Kept.refl _
    | with_reducible apply Kept.useFree
    | (refine Kept.other (s := ?_) ?_ ?_; rotate_left 2; (dsimp only; with_reducible rfl))
    | (refine Kept.fresh (s := ?_) ?_ 1 ?_; rotate_left 2; (dsimp only; with_reducible rfl))

theorem State.faultDetect_kept {r0 s : State} (f : FaultEvent) (hk : Kept r0 s) :
    Kept r0 (State.faultDetect s f) := by
  unfold State.faultDetect
  repeat' first
    | with_reducible assumption
    | with_reducible apply State.bump_kept
    | with_reducible apply State.suspect_kept
    | with_reducible apply State.logFault_kept
    | with_reducible apply State.islandFault_kept
    | with_reducible apply State.haltCtx_kept
    | with_reducible apply State.stopExchange_kept
    | split
    | with_reducible apply Kept.foldl
    | intro _ _ _
    | intro _ _
    | with_reducible exact Kept.refl _
    | with_reducible apply Kept.useFree
    | (refine Kept.other (s := ?_) ?_ ?_; rotate_left 2; (dsimp only; with_reducible rfl))
    | (refine Kept.fresh (s := ?_) ?_ 1 ?_; rotate_left 2; (dsimp only; with_reducible rfl))

theorem State.fenceGo_kept {r0 s : State}  (hk : Kept r0 s) :
    Kept r0 (State.fenceGo s) := by
  unfold State.fenceGo
  repeat' first
    | with_reducible assumption
    | with_reducible apply State.wr_kept
    | with_reducible apply State.logFault_kept
    | with_reducible apply State.haltOpt_kept
    | with_reducible apply State.stopExchange_kept
    | with_reducible apply State.fenceCore_kept
    | split
    | with_reducible apply Kept.foldl
    | intro _ _ _
    | intro _ _
    | with_reducible exact Kept.refl _
    | with_reducible apply Kept.useFree
    | (refine Kept.other (s := ?_) ?_ ?_; rotate_left 2; (dsimp only; with_reducible rfl))
    | (refine Kept.fresh (s := ?_) ?_ 1 ?_; rotate_left 2; (dsimp only; with_reducible rfl))

theorem State.fillNone_kept {r0 s : State} (l1 : List Nat) (hk : Kept r0 s) :
    Kept r0 (State.fillNone s l1) := by
  induction l1 generalizing s with
  | nil => exact hk
  | cons y l ih =>
    unfold State.fillNone
    repeat' first
      | with_reducible assumption
      | with_reducible apply ih
      | with_reducible apply State.degrade_kept
      | split
      | with_reducible apply Kept.foldl
      | intro _ _ _
      | intro _ _
      | with_reducible exact Kept.refl _
      | with_reducible apply Kept.useFree
      | (refine Kept.other (s := ?_) ?_ ?_; rotate_left 2; (dsimp only; with_reducible rfl))
      | (refine Kept.fresh (s := ?_) ?_ 1 ?_; rotate_left 2; (dsimp only; with_reducible rfl))

theorem State.migrate_kept {r0 s : State} (h : Nat) (f : Nat) (t : Nat) (l : Nat) (hk : Kept r0 s) :
    Kept r0 (State.migrate s h f t l) := by
  unfold State.migrate
  repeat' first
    | with_reducible assumption
    | with_reducible apply State.setCore_kept
    | with_reducible apply State.setPhys_kept
    | with_reducible apply State.resumeCore_kept
    | with_reducible apply State.noteServed_kept
    | with_reducible apply State.logFault_kept
    | with_reducible apply State.uncover_kept
    | with_reducible apply State.wr_kept
    | with_reducible apply State.ucodeLess_kept
    | with_reducible apply State.showFree_kept
    | with_reducible apply State.setFree_kept
    | with_reducible apply State.ledger_kept
    | split
    | with_reducible apply Kept.foldl
    | intro _ _ _
    | intro _ _
    | with_reducible exact Kept.refl _
    | with_reducible apply Kept.useFree
    | (refine Kept.other (s := ?_) ?_ ?_; rotate_left 2; (dsimp only; with_reducible rfl))
    | (refine Kept.fresh (s := ?_) ?_ 1 ?_; rotate_left 2; (dsimp only; with_reducible rfl))

theorem State.tryMigrate_kept {r0 s : State} (h : Nat) (hk : Kept r0 s) :
    Kept r0 (State.tryMigrate s h) := by
  unfold State.tryMigrate
  repeat' first
    | with_reducible assumption
    | with_reducible apply State.wr_kept
    | with_reducible apply State.migrate_kept
    | with_reducible apply State.drainCore_kept
    | split
    | with_reducible apply Kept.foldl
    | intro _ _ _
    | intro _ _
    | with_reducible exact Kept.refl _
    | with_reducible apply Kept.useFree
    | (refine Kept.other (s := ?_) ?_ ?_; rotate_left 2; (dsimp only; with_reducible rfl))
    | (refine Kept.fresh (s := ?_) ?_ 1 ?_; rotate_left 2; (dsimp only; with_reducible rfl))

theorem State.tryMigrations_kept {r0 s : State} (l1 : List Nat) (hk : Kept r0 s) :
    Kept r0 (State.tryMigrations s l1) := by
  induction l1 generalizing s with
  | nil => exact hk
  | cons y l ih =>
    unfold State.tryMigrations
    repeat' first
      | with_reducible assumption
      | with_reducible apply ih
      | with_reducible apply State.tryMigrate_kept
      | split
      | with_reducible apply Kept.foldl
      | intro _ _ _
      | intro _ _
      | with_reducible exact Kept.refl _
      | with_reducible apply Kept.useFree
      | (refine Kept.other (s := ?_) ?_ ?_; rotate_left 2; (dsimp only; with_reducible rfl))
      | (refine Kept.fresh (s := ?_) ?_ 1 ?_; rotate_left 2; (dsimp only; with_reducible rfl))

theorem State.latent_kept {r0 s : State} (c : Nat) (hk : Kept r0 s) :
    Kept r0 (State.latent s c) := by
  unfold State.latent
  repeat' first
    | with_reducible assumption
    | with_reducible apply State.failLedger_kept
    | with_reducible apply State.bump_kept
    | with_reducible apply State.ledger_kept
    | with_reducible apply State.expose_kept
    | with_reducible apply State.logFault_kept
    | with_reducible apply State.fenceCore_kept
    | split
    | with_reducible apply Kept.foldl
    | intro _ _ _
    | intro _ _
    | with_reducible exact Kept.refl _
    | with_reducible apply Kept.useFree
    | (refine Kept.other (s := ?_) ?_ ?_; rotate_left 2; (dsimp only; with_reducible rfl))
    | (refine Kept.fresh (s := ?_) ?_ 1 ?_; rotate_left 2; (dsimp only; with_reducible rfl))

theorem State.testPost_kept {r0 s : State} (code : Nat) (expected : Nat) (asked : Option CoreId) (hk : Kept r0 s) :
    Kept r0 (State.testPost s code expected asked) := by
  unfold State.testPost
  repeat' first
    | with_reducible assumption
    | with_reducible apply State.wr_kept
    | split
    | with_reducible apply Kept.foldl
    | intro _ _ _
    | intro _ _
    | with_reducible exact Kept.refl _
    | with_reducible apply Kept.useFree
    | (refine Kept.other (s := ?_) ?_ ?_; rotate_left 2; (dsimp only; with_reducible rfl))
    | (refine Kept.fresh (s := ?_) ?_ 1 ?_; rotate_left 2; (dsimp only; with_reducible rfl))

theorem State.testRequest_kept {r0 s : State}  (hk : Kept r0 s) :
    Kept r0 (State.testRequest s) := by
  unfold State.testRequest
  repeat' first
    | with_reducible assumption
    | with_reducible apply State.wr_kept
    | with_reducible apply State.testPost_kept
    | split
    | with_reducible apply Kept.foldl
    | intro _ _ _
    | intro _ _
    | with_reducible exact Kept.refl _
    | with_reducible apply Kept.useFree
    | (refine Kept.other (s := ?_) ?_ ?_; rotate_left 2; (dsimp only; with_reducible rfl))
    | (refine Kept.fresh (s := ?_) ?_ 1 ?_; rotate_left 2; (dsimp only; with_reducible rfl))

theorem State.retestDone_kept {r0 s : State} (c : Nat) (passed : Bool) (hk : Kept r0 s) :
    Kept r0 (State.retestDone s c passed) := by
  unfold State.retestDone
  repeat' first
    | with_reducible assumption
    | with_reducible apply State.postTest_kept
    | with_reducible apply State.countTest_kept
    | with_reducible apply State.bump_kept
    | with_reducible apply State.fenceCore_kept
    | with_reducible apply State.failLedger_kept
    | split
    | with_reducible apply Kept.foldl
    | intro _ _ _
    | intro _ _
    | with_reducible exact Kept.refl _
    | with_reducible apply Kept.useFree
    | (refine Kept.other (s := ?_) ?_ ?_; rotate_left 2; (dsimp only; with_reducible rfl))
    | (refine Kept.fresh (s := ?_) ?_ 1 ?_; rotate_left 2; (dsimp only; with_reducible rfl))

theorem State.slotEnd_kept {r0 s : State} (h : Nat) (passed : Bool) (hk : Kept r0 s) :
    Kept r0 (State.slotEnd s h passed) := by
  unfold State.slotEnd
  repeat' first
    | with_reducible assumption
    | with_reducible apply State.postTest_kept
    | with_reducible apply State.countTest_kept
    | with_reducible apply State.bump_kept
    | with_reducible apply State.tryMigrate_kept
    | with_reducible apply State.wr_kept
    | with_reducible apply State.latent_kept
    | with_reducible apply State.fillNone_kept
    | split
    | with_reducible apply Kept.foldl
    | intro _ _ _
    | intro _ _
    | with_reducible exact Kept.refl _
    | with_reducible apply Kept.useFree
    | (refine Kept.other (s := ?_) ?_ ?_; rotate_left 2; (dsimp only; with_reducible rfl))
    | (refine Kept.fresh (s := ?_) ?_ 1 ?_; rotate_left 2; (dsimp only; with_reducible rfl))

theorem State.uncoveredTest_kept {r0 s : State} (h : Nat) (passed : Bool) (hk : Kept r0 s) :
    Kept r0 (State.uncoveredTest s h passed) := by
  unfold State.uncoveredTest
  repeat' first
    | with_reducible assumption
    | with_reducible apply State.ucodeLess_kept
    | with_reducible apply State.postTest_kept
    | with_reducible apply State.countTest_kept
    | with_reducible apply State.latent_kept
    | split
    | with_reducible apply Kept.foldl
    | intro _ _ _
    | intro _ _
    | with_reducible exact Kept.refl _
    | with_reducible apply Kept.useFree
    | (refine Kept.other (s := ?_) ?_ ?_; rotate_left 2; (dsimp only; with_reducible rfl))
    | (refine Kept.fresh (s := ?_) ?_ 1 ?_; rotate_left 2; (dsimp only; with_reducible rfl))

theorem State.sequenced_kept {r0 s : State} (es : List Nat) (t : State) (ht : Kept r0 t) (_hk : Kept r0 s) :
    Kept r0 (State.sequenced s es t) := by
  unfold State.sequenced
  repeat' first
    | with_reducible assumption
    | with_reducible apply State.bumpEntries_kept
    | split
    | with_reducible apply Kept.foldl
    | intro _ _ _
    | intro _ _
    | with_reducible exact Kept.refl _
    | with_reducible apply Kept.useFree
    | (refine Kept.other (s := ?_) ?_ ?_; rotate_left 2; (dsimp only; with_reducible rfl))
    | (refine Kept.fresh (s := ?_) ?_ 1 ?_; rotate_left 2; (dsimp only; with_reducible rfl))

theorem State.frameUpdate_kept {r0 s : State} (level : Nat) (ws : List Word) (hk : Kept r0 s) :
    Kept r0 (State.frameUpdate s level ws) := by
  unfold State.frameUpdate
  repeat' first
    | with_reducible assumption
    | with_reducible apply State.bumpEntries_kept
    | with_reducible apply State.sequenced_kept
    | split
    | with_reducible apply Kept.foldl
    | intro _ _ _
    | intro _ _
    | with_reducible exact Kept.refl _
    | with_reducible apply Kept.useFree
    | (refine Kept.other (s := ?_) ?_ ?_; rotate_left 2; (dsimp only; with_reducible rfl))
    | (refine Kept.fresh (s := ?_) ?_ 1 ?_; rotate_left 2; (dsimp only; with_reducible rfl))

theorem State.sequencedBent_kept {r0 s : State} (h : Nat) (t : State) (ht : Kept r0 t) (hk : Kept r0 s) :
    Kept r0 (State.sequencedBent s h t) := by
  unfold State.sequencedBent
  repeat' first
    | with_reducible assumption
    | with_reducible apply State.sequenced_kept
    | split
    | with_reducible apply Kept.foldl
    | intro _ _ _
    | intro _ _
    | with_reducible exact Kept.refl _
    | with_reducible apply Kept.useFree
    | (refine Kept.other (s := ?_) ?_ ?_; rotate_left 2; (dsimp only; with_reducible rfl))
    | (refine Kept.fresh (s := ?_) ?_ 1 ?_; rotate_left 2; (dsimp only; with_reducible rfl))

theorem State.goOn_kept {r0 s : State}  (hk : Kept r0 s) :
    Kept r0 (State.goOn s) := by
  unfold State.goOn
  repeat' first
    | with_reducible assumption
    | with_reducible apply State.sequenced_kept
    | with_reducible apply State.tryMigrations_kept
    | split
    | with_reducible apply Kept.foldl
    | intro _ _ _
    | intro _ _
    | with_reducible exact Kept.refl _
    | with_reducible apply Kept.useFree
    | (refine Kept.other (s := ?_) ?_ ?_; rotate_left 2; (dsimp only; with_reducible rfl))
    | (refine Kept.fresh (s := ?_) ?_ 1 ?_; rotate_left 2; (dsimp only; with_reducible rfl))

end Sys2Proof.Machine
end

