-- ==== Sys2Proof/Laws/KeptStreams.lean ====
section
/-! SUPPORT. Kept for the operations of streams, the Truss commands and training steps: one lemma each, for a composition of any of them. -/
namespace Sys2Proof.Machine
set_option linter.unusedTactic false
set_option linter.unreachableTactic false

theorem State.showFreeBlocks_kept {r0 s : State} (x : Nat) (hk : Kept r0 s) :
    Kept r0 (State.showFreeBlocks s x) := by
  unfold State.showFreeBlocks
  repeat' first
    | with_reducible assumption
    | with_reducible apply State.wr_kept
    | split
    | with_reducible apply Kept.foldl
    | intro _ _ _
    | intro _ _
    | with_reducible exact Kept.refl _
    | with_reducible apply Kept.useFree
    | (refine Kept.other (s := ?_) ?_ ?_; rotate_left 2; (dsimp only; with_reducible rfl))
    | (refine Kept.fresh (s := ?_) ?_ 1 ?_; rotate_left 2; (dsimp only; with_reducible rfl))

theorem State.openCount_kept {r0 s : State} (x : Nat) (n : Nat) (hk : Kept r0 s) :
    Kept r0 (State.openCount s x n) := by
  unfold State.openCount
  repeat' first
    | with_reducible assumption
    | with_reducible apply State.wr_kept
    | split
    | with_reducible apply Kept.foldl
    | intro _ _ _
    | intro _ _
    | with_reducible exact Kept.refl _
    | with_reducible apply Kept.useFree
    | (refine Kept.other (s := ?_) ?_ ?_; rotate_left 2; (dsimp only; with_reducible rfl))
    | (refine Kept.fresh (s := ?_) ?_ 1 ?_; rotate_left 2; (dsimp only; with_reducible rfl))

theorem State.startTable_kept {r0 s : State} (x : Nat) (hk : Kept r0 s) :
    Kept r0 (State.startTable s x) := by
  unfold State.startTable
  repeat' first
    | with_reducible assumption
    | with_reducible apply State.zeroRegion_kept
    | with_reducible apply State.setCtx_kept
    | with_reducible apply State.store_kept
    | with_reducible apply State.showFreeBlocks_kept
    | with_reducible apply State.wr_kept
    | with_reducible apply State.openCount_kept
    | split
    | with_reducible apply Kept.foldl
    | intro _ _ _
    | intro _ _
    | with_reducible exact Kept.refl _
    | with_reducible apply Kept.useFree
    | (refine Kept.other (s := ?_) ?_ ?_; rotate_left 2; (dsimp only; with_reducible rfl))
    | (refine Kept.fresh (s := ?_) ?_ 1 ?_; rotate_left 2; (dsimp only; with_reducible rfl))

theorem State.setEng_kept {r0 s : State} (x : Nat) (e : Streams) (hk : Kept r0 s) :
    Kept r0 (State.setEng s x e) := by
  unfold State.setEng
  repeat' first
    | with_reducible assumption
    | with_reducible apply State.setCtx_kept
    | split
    | with_reducible apply Kept.foldl
    | intro _ _ _
    | intro _ _
    | with_reducible exact Kept.refl _
    | with_reducible apply Kept.useFree
    | (refine Kept.other (s := ?_) ?_ ?_; rotate_left 2; (dsimp only; with_reducible rfl))
    | (refine Kept.fresh (s := ?_) ?_ 1 ?_; rotate_left 2; (dsimp only; with_reducible rfl))

theorem State.dropChanter_kept {r0 s : State} (x : Nat) (hk : Kept r0 s) :
    Kept r0 (State.dropChanter s x) := by
  unfold State.dropChanter
  repeat' first
    | with_reducible assumption
    | with_reducible apply State.showFreeBlocks_kept
    | with_reducible apply State.setEng_kept
    | split
    | with_reducible apply Kept.foldl
    | intro _ _ _
    | intro _ _
    | with_reducible exact Kept.refl _
    | with_reducible apply Kept.useFree
    | (refine Kept.other (s := ?_) ?_ ?_; rotate_left 2; (dsimp only; with_reducible rfl))
    | (refine Kept.fresh (s := ?_) ?_ 1 ?_; rotate_left 2; (dsimp only; with_reducible rfl))

theorem State.setBlock_kept {r0 s : State} (x : Nat) (st : Nat) (i : Nat) (side : Nat) (b : Nat) (hk : Kept r0 s) :
    Kept r0 (State.setBlock s x st i side b) := by
  unfold State.setBlock
  repeat' first
    | with_reducible assumption
    | with_reducible apply State.store_kept
    | split
    | with_reducible apply Kept.foldl
    | intro _ _ _
    | intro _ _
    | with_reducible exact Kept.refl _
    | with_reducible apply Kept.useFree
    | (refine Kept.other (s := ?_) ?_ ?_; rotate_left 2; (dsimp only; with_reducible rfl))
    | (refine Kept.fresh (s := ?_) ?_ 1 ?_; rotate_left 2; (dsimp only; with_reducible rfl))

theorem State.dropBlock_kept {r0 s : State} (x : Nat) (st : Nat) (side : Nat) (i : Nat) (hk : Kept r0 s) :
    Kept r0 (State.dropBlock s x st side i) := by
  unfold State.dropBlock
  repeat' first
    | with_reducible assumption
    | with_reducible apply State.setBlock_kept
    | with_reducible apply State.setEng_kept
    | split
    | with_reducible apply Kept.foldl
    | intro _ _ _
    | intro _ _
    | with_reducible exact Kept.refl _
    | with_reducible apply Kept.useFree
    | (refine Kept.other (s := ?_) ?_ ?_; rotate_left 2; (dsimp only; with_reducible rfl))
    | (refine Kept.fresh (s := ?_) ?_ 1 ?_; rotate_left 2; (dsimp only; with_reducible rfl))

theorem State.dropBlocks_kept {r0 s : State} (x : Nat) (st : Nat) (side : Nat) (l1 : List Nat) (hk : Kept r0 s) :
    Kept r0 (State.dropBlocks s x st side l1) := by
  induction l1 generalizing s x st side with
  | nil => exact hk
  | cons y l ih =>
    unfold State.dropBlocks
    repeat' first
      | with_reducible assumption
      | with_reducible apply ih
      | with_reducible apply State.dropBlock_kept
      | split
      | with_reducible apply Kept.foldl
      | intro _ _ _
      | intro _ _
      | with_reducible exact Kept.refl _
      | with_reducible apply Kept.useFree
      | (refine Kept.other (s := ?_) ?_ ?_; rotate_left 2; (dsimp only; with_reducible rfl))
      | (refine Kept.fresh (s := ?_) ?_ 1 ?_; rotate_left 2; (dsimp only; with_reducible rfl))

theorem State.setEnt_kept {r0 s : State} (x : Nat) (st : Nat) (f : Field) (v : Nat) (hk : Kept r0 s) :
    Kept r0 (State.setEnt s x st f v) := by
  unfold State.setEnt
  repeat' first
    | with_reducible assumption
    | with_reducible apply State.store_kept
    | split
    | with_reducible apply Kept.foldl
    | intro _ _ _
    | intro _ _
    | with_reducible exact Kept.refl _
    | with_reducible apply Kept.useFree
    | (refine Kept.other (s := ?_) ?_ ?_; rotate_left 2; (dsimp only; with_reducible rfl))
    | (refine Kept.fresh (s := ?_) ?_ 1 ?_; rotate_left 2; (dsimp only; with_reducible rfl))

theorem State.cutTo_kept {r0 s : State} (x : Nat) (st : Nat) (side : Nat) (v : Nat) (hk : Kept r0 s) :
    Kept r0 (State.cutTo s x st side v) := by
  unfold State.cutTo
  repeat' first
    | with_reducible assumption
    | with_reducible apply State.dropBlocks_kept
    | with_reducible apply State.setEnt_kept
    | split
    | with_reducible apply Kept.foldl
    | intro _ _ _
    | intro _ _
    | with_reducible exact Kept.refl _
    | with_reducible apply Kept.useFree
    | (refine Kept.other (s := ?_) ?_ ?_; rotate_left 2; (dsimp only; with_reducible rfl))
    | (refine Kept.fresh (s := ?_) ?_ 1 ?_; rotate_left 2; (dsimp only; with_reducible rfl))

theorem State.setEnts_kept {r0 s : State} (x : Nat) (st : Nat) (l1 : List (Field × Nat)) (hk : Kept r0 s) :
    Kept r0 (State.setEnts s x st l1) := by
  induction l1 generalizing s x st with
  | nil => exact hk
  | cons y l ih =>
    unfold State.setEnts
    repeat' first
      | with_reducible assumption
      | with_reducible apply ih
      | with_reducible apply State.setEnt_kept
      | split
      | with_reducible apply Kept.foldl
      | intro _ _ _
      | intro _ _
      | with_reducible exact Kept.refl _
      | with_reducible apply Kept.useFree
      | (refine Kept.other (s := ?_) ?_ ?_; rotate_left 2; (dsimp only; with_reducible rfl))
      | (refine Kept.fresh (s := ?_) ?_ 1 ?_; rotate_left 2; (dsimp only; with_reducible rfl))

theorem State.dropPause_kept {r0 s : State} (x : Nat) (st : Nat) (hk : Kept r0 s) :
    Kept r0 (State.dropPause s x st) := by
  unfold State.dropPause
  repeat' first
    | with_reducible assumption
    | with_reducible apply State.setEnts_kept
    | with_reducible apply State.setEng_kept
    | split
    | with_reducible apply Kept.foldl
    | intro _ _ _
    | intro _ _
    | with_reducible exact Kept.refl _
    | with_reducible apply Kept.useFree
    | (refine Kept.other (s := ?_) ?_ ?_; rotate_left 2; (dsimp only; with_reducible rfl))
    | (refine Kept.fresh (s := ?_) ?_ 1 ?_; rotate_left 2; (dsimp only; with_reducible rfl))

theorem State.dropSide_kept {r0 s : State} (x : Nat) (st : Nat) (side : Nat) (hk : Kept r0 s) :
    Kept r0 (State.dropSide s x st side) := by
  unfold State.dropSide
  repeat' first
    | with_reducible assumption
    | with_reducible apply State.dropBlocks_kept
    | split
    | with_reducible apply Kept.foldl
    | intro _ _ _
    | intro _ _
    | with_reducible exact Kept.refl _
    | with_reducible apply Kept.useFree
    | (refine Kept.other (s := ?_) ?_ ?_; rotate_left 2; (dsimp only; with_reducible rfl))
    | (refine Kept.fresh (s := ?_) ?_ 1 ?_; rotate_left 2; (dsimp only; with_reducible rfl))

theorem State.setAdapter_kept {r0 s : State} (x : Nat) (k : Nat) (a : Adapter) (hk : Kept r0 s) :
    Kept r0 (State.setAdapter s x k a) := by
  unfold State.setAdapter
  repeat' first
    | with_reducible assumption
    | with_reducible apply State.store_kept
    | with_reducible apply State.setEng_kept
    | split
    | with_reducible apply Kept.foldl
    | intro _ _ _
    | intro _ _
    | with_reducible exact Kept.refl _
    | with_reducible apply Kept.useFree
    | (refine Kept.other (s := ?_) ?_ ?_; rotate_left 2; (dsimp only; with_reducible rfl))
    | (refine Kept.fresh (s := ?_) ?_ 1 ?_; rotate_left 2; (dsimp only; with_reducible rfl))

theorem State.unpin_kept {r0 s : State} (x : Nat) (st : Nat) (hk : Kept r0 s) :
    Kept r0 (State.unpin s x st) := by
  unfold State.unpin
  repeat' first
    | with_reducible assumption
    | with_reducible apply State.setAdapter_kept
    | with_reducible apply State.setEnt_kept
    | split
    | with_reducible apply Kept.foldl
    | intro _ _ _
    | intro _ _
    | with_reducible exact Kept.refl _
    | with_reducible apply Kept.useFree
    | (refine Kept.other (s := ?_) ?_ ?_; rotate_left 2; (dsimp only; with_reducible rfl))
    | (refine Kept.fresh (s := ?_) ?_ 1 ?_; rotate_left 2; (dsimp only; with_reducible rfl))

theorem State.endStream_kept {r0 s : State} (x : Nat) (st : Nat) (state : Nat) (hk : Kept r0 s) :
    Kept r0 (State.endStream s x st state) := by
  unfold State.endStream
  repeat' first
    | with_reducible assumption
    | with_reducible apply State.dropSide_kept
    | with_reducible apply State.setEng_kept
    | with_reducible apply State.dropPause_kept
    | with_reducible apply State.unpin_kept
    | with_reducible apply State.showFreeBlocks_kept
    | with_reducible apply State.setEnts_kept
    | split
    | with_reducible apply Kept.foldl
    | intro _ _ _
    | intro _ _
    | with_reducible exact Kept.refl _
    | with_reducible apply Kept.useFree
    | (refine Kept.other (s := ?_) ?_ ?_; rotate_left 2; (dsimp only; with_reducible rfl))
    | (refine Kept.fresh (s := ?_) ?_ 1 ?_; rotate_left 2; (dsimp only; with_reducible rfl))

theorem State.enterMatches_kept {r0 s : State} (x : Nat) (st : Nat) (side : Nat) (rs : List RegBlock) (hk : Kept r0 s) :
    Kept r0 (State.enterMatches s x st side rs) := by
  unfold State.enterMatches
  repeat' first
    | with_reducible assumption
    | with_reducible apply State.setEng_kept
    | with_reducible apply State.setBlock_kept
    | split
    | with_reducible apply Kept.foldl
    | intro _ _ _
    | intro _ _
    | with_reducible exact Kept.refl _
    | with_reducible apply Kept.useFree
    | (refine Kept.other (s := ?_) ?_ ?_; rotate_left 2; (dsimp only; with_reducible rfl))
    | (refine Kept.fresh (s := ?_) ?_ 1 ?_; rotate_left 2; (dsimp only; with_reducible rfl))

theorem State.expireStream_kept {r0 s : State} (x : Nat) (st : Nat) (hk : Kept r0 s) :
    Kept r0 (State.expireStream s x st) := by
  unfold State.expireStream
  repeat' first
    | with_reducible assumption
    | with_reducible apply State.inc_kept
    | with_reducible apply State.endStream_kept
    | split
    | with_reducible apply Kept.foldl
    | intro _ _ _
    | intro _ _
    | with_reducible exact Kept.refl _
    | with_reducible apply Kept.useFree
    | (refine Kept.other (s := ?_) ?_ ?_; rotate_left 2; (dsimp only; with_reducible rfl))
    | (refine Kept.fresh (s := ?_) ?_ 1 ?_; rotate_left 2; (dsimp only; with_reducible rfl))

theorem State.exportAcked_kept {r0 s : State} (x : Nat) (st : Nat) (hk : Kept r0 s) :
    Kept r0 (State.exportAcked s x st) := by
  unfold State.exportAcked
  repeat' first
    | with_reducible assumption
    | with_reducible apply State.endStream_kept
    | with_reducible apply State.openCount_kept
    | split
    | with_reducible apply Kept.foldl
    | intro _ _ _
    | intro _ _
    | with_reducible exact Kept.refl _
    | with_reducible apply Kept.useFree
    | (refine Kept.other (s := ?_) ?_ ?_; rotate_left 2; (dsimp only; with_reducible rfl))
    | (refine Kept.fresh (s := ?_) ?_ 1 ?_; rotate_left 2; (dsimp only; with_reducible rfl))

theorem State.fillBlocks_kept {r0 s : State} (x : Nat) (st : Nat) (side : Nat) (blocks : List (List Byte)) (l1 : List Nat) (hk : Kept r0 s) :
    Kept r0 (State.fillBlocks s x st side blocks l1) := by
  induction l1 generalizing s x st side blocks with
  | nil => exact hk
  | cons y l ih =>
    unfold State.fillBlocks
    repeat' first
      | with_reducible assumption
      | with_reducible apply ih
      | with_reducible apply State.store_kept
      | split
      | with_reducible apply Kept.foldl
      | intro _ _ _
      | intro _ _
      | with_reducible exact Kept.refl _
      | with_reducible apply Kept.useFree
      | (refine Kept.other (s := ?_) ?_ ?_; rotate_left 2; (dsimp only; with_reducible rfl))
      | (refine Kept.fresh (s := ?_) ?_ 1 ?_; rotate_left 2; (dsimp only; with_reducible rfl))

theorem State.pin_kept {r0 s : State} (x slot : Nat) (hk : Kept r0 s) : Kept r0 (s.pin x slot).1 := by
  unfold State.pin
  split
  · extract_lets a
    have h1 := State.setAdapter_kept x (4 * slot + ‹Nat›) { a with refs := a.refs + 1 } hk
    clear_value a
    exact h1
  · exact hk
theorem State.freshEntry_kept {r0 s : State} (x st state prompt : Nat) (r : StreamRec) (hk : Kept r0 s) :
    Kept r0 (State.freshEntry s x st state prompt r) := by
  have h1 : Kept r0 (if useAdapter r then s.pin x (argSlot r) else (s, 0)).1 := by
    split
    · exact State.pin_kept _ _ hk
    · exact hk
  unfold State.freshEntry
  split
  rename_i s1 h e
  rw [e] at h1
  extract_lets s2 start s3 e3
  have h3 : Kept r0 s3 := State.setEnts_kept _ _ _ (State.store_kept _ _ _ _ h1)
  clear_value s3
  exact State.openCount_kept _ _ (State.setEng_kept _ _ h3)

theorem State.takeBlock_kept {r0 s : State} (x side : Nat) (hk : Kept r0 s) : Kept r0 (s.takeBlock x side).1 := by
  unfold State.takeBlock
  simp only
  split
  · exact State.setEng_kept _ _ (Kept.fresh hk 1 rfl)
  · split
    · exact State.setEng_kept _ _ hk
    · exact hk
theorem State.takeBlocks_kept {r0 s : State} (x st side : Nat) (l1 : List Nat) (hk : Kept r0 s) :
    Kept r0 (State.takeBlocks s x st side l1) := by
  induction l1 generalizing s with
  | nil => exact hk
  | cons y l ih => exact ih (State.setBlock_kept _ _ _ _ _ (State.takeBlock_kept _ _ hk))

theorem State.putTokens_kept {r0 s : State} (x : Nat) (st : Nat) (i : Nat) (l : List Nat) (hk : Kept r0 s) :
    Kept r0 (State.putTokens s x st i l) := by
  unfold State.putTokens
  repeat' first
    | with_reducible assumption
    | with_reducible apply State.store_kept
    | split
    | with_reducible apply Kept.foldl
    | intro _ _ _
    | intro _ _
    | with_reducible exact Kept.refl _
    | with_reducible apply Kept.useFree
    | (refine Kept.other (s := ?_) ?_ ?_; rotate_left 2; (dsimp only; with_reducible rfl))
    | (refine Kept.fresh (s := ?_) ?_ 1 ?_; rotate_left 2; (dsimp only; with_reducible rfl))

theorem State.registerSide_kept {r0 s : State} (x : Nat) (st : Nat) (side : Nat) (hk : Kept r0 s) :
    Kept r0 (State.registerSide s x st side) := by
  unfold State.registerSide
  repeat' first
    | with_reducible assumption
    | with_reducible apply State.setEng_kept
    | split
    | with_reducible apply Kept.foldl
    | intro _ _ _
    | intro _ _
    | with_reducible exact Kept.refl _
    | with_reducible apply Kept.useFree
    | (refine Kept.other (s := ?_) ?_ ?_; rotate_left 2; (dsimp only; with_reducible rfl))
    | (refine Kept.fresh (s := ?_) ?_ 1 ?_; rotate_left 2; (dsimp only; with_reducible rfl))

theorem State.registerBlocks_kept {r0 s : State} (x : Nat) (st : Nat) (hk : Kept r0 s) :
    Kept r0 (State.registerBlocks s x st) := by
  unfold State.registerBlocks
  repeat' first
    | with_reducible assumption
    | with_reducible apply State.registerSide_kept
    | split
    | with_reducible apply Kept.foldl
    | intro _ _ _
    | intro _ _
    | with_reducible exact Kept.refl _
    | with_reducible apply Kept.useFree
    | (refine Kept.other (s := ?_) ?_ ?_; rotate_left 2; (dsimp only; with_reducible rfl))
    | (refine Kept.fresh (s := ?_) ?_ 1 ?_; rotate_left 2; (dsimp only; with_reducible rfl))

theorem State.showHashes_kept {r0 s : State} (x : Nat) (st : Nat) (hk : Kept r0 s) :
    Kept r0 (State.showHashes s x st) := by
  unfold State.showHashes
  repeat' first
    | with_reducible assumption
    | with_reducible apply State.setEnts_kept
    | split
    | with_reducible apply Kept.foldl
    | intro _ _ _
    | intro _ _
    | with_reducible exact Kept.refl _
    | with_reducible apply Kept.useFree
    | (refine Kept.other (s := ?_) ?_ ?_; rotate_left 2; (dsimp only; with_reducible rfl))
    | (refine Kept.fresh (s := ?_) ?_ 1 ?_; rotate_left 2; (dsimp only; with_reducible rfl))

theorem State.importStream_kept {r0 s : State} (x : Nat) (st : Nat) (bs : List Byte) (hk : Kept r0 s) :
    Kept r0 (State.importStream s x st bs) := by
  unfold State.importStream
  repeat' first
    | with_reducible assumption
    | with_reducible apply State.takeBlocks_kept
    | with_reducible apply State.fillBlocks_kept
    | with_reducible apply State.setEnts_kept
    | with_reducible apply State.putTokens_kept
    | with_reducible apply State.setEng_kept
    | with_reducible apply State.showFreeBlocks_kept
    | with_reducible apply State.registerBlocks_kept
    | with_reducible apply State.showHashes_kept
    | split
    | with_reducible apply Kept.foldl
    | intro _ _ _
    | intro _ _
    | with_reducible exact Kept.refl _
    | with_reducible apply Kept.useFree
    | (refine Kept.other (s := ?_) ?_ ?_; rotate_left 2; (dsimp only; with_reducible rfl))
    | (refine Kept.fresh (s := ?_) ?_ 1 ?_; rotate_left 2; (dsimp only; with_reducible rfl))

theorem State.latency_kept {r0 s : State} (x : Nat) (st : Nat) (c : Nat) (wasPast : Bool) (hk : Kept r0 s) :
    Kept r0 (State.latency s x st c wasPast) := by
  unfold State.latency
  repeat' first
    | with_reducible assumption
    | with_reducible apply State.setEnt_kept
    | with_reducible apply State.setEnts_kept
    | with_reducible apply State.setEng_kept
    | split
    | with_reducible apply Kept.foldl
    | intro _ _ _
    | intro _ _
    | with_reducible exact Kept.refl _
    | with_reducible apply Kept.useFree
    | (refine Kept.other (s := ?_) ?_ ?_; rotate_left 2; (dsimp only; with_reducible rfl))
    | (refine Kept.fresh (s := ?_) ?_ 1 ?_; rotate_left 2; (dsimp only; with_reducible rfl))

theorem State.matchPrompt_kept {r0 s : State} (x : Nat) (st : Nat) (n : Nat) (hk : Kept r0 s) :
    Kept r0 (State.matchPrompt s x st n) := by
  unfold State.matchPrompt
  repeat' first
    | with_reducible assumption
    | with_reducible apply State.enterMatches_kept
    | with_reducible apply State.dropBlocks_kept
    | with_reducible apply State.setEnts_kept
    | with_reducible apply State.setEng_kept
    | split
    | with_reducible apply Kept.foldl
    | intro _ _ _
    | intro _ _
    | with_reducible exact Kept.refl _
    | with_reducible apply Kept.useFree
    | (refine Kept.other (s := ?_) ?_ ?_; rotate_left 2; (dsimp only; with_reducible rfl))
    | (refine Kept.fresh (s := ?_) ?_ 1 ?_; rotate_left 2; (dsimp only; with_reducible rfl))

theorem State.pieceIn_kept {r0 s : State} (x : Nat) (pk : Packet) (hk : Kept r0 s) :
    Kept r0 (State.pieceIn s x pk) := by
  unfold State.pieceIn
  repeat' first
    | with_reducible assumption
    | with_reducible apply State.setEng_kept
    | with_reducible apply State.importStream_kept
    | split
    | with_reducible apply Kept.foldl
    | intro _ _ _
    | intro _ _
    | with_reducible exact Kept.refl _
    | with_reducible apply Kept.useFree
    | (refine Kept.other (s := ?_) ?_ ?_; rotate_left 2; (dsimp only; with_reducible rfl))
    | (refine Kept.fresh (s := ?_) ?_ 1 ?_; rotate_left 2; (dsimp only; with_reducible rfl))

theorem refused_kept {r0 s : State} (code value : Nat) (hk : Kept r0 s) : Kept r0 (refused s code value).st := hk
theorem State.openStream_kept {r0 s : State} (x : Nat) (r : StreamRec) (hk : Kept r0 s) : Kept r0 (s.openStream x r).st := by
  unfold State.openStream
  simp only
  split
  · exact hk
  · exact State.showFreeBlocks_kept _ (State.showHashes_kept _ _ (State.matchPrompt_kept _ _ _ (State.putTokens_kept _ _ _ _ (State.freshEntry_kept _ _ _ _ _ hk))))
theorem State.appendStream_kept {r0 s : State} (x : Nat) (r : StreamRec) (hk : Kept r0 s) : Kept r0 (s.appendStream x r).st := by
  unfold State.appendStream
  simp only
  split
  · exact hk
  · exact State.showFreeBlocks_kept _ (State.registerBlocks_kept _ _ (State.setEnt_kept _ _ _ _ (State.takeBlocks_kept _ _ _ _ hk)))
theorem State.commitStream_kept {r0 s : State} (x : Nat) (r : StreamRec) (hk : Kept r0 s) : Kept r0 (s.commitStream x r).st := by
  unfold State.commitStream
  extract_lets st c v old prompt decode fresh inRange toks on g walk s1 s2 s3 s4
  have h3 : Kept r0 s3 := State.latency_kept _ _ _ _ (State.cutTo_kept _ _ _ _ (State.cutTo_kept _ _ _ _
    (State.setEnts_kept _ _ _ (State.putTokens_kept _ _ _ _ hk))))
  clear_value s3
  have h4 : Kept r0 s4 := Kept.ite (State.setEnts_kept _ _ _ h3) h3
  clear_value s4
  split
  · exact hk
  · exact State.showFreeBlocks_kept _ (State.registerBlocks_kept _ _ (State.showHashes_kept _ _ h4))
theorem State.maskStream_kept {r0 s : State} (x : Nat) (r : StreamRec) (hk : Kept r0 s) : Kept r0 (s.maskStream x r).st := by
  unfold State.maskStream
  simp only
  split
  · exact hk
  · exact State.store_kept (.tier1 x) (argOut r) 0 _ hk
theorem State.nextStream_kept {r0 s : State} (x : Nat) (r : StreamRec) (hk : Kept r0 s) : Kept r0 (s.nextStream x r).st := by
  unfold State.nextStream
  simp only
  split
  · exact hk
  · exact Kept.foldl _ (fun _ _ h => State.setEnt_kept _ _ _ _ h) (State.store_kept _ _ _ _ hk)
theorem State.pauseStream_kept {r0 s : State} (x : Nat) (r : StreamRec) (hk : Kept r0 s) : Kept r0 (s.pauseStream x r).st := by
  unfold State.pauseStream
  extract_lets st commit s1 rs len gs off e s2 s3
  have h1 : Kept r0 s1 := State.cutTo_kept _ _ _ _ (State.cutTo_kept _ _ _ _ hk)
  have h3 : Kept r0 s3 := State.setEng_kept _ _ (Kept.useFree 1 h1)
  have h3' := Kept.useFree 1 h3
  clear_value s3 s2 e off gs len rs s1
  split
  · exact hk
  · split
    · exact State.haltCtx_kept _ _ hk
    · split
      · rename_i c g _
        have h2 := State.poisonFault_kept x c g hk
        dsimp only
        with_reducible exact h2
      · split
        exact State.showFreeBlocks_kept _ (State.setEnts_kept _ _ _ (State.dropSide_kept _ _ _ (State.store_kept _ _ _ _ h3')))
theorem State.resumeStream_kept {r0 s : State} (x : Nat) (r : StreamRec) (hk : Kept r0 s) : Kept r0 (s.resumeStream x r).st := by
  unfold State.resumeStream
  simp only
  split
  · exact hk
  · split
    · exact hk
    · split
      · have h1 := State.haltCtx_kept x 0x3007 (State.logFault_kept { detect := 0x3007, ctx := some x }
          (State.bump_kept Reg.safSafety Reg.SAF_DATA_PATH_FAULTS 1 hk))
        dsimp only
        with_reducible exact h1
      · exact State.showFreeBlocks_kept _ (State.registerBlocks_kept _ _ (State.setEnt_kept _ _ _ _ (State.dropPause_kept _ _
          (State.fillBlocks_kept _ _ _ _ _ (State.takeBlocks_kept _ _ _ _ hk)))))
theorem State.closeStream_kept {r0 s : State} (x : Nat) (r : StreamRec) (hk : Kept r0 s) : Kept r0 (s.closeStream x r).st := by
  unfold State.closeStream
  simp only
  split
  · exact hk
  · exact State.openCount_kept _ _ (State.endStream_kept _ _ _ hk)
theorem State.exportStream_kept {r0 s : State} (x : Nat) (r : StreamRec) (ready : Bool) (hk : Kept r0 s) :
    Kept r0 (s.exportStream x r ready).st := by
  unfold State.exportStream
  simp only
  split
  · exact hk
  · split
    · have h1 := State.haltCtx_kept x 0x4202 hk
      dsimp only
      with_reducible exact h1
    · split
      · rename_i c g _
        have h2 := State.poisonFault_kept x c g hk
        dsimp only
        with_reducible exact h2
      · exact State.setEnt_kept _ _ _ _ (State.queueBodies_kept _ _ _ _ hk)
theorem State.receiveStream_kept {r0 s : State} (x : Nat) (r : StreamRec) (hk : Kept r0 s) : Kept r0 (s.receiveStream x r).st := by
  unfold State.receiveStream
  simp only
  split
  · exact hk
  · exact State.freshEntry_kept _ _ _ _ _ hk
theorem State.adapterLoad_kept {r0 s : State} (x : Nat) (r : StreamRec) (hk : Kept r0 s) : Kept r0 (s.adapterLoad x r).st := by
  have hc : Kept r0 (match s.currentAdapter x (r.count.toNat % 256) with
      | some i => s.setAdapter x (4 * (r.count.toNat % 256) + i) { s.adapter x (4 * (r.count.toNat % 256) + i) with current := false }
      | none => s) := by
    split
    · exact State.setAdapter_kept _ _ _ hk
    · exact hk
  unfold State.adapterLoad
  extract_lets slot base bytes recs cur clear last v
  have hc' : Kept r0 (clear s) := hc
  clear_value clear v recs
  split
  · exact hc'
  · split
    · exact hk
    · split
      · exact hk
      · exact State.setEng_kept _ _ (State.setAdapter_kept _ _ _ hc')
theorem State.grammarLoad_kept {r0 s : State} (x : Nat) (r : StreamRec) (hk : Kept r0 s) : Kept r0 (s.grammarLoad x r).st := by
  unfold State.grammarLoad
  simp only
  split
  · exact hk
  · exact State.setEng_kept _ _ hk
theorem State.grammarDrop_kept {r0 s : State} (x : Nat) (r : StreamRec) (hk : Kept r0 s) : Kept r0 (s.grammarDrop x r).st := by
  unfold State.grammarDrop
  simp only
  split
  · exact hk
  · exact State.setEng_kept _ _ hk
theorem State.streamExec_kept {r0 s : State} (x op : Nat) (r : StreamRec) (ready : Bool) (hk : Kept r0 s) :
    Kept r0 (s.streamExec x op r ready).st := by
  unfold State.streamExec
  split
  · exact hk
  · split
    · exact State.openStream_kept _ _ hk
    · exact State.appendStream_kept _ _ hk
    · exact State.commitStream_kept _ _ hk
    · exact State.maskStream_kept _ _ hk
    · exact State.nextStream_kept _ _ hk
    · exact State.pauseStream_kept _ _ hk
    · exact State.resumeStream_kept _ _ hk
    · exact State.closeStream_kept _ _ hk
    · exact State.exportStream_kept _ _ _ hk
    · exact State.receiveStream_kept _ _ hk
    · exact State.adapterLoad_kept _ _ hk
    · exact State.grammarLoad_kept _ _ hk
    · exact State.grammarDrop_kept _ _ hk
    · exact hk
theorem State.streamCommand_kept {r0 s : State} (x : CtxId) (op : Nat) (r : StreamRec) (ready : Bool) (h : Option HostRef) (hk : Kept r0 s) :
    Kept r0 (State.streamCommand s x op r ready h) := by
  unfold State.streamCommand
  split
  · exact State.streamExec_kept _ _ _ _ hk
  · exact State.command_kept _ _ _ (fun t ht => State.post_kept _ _ _ _ _ (State.streamExec_kept _ _ _ _ ht)) hk

theorem State.streamSubmit_kept {r0 s : State} (x : Nat) (hk : Kept r0 s) : Kept r0 (State.streamSubmit s x) := by
  unfold State.streamSubmit
  simp only
  split
  · have h0 : ∀ (c : Prop) [Decidable c], Kept r0 (if c then { s with free := s.free + 1 } else s) :=
      fun c _ => Kept.ite (Kept.useFree 1 hk) hk
    have h1 := fun (c : Prop) (_ : Decidable c) op r ready k => State.setCtx_kept x k (State.streamExec_kept x op r ready (h0 c))
    exact Kept.ite (State.signal_kept _ _ _ _ (State.store_kept _ _ _ _ (h1 _ _ _ _ _ _))) (h1 _ _ _ _ _ _)
  · exact hk

theorem State.acceptFlit_kept {r0 s : State} (p : Nat) (f : Flit) (hk : Kept r0 s) :
    Kept r0 (State.acceptFlit s p f) := by
  unfold State.acceptFlit
  repeat' first
    | with_reducible assumption
    | with_reducible apply State.setPort_kept
    | split
    | with_reducible apply Kept.foldl
    | intro _ _ _
    | intro _ _
    | with_reducible exact Kept.refl _
    | with_reducible apply Kept.useFree
    | (refine Kept.other (s := ?_) ?_ ?_; rotate_left 2; (dsimp only; with_reducible rfl))
    | (refine Kept.fresh (s := ?_) ?_ 1 ?_; rotate_left 2; (dsimp only; with_reducible rfl))

theorem State.acknowledge_kept {r0 s : State} (pk : Packet) (hk : Kept r0 s) :
    Kept r0 (State.acknowledge s pk) := by
  unfold State.acknowledge
  repeat' first
    | with_reducible assumption
    | split
    | with_reducible apply Kept.foldl
    | intro _ _ _
    | intro _ _
    | with_reducible exact Kept.refl _
    | with_reducible apply Kept.useFree
    | (refine Kept.other (s := ?_) ?_ ?_; rotate_left 2; (dsimp only; with_reducible rfl))
    | (refine Kept.fresh (s := ?_) ?_ 1 ?_; rotate_left 2; (dsimp only; with_reducible rfl))

theorem State.answerFlit_kept {r0 s : State} (p : Nat) (f : Flit) (t : State) (ht : Kept r0 t) (_hk : Kept r0 s) :
    Kept r0 (State.answerFlit s p f t) := by
  unfold State.answerFlit
  repeat' first
    | with_reducible assumption
    | with_reducible apply State.sendCtl_kept
    | split
    | with_reducible apply Kept.foldl
    | intro _ _ _
    | intro _ _
    | with_reducible exact Kept.refl _
    | with_reducible apply Kept.useFree
    | (refine Kept.other (s := ?_) ?_ ?_; rotate_left 2; (dsimp only; with_reducible rfl))
    | (refine Kept.fresh (s := ?_) ?_ 1 ?_; rotate_left 2; (dsimp only; with_reducible rfl))

theorem State.deliver_kept {r0 s : State} (pk : Packet) (hk : Kept r0 s) :
    Kept r0 (State.deliver s pk) := by
  unfold State.deliver
  repeat' first
    | with_reducible assumption
    | with_reducible apply State.storeAt_kept
    | with_reducible apply State.bump_kept
    | with_reducible apply State.wr_kept
    | split
    | with_reducible apply Kept.foldl
    | intro _ _ _
    | intro _ _
    | with_reducible exact Kept.refl _
    | with_reducible apply Kept.useFree
    | (refine Kept.other (s := ?_) ?_ ?_; rotate_left 2; (dsimp only; with_reducible rfl))
    | (refine Kept.fresh (s := ?_) ?_ 1 ?_; rotate_left 2; (dsimp only; with_reducible rfl))

theorem State.captureRefused_kept {r0 s : State} (x : Nat) (hk : Kept r0 s) :
    Kept r0 (State.captureRefused s x) := by
  unfold State.captureRefused
  repeat' first
    | with_reducible assumption
    | with_reducible apply State.haltCtx_kept
    | with_reducible apply State.setCtx_kept
    | split
    | with_reducible apply Kept.foldl
    | intro _ _ _
    | intro _ _
    | with_reducible exact Kept.refl _
    | with_reducible apply Kept.useFree
    | (refine Kept.other (s := ?_) ?_ ?_; rotate_left 2; (dsimp only; with_reducible rfl))
    | (refine Kept.fresh (s := ?_) ?_ 1 ?_; rotate_left 2; (dsimp only; with_reducible rfl))

theorem State.learnIdentity_kept {r0 s : State} (addr : Nat) (id : BitVec 64) (hk : Kept r0 s) :
    Kept r0 (State.learnIdentity s addr id) := by
  unfold State.learnIdentity
  repeat' first
    | with_reducible assumption
    | with_reducible apply State.portStatus_kept
    | split
    | with_reducible apply Kept.foldl
    | intro _ _ _
    | intro _ _
    | with_reducible exact Kept.refl _
    | with_reducible apply Kept.useFree
    | (refine Kept.other (s := ?_) ?_ ?_; rotate_left 2; (dsimp only; with_reducible rfl))
    | (refine Kept.fresh (s := ?_) ?_ 1 ?_; rotate_left 2; (dsimp only; with_reducible rfl))

theorem State.channelOpen_kept {r0 s : State} (k : ChannelKey) (peer : BitVec 64) (hk : Kept r0 s) :
    Kept r0 (State.channelOpen s k peer) := by
  unfold State.channelOpen
  repeat' first
    | with_reducible assumption
    | with_reducible apply State.learnIdentity_kept
    | with_reducible apply State.wr_kept
    | with_reducible apply State.openChannel_kept
    | with_reducible apply State.setChannel_kept
    | split
    | with_reducible apply Kept.foldl
    | intro _ _ _
    | intro _ _
    | with_reducible exact Kept.refl _
    | with_reducible apply Kept.useFree
    | (refine Kept.other (s := ?_) ?_ ?_; rotate_left 2; (dsimp only; with_reducible rfl))
    | (refine Kept.fresh (s := ?_) ?_ 1 ?_; rotate_left 2; (dsimp only; with_reducible rfl))

theorem State.startPort_kept {r0 s : State} (p : Nat) (hk : Kept r0 s) :
    Kept r0 (State.startPort s p) := by
  unfold State.startPort
  repeat' first
    | with_reducible assumption
    | with_reducible apply State.setLink_kept
    | with_reducible apply State.setPort_kept
    | split
    | with_reducible apply Kept.foldl
    | intro _ _ _
    | intro _ _
    | with_reducible exact Kept.refl _
    | with_reducible apply Kept.useFree
    | (refine Kept.other (s := ?_) ?_ ?_; rotate_left 2; (dsimp only; with_reducible rfl))
    | (refine Kept.fresh (s := ?_) ?_ 1 ?_; rotate_left 2; (dsimp only; with_reducible rfl))

theorem State.countRetrain_kept {r0 s : State} (p : Nat) (hk : Kept r0 s) :
    Kept r0 (State.countRetrain s p) := by
  unfold State.countRetrain
  repeat' first
    | with_reducible assumption
    | with_reducible apply State.inc_kept
    | split
    | with_reducible apply Kept.foldl
    | intro _ _ _
    | intro _ _
    | with_reducible exact Kept.refl _
    | with_reducible apply Kept.useFree
    | (refine Kept.other (s := ?_) ?_ ?_; rotate_left 2; (dsimp only; with_reducible rfl))
    | (refine Kept.fresh (s := ?_) ?_ 1 ?_; rotate_left 2; (dsimp only; with_reducible rfl))

theorem State.disablePort_kept {r0 s : State} (p : PortId) (hk : Kept r0 s) :
    Kept r0 (State.disablePort s p) := by
  unfold State.disablePort
  repeat' first
    | with_reducible assumption
    | with_reducible apply State.cancelCheck_kept
    | with_reducible apply State.clearSpan_kept
    | with_reducible apply State.wr_kept
    | with_reducible apply State.setLink_kept
    | with_reducible apply State.portGone_kept
    | with_reducible apply State.setPort_kept
    | with_reducible apply State.channelsDown_kept
    | split
    | with_reducible apply Kept.foldl
    | intro _ _ _
    | intro _ _
    | with_reducible exact Kept.refl _
    | with_reducible apply Kept.useFree
    | (refine Kept.other (s := ?_) ?_ ?_; rotate_left 2; (dsimp only; with_reducible rfl))
    | (refine Kept.fresh (s := ?_) ?_ 1 ?_; rotate_left 2; (dsimp only; with_reducible rfl))

theorem State.joinSpan_kept {r0 s : State} (p : Nat) (hk : Kept r0 s) :
    Kept r0 (State.joinSpan s p) := by
  unfold State.joinSpan
  repeat' first
    | with_reducible assumption
    | with_reducible apply State.wr_kept
    | with_reducible apply State.setPort_kept
    | split
    | with_reducible apply Kept.foldl
    | intro _ _ _
    | intro _ _
    | with_reducible exact Kept.refl _
    | with_reducible apply Kept.useFree
    | (refine Kept.other (s := ?_) ?_ ?_; rotate_left 2; (dsimp only; with_reducible rfl))
    | (refine Kept.fresh (s := ?_) ?_ 1 ?_; rotate_left 2; (dsimp only; with_reducible rfl))

theorem State.takeDiscovery_kept {r0 s : State} (p : Nat) (f : Discovery) (hk : Kept r0 s) :
    Kept r0 (State.takeDiscovery s p f) := by
  unfold State.takeDiscovery
  repeat' first
    | with_reducible assumption
    | with_reducible apply State.linkLost_kept
    | with_reducible apply State.wr_kept
    | with_reducible apply State.setPort_kept
    | with_reducible apply State.joinSpan_kept
    | with_reducible apply State.learnIdentity_kept
    | split
    | with_reducible apply Kept.foldl
    | intro _ _ _
    | intro _ _
    | with_reducible exact Kept.refl _
    | with_reducible apply Kept.useFree
    | (refine Kept.other (s := ?_) ?_ ?_; rotate_left 2; (dsimp only; with_reducible rfl))
    | (refine Kept.fresh (s := ?_) ?_ 1 ?_; rotate_left 2; (dsimp only; with_reducible rfl))

theorem State.discovered_kept {r0 s : State} (p : Nat) (seq : Nat) (ack : Nat) (f : Discovery) (hk : Kept r0 s) :
    Kept r0 (State.discovered s p seq ack f) := by
  unfold State.discovered
  repeat' first
    | with_reducible assumption
    | with_reducible apply State.takeAck_kept
    | with_reducible apply State.takeDiscovery_kept
    | with_reducible apply State.setPort_kept
    | split
    | with_reducible apply Kept.foldl
    | intro _ _ _
    | intro _ _
    | with_reducible exact Kept.refl _
    | with_reducible apply Kept.useFree
    | (refine Kept.other (s := ?_) ?_ ?_; rotate_left 2; (dsimp only; with_reducible rfl))
    | (refine Kept.fresh (s := ?_) ?_ 1 ?_; rotate_left 2; (dsimp only; with_reducible rfl))

theorem State.dropInbound_kept {r0 s : State} (pk : Packet) (hk : Kept r0 s) :
    Kept r0 (State.dropInbound s pk) := by
  unfold State.dropInbound
  repeat' first
    | with_reducible assumption
    | with_reducible apply State.setPort_kept
    | split
    | with_reducible apply Kept.foldl
    | intro _ _ _
    | intro _ _
    | with_reducible exact Kept.refl _
    | with_reducible apply Kept.useFree
    | (refine Kept.other (s := ?_) ?_ ?_; rotate_left 2; (dsimp only; with_reducible rfl))
    | (refine Kept.fresh (s := ?_) ?_ 1 ?_; rotate_left 2; (dsimp only; with_reducible rfl))

theorem State.fecFail_kept {r0 s : State} (p : Nat) (hk : Kept r0 s) :
    Kept r0 (State.fecFail s p) := by
  unfold State.fecFail
  repeat' first
    | with_reducible assumption
    | with_reducible apply State.setPort_kept
    | with_reducible apply State.sendNak_kept
    | with_reducible apply State.inc_kept
    | split
    | with_reducible apply Kept.foldl
    | intro _ _ _
    | intro _ _
    | with_reducible exact Kept.refl _
    | with_reducible apply Kept.useFree
    | (refine Kept.other (s := ?_) ?_ ?_; rotate_left 2; (dsimp only; with_reducible rfl))
    | (refine Kept.fresh (s := ?_) ?_ 1 ?_; rotate_left 2; (dsimp only; with_reducible rfl))

theorem State.tagFail_kept {r0 s : State} (p : Nat) (hk : Kept r0 s) :
    Kept r0 (State.tagFail s p) := by
  unfold State.tagFail
  repeat' first
    | with_reducible assumption
    | with_reducible apply State.inc_kept
    | with_reducible apply State.setPort_kept
    | with_reducible apply State.linkLost_kept
    | with_reducible apply State.sendNak_kept
    | split
    | with_reducible apply Kept.foldl
    | intro _ _ _
    | intro _ _
    | with_reducible exact Kept.refl _
    | with_reducible apply Kept.useFree
    | (refine Kept.other (s := ?_) ?_ ?_; rotate_left 2; (dsimp only; with_reducible rfl))
    | (refine Kept.fresh (s := ?_) ?_ 1 ?_; rotate_left 2; (dsimp only; with_reducible rfl))

theorem State.nakResend_kept {r0 s : State} (p : Nat) (ack : Nat) (hk : Kept r0 s) :
    Kept r0 (State.nakResend s p ack) := by
  unfold State.nakResend
  repeat' first
    | with_reducible assumption
    | with_reducible apply State.resendAll_kept
    | with_reducible apply State.takeAck_kept
    | split
    | with_reducible apply Kept.foldl
    | intro _ _ _
    | intro _ _
    | with_reducible exact Kept.refl _
    | with_reducible apply Kept.useFree
    | (refine Kept.other (s := ?_) ?_ ?_; rotate_left 2; (dsimp only; with_reducible rfl))
    | (refine Kept.fresh (s := ?_) ?_ 1 ?_; rotate_left 2; (dsimp only; with_reducible rfl))

theorem State.takeHeader_kept {r0 s : State} (p : Nat) (f : Flit) (hk : Kept r0 s) :
    Kept r0 (State.takeHeader s p f) := by
  unfold State.takeHeader
  repeat' first
    | with_reducible assumption
    | with_reducible apply State.takeAck_kept
    | with_reducible apply State.setPort_kept
    | split
    | with_reducible apply Kept.foldl
    | intro _ _ _
    | intro _ _
    | with_reducible exact Kept.refl _
    | with_reducible apply Kept.useFree
    | (refine Kept.other (s := ?_) ?_ ?_; rotate_left 2; (dsimp only; with_reducible rfl))
    | (refine Kept.fresh (s := ?_) ?_ 1 ?_; rotate_left 2; (dsimp only; with_reducible rfl))

theorem State.flitIn_kept {r0 s : State} (p : Nat) (f : Flit) (fec : EccOutcome) (tagOk : Bool) (hk : Kept r0 s) :
    Kept r0 (State.flitIn s p f fec tagOk) := by
  unfold State.flitIn
  repeat' first
    | with_reducible assumption
    | with_reducible apply State.fecFail_kept
    | with_reducible apply State.inc_kept
    | with_reducible apply State.tagFail_kept
    | with_reducible apply State.nakResend_kept
    | with_reducible apply State.takeHeader_kept
    | with_reducible apply State.answerFlit_kept
    | with_reducible apply State.acceptFlit_kept
    | with_reducible apply State.takeAck_kept
    | split
    | with_reducible apply Kept.foldl
    | intro _ _ _
    | intro _ _
    | with_reducible exact Kept.refl _
    | with_reducible apply Kept.useFree
    | (refine Kept.other (s := ?_) ?_ ?_; rotate_left 2; (dsimp only; with_reducible rfl))
    | (refine Kept.fresh (s := ?_) ?_ 1 ?_; rotate_left 2; (dsimp only; with_reducible rfl))

theorem State.keyChange_kept {r0 s : State} (p : Nat) (hk : Kept r0 s) :
    Kept r0 (State.keyChange s p) := by
  unfold State.keyChange
  repeat' first
    | with_reducible assumption
    | with_reducible apply State.sendCtl_kept
    | split
    | with_reducible apply Kept.foldl
    | intro _ _ _
    | intro _ _
    | with_reducible exact Kept.refl _
    | with_reducible apply Kept.useFree
    | (refine Kept.other (s := ?_) ?_ ?_; rotate_left 2; (dsimp only; with_reducible rfl))
    | (refine Kept.fresh (s := ?_) ?_ 1 ?_; rotate_left 2; (dsimp only; with_reducible rfl))

theorem State.keyExchange_kept {r0 s : State} (p : Nat) (ok : Bool) (hk : Kept r0 s) :
    Kept r0 (State.keyExchange s p ok) := by
  unfold State.keyExchange
  repeat' first
    | with_reducible assumption
    | with_reducible apply State.sendOut_kept
    | with_reducible apply State.setPort_kept
    | with_reducible apply State.linkLost_kept
    | split
    | with_reducible apply Kept.foldl
    | intro _ _ _
    | intro _ _
    | with_reducible exact Kept.refl _
    | with_reducible apply Kept.useFree
    | (refine Kept.other (s := ?_) ?_ ?_; rotate_left 2; (dsimp only; with_reducible rfl))
    | (refine Kept.fresh (s := ?_) ?_ 1 ?_; rotate_left 2; (dsimp only; with_reducible rfl))

theorem State.linkRekey_kept {r0 s : State} (p : Nat) (hk : Kept r0 s) :
    Kept r0 (State.linkRekey s p) := by
  unfold State.linkRekey
  repeat' first
    | with_reducible assumption
    | with_reducible apply State.keyChange_kept
    | split
    | with_reducible apply Kept.foldl
    | intro _ _ _
    | intro _ _
    | with_reducible exact Kept.refl _
    | with_reducible apply Kept.useFree
    | (refine Kept.other (s := ?_) ?_ ?_; rotate_left 2; (dsimp only; with_reducible rfl))
    | (refine Kept.fresh (s := ?_) ?_ 1 ?_; rotate_left 2; (dsimp only; with_reducible rfl))

theorem State.sendDiscovery_kept {r0 s : State} (p : Nat) (hk : Kept r0 s) :
    Kept r0 (State.sendDiscovery s p) := by
  unfold State.sendDiscovery
  repeat' first
    | with_reducible assumption
    | with_reducible apply State.sendCtl_kept
    | split
    | with_reducible apply Kept.foldl
    | intro _ _ _
    | intro _ _
    | with_reducible exact Kept.refl _
    | with_reducible apply Kept.useFree
    | (refine Kept.other (s := ?_) ?_ ?_; rotate_left 2; (dsimp only; with_reducible rfl))
    | (refine Kept.fresh (s := ?_) ?_ 1 ?_; rotate_left 2; (dsimp only; with_reducible rfl))

theorem State.linkTrained_kept {r0 s : State} (p : Nat) (lanes : Nat) (hk : Kept r0 s) :
    Kept r0 (State.linkTrained s p lanes) := by
  unfold State.linkTrained
  repeat' first
    | with_reducible assumption
    | with_reducible apply State.sendDiscovery_kept
    | with_reducible apply State.linkUp_kept
    | with_reducible apply State.linkLost_kept
    | split
    | with_reducible apply Kept.foldl
    | intro _ _ _
    | intro _ _
    | with_reducible exact Kept.refl _
    | with_reducible apply Kept.useFree
    | (refine Kept.other (s := ?_) ?_ ?_; rotate_left 2; (dsimp only; with_reducible rfl))
    | (refine Kept.fresh (s := ?_) ?_ 1 ?_; rotate_left 2; (dsimp only; with_reducible rfl))

theorem State.managementIn_kept {r0 s : State} (pk : Packet) (hk : Kept r0 s) :
    Kept r0 (State.managementIn s pk) := by
  unfold State.managementIn
  repeat' first
    | with_reducible assumption
    | with_reducible apply State.partnerCleared_kept
    | with_reducible apply State.queuePacket_kept
    | with_reducible apply State.learnIdentity_kept
    | with_reducible apply State.deliver_kept
    | split
    | with_reducible apply Kept.foldl
    | intro _ _ _
    | intro _ _
    | with_reducible exact Kept.refl _
    | with_reducible apply Kept.useFree
    | (refine Kept.other (s := ?_) ?_ ?_; rotate_left 2; (dsimp only; with_reducible rfl))
    | (refine Kept.fresh (s := ?_) ?_ 1 ?_; rotate_left 2; (dsimp only; with_reducible rfl))

theorem State.packetIn_kept {r0 s : State} (pk : Packet) (hk : Kept r0 s) :
    Kept r0 (State.packetIn s pk) := by
  unfold State.packetIn
  repeat' first
    | with_reducible assumption
    | with_reducible apply State.dropInbound_kept
    | with_reducible apply State.sendOn_kept
    | with_reducible apply State.setChannel_kept
    | with_reducible apply State.acknowledge_kept
    | with_reducible apply State.managementIn_kept
    | with_reducible apply State.pieceIn_kept
    | with_reducible apply State.captureRefused_kept
    | with_reducible apply State.deliver_kept
    | split
    | with_reducible apply Kept.foldl
    | intro _ _ _
    | intro _ _
    | with_reducible exact Kept.refl _
    | with_reducible apply Kept.useFree
    | (refine Kept.other (s := ?_) ?_ ?_; rotate_left 2; (dsimp only; with_reducible rfl))
    | (refine Kept.fresh (s := ?_) ?_ 1 ?_; rotate_left 2; (dsimp only; with_reducible rfl))

theorem State.packetSend_kept {r0 s : State} (pk : Packet) (hk : Kept r0 s) :
    Kept r0 (State.packetSend s pk) := by
  unfold State.packetSend
  repeat' first
    | with_reducible assumption
    | with_reducible apply State.haltCtx_kept
    | with_reducible apply State.sendOn_kept
    | with_reducible apply State.setChannel_kept
    | with_reducible apply State.remotePutSent_kept
    | split
    | with_reducible apply Kept.foldl
    | intro _ _ _
    | intro _ _
    | with_reducible exact Kept.refl _
    | with_reducible apply Kept.useFree
    | (refine Kept.other (s := ?_) ?_ ?_; rotate_left 2; (dsimp only; with_reducible rfl))
    | (refine Kept.fresh (s := ?_) ?_ 1 ?_; rotate_left 2; (dsimp only; with_reducible rfl))

theorem State.writeRoute_kept {r0 s : State} (dest : Nat) (v : Nat) (hk : Kept r0 s) :
    Kept r0 (State.writeRoute s dest v) := by
  unfold State.writeRoute
  repeat' first
    | with_reducible assumption
    | with_reducible apply State.wr_kept
    | with_reducible apply State.channelsDown_kept
    | split
    | with_reducible apply Kept.foldl
    | intro _ _ _
    | intro _ _
    | with_reducible exact Kept.refl _
    | with_reducible apply Kept.useFree
    | (refine Kept.other (s := ?_) ?_ ?_; rotate_left 2; (dsimp only; with_reducible rfl))
    | (refine Kept.fresh (s := ?_) ?_ 1 ?_; rotate_left 2; (dsimp only; with_reducible rfl))

theorem State.resendTimeout_kept {r0 s : State} (k : ChannelKey) (n : BitVec 32) (hk : Kept r0 s) :
    Kept r0 (State.resendTimeout s k n) := by
  unfold State.resendTimeout
  repeat' first
    | with_reducible assumption
    | with_reducible apply State.channelDown_kept
    | with_reducible apply State.setChannel_kept
    | with_reducible apply State.sendOn_kept
    | split
    | with_reducible apply Kept.foldl
    | intro _ _ _
    | intro _ _
    | with_reducible exact Kept.refl _
    | with_reducible apply Kept.useFree
    | (refine Kept.other (s := ?_) ?_ ?_; rotate_left 2; (dsimp only; with_reducible rfl))
    | (refine Kept.fresh (s := ?_) ?_ 1 ?_; rotate_left 2; (dsimp only; with_reducible rfl))

theorem State.retrainDone_kept {r0 s : State} (p : Nat) (lanes : Nat) (hk : Kept r0 s) :
    Kept r0 (State.retrainDone s p lanes) := by
  unfold State.retrainDone
  repeat' first
    | with_reducible assumption
    | with_reducible apply State.linkGoesOn_kept
    | with_reducible apply State.linkUp_kept
    | with_reducible apply State.setPort_kept
    | with_reducible apply State.linkLost_kept
    | with_reducible apply State.countRetrain_kept
    | split
    | with_reducible apply Kept.foldl
    | intro _ _ _
    | intro _ _
    | with_reducible exact Kept.refl _
    | with_reducible apply Kept.useFree
    | (refine Kept.other (s := ?_) ?_ ?_; rotate_left 2; (dsimp only; with_reducible rfl))
    | (refine Kept.fresh (s := ?_) ?_ 1 ?_; rotate_left 2; (dsimp only; with_reducible rfl))

theorem State.startRetrain_kept {r0 s : State} (p : Nat) (cause : RetrainCause) (hk : Kept r0 s) :
    Kept r0 (State.startRetrain s p cause) := by
  unfold State.startRetrain
  repeat' first
    | with_reducible assumption
    | with_reducible apply State.countRetrain_kept
    | with_reducible apply State.wr_kept
    | with_reducible apply State.setLink_kept
    | with_reducible apply State.setPort_kept
    | split
    | with_reducible apply Kept.foldl
    | intro _ _ _
    | intro _ _
    | with_reducible exact Kept.refl _
    | with_reducible apply Kept.useFree
    | (refine Kept.other (s := ?_) ?_ ?_; rotate_left 2; (dsimp only; with_reducible rfl))
    | (refine Kept.fresh (s := ?_) ?_ 1 ?_; rotate_left 2; (dsimp only; with_reducible rfl))

theorem State.captureStart_kept {r0 s : State} (x : CtxId) (good : Bool) (hk : Kept r0 s) :
    Kept r0 (State.captureStart s x good) := by
  unfold State.captureStart
  repeat' first
    | with_reducible assumption
    | with_reducible apply State.haltCtx_kept
    | with_reducible apply State.setCtx_kept
    | with_reducible apply State.dataFault_kept
    | with_reducible apply State.poisonFault_kept
    | with_reducible apply State.queueBodies_kept
    | split
    | with_reducible apply Kept.foldl
    | intro _ _ _
    | intro _ _
    | with_reducible exact Kept.refl _
    | with_reducible apply Kept.useFree
    | (refine Kept.other (s := ?_) ?_ ?_; rotate_left 2; (dsimp only; with_reducible rfl))
    | (refine Kept.fresh (s := ?_) ?_ 1 ?_; rotate_left 2; (dsimp only; with_reducible rfl))

theorem State.traceClose_kept {r0 s : State} (x : Nat) (o : OpenStep) (hk : Kept r0 s) :
    Kept r0 (State.traceClose s x o) := by
  unfold State.traceClose
  repeat' first
    | with_reducible assumption
    | with_reducible apply State.traceStore_kept
    | split
    | with_reducible apply Kept.foldl
    | intro _ _ _
    | intro _ _
    | with_reducible exact Kept.refl _
    | with_reducible apply Kept.useFree
    | (refine Kept.other (s := ?_) ?_ ?_; rotate_left 2; (dsimp only; with_reducible rfl))
    | (refine Kept.fresh (s := ?_) ?_ 1 ?_; rotate_left 2; (dsimp only; with_reducible rfl))

theorem State.scaleCommit_kept {r0 s : State} (x : Nat) (hk : Kept r0 s) :
    Kept r0 (State.scaleCommit s x) := by
  unfold State.scaleCommit
  repeat' first
    | with_reducible assumption
    | with_reducible apply State.wr_kept
    | split
    | with_reducible apply Kept.foldl
    | intro _ _ _
    | intro _ _
    | with_reducible exact Kept.refl _
    | with_reducible apply Kept.useFree
    | (refine Kept.other (s := ?_) ?_ ?_; rotate_left 2; (dsimp only; with_reducible rfl))
    | (refine Kept.fresh (s := ?_) ?_ 1 ?_; rotate_left 2; (dsimp only; with_reducible rfl))

theorem State.snapshot_kept {r0 s : State} (x : Nat) (hk : Kept r0 s) :
    Kept r0 (State.snapshot s x) := by
  unfold State.snapshot
  repeat' first
    | with_reducible assumption
    | with_reducible apply State.store_kept
    | split
    | with_reducible apply Kept.foldl
    | intro _ _ _
    | intro _ _
    | with_reducible exact Kept.refl _
    | with_reducible apply Kept.useFree
    | (refine Kept.other (s := ?_) ?_ ?_; rotate_left 2; (dsimp only; with_reducible rfl))
    | (refine Kept.fresh (s := ?_) ?_ 1 ?_; rotate_left 2; (dsimp only; with_reducible rfl))

theorem State.recWrite_kept {r0 s : State} (x : Nat) (off : Nat) (n : Nat) (v : Nat) (hk : Kept r0 s) :
    Kept r0 (State.recWrite s x off n v) := by
  unfold State.recWrite
  repeat' first
    | with_reducible assumption
    | with_reducible apply State.store_kept
    | split
    | with_reducible apply Kept.foldl
    | intro _ _ _
    | intro _ _
    | with_reducible exact Kept.refl _
    | with_reducible apply Kept.useFree
    | (refine Kept.other (s := ?_) ?_ ?_; rotate_left 2; (dsimp only; with_reducible rfl))
    | (refine Kept.fresh (s := ?_) ?_ 1 ?_; rotate_left 2; (dsimp only; with_reducible rfl))

theorem State.commitStep_kept {r0 s : State} (x : Nat) (o : OpenStep) (hk : Kept r0 s) :
    Kept r0 (State.commitStep s x o) := by
  unfold State.commitStep
  repeat' first
    | with_reducible assumption
    | with_reducible apply State.traceClose_kept
    | with_reducible apply State.dropChanter_kept
    | with_reducible apply State.scaleCommit_kept
    | with_reducible apply State.wr_kept
    | with_reducible apply State.exchCommit_kept
    | with_reducible apply State.snapshot_kept
    | with_reducible apply State.setCtx_kept
    | with_reducible apply State.recWrite_kept
    | with_reducible apply State.haltCtx_kept
    | split
    | with_reducible apply Kept.foldl
    | intro _ _ _
    | intro _ _
    | with_reducible exact Kept.refl _
    | with_reducible apply Kept.useFree
    | (refine Kept.other (s := ?_) ?_ ?_; rotate_left 2; (dsimp only; with_reducible rfl))
    | (refine Kept.fresh (s := ?_) ?_ 1 ?_; rotate_left 2; (dsimp only; with_reducible rfl))

theorem State.waitingCommits_kept {r0 s : State} (x : Nat) (hk : Kept r0 s) :
    Kept r0 (State.waitingCommits s x) := by
  unfold State.waitingCommits
  repeat' first
    | with_reducible assumption
    | with_reducible apply State.finishTickets_kept
    | with_reducible apply State.commitStep_kept
    | with_reducible apply State.setCtx_kept
    | with_reducible apply State.post_kept
    | split
    | with_reducible apply Kept.foldl
    | intro _ _ _
    | intro _ _
    | with_reducible exact Kept.refl _
    | with_reducible apply Kept.useFree
    | (refine Kept.other (s := ?_) ?_ ?_; rotate_left 2; (dsimp only; with_reducible rfl))
    | (refine Kept.fresh (s := ?_) ?_ 1 ?_; rotate_left 2; (dsimp only; with_reducible rfl))

theorem State.setGate_kept {r0 s : State} (x : Nat) (st : Nat) (reason : Nat) (o : OpenStep) (hk : Kept r0 s) :
    Kept r0 (State.setGate s x st reason o) := by
  unfold State.setGate
  repeat' first
    | with_reducible assumption
    | with_reducible apply State.wr_kept
    | with_reducible apply State.setCtx_kept
    | split
    | with_reducible apply Kept.foldl
    | intro _ _ _
    | intro _ _
    | with_reducible exact Kept.refl _
    | with_reducible apply Kept.useFree
    | (refine Kept.other (s := ?_) ?_ ?_; rotate_left 2; (dsimp only; with_reducible rfl))
    | (refine Kept.fresh (s := ?_) ?_ 1 ?_; rotate_left 2; (dsimp only; with_reducible rfl))

theorem State.writeCounters_kept {r0 s : State} (x : Nat) (o : OpenStep) (hk : Kept r0 s) :
    Kept r0 (State.writeCounters s x o) := by
  unfold State.writeCounters
  repeat' first
    | with_reducible assumption
    | with_reducible apply State.store_kept
    | split
    | with_reducible apply Kept.foldl
    | intro _ _ _
    | intro _ _
    | with_reducible exact Kept.refl _
    | with_reducible apply Kept.useFree
    | (refine Kept.other (s := ?_) ?_ ?_; rotate_left 2; (dsimp only; with_reducible rfl))
    | (refine Kept.fresh (s := ?_) ?_ 1 ?_; rotate_left 2; (dsimp only; with_reducible rfl))

theorem State.writeGate_kept {r0 s : State} (x : Nat) (o : OpenStep) (gate : Nat) (reason : Nat) (t : Option Summary) (hk : Kept r0 s) :
    Kept r0 (State.writeGate s x o gate reason t) := by
  unfold State.writeGate
  repeat' first
    | with_reducible assumption
    | with_reducible apply State.recWrite_kept
    | with_reducible apply State.writeCounters_kept
    | split
    | with_reducible apply Kept.foldl
    | intro _ _ _
    | intro _ _
    | with_reducible exact Kept.refl _
    | with_reducible apply Kept.useFree
    | (refine Kept.other (s := ?_) ?_ ?_; rotate_left 2; (dsimp only; with_reducible rfl))
    | (refine Kept.fresh (s := ?_) ?_ 1 ?_; rotate_left 2; (dsimp only; with_reducible rfl))

theorem State.gateHalt_kept {r0 s : State} (x : Nat) (o : OpenStep) (code : Nat) (hk : Kept r0 s) :
    Kept r0 (State.gateHalt s x o code) := by
  unfold State.gateHalt
  repeat' first
    | with_reducible assumption
    | with_reducible apply State.abortAttempt_kept
    | with_reducible apply State.waitingCommits_kept
    | with_reducible apply State.dropFormed_kept
    | with_reducible apply State.setGate_kept
    | with_reducible apply State.writeGate_kept
    | split
    | with_reducible apply Kept.foldl
    | intro _ _ _
    | intro _ _
    | with_reducible exact Kept.refl _
    | with_reducible apply Kept.useFree
    | (refine Kept.other (s := ?_) ?_ ?_; rotate_left 2; (dsimp only; with_reducible rfl))
    | (refine Kept.fresh (s := ?_) ?_ 1 ?_; rotate_left 2; (dsimp only; with_reducible rfl))

theorem State.gateRepeat_kept {r0 s : State} (x : Nat) (o : OpenStep) (code : Nat) (hk : Kept r0 s) :
    Kept r0 (State.gateRepeat s x o code) := by
  unfold State.gateRepeat
  repeat' first
    | with_reducible assumption
    | with_reducible apply State.abortAttempt_kept
    | with_reducible apply State.waitingCommits_kept
    | with_reducible apply State.exchRepeat_kept
    | with_reducible apply State.setGate_kept
    | with_reducible apply State.writeGate_kept
    | split
    | with_reducible apply Kept.foldl
    | intro _ _ _
    | intro _ _
    | with_reducible exact Kept.refl _
    | with_reducible apply Kept.useFree
    | (refine Kept.other (s := ?_) ?_ ?_; rotate_left 2; (dsimp only; with_reducible rfl))
    | (refine Kept.fresh (s := ?_) ?_ 1 ?_; rotate_left 2; (dsimp only; with_reducible rfl))

theorem State.scaleSkip_kept {r0 s : State} (x : Nat) (hk : Kept r0 s) : Kept r0 (s.scaleSkip x).1 := by
  unfold State.scaleSkip
  simp only
  split
  · exact State.wr_kept _ _ _ (State.wr_kept _ _ _ (State.wr_kept _ _ _ hk))
  · split <;> exact State.wr_kept _ _ _ (State.wr_kept _ _ _ hk)
theorem State.gateOpen_kept {r0 s : State} (x : Nat) (o : OpenStep) (t : Summary) (hk : Kept r0 s) :
    Kept r0 (State.gateOpen s x o t) := by
  have h0 := State.wr_kept (Reg.ctx x) Reg.CTX_JOB_RISK t.risk.toNat hk
  refine Kept.ite ?_ ?_
  · exact State.waitingCommits_kept _ (State.signalDone_kept _ (State.dropFormed_kept _ (State.setGate_kept _ _ _ _
      (State.writeGate_kept _ _ _ _ _ (State.scaleSkip_kept _ h0)))))
  · exact State.waitingCommits_kept _ (State.takeEarlyChunks_kept _ (State.signalDone_kept _ (State.setGate_kept _ _ _ _
      (State.writeGate_kept _ _ _ _ _ h0))))

theorem State.gateDecide_kept {r0 s : State} (x : Nat) (drained : Bool) (hk : Kept r0 s) :
    Kept r0 (State.gateDecide s x drained) := by
  unfold State.gateDecide
  repeat' first
    | with_reducible assumption
    | with_reducible apply State.gateHalt_kept
    | with_reducible apply State.gateRepeat_kept
    | with_reducible apply State.gateOpen_kept
    | split
    | with_reducible apply Kept.foldl
    | intro _ _ _
    | intro _ _
    | with_reducible exact Kept.refl _
    | with_reducible apply Kept.useFree
    | (refine Kept.other (s := ?_) ?_ ?_; rotate_left 2; (dsimp only; with_reducible rfl))
    | (refine Kept.fresh (s := ?_) ?_ 1 ?_; rotate_left 2; (dsimp only; with_reducible rfl))

theorem State.traceOpen_kept {r0 s : State} (x : Nat) (o : OpenStep) (hk : Kept r0 s) :
    Kept r0 (State.traceOpen s x o) := by
  unfold State.traceOpen
  repeat' first
    | with_reducible assumption
    | with_reducible apply State.traceStore_kept
    | split
    | with_reducible apply Kept.foldl
    | intro _ _ _
    | intro _ _
    | with_reducible exact Kept.refl _
    | with_reducible apply Kept.useFree
    | (refine Kept.other (s := ?_) ?_ ?_; rotate_left 2; (dsimp only; with_reducible rfl))
    | (refine Kept.fresh (s := ?_) ?_ 1 ?_; rotate_left 2; (dsimp only; with_reducible rfl))

theorem State.openStep_kept {r0 s : State} (x : Nat) (pos : Word) (next : Word) (flags : BitVec 5) (hk : Kept r0 s) :
    Kept r0 (State.openStep s x pos next flags) := by
  unfold State.openStep
  repeat' first
    | with_reducible assumption
    | with_reducible apply State.setCtx_kept
    | with_reducible apply State.wr_kept
    | with_reducible apply State.store_kept
    | with_reducible apply State.takeEarly_kept
    | with_reducible apply State.traceOpen_kept
    | split
    | with_reducible apply Kept.foldl
    | intro _ _ _
    | intro _ _
    | with_reducible exact Kept.refl _
    | with_reducible apply Kept.useFree
    | (refine Kept.other (s := ?_) ?_ ?_; rotate_left 2; (dsimp only; with_reducible rfl))
    | (refine Kept.fresh (s := ?_) ?_ 1 ?_; rotate_left 2; (dsimp only; with_reducible rfl))

theorem State.replay_kept {r0 s : State} (e : Entry) (run : List ReplayEvent) (hk : Kept r0 s) :
    Kept r0 (State.replay s e run) := by
  unfold State.replay
  repeat' first
    | with_reducible assumption
    | with_reducible apply State.done_kept
    | with_reducible apply State.post_kept
    | split
    | with_reducible apply Kept.foldl
    | intro _ _ _
    | intro _ _
    | with_reducible exact Kept.refl _
    | with_reducible apply Kept.useFree
    | (refine Kept.other (s := ?_) ?_ ?_; rotate_left 2; (dsimp only; with_reducible rfl))
    | (refine Kept.fresh (s := ?_) ?_ 1 ?_; rotate_left 2; (dsimp only; with_reducible rfl))

theorem State.replayArm_kept {r0 s : State} (e : Entry) (hk : Kept r0 s) :
    Kept r0 (State.replayArm s e) := by
  unfold State.replayArm
  repeat' first
    | with_reducible assumption
    | with_reducible apply State.done_kept
    | with_reducible apply State.setCtx_kept
    | split
    | with_reducible apply Kept.foldl
    | intro _ _ _
    | intro _ _
    | with_reducible exact Kept.refl _
    | with_reducible apply Kept.useFree
    | (refine Kept.other (s := ?_) ?_ ?_; rotate_left 2; (dsimp only; with_reducible rfl))
    | (refine Kept.fresh (s := ?_) ?_ 1 ?_; rotate_left 2; (dsimp only; with_reducible rfl))

theorem State.writeBlock_kept {r0 s : State} (x : Nat) (l1 : List Field) (l2 : List Nat) (hk : Kept r0 s) :
    Kept r0 (State.writeBlock s x l1 l2) := by
  induction l1 generalizing s l2 with
  | nil => unfold State.writeBlock; exact hk
  | cons f fs ih => cases l2 with
    | nil => unfold State.writeBlock; exact hk
    | cons v vs => exact ih _ (State.wr_kept _ _ _ hk)

theorem State.replayView_kept {r0 s : State} (x : Nat) (c : Checkpoint) (named : List Nat) (bays : List Nat) (hk : Kept r0 s) :
    Kept r0 (State.replayView s x c named bays) := by
  unfold State.replayView
  repeat' first
    | with_reducible assumption
    | with_reducible apply State.wr_kept
    | with_reducible apply State.writeBlock_kept
    | with_reducible apply State.store_kept
    | with_reducible apply State.setCtx_kept
    | with_reducible apply State.startPending_kept
    | split
    | with_reducible apply Kept.foldl
    | intro _ _ _
    | intro _ _
    | with_reducible exact Kept.refl _
    | with_reducible apply Kept.useFree
    | (refine Kept.other (s := ?_) ?_ ?_; rotate_left 2; (dsimp only; with_reducible rfl))
    | (refine Kept.fresh (s := ?_) ?_ 1 ?_; rotate_left 2; (dsimp only; with_reducible rfl))

theorem State.restoreCkpt_kept {r0 s : State} (x : Nat) (c : Checkpoint) (hk : Kept r0 s) :
    Kept r0 (State.restoreCkpt s x c) := by
  unfold State.restoreCkpt
  repeat' first
    | with_reducible assumption
    | with_reducible apply State.store_kept
    | with_reducible apply State.wr_kept
    | with_reducible apply State.writeBlock_kept
    | with_reducible apply State.setCtx_kept
    | split
    | with_reducible apply Kept.foldl
    | intro _ _ _
    | intro _ _
    | with_reducible exact Kept.refl _
    | with_reducible apply Kept.useFree
    | (refine Kept.other (s := ?_) ?_ ?_; rotate_left 2; (dsimp only; with_reducible rfl))
    | (refine Kept.fresh (s := ?_) ?_ 1 ?_; rotate_left 2; (dsimp only; with_reducible rfl))

theorem State.restore_kept {r0 s : State} (e : Entry) (src : RestoreSource) (hk : Kept r0 s) :
    Kept r0 (State.restore s e src) := by
  unfold State.restore
  repeat' first
    | with_reducible assumption
    | with_reducible apply State.done_kept
    | with_reducible apply State.restoreCkpt_kept
    | split
    | with_reducible apply Kept.foldl
    | intro _ _ _
    | intro _ _
    | with_reducible exact Kept.refl _
    | with_reducible apply Kept.useFree
    | (refine Kept.other (s := ?_) ?_ ?_; rotate_left 2; (dsimp only; with_reducible rfl))
    | (refine Kept.fresh (s := ?_) ?_ 1 ?_; rotate_left 2; (dsimp only; with_reducible rfl))

theorem State.riskSample_kept {r0 s : State} (islands : Int) (hk : Kept r0 s) :
    Kept r0 (State.riskSample s islands) := by
  unfold State.riskSample
  repeat' first
    | with_reducible assumption
    | split
    | with_reducible apply Kept.foldl
    | intro _ _ _
    | intro _ _
    | with_reducible exact Kept.refl _
    | with_reducible apply Kept.useFree
    | (refine Kept.other (s := ?_) ?_ ?_; rotate_left 2; (dsimp only; with_reducible rfl))
    | (refine Kept.fresh (s := ?_) ?_ 1 ?_; rotate_left 2; (dsimp only; with_reducible rfl))

theorem State.writeDrain_kept {r0 s : State} (x : Nat) (hk : Kept r0 s) : Kept r0 (State.writeDrain s x) := by
  unfold State.writeDrain
  extract_lets k half
  have h1 := State.setCtx_kept x { k with drainHalf := 1 - k.drainHalf } (Kept.useFree 1 hk)
  clear_value half
  exact State.store_kept (.host (s.windowBase x)) _ _ _ h1

theorem State.secured_kept {r0 s : State} (x : CtxId) (hk : Kept r0 s) : Kept r0 (State.secured s x) := by
  unfold State.secured
  extract_lets k
  clear_value k
  split
  · split
    · extract_lets s0 s1
      refine Kept.ite hk ?_
      have h0 : Kept r0 s0 := State.wr_kept _ _ _ (State.setCtx_kept _ _ hk)
      have h1 : Kept r0 s1 := Kept.ite (State.writeDrain_kept _ h0) h0
      clear_value s1 s0
      exact Kept.other h1 rfl
    · exact hk
  · exact hk

theorem State.stepCommit_kept {r0 s : State} (e : Entry) (hk : Kept r0 s) :
    Kept r0 (State.stepCommit s e) := by
  unfold State.stepCommit
  repeat' first
    | with_reducible assumption
    | with_reducible apply State.done_kept
    | with_reducible apply State.hold_kept
    | with_reducible apply State.commitStep_kept
    | split
    | with_reducible apply Kept.foldl
    | intro _ _ _
    | intro _ _
    | with_reducible exact Kept.refl _
    | with_reducible apply Kept.useFree
    | (refine Kept.other (s := ?_) ?_ ?_; rotate_left 2; (dsimp only; with_reducible rfl))
    | (refine Kept.fresh (s := ?_) ?_ 1 ?_; rotate_left 2; (dsimp only; with_reducible rfl))

theorem State.stepOpen_kept {r0 s : State} (e : Entry) (hk : Kept r0 s) :
    Kept r0 (State.stepOpen s e) := by
  unfold State.stepOpen
  repeat' first
    | with_reducible assumption
    | with_reducible apply State.done_kept
    | with_reducible apply State.openStep_kept
    | split
    | with_reducible apply Kept.foldl
    | intro _ _ _
    | intro _ _
    | with_reducible exact Kept.refl _
    | with_reducible apply Kept.useFree
    | (refine Kept.other (s := ?_) ?_ ?_; rotate_left 2; (dsimp only; with_reducible rfl))
    | (refine Kept.fresh (s := ?_) ?_ 1 ?_; rotate_left 2; (dsimp only; with_reducible rfl))

end Sys2Proof.Machine
end

