-- ==== Sys2Proof/Laws/KeptDevice.lean ====
section
/-! SUPPORT. Kept for the operations of the Ledger, memory tiers, security, service and the host interface: one lemma each, for a composition of any of them. -/
namespace Sys2Proof.Machine
set_option linter.unusedTactic false
set_option linter.unreachableTactic false

theorem State.addGroup_kept {r0 s : State} (h : Nat) (rs : List LedgerRec) (hk : Kept r0 s) :
    Kept r0 (State.addGroup s h rs) := by
  unfold State.addGroup
  repeat' first
    | with_reducible assumption
    | split
    | with_reducible apply Kept.foldl
    | intro _ _ _
    | intro _ _
    | with_reducible exact Kept.refl _
    | with_reducible apply Kept.useFree
    | (refine Kept.other (s := ?_) ?_ ?_; rotate_left 2; (dsimp only; with_reducible rfl))
    | (refine Kept.fresh (s := ?_) ?_ 1 ?_; rotate_left 2; (dsimp only; with_reducible rfl))

theorem State.showFill_kept {r0 s : State}  (hk : Kept r0 s) :
    Kept r0 (State.showFill s) := by
  unfold State.showFill
  repeat' first
    | with_reducible assumption
    | with_reducible apply State.wr_kept
    | split
    | with_reducible apply Kept.foldl
    | intro _ _ _
    | intro _ _
    | with_reducible exact Kept.refl _
    | with_reducible apply Kept.useFree
    | (refine Kept.other (s := ?_) ?_ ?_; rotate_left 2; (dsimp only; with_reducible rfl))
    | (refine Kept.fresh (s := ?_) ?_ 1 ?_; rotate_left 2; (dsimp only; with_reducible rfl))

theorem State.ledgerAppend_kept {r0 s : State} (rs : List LedgerRec) (hk : Kept r0 s) :
    Kept r0 (State.ledgerAppend s rs) := by
  unfold State.ledgerAppend
  repeat' first
    | with_reducible assumption
    | with_reducible apply State.addGroup_kept
    | with_reducible apply State.showFill_kept
    | split
    | with_reducible apply Kept.foldl
    | intro _ _ _
    | intro _ _
    | with_reducible exact Kept.refl _
    | with_reducible apply Kept.useFree
    | (refine Kept.other (s := ?_) ?_ ?_; rotate_left 2; (dsimp only; with_reducible rfl))
    | (refine Kept.fresh (s := ?_) ?_ 1 ?_; rotate_left 2; (dsimp only; with_reducible rfl))

theorem State.addWear_kept {r0 s : State} (l1 : List Nat) (hk : Kept r0 s) :
    Kept r0 (State.addWear s l1) := by
  induction l1 generalizing s with
  | nil => exact hk
  | cons y l ih =>
    unfold State.addWear
    repeat' first
      | with_reducible assumption
      | with_reducible apply ih
      | with_reducible apply State.wr_kept
      | split
      | with_reducible apply Kept.foldl
      | intro _ _ _
      | intro _ _
      | with_reducible exact Kept.refl _
      | with_reducible apply Kept.useFree
      | (refine Kept.other (s := ?_) ?_ ?_; rotate_left 2; (dsimp only; with_reducible rfl))
      | (refine Kept.fresh (s := ?_) ?_ 1 ?_; rotate_left 2; (dsimp only; with_reducible rfl))

theorem State.setSlot_kept {r0 s : State} (n : Nat) (st : Nat) (head : Nat) (count : Nat) (hk : Kept r0 s) :
    Kept r0 (State.setSlot s n st head count) := by
  unfold State.setSlot
  repeat' first
    | with_reducible assumption
    | with_reducible apply State.wr_kept
    | split
    | with_reducible apply Kept.foldl
    | intro _ _ _
    | intro _ _
    | with_reducible exact Kept.refl _
    | with_reducible apply Kept.useFree
    | (refine Kept.other (s := ?_) ?_ ?_; rotate_left 2; (dsimp only; with_reducible rfl))
    | (refine Kept.fresh (s := ?_) ?_ 1 ?_; rotate_left 2; (dsimp only; with_reducible rfl))

theorem State.bumpPasses_kept {r0 s : State} (l1 : List Nat) (hk : Kept r0 s) :
    Kept r0 (State.bumpPasses s l1) := by
  induction l1 generalizing s with
  | nil => exact hk
  | cons y l ih =>
    unfold State.bumpPasses
    repeat' first
      | with_reducible assumption
      | with_reducible apply ih
      | with_reducible apply State.bump_kept
      | split
      | with_reducible apply Kept.foldl
      | intro _ _ _
      | intro _ _
      | with_reducible exact Kept.refl _
      | with_reducible apply Kept.useFree
      | (refine Kept.other (s := ?_) ?_ ?_; rotate_left 2; (dsimp only; with_reducible rfl))
      | (refine Kept.fresh (s := ?_) ?_ 1 ?_; rotate_left 2; (dsimp only; with_reducible rfl))

theorem State.captureReceive_kept {r0 s : State} (n : StoreId) (r : Capture) (hk : Kept r0 s) :
    Kept r0 (State.captureReceive s n r) := by
  unfold State.captureReceive
  extract_lets b half k grans i early s1
  have h1 : Kept r0 s1 := State.wr_kept _ _ _ (Kept.other hk rfl)
  clear_value s1
  split
  · exact State.queuePacket_kept _ _ _ _ (State.bump_kept _ _ _ hk)
  · exact Kept.foldl _ (fun _ _ h => State.deliver_kept _ h) h1

theorem State.slotChecked_kept {r0 s : State} (n : SlotId) (hk : Kept r0 s) :
    Kept r0 (State.slotChecked s n) := by
  unfold State.slotChecked
  repeat' first
    | with_reducible assumption
    | with_reducible apply State.objEnable_kept
    | split
    | with_reducible apply Kept.foldl
    | intro _ _ _
    | intro _ _
    | with_reducible exact Kept.refl _
    | with_reducible apply Kept.useFree
    | (refine Kept.other (s := ?_) ?_ ?_; rotate_left 2; (dsimp only; with_reducible rfl))
    | (refine Kept.fresh (s := ?_) ?_ 1 ?_; rotate_left 2; (dsimp only; with_reducible rfl))

theorem State.showTeacher_kept {r0 s : State} (m : List Byte) (l1 : List Nat) (hk : Kept r0 s) :
    Kept r0 (State.showTeacher s m l1) := by
  induction l1 generalizing s m with
  | nil => exact hk
  | cons y l ih =>
    unfold State.showTeacher
    repeat' first
      | with_reducible assumption
      | with_reducible apply ih
      | with_reducible apply State.wr_kept
      | split
      | with_reducible apply Kept.foldl
      | intro _ _ _
      | intro _ _
      | with_reducible exact Kept.refl _
      | with_reducible apply Kept.useFree
      | (refine Kept.other (s := ?_) ?_ ?_; rotate_left 2; (dsimp only; with_reducible rfl))
      | (refine Kept.fresh (s := ?_) ?_ 1 ?_; rotate_left 2; (dsimp only; with_reducible rfl))

theorem State.haltAll_kept {r0 s : State} (code : Nat) (l1 : List Nat) (hk : Kept r0 s) :
    Kept r0 (State.haltAll s code l1) := by
  induction l1 generalizing s code with
  | nil => exact hk
  | cons y l ih =>
    unfold State.haltAll
    repeat' first
      | with_reducible assumption
      | with_reducible apply ih
      | with_reducible apply State.haltCtx_kept
      | split
      | with_reducible apply Kept.foldl
      | intro _ _ _
      | intro _ _
      | with_reducible exact Kept.refl _
      | with_reducible apply Kept.useFree
      | (refine Kept.other (s := ?_) ?_ ?_; rotate_left 2; (dsimp only; with_reducible rfl))
      | (refine Kept.fresh (s := ?_) ?_ 1 ?_; rotate_left 2; (dsimp only; with_reducible rfl))

theorem State.setSlots_kept {r0 s : State} (st : Nat) (head : Nat) (count : Nat) (l1 : List Nat) (hk : Kept r0 s) :
    Kept r0 (State.setSlots s st head count l1) := by
  induction l1 generalizing s st head count with
  | nil => exact hk
  | cons y l ih =>
    unfold State.setSlots
    repeat' first
      | with_reducible assumption
      | with_reducible apply ih
      | with_reducible apply State.setSlot_kept
      | split
      | with_reducible apply Kept.foldl
      | intro _ _ _
      | intro _ _
      | with_reducible exact Kept.refl _
      | with_reducible apply Kept.useFree
      | (refine Kept.other (s := ?_) ?_ ?_; rotate_left 2; (dsimp only; with_reducible rfl))
      | (refine Kept.fresh (s := ?_) ?_ 1 ?_; rotate_left 2; (dsimp only; with_reducible rfl))

theorem State.dropInstall_kept {r0 s : State} (n : Nat) (hk : Kept r0 s) :
    Kept r0 (State.dropInstall s n) := by
  unfold State.dropInstall
  repeat' first
    | with_reducible assumption
    | split
    | with_reducible apply Kept.foldl
    | intro _ _ _
    | intro _ _
    | with_reducible exact Kept.refl _
    | with_reducible apply Kept.useFree
    | (refine Kept.other (s := ?_) ?_ ?_; rotate_left 2; (dsimp only; with_reducible rfl))
    | (refine Kept.fresh (s := ?_) ?_ 1 ?_; rotate_left 2; (dsimp only; with_reducible rfl))

theorem State.failInstall_kept {r0 s : State} (i : Install) (code : Nat) (hk : Kept r0 s) :
    Kept r0 (State.failInstall s i code) := by
  unfold State.failInstall
  repeat' first
    | with_reducible assumption
    | with_reducible apply State.wr_kept
    | with_reducible apply State.setSlots_kept
    | with_reducible apply State.dropInstall_kept
    | with_reducible apply State.post_kept
    | with_reducible apply State.ledger_kept
    | split
    | with_reducible apply Kept.foldl
    | intro _ _ _
    | intro _ _
    | with_reducible exact Kept.refl _
    | with_reducible apply Kept.useFree
    | (refine Kept.other (s := ?_) ?_ ?_; rotate_left 2; (dsimp only; with_reducible rfl))
    | (refine Kept.fresh (s := ?_) ?_ 1 ?_; rotate_left 2; (dsimp only; with_reducible rfl))

theorem State.decoderCommit_kept {r0 s : State} (w : Nat) (base : Nat) (size : Nat) (hk : Kept r0 s) :
    Kept r0 (State.decoderCommit s w base size) := by
  unfold State.decoderCommit
  repeat' first
    | with_reducible assumption
    | split
    | with_reducible apply Kept.foldl
    | intro _ _ _
    | intro _ _
    | with_reducible exact Kept.refl _
    | with_reducible apply Kept.useFree
    | (refine Kept.other (s := ?_) ?_ ?_; rotate_left 2; (dsimp only; with_reducible rfl))
    | (refine Kept.fresh (s := ?_) ?_ 1 ?_; rotate_left 2; (dsimp only; with_reducible rfl))

theorem State.dropCaptures_kept {r0 s : State} (l1 : List Nat) (hk : Kept r0 s) :
    Kept r0 (State.dropCaptures s l1) := by
  induction l1 generalizing s with
  | nil => exact hk
  | cons y l ih =>
    unfold State.dropCaptures
    repeat' first
      | with_reducible assumption
      | with_reducible apply ih
      | with_reducible apply State.dropTaken_kept
      | split
      | with_reducible apply Kept.foldl
      | intro _ _ _
      | intro _ _
      | with_reducible exact Kept.refl _
      | with_reducible apply Kept.useFree
      | (refine Kept.other (s := ?_) ?_ ?_; rotate_left 2; (dsimp only; with_reducible rfl))
      | (refine Kept.fresh (s := ?_) ?_ 1 ?_; rotate_left 2; (dsimp only; with_reducible rfl))

theorem State.hideTeacher_kept {r0 s : State} (l1 : List Nat) (hk : Kept r0 s) :
    Kept r0 (State.hideTeacher s l1) := by
  induction l1 generalizing s with
  | nil => exact hk
  | cons y l ih =>
    unfold State.hideTeacher
    repeat' first
      | with_reducible assumption
      | with_reducible apply ih
      | with_reducible apply State.resetFields_kept
      | split
      | with_reducible apply Kept.foldl
      | intro _ _ _
      | intro _ _
      | with_reducible exact Kept.refl _
      | with_reducible apply Kept.useFree
      | (refine Kept.other (s := ?_) ?_ ?_; rotate_left 2; (dsimp only; with_reducible rfl))
      | (refine Kept.fresh (s := ?_) ?_ 1 ?_; rotate_left 2; (dsimp only; with_reducible rfl))

theorem State.eraseDone_kept {r0 s : State} (n : Nat) (hk : Kept r0 s) : Kept r0 (State.eraseDone s n) := by
  unfold State.eraseDone
  split
  · exact hk
  · extract_lets slots s1
    have h1 : Kept r0 s1 := Kept.other (Kept.setNvw _ (memory_wf_mapClear _ _) hk) rfl
    clear_value s1
    exact State.post_kept _ _ _ _ _ (State.ledger_kept _ (State.setSlots_kept _ _ _ _ (State.hideTeacher_kept _ h1)))

theorem State.granuleRead_kept {r0 s : State} (a : Nat) (o : EccOutcome) (hk : Kept r0 s) : Kept r0 (State.granuleRead s a o) := by
  have h1 := fun f => State.inc_kept (Reg.safDram (stackOf a)) f hk
  cases o with
  | clean => exact hk
  | corrected => exact Kept.other (h1 Reg.DRAM_CE_COUNT) rfl
  | uncorrectable => exact Kept.setPoison _ _ (h1 Reg.DRAM_UE_COUNT)

theorem State.hostHolds_kept {r0 s : State} (x : Nat) (o : Nat) (n : Nat) (hk : Kept r0 s) :
    Kept r0 (State.hostHolds s x o n) := by
  unfold State.hostHolds
  repeat' first
    | with_reducible assumption
    | split
    | with_reducible apply Kept.foldl
    | intro _ _ _
    | intro _ _
    | with_reducible exact Kept.refl _
    | with_reducible apply Kept.useFree
    | (refine Kept.other (s := ?_) ?_ ?_; rotate_left 2; (dsimp only; with_reducible rfl))
    | (refine Kept.fresh (s := ?_) ?_ 1 ?_; rotate_left 2; (dsimp only; with_reducible rfl))

theorem State.hdmAccess_kept {r0 s : State} (p a : Nat) (h : HostAccess) (hk : Kept r0 s) :
    Kept r0 (State.hdmAccess s p a h) := by
  unfold State.hdmAccess
  repeat' first
    | with_reducible assumption
    | with_reducible apply State.bump_kept
    | with_reducible apply State.poisonFault_kept
    | with_reducible apply State.hostHolds_kept
    | with_reducible apply State.afterPoison_kept
    | with_reducible apply State.put_kept
    | split
    | with_reducible apply Kept.foldl
    | intro _ _ _
    | intro _ _
    | with_reducible exact Kept.refl _
    | with_reducible apply Kept.useFree
    | (refine Kept.other (s := ?_) ?_ ?_; rotate_left 2; (dsimp only; with_reducible rfl))
    | (refine Kept.fresh (s := ?_) ?_ 1 ?_; rotate_left 2; (dsimp only; with_reducible rfl))

theorem State.hdmDisable_kept {r0 s : State} (w : HdmId) (hk : Kept r0 s) :
    Kept r0 (State.hdmDisable s w) := by
  unfold State.hdmDisable
  repeat' first
    | with_reducible assumption
    | with_reducible apply State.cancelCheck_kept
    | with_reducible apply State.objDisable_kept
    | with_reducible apply State.recallWindow_kept
    | split
    | with_reducible apply Kept.foldl
    | intro _ _ _
    | intro _ _
    | with_reducible exact Kept.refl _
    | with_reducible apply Kept.useFree
    | (refine Kept.other (s := ?_) ?_ ?_; rotate_left 2; (dsimp only; with_reducible rfl))
    | (refine Kept.fresh (s := ?_) ?_ 1 ?_; rotate_left 2; (dsimp only; with_reducible rfl))

theorem State.hostStores_kept {r0 s : State} (l1 : List (Nat × Byte)) (hk : Kept r0 s) : Kept r0 (State.hostStores s l1) := by
  induction l1 generalizing s with
  | nil => exact hk
  | cons y l ih =>
    exact ih ⟨hk.pending, hk.nowUs, hk.free, hk.tier1, fun w => memory_wf_mapSet _ _ _ (hk.hostMem w), hk.nvw, hk.poison, hk.drone, hk.cores, hk.ctxs, hk.queues, hk.rings⟩

theorem State.showCeiling_kept {r0 s : State} (b : Nat) (hk : Kept r0 s) :
    Kept r0 (State.showCeiling s b) := by
  unfold State.showCeiling
  repeat' first
    | with_reducible assumption
    | with_reducible apply State.wr_kept
    | split
    | with_reducible apply Kept.foldl
    | intro _ _ _
    | intro _ _
    | with_reducible exact Kept.refl _
    | with_reducible apply Kept.useFree
    | (refine Kept.other (s := ?_) ?_ ?_; rotate_left 2; (dsimp only; with_reducible rfl))
    | (refine Kept.fresh (s := ?_) ?_ 1 ?_; rotate_left 2; (dsimp only; with_reducible rfl))

theorem State.setThermal_kept {r0 s : State} (source : Nat) (b : Nat) (v : Nat) (hk : Kept r0 s) :
    Kept r0 (State.setThermal s source b v) := by
  unfold State.setThermal
  repeat' first
    | with_reducible assumption
    | with_reducible apply State.showCeiling_kept
    | split
    | with_reducible apply Kept.foldl
    | intro _ _ _
    | intro _ _
    | with_reducible exact Kept.refl _
    | with_reducible apply Kept.useFree
    | (refine Kept.other (s := ?_) ?_ ?_; rotate_left 2; (dsimp only; with_reducible rfl))
    | (refine Kept.fresh (s := ?_) ?_ 1 ?_; rotate_left 2; (dsimp only; with_reducible rfl))

theorem State.lowerThermal_kept {r0 s : State} (source : Nat) (l1 : List Nat) (hk : Kept r0 s) :
    Kept r0 (State.lowerThermal s source l1) := by
  induction l1 generalizing s source with
  | nil => exact hk
  | cons y l ih =>
    unfold State.lowerThermal
    repeat' first
      | with_reducible assumption
      | with_reducible apply ih
      | with_reducible apply State.setThermal_kept
      | split
      | with_reducible apply Kept.foldl
      | intro _ _ _
      | intro _ _
      | with_reducible exact Kept.refl _
      | with_reducible apply Kept.useFree
      | (refine Kept.other (s := ?_) ?_ ?_; rotate_left 2; (dsimp only; with_reducible rfl))
      | (refine Kept.fresh (s := ?_) ?_ 1 ?_; rotate_left 2; (dsimp only; with_reducible rfl))

theorem State.patrolRead_kept {r0 s : State} (a : Nat) (o : EccOutcome) (raced : Bool) (hk : Kept r0 s) :
    Kept r0 (State.patrolRead s a o raced) := by
  unfold State.patrolRead
  repeat' first
    | with_reducible assumption
    | with_reducible apply State.renewTag_kept
    | with_reducible apply State.granuleRead_kept
    | with_reducible apply State.inc_kept
    | split
    | with_reducible apply Kept.foldl
    | intro _ _ _
    | intro _ _
    | with_reducible exact Kept.refl _
    | with_reducible apply Kept.useFree
    | (refine Kept.other (s := ?_) ?_ ?_; rotate_left 2; (dsimp only; with_reducible rfl))
    | (refine Kept.fresh (s := ?_) ?_ 1 ?_; rotate_left 2; (dsimp only; with_reducible rfl))

theorem State.raiseThermal_kept {r0 s : State} (source : Nat) (l1 : List Nat) (hk : Kept r0 s) :
    Kept r0 (State.raiseThermal s source l1) := by
  induction l1 generalizing s source with
  | nil => exact hk
  | cons y l ih =>
    unfold State.raiseThermal
    repeat' first
      | with_reducible assumption
      | with_reducible apply ih
      | with_reducible apply State.setThermal_kept
      | split
      | with_reducible apply Kept.foldl
      | intro _ _ _
      | intro _ _
      | with_reducible exact Kept.refl _
      | with_reducible apply Kept.useFree
      | (refine Kept.other (s := ?_) ?_ ?_; rotate_left 2; (dsimp only; with_reducible rfl))
      | (refine Kept.fresh (s := ?_) ?_ 1 ?_; rotate_left 2; (dsimp only; with_reducible rfl))

theorem State.readbackDone_kept {r0 s : State} (n : Nat) (ok : Bool) (hk : Kept r0 s) :
    Kept r0 (State.readbackDone s n ok) := by
  unfold State.readbackDone
  repeat' first
    | with_reducible assumption
    | with_reducible apply State.failInstall_kept
    | with_reducible apply State.showTeacher_kept
    | with_reducible apply State.setSlots_kept
    | with_reducible apply State.dropInstall_kept
    | with_reducible apply State.post_kept
    | with_reducible apply State.ledger_kept
    | with_reducible apply State.wr_kept
    | split
    | with_reducible apply Kept.foldl
    | intro _ _ _
    | intro _ _
    | with_reducible exact Kept.refl _
    | with_reducible apply Kept.useFree
    | (refine Kept.other (s := ?_) ?_ ?_; rotate_left 2; (dsimp only; with_reducible rfl))
    | (refine Kept.fresh (s := ?_) ?_ 1 ?_; rotate_left 2; (dsimp only; with_reducible rfl))

theorem State.zeroStage_kept {r0 s : State} (n : Nat) (hk : Kept r0 s) :
    Kept r0 (State.zeroStage s n) := by
  unfold State.zeroStage
  repeat' first
    | with_reducible assumption
    | with_reducible apply State.zeroRegion_kept
    | split
    | with_reducible apply Kept.foldl
    | intro _ _ _
    | intro _ _
    | with_reducible exact Kept.refl _
    | with_reducible apply Kept.useFree
    | (refine Kept.other (s := ?_) ?_ ?_; rotate_left 2; (dsimp only; with_reducible rfl))
    | (refine Kept.fresh (s := ?_) ?_ 1 ?_; rotate_left 2; (dsimp only; with_reducible rfl))

theorem State.slotDisable_kept {r0 s : State} (n : SlotId) (hk : Kept r0 s) :
    Kept r0 (State.slotDisable s n) := by
  unfold State.slotDisable
  repeat' first
    | with_reducible assumption
    | with_reducible apply State.cancelCheck_kept
    | with_reducible apply State.zeroStage_kept
    | with_reducible apply State.objPost_kept
    | with_reducible apply State.spanRecheck_kept
    | with_reducible apply State.objDisable_kept
    | split
    | with_reducible apply Kept.foldl
    | intro _ _ _
    | intro _ _
    | with_reducible exact Kept.refl _
    | with_reducible apply Kept.useFree
    | (refine Kept.other (s := ?_) ?_ ?_; rotate_left 2; (dsimp only; with_reducible rfl))
    | (refine Kept.fresh (s := ?_) ?_ 1 ?_; rotate_left 2; (dsimp only; with_reducible rfl))

theorem State.storeDisable_kept {r0 s : State} (n : StoreId) (hk : Kept r0 s) :
    Kept r0 (State.storeDisable s n) := by
  unfold State.storeDisable
  repeat' first
    | with_reducible assumption
    | with_reducible apply State.cancelCheck_kept
    | with_reducible apply State.wr_kept
    | with_reducible apply State.objDisable_kept
    | split
    | with_reducible apply Kept.foldl
    | intro _ _ _
    | intro _ _
    | with_reducible exact Kept.refl _
    | with_reducible apply Kept.useFree
    | (refine Kept.other (s := ?_) ?_ ?_; rotate_left 2; (dsimp only; with_reducible rfl))
    | (refine Kept.fresh (s := ?_) ?_ 1 ?_; rotate_left 2; (dsimp only; with_reducible rfl))

theorem State.shardProgrammed_kept {r0 s0 : State} (n i : Nat) (o : ShardOutcome) (bs : List (Nat × Byte)) (hk0 : Kept r0 s0) :
    Kept r0 (State.shardProgrammed s0 n i o bs) := by
  unfold State.shardProgrammed
  extract_lets s
  have hk : Kept r0 s := State.hostStores_kept bs hk0
  clear_value s
  split
  · exact hk
  · refine Kept.ite hk ?_
    split
    · exact State.failInstall_kept _ _ hk
    · exact State.failInstall_kept _ _ hk
    · extract_lets sealed s1
      have h1 : Kept r0 s1 := Kept.other (Kept.setNvw _ (memory_wf_mapWrite _ _ _) hk) rfl
      clear_value s1
      exact Kept.ite (State.failInstall_kept _ _ hk) (State.ledger_kept _ (State.bump_kept _ _ _ h1))

theorem State.tempBand_kept {r0 s : State} (g : Nat) (t : Nat) (hk : Kept r0 s) :
    Kept r0 (State.tempBand s g t) := by
  unfold State.tempBand
  repeat' first
    | with_reducible assumption
    | with_reducible apply State.wr_kept
    | split
    | with_reducible apply Kept.foldl
    | intro _ _ _
    | intro _ _
    | with_reducible exact Kept.refl _
    | with_reducible apply Kept.useFree
    | (refine Kept.other (s := ?_) ?_ ?_; rotate_left 2; (dsimp only; with_reducible rfl))
    | (refine Kept.fresh (s := ?_) ?_ 1 ?_; rotate_left 2; (dsimp only; with_reducible rfl))

theorem State.stackTrip_kept {r0 s : State} (g : Nat) (t : Nat) (hk : Kept r0 s) :
    Kept r0 (State.stackTrip s g t) := by
  unfold State.stackTrip
  repeat' first
    | with_reducible assumption
    | with_reducible apply State.wr_kept
    | with_reducible apply State.tempBand_kept
    | with_reducible apply State.event_kept
    | with_reducible apply State.dropCaptures_kept
    | with_reducible apply State.haltAll_kept
    | with_reducible apply State.drainCore_kept
    | split
    | with_reducible apply Kept.foldl
    | intro _ _ _
    | intro _ _
    | with_reducible exact Kept.refl _
    | with_reducible apply Kept.useFree
    | (refine Kept.other (s := ?_) ?_ ?_; rotate_left 2; (dsimp only; with_reducible rfl))
    | (refine Kept.fresh (s := ?_) ?_ 1 ?_; rotate_left 2; (dsimp only; with_reducible rfl))

theorem State.stageShards_kept {r0 s : State} (n : Nat) (l1 : List Nat) (hk : Kept r0 s) :
    Kept r0 (State.stageShards s n l1) := by
  induction l1 generalizing s n with
  | nil => exact hk
  | cons y l ih =>
    unfold State.stageShards
    repeat' first
      | with_reducible assumption
      | with_reducible apply ih
      | with_reducible apply State.store_kept
      | split
      | with_reducible apply Kept.foldl
      | intro _ _ _
      | intro _ _
      | with_reducible exact Kept.refl _
      | with_reducible apply Kept.useFree
      | (refine Kept.other (s := ?_) ?_ ?_; rotate_left 2; (dsimp only; with_reducible rfl))
      | (refine Kept.fresh (s := ?_) ?_ 1 ?_; rotate_left 2; (dsimp only; with_reducible rfl))

theorem State.unstage_kept {r0 s : State} (n : Nat) (hk : Kept r0 s) :
    Kept r0 (State.unstage s n) := by
  unfold State.unstage
  repeat' first
    | with_reducible assumption
    | with_reducible apply State.zeroRegion_kept
    | split
    | with_reducible apply Kept.foldl
    | intro _ _ _
    | intro _ _
    | with_reducible exact Kept.refl _
    | with_reducible apply Kept.useFree
    | (refine Kept.other (s := ?_) ?_ ?_; rotate_left 2; (dsimp only; with_reducible rfl))
    | (refine Kept.fresh (s := ?_) ?_ 1 ?_; rotate_left 2; (dsimp only; with_reducible rfl))

theorem State.stagingDone_kept {r0 s : State} (n : SlotId) (ok : Bool) (hk : Kept r0 s) :
    Kept r0 (State.stagingDone s n ok) := by
  unfold State.stagingDone
  repeat' first
    | with_reducible assumption
    | with_reducible apply State.objPost_kept
    | with_reducible apply State.unstage_kept
    | with_reducible apply State.objEnable_kept
    | with_reducible apply State.stageShards_kept
    | split
    | with_reducible apply Kept.foldl
    | intro _ _ _
    | intro _ _
    | with_reducible exact Kept.refl _
    | with_reducible apply Kept.useFree
    | (refine Kept.other (s := ?_) ?_ ?_; rotate_left 2; (dsimp only; with_reducible rfl))
    | (refine Kept.fresh (s := ?_) ?_ 1 ?_; rotate_left 2; (dsimp only; with_reducible rfl))

theorem State.teacherErase_kept {r0 s : State} (e : Entry) (hk : Kept r0 s) :
    Kept r0 (State.teacherErase s e) := by
  unfold State.teacherErase
  repeat' first
    | with_reducible assumption
    | with_reducible apply State.done_kept
    | with_reducible apply State.ledger_kept
    | with_reducible apply State.setSlots_kept
    | split
    | with_reducible apply Kept.foldl
    | intro _ _ _
    | intro _ _
    | with_reducible exact Kept.refl _
    | with_reducible apply Kept.useFree
    | (refine Kept.other (s := ?_) ?_ ?_; rotate_left 2; (dsimp only; with_reducible rfl))
    | (refine Kept.fresh (s := ?_) ?_ 1 ?_; rotate_left 2; (dsimp only; with_reducible rfl))

theorem Kept.install {r0 s : State} (h : Nat) (m : List Byte) (l : Install) (hk : Kept r0 s) :
    Kept r0 { s with manifests := mapSet [] s.manifests h m, installs := s.installs ++ [l] } := Kept.other hk rfl
theorem State.teacherInstall_kept {r0 s : State} (e : Entry) (hk : Kept r0 s) : Kept r0 (State.teacherInstall s e) := by
  unfold State.teacherInstall
  extract_lets h n slots m blocks stOf recs s1
  have h1 : Kept r0 s1 := State.addWear_kept _ (State.setSlots_kept _ _ _ _ (State.hideTeacher_kept _ hk))
  clear_value s1 recs stOf blocks m slots n h
  refine Kept.ite (State.done_kept _ _ _ hk) ?_
  split
  · exact State.post_kept _ _ _ _ _ hk
  · exact Kept.ite (State.done_kept _ _ _ hk) (Kept.ite (State.done_kept _ _ _ hk) (State.ledger_kept _ (Kept.install _ _ _ h1)))

theorem State.throttleBay_kept {r0 s : State} (islands : List (CoreId × Nat)) (b : Nat) (hk : Kept r0 s) :
    Kept r0 (State.throttleBay s islands b) := by
  unfold State.throttleBay
  repeat' first
    | with_reducible assumption
    | with_reducible apply State.lowerThermal_kept
    | with_reducible apply State.event_kept
    | with_reducible apply State.raiseThermal_kept
    | split
    | with_reducible apply Kept.foldl
    | intro _ _ _
    | intro _ _
    | with_reducible exact Kept.refl _
    | with_reducible apply Kept.useFree
    | (refine Kept.other (s := ?_) ?_ ?_; rotate_left 2; (dsimp only; with_reducible rfl))
    | (refine Kept.fresh (s := ?_) ?_ 1 ?_; rotate_left 2; (dsimp only; with_reducible rfl))

theorem State.throttleBays_kept {r0 s : State} (islands : List (CoreId × Nat)) (l1 : List Nat) (hk : Kept r0 s) :
    Kept r0 (State.throttleBays s islands l1) := by
  induction l1 generalizing s islands with
  | nil => exact hk
  | cons y l ih =>
    unfold State.throttleBays
    repeat' first
      | with_reducible assumption
      | with_reducible apply ih
      | with_reducible apply State.throttleBay_kept
      | split
      | with_reducible apply Kept.foldl
      | intro _ _ _
      | intro _ _
      | with_reducible exact Kept.refl _
      | with_reducible apply Kept.useFree
      | (refine Kept.other (s := ?_) ?_ ?_; rotate_left 2; (dsimp only; with_reducible rfl))
      | (refine Kept.fresh (s := ?_) ?_ 1 ?_; rotate_left 2; (dsimp only; with_reducible rfl))

theorem State.throttleStack_kept {r0 s : State} (g : Nat) (hk : Kept r0 s) :
    Kept r0 (State.throttleStack s g) := by
  unfold State.throttleStack
  repeat' first
    | with_reducible assumption
    | with_reducible apply State.lowerThermal_kept
    | with_reducible apply State.raiseThermal_kept
    | with_reducible apply State.wr_kept
    | with_reducible apply State.event_kept
    | split
    | with_reducible apply Kept.foldl
    | intro _ _ _
    | intro _ _
    | with_reducible exact Kept.refl _
    | with_reducible apply Kept.useFree
    | (refine Kept.other (s := ?_) ?_ ?_; rotate_left 2; (dsimp only; with_reducible rfl))
    | (refine Kept.fresh (s := ?_) ?_ 1 ?_; rotate_left 2; (dsimp only; with_reducible rfl))

theorem State.throttleStacks_kept {r0 s : State} (l1 : List Nat) (hk : Kept r0 s) :
    Kept r0 (State.throttleStacks s l1) := by
  induction l1 generalizing s with
  | nil => exact hk
  | cons y l ih =>
    unfold State.throttleStacks
    repeat' first
      | with_reducible assumption
      | with_reducible apply ih
      | with_reducible apply State.throttleStack_kept
      | split
      | with_reducible apply Kept.foldl
      | intro _ _ _
      | intro _ _
      | with_reducible exact Kept.refl _
      | with_reducible apply Kept.useFree
      | (refine Kept.other (s := ?_) ?_ ?_; rotate_left 2; (dsimp only; with_reducible rfl))
      | (refine Kept.fresh (s := ?_) ?_ 1 ?_; rotate_left 2; (dsimp only; with_reducible rfl))

theorem State.throttleStep_kept {r0 s : State} (islands : List (CoreId × Nat)) (hk : Kept r0 s) :
    Kept r0 (State.throttleStep s islands) := by
  unfold State.throttleStep
  repeat' first
    | with_reducible assumption
    | with_reducible apply State.throttleBays_kept
    | with_reducible apply State.throttleStacks_kept
    | split
    | with_reducible apply Kept.foldl
    | intro _ _ _
    | intro _ _
    | with_reducible exact Kept.refl _
    | with_reducible apply Kept.useFree
    | (refine Kept.other (s := ?_) ?_ ?_; rotate_left 2; (dsimp only; with_reducible rfl))
    | (refine Kept.fresh (s := ?_) ?_ 1 ?_; rotate_left 2; (dsimp only; with_reducible rfl))

theorem State.tripRelease_kept {r0 s : State} (t : TripTarget) (hk : Kept r0 s) :
    Kept r0 (State.tripRelease s t) := by
  unfold State.tripRelease
  repeat' first
    | with_reducible assumption
    | split
    | with_reducible apply Kept.foldl
    | intro _ _ _
    | intro _ _
    | with_reducible exact Kept.refl _
    | with_reducible apply Kept.useFree
    | (refine Kept.other (s := ?_) ?_ ?_; rotate_left 2; (dsimp only; with_reducible rfl))
    | (refine Kept.fresh (s := ?_) ?_ 1 ?_; rotate_left 2; (dsimp only; with_reducible rfl))

theorem State.verifyPass_kept {r0 s : State} (n : Nat) (stage : Bool) (ok : Bool) (hk : Kept r0 s) :
    Kept r0 (State.verifyPass s n stage ok) := by
  unfold State.verifyPass
  repeat' first
    | with_reducible assumption
    | with_reducible apply State.haltCtx_kept
    | with_reducible apply State.wr_kept
    | with_reducible apply State.bumpPasses_kept
    | with_reducible apply State.ledger_kept
    | with_reducible apply State.setSlots_kept
    | split
    | with_reducible apply Kept.foldl
    | intro _ _ _
    | intro _ _
    | with_reducible exact Kept.refl _
    | with_reducible apply Kept.useFree
    | (refine Kept.other (s := ?_) ?_ ?_; rotate_left 2; (dsimp only; with_reducible rfl))
    | (refine Kept.fresh (s := ?_) ?_ 1 ?_; rotate_left 2; (dsimp only; with_reducible rfl))

theorem State.attest_kept {r0 s : State} (e : Entry) (hk : Kept r0 s) : Kept r0 (State.attest s e) :=
  State.done_kept _ _ _ (State.store_kept _ _ _ _ (Kept.fresh hk 1 rfl))

theorem State.newChallenge_kept {r0 s : State} (hk : Kept r0 s) : Kept r0 (State.newChallenge s) := Kept.fresh hk 4 rfl

theorem State.debugUnlock_kept {r0 s : State} (e : Entry) (hk : Kept r0 s) :
    Kept r0 (State.debugUnlock s e) := by
  unfold State.debugUnlock
  repeat' first
    | with_reducible assumption
    | with_reducible apply State.done_kept
    | with_reducible apply State.wr_kept
    | with_reducible apply State.newChallenge_kept
    | with_reducible apply State.bump_kept
    | with_reducible apply State.ledger_kept
    | split
    | with_reducible apply Kept.foldl
    | intro _ _ _
    | intro _ _
    | with_reducible exact Kept.refl _
    | with_reducible apply Kept.useFree
    | (refine Kept.other (s := ?_) ?_ ?_; rotate_left 2; (dsimp only; with_reducible rfl))
    | (refine Kept.fresh (s := ?_) ?_ 1 ?_; rotate_left 2; (dsimp only; with_reducible rfl))

theorem State.sendReports_kept {r0 s : State} (l1 : List Nat) (hk : Kept r0 s) : Kept r0 (State.sendReports s l1) := by
  induction l1 generalizing s with
  | nil => exact hk
  | cons y l ih => exact ih (State.queuePacket_kept _ _ _ _ (Kept.fresh hk 1 rfl))

theorem State.spanReportSend_kept {r0 s : State}  (hk : Kept r0 s) :
    Kept r0 (State.spanReportSend s) := by
  unfold State.spanReportSend
  repeat' first
    | with_reducible assumption
    | with_reducible apply State.sendReports_kept
    | split
    | with_reducible apply Kept.foldl
    | intro _ _ _
    | intro _ _
    | with_reducible exact Kept.refl _
    | with_reducible apply Kept.useFree
    | (refine Kept.other (s := ?_) ?_ ?_; rotate_left 2; (dsimp only; with_reducible rfl))
    | (refine Kept.fresh (s := ?_) ?_ 1 ?_; rotate_left 2; (dsimp only; with_reducible rfl))

theorem State.keysPost_kept {r0 s : State} (code : Nat) (hk : Kept r0 s) :
    Kept r0 (State.keysPost s code) := by
  unfold State.keysPost
  repeat' first
    | with_reducible assumption
    | with_reducible apply State.wr_kept
    | split
    | with_reducible apply Kept.foldl
    | intro _ _ _
    | intro _ _
    | with_reducible exact Kept.refl _
    | with_reducible apply Kept.useFree
    | (refine Kept.other (s := ?_) ?_ ?_; rotate_left 2; (dsimp only; with_reducible rfl))
    | (refine Kept.fresh (s := ?_) ?_ 1 ?_; rotate_left 2; (dsimp only; with_reducible rfl))

theorem State.rekeyPorts_kept {r0 s : State} (l1 : List Nat) (hk : Kept r0 s) :
    Kept r0 (State.rekeyPorts s l1) := by
  induction l1 generalizing s with
  | nil => exact hk
  | cons y l ih =>
    unfold State.rekeyPorts
    repeat' first
      | with_reducible assumption
      | with_reducible apply ih
      | with_reducible apply State.setPort_kept
      | split
      | with_reducible apply Kept.foldl
      | intro _ _ _
      | intro _ _
      | with_reducible exact Kept.refl _
      | with_reducible apply Kept.useFree
      | (refine Kept.other (s := ?_) ?_ ?_; rotate_left 2; (dsimp only; with_reducible rfl))
      | (refine Kept.fresh (s := ?_) ?_ 1 ?_; rotate_left 2; (dsimp only; with_reducible rfl))

theorem State.rotate_kept {r0 s : State}  (hk : Kept r0 s) :
    Kept r0 (State.rotate s) := by
  unfold State.rotate
  repeat' first
    | with_reducible assumption
    | with_reducible apply State.keysPost_kept
    | with_reducible apply State.wr_kept
    | with_reducible apply State.bump_kept
    | with_reducible apply State.rekeyPorts_kept
    | with_reducible apply State.ledger_kept
    | split
    | with_reducible apply Kept.foldl
    | intro _ _ _
    | intro _ _
    | with_reducible exact Kept.refl _
    | with_reducible apply Kept.useFree
    | (refine Kept.other (s := ?_) ?_ ?_; rotate_left 2; (dsimp only; with_reducible rfl))
    | (refine Kept.fresh (s := ?_) ?_ 1 ?_; rotate_left 2; (dsimp only; with_reducible rfl))

theorem State.spanFails_kept {r0 s : State} (p : Nat) (hk : Kept r0 s) :
    Kept r0 (State.spanFails s p) := by
  unfold State.spanFails
  repeat' first
    | with_reducible assumption
    | with_reducible apply State.portStatus_kept
    | with_reducible apply State.loseSpan_kept
    | split
    | with_reducible apply Kept.foldl
    | intro _ _ _
    | intro _ _
    | with_reducible exact Kept.refl _
    | with_reducible apply Kept.useFree
    | (refine Kept.other (s := ?_) ?_ ?_; rotate_left 2; (dsimp only; with_reducible rfl))
    | (refine Kept.fresh (s := ?_) ?_ 1 ?_; rotate_left 2; (dsimp only; with_reducible rfl))

theorem State.reportIn_kept {r0 s : State} (p : Nat) (r : SpanReport) (hk : Kept r0 s) :
    Kept r0 (State.reportIn s p r) := by
  unfold State.reportIn
  repeat' first
    | with_reducible assumption
    | with_reducible apply State.wr_kept
    | with_reducible apply State.setPort_kept
    | with_reducible apply State.spanFails_kept
    | split
    | with_reducible apply Kept.foldl
    | intro _ _ _
    | intro _ _
    | with_reducible exact Kept.refl _
    | with_reducible apply Kept.useFree
    | (refine Kept.other (s := ?_) ?_ ?_; rotate_left 2; (dsimp only; with_reducible rfl))
    | (refine Kept.fresh (s := ?_) ?_ 1 ?_; rotate_left 2; (dsimp only; with_reducible rfl))

theorem State.reportLapse_kept {r0 s : State} (p : Nat) (hk : Kept r0 s) :
    Kept r0 (State.reportLapse s p) := by
  unfold State.reportLapse
  repeat' first
    | with_reducible assumption
    | with_reducible apply State.spanFails_kept
    | split
    | with_reducible apply Kept.foldl
    | intro _ _ _
    | intro _ _
    | with_reducible exact Kept.refl _
    | with_reducible apply Kept.useFree
    | (refine Kept.other (s := ?_) ?_ ?_; rotate_left 2; (dsimp only; with_reducible rfl))
    | (refine Kept.fresh (s := ?_) ?_ 1 ?_; rotate_left 2; (dsimp only; with_reducible rfl))

theorem State.reseal_kept {r0 s : State} (x : Nat) (l1 : List PauseCopy) (hk : Kept r0 s) : Kept r0 (State.reseal s x l1) := by
  induction l1 generalizing s with
  | nil => exact hk
  | cons y l ih =>
    unfold State.reseal
    split
    extract_lets s1 e
    have h1 : Kept r0 s1 := State.store_kept _ _ _ _ (Kept.useFree 1 hk)
    clear_value s1
    exact ih (State.setEng_kept _ _ h1)

theorem State.resealAll_kept {r0 s : State} (l1 : List Nat) (hk : Kept r0 s) :
    Kept r0 (State.resealAll s l1) := by
  induction l1 generalizing s with
  | nil => exact hk
  | cons y l ih =>
    unfold State.resealAll
    repeat' first
      | with_reducible assumption
      | with_reducible apply ih
      | with_reducible apply State.reseal_kept
      | split
      | with_reducible apply Kept.foldl
      | intro _ _ _
      | intro _ _
      | with_reducible exact Kept.refl _
      | with_reducible apply Kept.useFree
      | (refine Kept.other (s := ?_) ?_ ?_; rotate_left 2; (dsimp only; with_reducible rfl))
      | (refine Kept.fresh (s := ?_) ?_ 1 ?_; rotate_left 2; (dsimp only; with_reducible rfl))

theorem State.retire_kept {r0 s : State} (bytes : Nat) (hk : Kept r0 s) :
    Kept r0 (State.retire s bytes) := by
  unfold State.retire
  repeat' first
    | with_reducible assumption
    | with_reducible apply State.wr_kept
    | with_reducible apply State.event_kept
    | with_reducible apply State.ledger_kept
    | split
    | with_reducible apply Kept.foldl
    | intro _ _ _
    | intro _ _
    | with_reducible exact Kept.refl _
    | with_reducible apply Kept.useFree
    | (refine Kept.other (s := ?_) ?_ ?_; rotate_left 2; (dsimp only; with_reducible rfl))
    | (refine Kept.fresh (s := ?_) ?_ 1 ?_; rotate_left 2; (dsimp only; with_reducible rfl))

theorem State.sweepEnd_kept {r0 s : State}  (hk : Kept r0 s) :
    Kept r0 (State.sweepEnd s) := by
  unfold State.sweepEnd
  repeat' first
    | with_reducible assumption
    | with_reducible apply State.retire_kept
    | with_reducible apply State.resealAll_kept
    | split
    | with_reducible apply Kept.foldl
    | intro _ _ _
    | intro _ _
    | with_reducible exact Kept.refl _
    | with_reducible apply Kept.useFree
    | (refine Kept.other (s := ?_) ?_ ?_; rotate_left 2; (dsimp only; with_reducible rfl))
    | (refine Kept.fresh (s := ?_) ?_ 1 ?_; rotate_left 2; (dsimp only; with_reducible rfl))

theorem State.vendorSigned_kept {r0 s : State} (e : Entry) (hk : Kept r0 s) :
    Kept r0 (State.vendorSigned s e) := by
  unfold State.vendorSigned
  repeat' first
    | with_reducible assumption
    | with_reducible apply State.done_kept
    | with_reducible apply State.ledger_kept
    | split
    | with_reducible apply Kept.foldl
    | intro _ _ _
    | intro _ _
    | with_reducible exact Kept.refl _
    | with_reducible apply Kept.useFree
    | (refine Kept.other (s := ?_) ?_ ?_; rotate_left 2; (dsimp only; with_reducible rfl))
    | (refine Kept.fresh (s := ?_) ?_ 1 ?_; rotate_left 2; (dsimp only; with_reducible rfl))

theorem State.turnAway_kept {r0 s : State} (f : Fetched) (hk : Kept r0 s) : Kept r0 (State.turnAway s f) :=
  State.post_kept _ _ _ _ _ (State.bump_kept _ _ _ (Kept.fresh (State.setRing_kept _ _ hk) 1 rfl))

theorem State.busyTimeout_kept {r0 s : State} (e : Entry) (op : BitVec 8) (hk : Kept r0 s) :
    Kept r0 (State.busyTimeout s e op) := by
  unfold State.busyTimeout
  repeat' first
    | with_reducible assumption
    | with_reducible apply State.turnAway_kept
    | split
    | with_reducible apply Kept.foldl
    | intro _ _ _
    | intro _ _
    | with_reducible exact Kept.refl _
    | with_reducible apply Kept.useFree
    | (refine Kept.other (s := ?_) ?_ ?_; rotate_left 2; (dsimp only; with_reducible rfl))
    | (refine Kept.fresh (s := ?_) ?_ 1 ?_; rotate_left 2; (dsimp only; with_reducible rfl))

theorem State.calEnds_kept {r0 s : State} (t : Ticket) (r : LedgerRec) (hk : Kept r0 s) :
    Kept r0 (State.calEnds s t r) := by
  unfold State.calEnds
  repeat' first
    | with_reducible assumption
    | with_reducible apply State.post_kept
    | with_reducible apply State.wr_kept
    | with_reducible apply State.ledger_kept
    | split
    | with_reducible apply Kept.foldl
    | intro _ _ _
    | intro _ _
    | with_reducible exact Kept.refl _
    | with_reducible apply Kept.useFree
    | (refine Kept.other (s := ?_) ?_ ?_; rotate_left 2; (dsimp only; with_reducible rfl))
    | (refine Kept.fresh (s := ?_) ?_ 1 ?_; rotate_left 2; (dsimp only; with_reducible rfl))

theorem State.served'_kept {r0 s : State} (e : Entry) (op : Nat) (code : Nat) (hk : Kept r0 s) :
    Kept r0 (State.served' s e op code) := by
  unfold State.served'
  repeat' first
    | with_reducible assumption
    | with_reducible apply State.done_kept
    | with_reducible apply State.wr_kept
    | split
    | with_reducible apply Kept.foldl
    | intro _ _ _
    | intro _ _
    | with_reducible exact Kept.refl _
    | with_reducible apply Kept.useFree
    | (refine Kept.other (s := ?_) ?_ ?_; rotate_left 2; (dsimp only; with_reducible rfl))
    | (refine Kept.fresh (s := ?_) ?_ 1 ?_; rotate_left 2; (dsimp only; with_reducible rfl))

theorem State.calibrateLane_kept {r0 s : State} (e : Entry) (p : PortId) (l : LaneId) (hk : Kept r0 s) :
    Kept r0 (State.calibrateLane s e p l) := by
  unfold State.calibrateLane
  repeat' first
    | with_reducible assumption
    | with_reducible apply State.served'_kept
    | with_reducible apply State.setPort_kept
    | with_reducible apply State.linkGoesOn_kept
    | with_reducible apply State.setLink_kept
    | with_reducible apply State.wr_kept
    | split
    | with_reducible apply Kept.foldl
    | intro _ _ _
    | intro _ _
    | with_reducible exact Kept.refl _
    | with_reducible apply Kept.useFree
    | (refine Kept.other (s := ?_) ?_ ?_; rotate_left 2; (dsimp only; with_reducible rfl))
    | (refine Kept.fresh (s := ?_) ?_ 1 ?_; rotate_left 2; (dsimp only; with_reducible rfl))

theorem State.calibrateTarget_kept {r0 s : State} (e : Entry) (t : CalTarget) (busy : Bool) (hk : Kept r0 s) :
    Kept r0 (State.calibrateTarget s e t busy) := by
  unfold State.calibrateTarget
  repeat' first
    | with_reducible assumption
    | with_reducible apply State.served'_kept
    | split
    | with_reducible apply Kept.foldl
    | intro _ _ _
    | intro _ _
    | with_reducible exact Kept.refl _
    | with_reducible apply Kept.useFree
    | (refine Kept.other (s := ?_) ?_ ?_; rotate_left 2; (dsimp only; with_reducible rfl))
    | (refine Kept.fresh (s := ?_) ?_ 1 ?_; rotate_left 2; (dsimp only; with_reducible rfl))

theorem State.calibrate_kept {r0 s : State} (e : Entry) (hk : Kept r0 s) :
    Kept r0 (State.calibrate s e) := by
  unfold State.calibrate
  repeat' first
    | with_reducible assumption
    | with_reducible apply State.calibrateLane_kept
    | with_reducible apply State.done_kept
    | with_reducible apply State.calibrateTarget_kept
    | split
    | with_reducible apply Kept.foldl
    | intro _ _ _
    | intro _ _
    | with_reducible exact Kept.refl _
    | with_reducible apply Kept.useFree
    | (refine Kept.other (s := ?_) ?_ ?_; rotate_left 2; (dsimp only; with_reducible rfl))
    | (refine Kept.fresh (s := ?_) ?_ 1 ?_; rotate_left 2; (dsimp only; with_reducible rfl))

theorem State.calibrationDone_kept {r0 s : State} (t : CalTarget) (hk : Kept r0 s) :
    Kept r0 (State.calibrationDone s t) := by
  unfold State.calibrationDone
  repeat' first
    | with_reducible assumption
    | with_reducible apply State.calEnds_kept
    | split
    | with_reducible apply Kept.foldl
    | intro _ _ _
    | intro _ _
    | with_reducible exact Kept.refl _
    | with_reducible apply Kept.useFree
    | (refine Kept.other (s := ?_) ?_ ?_; rotate_left 2; (dsimp only; with_reducible rfl))
    | (refine Kept.fresh (s := ?_) ?_ 1 ?_; rotate_left 2; (dsimp only; with_reducible rfl))

theorem State.compaction_kept {r0 s : State}  (hk : Kept r0 s) :
    Kept r0 (State.compaction s) := by
  unfold State.compaction
  repeat' first
    | with_reducible assumption
    | with_reducible apply State.wr_kept
    | split
    | with_reducible apply Kept.foldl
    | intro _ _ _
    | intro _ _
    | with_reducible exact Kept.refl _
    | with_reducible apply Kept.useFree
    | (refine Kept.other (s := ?_) ?_ ?_; rotate_left 2; (dsimp only; with_reducible rfl))
    | (refine Kept.fresh (s := ?_) ?_ 1 ?_; rotate_left 2; (dsimp only; with_reducible rfl))

theorem State.compactionDone_kept {r0 s : State}  (hk : Kept r0 s) :
    Kept r0 (State.compactionDone s) := by
  unfold State.compactionDone
  repeat' first
    | with_reducible assumption
    | with_reducible apply State.bump_kept
    | with_reducible apply State.wr_kept
    | with_reducible apply State.showFill_kept
    | with_reducible apply State.ledger_kept
    | split
    | with_reducible apply Kept.foldl
    | intro _ _ _
    | intro _ _
    | with_reducible exact Kept.refl _
    | with_reducible apply Kept.useFree
    | (refine Kept.other (s := ?_) ?_ ?_; rotate_left 2; (dsimp only; with_reducible rfl))
    | (refine Kept.fresh (s := ?_) ?_ 1 ?_; rotate_left 2; (dsimp only; with_reducible rfl))

theorem State.runImage_kept {r0 s : State} (i : Nat) (hk : Kept r0 s) :
    Kept r0 (State.runImage s i) := by
  unfold State.runImage
  repeat' first
    | with_reducible assumption
    | with_reducible apply State.wr_kept
    | with_reducible apply State.ledger_kept
    | split
    | with_reducible apply Kept.foldl
    | intro _ _ _
    | intro _ _
    | with_reducible exact Kept.refl _
    | with_reducible apply Kept.useFree
    | (refine Kept.other (s := ?_) ?_ ?_; rotate_left 2; (dsimp only; with_reducible rfl))
    | (refine Kept.fresh (s := ?_) ?_ 1 ?_; rotate_left 2; (dsimp only; with_reducible rfl))

theorem State.fwActivate_kept {r0 s : State} (e : Entry) (hk : Kept r0 s) :
    Kept r0 (State.fwActivate s e) := by
  unfold State.fwActivate
  repeat' first
    | with_reducible assumption
    | with_reducible apply State.served'_kept
    | with_reducible apply State.spanReportSend_kept
    | with_reducible apply State.runImage_kept
    | split
    | with_reducible apply Kept.foldl
    | intro _ _ _
    | intro _ _
    | with_reducible exact Kept.refl _
    | with_reducible apply Kept.useFree
    | (refine Kept.other (s := ?_) ?_ ?_; rotate_left 2; (dsimp only; with_reducible rfl))
    | (refine Kept.fresh (s := ?_) ?_ 1 ?_; rotate_left 2; (dsimp only; with_reducible rfl))

theorem State.fwStage_kept {r0 s : State} (e : Entry) (hk : Kept r0 s) :
    Kept r0 (State.fwStage s e) := by
  unfold State.fwStage
  repeat' first
    | with_reducible assumption
    | with_reducible apply State.served'_kept
    | with_reducible apply State.wr_kept
    | with_reducible apply State.ledger_kept
    | split
    | with_reducible apply Kept.foldl
    | intro _ _ _
    | intro _ _
    | with_reducible exact Kept.refl _
    | with_reducible apply Kept.useFree
    | (refine Kept.other (s := ?_) ?_ ?_; rotate_left 2; (dsimp only; with_reducible rfl))
    | (refine Kept.fresh (s := ?_) ?_ 1 ?_; rotate_left 2; (dsimp only; with_reducible rfl))

theorem State.laneCalDone_kept {r0 s : State} (p : PortId) (l : LaneId) (hk : Kept r0 s) :
    Kept r0 (State.laneCalDone s p l) := by
  unfold State.laneCalDone
  repeat' first
    | with_reducible assumption
    | with_reducible apply State.linkGoesOn_kept
    | with_reducible apply State.setLink_kept
    | with_reducible apply State.wr_kept
    | with_reducible apply State.setPort_kept
    | with_reducible apply State.calEnds_kept
    | split
    | with_reducible apply Kept.foldl
    | intro _ _ _
    | intro _ _
    | with_reducible exact Kept.refl _
    | with_reducible apply Kept.useFree
    | (refine Kept.other (s := ?_) ?_ ?_; rotate_left 2; (dsimp only; with_reducible rfl))
    | (refine Kept.fresh (s := ?_) ?_ 1 ?_; rotate_left 2; (dsimp only; with_reducible rfl))

theorem State.telemetry_kept {r0 s : State} (busy : Bool) (hk : Kept r0 s) :
    Kept r0 (State.telemetry s busy) := by
  unfold State.telemetry
  repeat' first
    | with_reducible assumption
    | with_reducible apply State.inc_kept
    | split
    | with_reducible apply Kept.foldl
    | intro _ _ _
    | intro _ _
    | with_reducible exact Kept.refl _
    | with_reducible apply Kept.useFree
    | (refine Kept.other (s := ?_) ?_ ?_; rotate_left 2; (dsimp only; with_reducible rfl))
    | (refine Kept.fresh (s := ?_) ?_ 1 ?_; rotate_left 2; (dsimp only; with_reducible rfl))

theorem State.turnAll_kept {r0 s : State} (l1 : List Fetched) (hk : Kept r0 s) :
    Kept r0 (State.turnAll s l1) := by
  induction l1 generalizing s with
  | nil => exact hk
  | cons y l ih =>
    unfold State.turnAll
    repeat' first
      | with_reducible assumption
      | with_reducible apply ih
      | with_reducible apply State.turnAway_kept
      | split
      | with_reducible apply Kept.foldl
      | intro _ _ _
      | intro _ _
      | with_reducible exact Kept.refl _
      | with_reducible apply Kept.useFree
      | (refine Kept.other (s := ?_) ?_ ?_; rotate_left 2; (dsimp only; with_reducible rfl))
      | (refine Kept.fresh (s := ?_) ?_ 1 ?_; rotate_left 2; (dsimp only; with_reducible rfl))

theorem State.ucodeStage_kept {r0 s : State} (e : Entry) (hk : Kept r0 s) :
    Kept r0 (State.ucodeStage s e) := by
  unfold State.ucodeStage
  repeat' first
    | with_reducible assumption
    | with_reducible apply State.served'_kept
    | with_reducible apply State.wr_kept
    | with_reducible apply State.ledger_kept
    | split
    | with_reducible apply Kept.foldl
    | intro _ _ _
    | intro _ _
    | with_reducible exact Kept.refl _
    | with_reducible apply Kept.useFree
    | (refine Kept.other (s := ?_) ?_ ?_; rotate_left 2; (dsimp only; with_reducible rfl))
    | (refine Kept.fresh (s := ?_) ?_ 1 ?_; rotate_left 2; (dsimp only; with_reducible rfl))

theorem State.watchdog_kept {r0 s : State}  (hk : Kept r0 s) :
    Kept r0 (State.watchdog s) := by
  unfold State.watchdog
  repeat' first
    | with_reducible assumption
    | with_reducible apply State.bump_kept
    | with_reducible apply State.ledger_kept
    | with_reducible apply State.runImage_kept
    | with_reducible apply State.turnAll_kept
    | split
    | with_reducible apply Kept.foldl
    | intro _ _ _
    | intro _ _
    | with_reducible exact Kept.refl _
    | with_reducible apply Kept.useFree
    | (refine Kept.other (s := ?_) ?_ ?_; rotate_left 2; (dsimp only; with_reducible rfl))
    | (refine Kept.fresh (s := ?_) ?_ 1 ?_; rotate_left 2; (dsimp only; with_reducible rfl))

theorem State.addressDisable_kept {r0 s : State}  (hk : Kept r0 s) :
    Kept r0 (State.addressDisable s) := by
  unfold State.addressDisable
  repeat' first
    | with_reducible assumption
    | with_reducible apply State.cancelCheck_kept
    | with_reducible apply State.objPost_kept
    | with_reducible apply State.bumpEntries_kept
    | with_reducible apply State.objDisable_kept
    | split
    | with_reducible apply Kept.foldl
    | intro _ _ _
    | intro _ _
    | with_reducible exact Kept.refl _
    | with_reducible apply Kept.useFree
    | (refine Kept.other (s := ?_) ?_ ?_; rotate_left 2; (dsimp only; with_reducible rfl))
    | (refine Kept.fresh (s := ?_) ?_ 1 ?_; rotate_left 2; (dsimp only; with_reducible rfl))

theorem State.enableCtx_kept {r0 s : State} (x : CtxId) (hk : Kept r0 s) : Kept r0 (State.enableCtx s x) := by
  refine State.openExchange_kept _ ?_
  have h2 : Kept r0 ((({ (s.setCtx x.val { Ctx.start with nonce := some s.free }).objEnable (.ctx x) with
      free := ((s.setCtx x.val { Ctx.start with nonce := some s.free }).objEnable (.ctx x)).free + 1 } : State).setCtxState
        x.val stIdle).ledger [.tenantNonce x (Config.randomWord s.free)]) :=
    State.ledger_kept _ (State.setCtxState_kept _ _ (Kept.fresh (State.objEnable_kept _ (State.setCtx_kept _ _ hk)) 1 rfl))
  refine Kept.ite ?_ h2
  have h3 := fun v => State.wr_kept (Reg.ctx x.val) Reg.CTX_LS_FLOOR_RUN 0 (State.wr_kept (Reg.ctx x.val) Reg.CTX_LS_CLEAN 0
    (State.wr_kept (Reg.ctx x.val) Reg.CTX_LS_EXP v h2))
  exact Kept.ite (State.store_kept _ _ _ _ (h3 _)) (h3 _)

theorem State.stopRing_kept {r0 s : State} (r : Nat) (code : Nat) (hk : Kept r0 s) :
    Kept r0 (State.stopRing s r code) := by
  unfold State.stopRing
  repeat' first
    | with_reducible assumption
    | with_reducible apply State.wr_kept
    | split
    | with_reducible apply Kept.foldl
    | intro _ _ _
    | intro _ _
    | with_reducible exact Kept.refl _
    | with_reducible apply Kept.useFree
    | (refine Kept.other (s := ?_) ?_ ?_; rotate_left 2; (dsimp only; with_reducible rfl))
    | (refine Kept.fresh (s := ?_) ?_ 1 ?_; rotate_left 2; (dsimp only; with_reducible rfl))

theorem State.fetchOne_kept {r0 s : State} (r : RingId) (i : Nat) (hk : Kept r0 s) :
    Kept r0 (State.fetchOne s r i) := by
  unfold State.fetchOne
  repeat' first
    | with_reducible assumption
    | with_reducible apply State.bump_kept
    | with_reducible apply State.done_kept
    | with_reducible apply State.setRing_kept
    | split
    | with_reducible apply Kept.foldl
    | intro _ _ _
    | intro _ _
    | with_reducible exact Kept.refl _
    | with_reducible apply Kept.useFree
    | (refine Kept.other (s := ?_) ?_ ?_; rotate_left 2; (dsimp only; with_reducible rfl))
    | (refine Kept.fresh (s := ?_) ?_ 1 ?_; rotate_left 2; (dsimp only; with_reducible rfl))

theorem State.fetchMany_kept {r0 s : State} (r : RingId) (l1 : List Nat) (hk : Kept r0 s) :
    Kept r0 (State.fetchMany s r l1) := by
  induction l1 generalizing s r with
  | nil => exact hk
  | cons y l ih =>
    unfold State.fetchMany
    repeat' first
      | with_reducible assumption
      | with_reducible apply ih
      | with_reducible apply State.fetchOne_kept
      | split
      | with_reducible apply Kept.foldl
      | intro _ _ _
      | intro _ _
      | with_reducible exact Kept.refl _
      | with_reducible apply Kept.useFree
      | (refine Kept.other (s := ?_) ?_ ?_; rotate_left 2; (dsimp only; with_reducible rfl))
      | (refine Kept.fresh (s := ?_) ?_ 1 ?_; rotate_left 2; (dsimp only; with_reducible rfl))

theorem State.readLine_kept {r0 s : State} (r : RingId) (ok : Bool) (hk : Kept r0 s) : Kept r0 (State.readLine s r ok) := by
  unfold State.readLine
  extract_lets line head due open' ring s1
  have h1 : Kept r0 s1 := State.setRing_kept _ _ hk
  clear_value s1
  split
  · exact State.stopRing_kept _ _ hk
  · split
    · exact State.stopRing_kept _ _ h1
    · exact State.fetchMany_kept _ _ h1

theorem State.startRing_kept {r0 s : State} (r : RingId) (hk : Kept r0 s) :
    Kept r0 (State.startRing s r) := by
  unfold State.startRing
  repeat' first
    | with_reducible assumption
    | with_reducible apply State.objEnable_kept
    | with_reducible apply State.wr_kept
    | with_reducible apply State.setRing_kept
    | with_reducible apply State.readLine_kept
    | split
    | with_reducible apply Kept.foldl
    | intro _ _ _
    | intro _ _
    | with_reducible exact Kept.refl _
    | with_reducible apply Kept.useFree
    | (refine Kept.other (s := ?_) ?_ ?_; rotate_left 2; (dsimp only; with_reducible rfl))
    | (refine Kept.fresh (s := ?_) ?_ 1 ?_; rotate_left 2; (dsimp only; with_reducible rfl))

theorem State.checkPassed_kept {r0 s : State} (o : ObjRef) (hk : Kept r0 s) :
    Kept r0 (State.checkPassed s o) := by
  unfold State.checkPassed
  repeat' first
    | with_reducible assumption
    | with_reducible apply State.enableCtx_kept
    | with_reducible apply State.startQueue_kept
    | with_reducible apply State.objEnable_kept
    | with_reducible apply State.startPort_kept
    | with_reducible apply State.bumpEntries_kept
    | with_reducible apply State.startTable_kept
    | with_reducible apply State.slotChecked_kept
    | with_reducible apply State.startRing_kept
    | split
    | with_reducible apply Kept.foldl
    | intro _ _ _
    | intro _ _
    | with_reducible exact Kept.refl _
    | with_reducible apply Kept.useFree
    | (refine Kept.other (s := ?_) ?_ ?_; rotate_left 2; (dsimp only; with_reducible rfl))
    | (refine Kept.fresh (s := ?_) ?_ 1 ?_; rotate_left 2; (dsimp only; with_reducible rfl))

theorem State.checkEnd_kept {r0 s : State}  (hk : Kept r0 s) :
    Kept r0 (State.checkEnd s) := by
  unfold State.checkEnd
  repeat' first
    | with_reducible assumption
    | with_reducible apply State.objPost_kept
    | with_reducible apply State.checkPassed_kept
    | split
    | with_reducible apply Kept.foldl
    | intro _ _ _
    | intro _ _
    | with_reducible exact Kept.refl _
    | with_reducible apply Kept.useFree
    | (refine Kept.other (s := ?_) ?_ ?_; rotate_left 2; (dsimp only; with_reducible rfl))
    | (refine Kept.fresh (s := ?_) ?_ 1 ?_; rotate_left 2; (dsimp only; with_reducible rfl))

theorem State.ringMessage_kept {r0 s : State} (r : Nat) (hk : Kept r0 s) :
    Kept r0 (State.ringMessage s r) := by
  unfold State.ringMessage
  repeat' first
    | with_reducible assumption
    | with_reducible apply State.sendMsix_kept
    | with_reducible apply State.setRing_kept
    | split
    | with_reducible apply Kept.foldl
    | intro _ _ _
    | intro _ _
    | with_reducible exact Kept.refl _
    | with_reducible apply Kept.useFree
    | (refine Kept.other (s := ?_) ?_ ?_; rotate_left 2; (dsimp only; with_reducible rfl))
    | (refine Kept.fresh (s := ?_) ?_ 1 ?_; rotate_left 2; (dsimp only; with_reducible rfl))

theorem State.coalesce_kept {r0 s : State} (r : Nat) (hk : Kept r0 s) :
    Kept r0 (State.coalesce s r) := by
  unfold State.coalesce
  repeat' first
    | with_reducible assumption
    | with_reducible apply State.ringMessage_kept
    | split
    | with_reducible apply Kept.foldl
    | intro _ _ _
    | intro _ _
    | with_reducible exact Kept.refl _
    | with_reducible apply Kept.useFree
    | (refine Kept.other (s := ?_) ?_ ?_; rotate_left 2; (dsimp only; with_reducible rfl))
    | (refine Kept.fresh (s := ?_) ?_ 1 ?_; rotate_left 2; (dsimp only; with_reducible rfl))

theorem State.countRecord_kept {r0 s : State} (r : Nat) (k : Record) (hk : Kept r0 s) :
    Kept r0 (State.countRecord s r k) := by
  unfold State.countRecord
  repeat' first
    | with_reducible assumption
    | with_reducible apply State.ringMessage_kept
    | with_reducible apply State.setRing_kept
    | split
    | with_reducible apply Kept.foldl
    | intro _ _ _
    | intro _ _
    | with_reducible exact Kept.refl _
    | with_reducible apply Kept.useFree
    | (refine Kept.other (s := ?_) ?_ ?_; rotate_left 2; (dsimp only; with_reducible rfl))
    | (refine Kept.fresh (s := ?_) ?_ 1 ?_; rotate_left 2; (dsimp only; with_reducible rfl))

theorem State.flushPba_kept {r0 s : State} (f : CxlId) (l1 : List Nat) (hk : Kept r0 s) :
    Kept r0 (State.flushPba s f l1) := by
  induction l1 generalizing s f with
  | nil => exact hk
  | cons y l ih =>
    unfold State.flushPba
    repeat' first
      | with_reducible assumption
      | with_reducible apply ih
      | with_reducible apply State.sendMsix_kept
      | split
      | with_reducible apply Kept.foldl
      | intro _ _ _
      | intro _ _
      | with_reducible exact Kept.refl _
      | with_reducible apply Kept.useFree
      | (refine Kept.other (s := ?_) ?_ ?_; rotate_left 2; (dsimp only; with_reducible rfl))
      | (refine Kept.fresh (s := ?_) ?_ 1 ?_; rotate_left 2; (dsimp only; with_reducible rfl))

theorem State.ringDisable_kept {r0 s : State} (r : RingId) (hk : Kept r0 s) :
    Kept r0 (State.ringDisable s r) := by
  unfold State.ringDisable
  repeat' first
    | with_reducible assumption
    | with_reducible apply State.cancelCheck_kept
    | with_reducible apply State.settleRing_kept
    | with_reducible apply State.setRing_kept
    | split
    | with_reducible apply Kept.foldl
    | intro _ _ _
    | intro _ _
    | with_reducible exact Kept.refl _
    | with_reducible apply Kept.useFree
    | (refine Kept.other (s := ?_) ?_ ?_; rotate_left 2; (dsimp only; with_reducible rfl))
    | (refine Kept.fresh (s := ?_) ?_ 1 ?_; rotate_left 2; (dsimp only; with_reducible rfl))

theorem State.lineSnoop_kept {r0 s : State} (r : RingId) (st : List (Nat × Byte)) (readOk : Bool) (hk : Kept r0 s) :
    Kept r0 (State.lineSnoop s r st readOk) := by
  unfold State.lineSnoop
  repeat' first
    | with_reducible assumption
    | with_reducible apply State.hostStores_kept
    | with_reducible apply State.readLine_kept
    | with_reducible apply State.bump_kept
    | with_reducible apply State.setRing_kept
    | split
    | with_reducible apply Kept.foldl
    | intro _ _ _
    | intro _ _
    | with_reducible exact Kept.refl _
    | with_reducible apply Kept.useFree
    | (refine Kept.other (s := ?_) ?_ ?_; rotate_left 2; (dsimp only; with_reducible rfl))
    | (refine Kept.fresh (s := ?_) ?_ 1 ?_; rotate_left 2; (dsimp only; with_reducible rfl))

theorem State.recordWrite_kept {r0 s : State} (r : Nat) (hk : Kept r0 s) :
    Kept r0 (State.recordWrite s r) := by
  unfold State.recordWrite
  repeat' first
    | with_reducible assumption
    | with_reducible apply State.store_kept
    | with_reducible apply State.setRing_kept
    | with_reducible apply State.countRecord_kept
    | with_reducible apply State.bump_kept
    | split
    | with_reducible apply Kept.foldl
    | intro _ _ _
    | intro _ _
    | with_reducible exact Kept.refl _
    | with_reducible apply Kept.useFree
    | (refine Kept.other (s := ?_) ?_ ?_; rotate_left 2; (dsimp only; with_reducible rfl))
    | (refine Kept.fresh (s := ?_) ?_ 1 ?_; rotate_left 2; (dsimp only; with_reducible rfl))

theorem State.recoveryGo_kept {r0 s : State}  (hk : Kept r0 s) :
    Kept r0 (State.recoveryGo s) := by
  unfold State.recoveryGo
  repeat' first
    | with_reducible assumption
    | with_reducible apply State.wr_kept
    | with_reducible apply State.ledger_kept
    | split
    | with_reducible apply Kept.foldl
    | intro _ _ _
    | intro _ _
    | with_reducible exact Kept.refl _
    | with_reducible apply Kept.useFree
    | (refine Kept.other (s := ?_) ?_ ?_; rotate_left 2; (dsimp only; with_reducible rfl))
    | (refine Kept.fresh (s := ?_) ?_ 1 ?_; rotate_left 2; (dsimp only; with_reducible rfl))

theorem State.setEventMsix_kept {r0 s : State} (on : Bool) (hk : Kept r0 s) :
    Kept r0 (State.setEventMsix s on) := by
  unfold State.setEventMsix
  repeat' first
    | with_reducible assumption
    | with_reducible apply State.wr_kept
    | with_reducible apply State.eventMsg_kept
    | split
    | with_reducible apply Kept.foldl
    | intro _ _ _
    | intro _ _
    | with_reducible exact Kept.refl _
    | with_reducible apply Kept.useFree
    | (refine Kept.other (s := ?_) ?_ ?_; rotate_left 2; (dsimp only; with_reducible rfl))
    | (refine Kept.fresh (s := ?_) ?_ 1 ?_; rotate_left 2; (dsimp only; with_reducible rfl))

theorem State.writeField_kept {r0 s : State} (base : Nat) (mask : Nat) (v : Nat) (o : Option ObjRef) (f : Field) (hk : Kept r0 s) :
    Kept r0 (State.writeField s base mask v o f) := by
  unfold State.writeField
  repeat' first
    | with_reducible assumption
    | with_reducible apply State.wr_kept
    | with_reducible apply State.setEventMsix_kept
    | split
    | with_reducible apply Kept.foldl
    | intro _ _ _
    | intro _ _
    | with_reducible exact Kept.refl _
    | with_reducible apply Kept.useFree
    | (refine Kept.other (s := ?_) ?_ ?_; rotate_left 2; (dsimp only; with_reducible rfl))
    | (refine Kept.fresh (s := ?_) ?_ 1 ?_; rotate_left 2; (dsimp only; with_reducible rfl))

theorem State.writeFields_kept {r0 s : State} (base : Nat) (mask : Nat) (v : Nat) (o : Option ObjRef) (l1 : List Field) (hk : Kept r0 s) :
    Kept r0 (State.writeFields s base mask v o l1) := by
  induction l1 generalizing s base mask v o with
  | nil => exact hk
  | cons y l ih =>
    unfold State.writeFields
    repeat' first
      | with_reducible assumption
      | with_reducible apply ih
      | with_reducible apply State.writeField_kept
      | split
      | with_reducible apply Kept.foldl
      | intro _ _ _
      | intro _ _
      | with_reducible exact Kept.refl _
      | with_reducible apply Kept.useFree
      | (refine Kept.other (s := ?_) ?_ ?_; rotate_left 2; (dsimp only; with_reducible rfl))
      | (refine Kept.fresh (s := ?_) ?_ 1 ?_; rotate_left 2; (dsimp only; with_reducible rfl))

theorem State.writeMgmt_kept {r0 s : State} (o : Nat) (v : Nat) (hk : Kept r0 s) :
    Kept r0 (State.writeMgmt s o v) := by
  unfold State.writeMgmt
  repeat' first
    | with_reducible assumption
    | with_reducible apply State.recoveryGo_kept
    | with_reducible apply State.writeFields_kept
    | split
    | with_reducible apply Kept.foldl
    | intro _ _ _
    | intro _ _
    | with_reducible exact Kept.refl _
    | with_reducible apply Kept.useFree
    | (refine Kept.other (s := ?_) ?_ ?_; rotate_left 2; (dsimp only; with_reducible rfl))
    | (refine Kept.fresh (s := ?_) ?_ 1 ?_; rotate_left 2; (dsimp only; with_reducible rfl))

theorem State.writeMsix_kept {r0 s : State} (f : CxlId) (i : Nat) (mask : Nat) (v : Nat) (hk : Kept r0 s) :
    Kept r0 (State.writeMsix s f i mask v) := by
  unfold State.writeMsix
  repeat' first
    | with_reducible assumption
    | with_reducible apply State.flushPba_kept
    | split
    | with_reducible apply Kept.foldl
    | intro _ _ _
    | intro _ _
    | with_reducible exact Kept.refl _
    | with_reducible apply Kept.useFree
    | (refine Kept.other (s := ?_) ?_ ?_; rotate_left 2; (dsimp only; with_reducible rfl))
    | (refine Kept.fresh (s := ?_) ?_ 1 ?_; rotate_left 2; (dsimp only; with_reducible rfl))

theorem State.ringEnable_kept {r0 s : State} (r : RingId) (hk : Kept r0 s) :
    Kept r0 (State.ringEnable s r) := by
  unfold State.ringEnable
  repeat' first
    | with_reducible assumption
    | with_reducible apply State.requestEnable_kept
    | with_reducible apply State.wr_kept
    | split
    | with_reducible apply Kept.foldl
    | intro _ _ _
    | intro _ _
    | with_reducible exact Kept.refl _
    | with_reducible apply Kept.useFree
    | (refine Kept.other (s := ?_) ?_ ?_; rotate_left 2; (dsimp only; with_reducible rfl))
    | (refine Kept.fresh (s := ?_) ?_ 1 ?_; rotate_left 2; (dsimp only; with_reducible rfl))

theorem State.tableDisable_kept {r0 s : State} (x : CtxId) (hk : Kept r0 s) :
    Kept r0 (State.tableDisable s x) := by
  unfold State.tableDisable
  repeat' first
    | with_reducible assumption
    | with_reducible apply State.cancelCheck_kept
    | with_reducible apply State.objPost_kept
    | with_reducible apply State.stopTable_kept
    | split
    | with_reducible apply Kept.foldl
    | intro _ _ _
    | intro _ _
    | with_reducible exact Kept.refl _
    | with_reducible apply Kept.useFree
    | (refine Kept.other (s := ?_) ?_ ?_; rotate_left 2; (dsimp only; with_reducible rfl))
    | (refine Kept.fresh (s := ?_) ?_ 1 ?_; rotate_left 2; (dsimp only; with_reducible rfl))

theorem State.t3wDisable_kept {r0 s : State} (x : CtxId) (hk : Kept r0 s) :
    Kept r0 (State.t3wDisable s x) := by
  unfold State.t3wDisable
  repeat' first
    | with_reducible assumption
    | with_reducible apply State.cancelCheck_kept
    | with_reducible apply State.objPost_kept
    | with_reducible apply State.objDisable_kept
    | split
    | with_reducible apply Kept.foldl
    | intro _ _ _
    | intro _ _
    | with_reducible exact Kept.refl _
    | with_reducible apply Kept.useFree
    | (refine Kept.other (s := ?_) ?_ ?_; rotate_left 2; (dsimp only; with_reducible rfl))
    | (refine Kept.fresh (s := ?_) ?_ 1 ?_; rotate_left 2; (dsimp only; with_reducible rfl))

theorem State.writeEnable_kept {r0 s : State} (o : ObjRef) (on : Bool) (hk : Kept r0 s) :
    Kept r0 (State.writeEnable s o on) := by
  unfold State.writeEnable
  repeat' first
    | with_reducible assumption
    | with_reducible apply State.ringEnable_kept
    | with_reducible apply State.requestEnable_kept
    | with_reducible apply State.cancelCheck_kept
    | with_reducible apply State.beginTeardown_kept
    | with_reducible apply State.clearPair_kept
    | with_reducible apply State.disablePort_kept
    | with_reducible apply State.addressDisable_kept
    | with_reducible apply State.tableDisable_kept
    | with_reducible apply State.slotDisable_kept
    | with_reducible apply State.storeDisable_kept
    | with_reducible apply State.hdmDisable_kept
    | with_reducible apply State.t3wDisable_kept
    | with_reducible apply State.ringDisable_kept
    | split
    | with_reducible apply Kept.foldl
    | intro _ _ _
    | intro _ _
    | with_reducible exact Kept.refl _
    | with_reducible apply Kept.useFree
    | (refine Kept.other (s := ?_) ?_ ?_; rotate_left 2; (dsimp only; with_reducible rfl))
    | (refine Kept.fresh (s := ?_) ?_ 1 ?_; rotate_left 2; (dsimp only; with_reducible rfl))

theorem State.writeStarts_kept {r0 s : State} (o : Nat) (base : Nat) (off : Nat) (mask : Nat) (v : Nat) (obj : Option ObjRef) (hk : Kept r0 s) :
    Kept r0 (State.writeStarts s o base off mask v obj) := by
  unfold State.writeStarts
  repeat' first
    | with_reducible assumption
    | with_reducible apply State.writeEnable_kept
    | with_reducible apply State.rotate_kept
    | with_reducible apply State.fenceGo_kept
    | with_reducible apply State.testRequest_kept
    | split
    | with_reducible apply Kept.foldl
    | intro _ _ _
    | intro _ _
    | with_reducible exact Kept.refl _
    | with_reducible apply Kept.useFree
    | (refine Kept.other (s := ?_) ?_ ?_; rotate_left 2; (dsimp only; with_reducible rfl))
    | (refine Kept.fresh (s := ?_) ?_ 1 ?_; rotate_left 2; (dsimp only; with_reducible rfl))

theorem State.writeBar0_kept {r0 s : State} (f : CxlId) (o : Nat) (mask : Nat) (v : Nat) (hk : Kept r0 s) :
    Kept r0 (State.writeBar0 s f o mask v) := by
  unfold State.writeBar0
  repeat' first
    | with_reducible assumption
    | with_reducible apply State.writeRoute_kept
    | with_reducible apply State.writeMsix_kept
    | with_reducible apply State.writeStarts_kept
    | with_reducible apply State.writeFields_kept
    | split
    | with_reducible apply Kept.foldl
    | intro _ _ _
    | intro _ _
    | with_reducible exact Kept.refl _
    | with_reducible apply Kept.useFree
    | (refine Kept.other (s := ?_) ?_ ?_; rotate_left 2; (dsimp only; with_reducible rfl))
    | (refine Kept.fresh (s := ?_) ?_ 1 ?_; rotate_left 2; (dsimp only; with_reducible rfl))

theorem State.writeBar2_kept {r0 s : State} (o : Nat) (mask : Nat) (v : Nat) (hk : Kept r0 s) :
    Kept r0 (State.writeBar2 s o mask v) := by
  unfold State.writeBar2
  repeat' first
    | with_reducible assumption
    | with_reducible apply State.counterClear_kept
    | split
    | with_reducible apply Kept.foldl
    | intro _ _ _
    | intro _ _
    | with_reducible exact Kept.refl _
    | with_reducible apply Kept.useFree
    | (refine Kept.other (s := ?_) ?_ ?_; rotate_left 2; (dsimp only; with_reducible rfl))
    | (refine Kept.fresh (s := ?_) ?_ 1 ?_; rotate_left 2; (dsimp only; with_reducible rfl))

theorem State.registerWrite_kept {r0 s : State} (w : RegWrite) (hk : Kept r0 s) :
    Kept r0 (State.registerWrite s w) := by
  unfold State.registerWrite
  repeat' first
    | with_reducible assumption
    | with_reducible apply State.writeMgmt_kept
    | with_reducible apply State.bar_kept
    | with_reducible apply State.inc_kept
    | with_reducible apply State.writeBar0_kept
    | with_reducible apply State.writeBar2_kept
    | split
    | with_reducible apply Kept.foldl
    | intro _ _ _
    | intro _ _
    | with_reducible exact Kept.refl _
    | with_reducible apply Kept.useFree
    | (refine Kept.other (s := ?_) ?_ ?_; rotate_left 2; (dsimp only; with_reducible rfl))
    | (refine Kept.fresh (s := ?_) ?_ 1 ?_; rotate_left 2; (dsimp only; with_reducible rfl))

theorem State.ringPoll_kept {r0 s : State} (r : RingId) (st : List (Nat × Byte)) (readOk : Bool) (hk : Kept r0 s) :
    Kept r0 (State.ringPoll s r st readOk) := by
  unfold State.ringPoll
  repeat' first
    | with_reducible assumption
    | with_reducible apply State.hostStores_kept
    | with_reducible apply State.readLine_kept
    | split
    | with_reducible apply Kept.foldl
    | intro _ _ _
    | intro _ _
    | with_reducible exact Kept.refl _
    | with_reducible apply Kept.useFree
    | (refine Kept.other (s := ?_) ?_ ?_; rotate_left 2; (dsimp only; with_reducible rfl))
    | (refine Kept.fresh (s := ?_) ?_ 1 ?_; rotate_left 2; (dsimp only; with_reducible rfl))

end Sys2Proof.Machine
end

