-- ==== Sys2Proof/Laws/KeptPower.lean ====
section
/-! SUPPORT. Kept for the operations of power, resets and the idle step: one lemma each, for a composition of any of them. -/
namespace Sys2Proof.Machine
set_option linter.unusedTactic false
set_option linter.unreachableTactic false

theorem State.aspm_kept {r0 s : State} (p : Nat) (enter : Bool) (hk : Kept r0 s) :
    Kept r0 (State.aspm s p enter) := by
  unfold State.aspm
  repeat' first
    | with_reducible assumption
    | split
    | with_reducible apply Kept.foldl
    | intro _ _ _
    | intro _ _
    | with_reducible exact Kept.refl _
    | with_reducible apply Kept.useFree
    | (refine Kept.other (s := ?_) ?_ ?_; rotate_left 2; (dsimp only; with_reducible rfl))
    | (refine Kept.fresh (s := ?_) ?_ 1 ?_; rotate_left 2; (dsimp only; with_reducible rfl))

theorem State.assignAddress_kept {r0 s : State} (a : BitVec 7) (hk : Kept r0 s) :
    Kept r0 (State.assignAddress s a) := by
  unfold State.assignAddress
  repeat' first
    | with_reducible assumption
    | split
    | with_reducible apply Kept.foldl
    | intro _ _ _
    | intro _ _
    | with_reducible exact Kept.refl _
    | with_reducible apply Kept.useFree
    | (refine Kept.other (s := ?_) ?_ ?_; rotate_left 2; (dsimp only; with_reducible rfl))
    | (refine Kept.fresh (s := ?_) ?_ 1 ?_; rotate_left 2; (dsimp only; with_reducible rfl))

theorem State.baySleep_kept {r0 s : State} (b : Nat) (hk : Kept r0 s) :
    Kept r0 (State.baySleep s b) := by
  unfold State.baySleep
  repeat' first
    | with_reducible assumption
    | with_reducible apply State.wr_kept
    | split
    | with_reducible apply Kept.foldl
    | intro _ _ _
    | intro _ _
    | with_reducible exact Kept.refl _
    | with_reducible apply Kept.useFree
    | (refine Kept.other (s := ?_) ?_ ?_; rotate_left 2; (dsimp only; with_reducible rfl))
    | (refine Kept.fresh (s := ?_) ?_ 1 ?_; rotate_left 2; (dsimp only; with_reducible rfl))

theorem State.bayWake_kept {r0 s : State} (b : Nat) (hk : Kept r0 s) :
    Kept r0 (State.bayWake s b) := by
  unfold State.bayWake
  repeat' first
    | with_reducible assumption
    | with_reducible apply State.wr_kept
    | with_reducible apply State.scrubCores_kept
    | split
    | with_reducible apply Kept.foldl
    | intro _ _ _
    | intro _ _
    | with_reducible exact Kept.refl _
    | with_reducible apply Kept.useFree
    | (refine Kept.other (s := ?_) ?_ ?_; rotate_left 2; (dsimp only; with_reducible rfl))
    | (refine Kept.fresh (s := ?_) ?_ 1 ?_; rotate_left 2; (dsimp only; with_reducible rfl))

theorem State.pwrPost_kept {r0 s : State} (code : Nat) (hk : Kept r0 s) :
    Kept r0 (State.pwrPost s code) := by
  unfold State.pwrPost
  repeat' first
    | with_reducible assumption
    | with_reducible apply State.wr_kept
    | split
    | with_reducible apply Kept.foldl
    | intro _ _ _
    | intro _ _
    | with_reducible exact Kept.refl _
    | with_reducible apply Kept.useFree
    | (refine Kept.other (s := ?_) ?_ ?_; rotate_left 2; (dsimp only; with_reducible rfl))
    | (refine Kept.fresh (s := ?_) ?_ 1 ?_; rotate_left 2; (dsimp only; with_reducible rfl))

theorem State.coreTrip_kept {r0 s : State} (c : Nat) (hk : Kept r0 s) :
    Kept r0 (State.coreTrip s c) := by
  unfold State.coreTrip
  repeat' first
    | with_reducible assumption
    | with_reducible apply State.logFault_kept
    | with_reducible apply State.haltAll_kept
    | with_reducible apply State.pwrPost_kept
    | split
    | with_reducible apply Kept.foldl
    | intro _ _ _
    | intro _ _
    | with_reducible exact Kept.refl _
    | with_reducible apply Kept.useFree
    | (refine Kept.other (s := ?_) ?_ ?_; rotate_left 2; (dsimp only; with_reducible rfl))
    | (refine Kept.fresh (s := ?_) ?_ 1 ?_; rotate_left 2; (dsimp only; with_reducible rfl))

theorem dropCopies_keys (m : Map Ring) (p : Nat → Bool) (b : Nat) (h : keysAbove b m = true) : keysAbove b (dropCopies m p) = true := by
  induction m generalizing b with
  | nil => rfl
  | cons kv m ih =>
    simp only [keysAbove, Bool.and_eq_true, decide_eq_true_eq] at h
    have ih' := ih _ h.2
    unfold dropCopies at ih' ⊢
    rw [List.map_cons]
    split <;> simp [keysAbove, h.1, ih']
theorem State.loseCopies_kept {r0 s : State} (p : Nat) (hk : Kept r0 s) : Kept r0 (State.loseCopies s p) := by
  refine ⟨hk.pending, hk.nowUs, hk.free, hk.tier1, hk.hostMem, hk.nvw, hk.poison, hk.drone, hk.cores, hk.ctxs, hk.queues, fun w => ?_⟩
  have hw := (mapWf_iff _ _).mp (hk.rings w)
  refine (mapWf_iff _ _).mpr ⟨keysAbove_filter _ (dropCopies_keys _ _ 0 hw.1), fun x hx => ?_⟩
  simpa using (List.mem_filter.mp hx).2

theorem State.cxlDown_kept {r0 s : State} (p : Nat) (hk : Kept r0 s) :
    Kept r0 (State.cxlDown s p) := by
  unfold State.cxlDown
  repeat' first
    | with_reducible assumption
    | with_reducible apply State.resetFields_kept
    | with_reducible apply State.loseCopies_kept
    | split
    | with_reducible apply Kept.foldl
    | intro _ _ _
    | intro _ _
    | with_reducible exact Kept.refl _
    | with_reducible apply Kept.useFree
    | (refine Kept.other (s := ?_) ?_ ?_; rotate_left 2; (dsimp only; with_reducible rfl))
    | (refine Kept.fresh (s := ?_) ?_ 1 ?_; rotate_left 2; (dsimp only; with_reducible rfl))

theorem State.cxlLost_kept {r0 s : State} (p : Nat) (hk : Kept r0 s) :
    Kept r0 (State.cxlLost s p) := by
  unfold State.cxlLost
  repeat' first
    | with_reducible assumption
    | with_reducible apply State.cxlDown_kept
    | split
    | with_reducible apply Kept.foldl
    | intro _ _ _
    | intro _ _
    | with_reducible exact Kept.refl _
    | with_reducible apply Kept.useFree
    | (refine Kept.other (s := ?_) ?_ ?_; rotate_left 2; (dsimp only; with_reducible rfl))
    | (refine Kept.fresh (s := ?_) ?_ 1 ?_; rotate_left 2; (dsimp only; with_reducible rfl))

theorem State.cxlTrained_kept {r0 s : State} (p : Nat) (l : CxlLink) (hk : Kept r0 s) :
    Kept r0 (State.cxlTrained s p l) := by
  unfold State.cxlTrained
  repeat' first
    | with_reducible assumption
    | with_reducible apply State.wr_kept
    | with_reducible apply State.loseCopies_kept
    | split
    | with_reducible apply Kept.foldl
    | intro _ _ _
    | intro _ _
    | with_reducible exact Kept.refl _
    | with_reducible apply Kept.useFree
    | (refine Kept.other (s := ?_) ?_ ?_; rotate_left 2; (dsimp only; with_reducible rfl))
    | (refine Kept.fresh (s := ?_) ?_ 1 ?_; rotate_left 2; (dsimp only; with_reducible rfl))

theorem State.trainPorts_kept {r0 s : State} (l1 : List Nat) (hk : Kept r0 s) :
    Kept r0 (State.trainPorts s l1) := by
  induction l1 generalizing s with
  | nil => exact hk
  | cons y l ih =>
    unfold State.trainPorts
    repeat' first
      | with_reducible assumption
      | with_reducible apply ih
      | with_reducible apply State.startPort_kept
      | split
      | with_reducible apply Kept.foldl
      | intro _ _ _
      | intro _ _
      | with_reducible exact Kept.refl _
      | with_reducible apply Kept.useFree
      | (refine Kept.other (s := ?_) ?_ ?_; rotate_left 2; (dsimp only; with_reducible rfl))
      | (refine Kept.fresh (s := ?_) ?_ 1 ?_; rotate_left 2; (dsimp only; with_reducible rfl))

theorem State.flushBoth_kept {r0 s : State}  (hk : Kept r0 s) :
    Kept r0 (State.flushBoth s) := by
  unfold State.flushBoth
  repeat' first
    | with_reducible assumption
    | with_reducible apply State.flushPba_kept
    | split
    | with_reducible apply Kept.foldl
    | intro _ _ _
    | intro _ _
    | with_reducible exact Kept.refl _
    | with_reducible apply Kept.useFree
    | (refine Kept.other (s := ?_) ?_ ?_; rotate_left 2; (dsimp only; with_reducible rfl))
    | (refine Kept.fresh (s := ?_) ?_ 1 ?_; rotate_left 2; (dsimp only; with_reducible rfl))

theorem State.readLines_kept {r0 s : State} (l1 : List Nat) (hk : Kept r0 s) :
    Kept r0 (State.readLines s l1) := by
  induction l1 generalizing s with
  | nil => exact hk
  | cons y l ih =>
    unfold State.readLines
    repeat' first
      | with_reducible assumption
      | with_reducible apply ih
      | with_reducible apply State.readLine_kept
      | split
      | with_reducible apply Kept.foldl
      | intro _ _ _
      | intro _ _
      | with_reducible exact Kept.refl _
      | with_reducible apply Kept.useFree
      | (refine Kept.other (s := ?_) ?_ ?_; rotate_left 2; (dsimp only; with_reducible rfl))
      | (refine Kept.fresh (s := ?_) ?_ 1 ?_; rotate_left 2; (dsimp only; with_reducible rfl))

theorem State.d0Return_kept {r0 s : State}  (hk : Kept r0 s) :
    Kept r0 (State.d0Return s) := by
  unfold State.d0Return
  repeat' first
    | with_reducible assumption
    | with_reducible apply State.trainPorts_kept
    | with_reducible apply State.flushBoth_kept
    | with_reducible apply State.readLines_kept
    | split
    | with_reducible apply Kept.foldl
    | intro _ _ _
    | intro _ _
    | with_reducible exact Kept.refl _
    | with_reducible apply Kept.useFree
    | (refine Kept.other (s := ?_) ?_ ?_; rotate_left 2; (dsimp only; with_reducible rfl))
    | (refine Kept.fresh (s := ?_) ?_ 1 ?_; rotate_left 2; (dsimp only; with_reducible rfl))

theorem State.d3cold_kept {r0 s : State}  (hk : Kept r0 s) :
    Kept r0 (State.d3cold s) := by
  unfold State.d3cold
  repeat' first
    | with_reducible assumption
    | split
    | with_reducible apply Kept.foldl
    | intro _ _ _
    | intro _ _
    | with_reducible exact Kept.refl _
    | with_reducible apply Kept.useFree
    | (refine Kept.other (s := ?_) ?_ ?_; rotate_left 2; (dsimp only; with_reducible rfl))
    | (refine Kept.fresh (s := ?_) ?_ 1 ?_; rotate_left 2; (dsimp only; with_reducible rfl))

theorem State.endFetched_kept {r0 s : State} (code : Nat) (l1 : List Fetched) (hk : Kept r0 s) :
    Kept r0 (State.endFetched s code l1) := by
  induction l1 generalizing s code with
  | nil => exact hk
  | cons y l ih =>
    unfold State.endFetched
    repeat' first
      | with_reducible assumption
      | with_reducible apply ih
      | with_reducible apply State.post_kept
      | with_reducible apply State.setRing_kept
      | split
      | with_reducible apply Kept.foldl
      | intro _ _ _
      | intro _ _
      | with_reducible exact Kept.refl _
      | with_reducible apply Kept.useFree
      | (refine Kept.other (s := ?_) ?_ ?_; rotate_left 2; (dsimp only; with_reducible rfl))
      | (refine Kept.fresh (s := ?_) ?_ 1 ?_; rotate_left 2; (dsimp only; with_reducible rfl))

theorem State.endOpen_kept {r0 s : State} (x code : Nat) (hk : Kept r0 s) : Kept r0 (State.endOpen s x code) := by
  have h2 := fun l k => Kept.foldl (s := s.setCtx x k) (f := fun a t => a.post t true code 0 0) l
    (fun _ _ h => State.post_kept _ _ _ _ _ h) (State.setCtx_kept x k hk)
  exact Kept.ite (State.finishLoads_kept _ _ (h2 _ _)) (h2 _ _)

theorem State.endOpens_kept {r0 s : State} (code : Nat) (l1 : List Nat) (hk : Kept r0 s) :
    Kept r0 (State.endOpens s code l1) := by
  induction l1 generalizing s code with
  | nil => exact hk
  | cons y l ih =>
    unfold State.endOpens
    repeat' first
      | with_reducible assumption
      | with_reducible apply ih
      | with_reducible apply State.endOpen_kept
      | split
      | with_reducible apply Kept.foldl
      | intro _ _ _
      | intro _ _
      | with_reducible exact Kept.refl _
      | with_reducible apply Kept.useFree
      | (refine Kept.other (s := ?_) ?_ ?_; rotate_left 2; (dsimp only; with_reducible rfl))
      | (refine Kept.fresh (s := ?_) ?_ 1 ?_; rotate_left 2; (dsimp only; with_reducible rfl))

theorem State.endErasures_kept {r0 s : State} (code : Nat) (l1 : List Erasure) (hk : Kept r0 s) :
    Kept r0 (State.endErasures s code l1) := by
  induction l1 generalizing s code with
  | nil => exact hk
  | cons y l ih =>
    unfold State.endErasures
    repeat' first
      | with_reducible assumption
      | with_reducible apply ih
      | with_reducible apply State.ledger_kept
      | with_reducible apply State.setSlots_kept
      | with_reducible apply State.post_kept
      | split
      | with_reducible apply Kept.foldl
      | intro _ _ _
      | intro _ _
      | with_reducible exact Kept.refl _
      | with_reducible apply Kept.useFree
      | (refine Kept.other (s := ?_) ?_ ?_; rotate_left 2; (dsimp only; with_reducible rfl))
      | (refine Kept.fresh (s := ?_) ?_ 1 ?_; rotate_left 2; (dsimp only; with_reducible rfl))

theorem State.endInstalls_kept {r0 s : State} (code : Nat) (l1 : List Install) (hk : Kept r0 s) :
    Kept r0 (State.endInstalls s code l1) := by
  induction l1 generalizing s code with
  | nil => exact hk
  | cons y l ih =>
    unfold State.endInstalls
    repeat' first
      | with_reducible assumption
      | with_reducible apply ih
      | with_reducible apply State.failInstall_kept
      | split
      | with_reducible apply Kept.foldl
      | intro _ _ _
      | intro _ _
      | with_reducible exact Kept.refl _
      | with_reducible apply Kept.useFree
      | (refine Kept.other (s := ?_) ?_ ?_; rotate_left 2; (dsimp only; with_reducible rfl))
      | (refine Kept.fresh (s := ?_) ?_ 1 ?_; rotate_left 2; (dsimp only; with_reducible rfl))

theorem State.endTickets_kept {r0 s : State} (code : Nat) (l1 : List Ticket) (hk : Kept r0 s) :
    Kept r0 (State.endTickets s code l1) := by
  induction l1 generalizing s code with
  | nil => exact hk
  | cons y l ih =>
    unfold State.endTickets
    repeat' first
      | with_reducible assumption
      | with_reducible apply ih
      | with_reducible apply State.post_kept
      | split
      | with_reducible apply Kept.foldl
      | intro _ _ _
      | intro _ _
      | with_reducible exact Kept.refl _
      | with_reducible apply Kept.useFree
      | (refine Kept.other (s := ?_) ?_ ?_; rotate_left 2; (dsimp only; with_reducible rfl))
      | (refine Kept.fresh (s := ?_) ?_ 1 ?_; rotate_left 2; (dsimp only; with_reducible rfl))

theorem State.portsOff_kept {r0 s : State} (l1 : List Nat) (hk : Kept r0 s) :
    Kept r0 (State.portsOff s l1) := by
  induction l1 generalizing s with
  | nil => exact hk
  | cons y l ih =>
    unfold State.portsOff
    repeat' first
      | with_reducible assumption
      | with_reducible apply ih
      | with_reducible apply State.clearSpan_kept
      | with_reducible apply State.wr_kept
      | with_reducible apply State.setLink_kept
      | with_reducible apply State.portGone_kept
      | with_reducible apply State.setPort_kept
      | split
      | with_reducible apply Kept.foldl
      | intro _ _ _
      | intro _ _
      | with_reducible exact Kept.refl _
      | with_reducible apply Kept.useFree
      | (refine Kept.other (s := ?_) ?_ ?_; rotate_left 2; (dsimp only; with_reducible rfl))
      | (refine Kept.fresh (s := ?_) ?_ 1 ?_; rotate_left 2; (dsimp only; with_reducible rfl))

theorem State.d3hot_kept {r0 s : State}  (hk : Kept r0 s) :
    Kept r0 (State.d3hot s) := by
  unfold State.d3hot
  repeat' first
    | with_reducible assumption
    | with_reducible apply State.haltAll_kept
    | with_reducible apply State.endFetched_kept
    | with_reducible apply State.endOpens_kept
    | with_reducible apply State.endErasures_kept
    | with_reducible apply State.endInstalls_kept
    | with_reducible apply State.endTickets_kept
    | with_reducible apply State.portsOff_kept
    | with_reducible apply State.loseCopies_kept
    | split
    | with_reducible apply Kept.foldl
    | intro _ _ _
    | intro _ _
    | with_reducible exact Kept.refl _
    | with_reducible apply Kept.useFree
    | (refine Kept.other (s := ?_) ?_ ?_; rotate_left 2; (dsimp only; with_reducible rfl))
    | (refine Kept.fresh (s := ?_) ?_ 1 ?_; rotate_left 2; (dsimp only; with_reducible rfl))

theorem State.doe_kept {r0 s : State} (p : Nat) (k : DoeRequest) (hk : Kept r0 s) :
    Kept r0 (State.doe s p k) := by
  unfold State.doe
  repeat' first
    | with_reducible assumption
    | with_reducible apply State.wr_kept
    | split
    | with_reducible apply Kept.foldl
    | intro _ _ _
    | intro _ _
    | with_reducible exact Kept.refl _
    | with_reducible apply Kept.useFree
    | (refine Kept.other (s := ?_) ?_ ?_; rotate_left 2; (dsimp only; with_reducible rfl))
    | (refine Kept.fresh (s := ?_) ?_ 1 ?_; rotate_left 2; (dsimp only; with_reducible rfl))

theorem State.failPorts_kept {r0 s : State} (l1 : List Nat) (hk : Kept r0 s) :
    Kept r0 (State.failPorts s l1) := by
  induction l1 generalizing s with
  | nil => exact hk
  | cons y l ih =>
    unfold State.failPorts
    repeat' first
      | with_reducible assumption
      | with_reducible apply ih
      | with_reducible apply State.linkLost_kept
      | split
      | with_reducible apply Kept.foldl
      | intro _ _ _
      | intro _ _
      | with_reducible exact Kept.refl _
      | with_reducible apply Kept.useFree
      | (refine Kept.other (s := ?_) ?_ ?_; rotate_left 2; (dsimp only; with_reducible rfl))
      | (refine Kept.fresh (s := ?_) ?_ 1 ?_; rotate_left 2; (dsimp only; with_reducible rfl))

theorem State.frequencyStep_kept {r0 s : State} (b : Nat) (hk : Kept r0 s) :
    Kept r0 (State.frequencyStep s b) := by
  unfold State.frequencyStep
  repeat' first
    | with_reducible assumption
    | with_reducible apply State.sequencedBent_kept
    | with_reducible apply State.wr_kept
    | split
    | with_reducible apply Kept.foldl
    | intro _ _ _
    | intro _ _
    | with_reducible exact Kept.refl _
    | with_reducible apply Kept.useFree
    | (refine Kept.other (s := ?_) ?_ ?_; rotate_left 2; (dsimp only; with_reducible rfl))
    | (refine Kept.fresh (s := ?_) ?_ 1 ?_; rotate_left 2; (dsimp only; with_reducible rfl))

theorem State.functionSleep_kept {r0 s : State} (p : Nat) (hk : Kept r0 s) :
    Kept r0 (State.functionSleep s p) := by
  unfold State.functionSleep
  repeat' first
    | with_reducible assumption
    | with_reducible apply State.loseCopies_kept
    | split
    | with_reducible apply Kept.foldl
    | intro _ _ _
    | intro _ _
    | with_reducible exact Kept.refl _
    | with_reducible apply Kept.useFree
    | (refine Kept.other (s := ?_) ?_ ?_; rotate_left 2; (dsimp only; with_reducible rfl))
    | (refine Kept.fresh (s := ?_) ?_ 1 ?_; rotate_left 2; (dsimp only; with_reducible rfl))

theorem State.functionWake_kept {r0 s : State} (p : Nat) (hk : Kept r0 s) :
    Kept r0 (State.functionWake s p) := by
  unfold State.functionWake
  repeat' first
    | with_reducible assumption
    | with_reducible apply State.flushBoth_kept
    | with_reducible apply State.readLines_kept
    | split
    | with_reducible apply Kept.foldl
    | intro _ _ _
    | intro _ _
    | with_reducible exact Kept.refl _
    | with_reducible apply Kept.useFree
    | (refine Kept.other (s := ?_) ?_ ?_; rotate_left 2; (dsimp only; with_reducible rfl))
    | (refine Kept.fresh (s := ?_) ?_ 1 ?_; rotate_left 2; (dsimp only; with_reducible rfl))

theorem State.l0pChange_kept {r0 s : State} (p : Nat) (w : CxlWidth) (hk : Kept r0 s) :
    Kept r0 (State.l0pChange s p w) := by
  unfold State.l0pChange
  repeat' first
    | with_reducible assumption
    | split
    | with_reducible apply Kept.foldl
    | intro _ _ _
    | intro _ _
    | with_reducible exact Kept.refl _
    | with_reducible apply Kept.useFree
    | (refine Kept.other (s := ?_) ?_ ?_; rotate_left 2; (dsimp only; with_reducible rfl))
    | (refine Kept.fresh (s := ?_) ?_ 1 ?_; rotate_left 2; (dsimp only; with_reducible rfl))

theorem State.setPowerCeil_kept {r0 s : State} (b : Nat) (v : Nat) (hk : Kept r0 s) :
    Kept r0 (State.setPowerCeil s b v) := by
  unfold State.setPowerCeil
  repeat' first
    | with_reducible assumption
    | with_reducible apply State.showCeiling_kept
    | split
    | with_reducible apply Kept.foldl
    | intro _ _ _
    | intro _ _
    | with_reducible exact Kept.refl _
    | with_reducible apply Kept.useFree
    | (refine Kept.other (s := ?_) ?_ ?_; rotate_left 2; (dsimp only; with_reducible rfl))
    | (refine Kept.fresh (s := ?_) ?_ 1 ?_; rotate_left 2; (dsimp only; with_reducible rfl))

theorem State.lowerPower_kept {r0 s : State} (l1 : List Nat) (hk : Kept r0 s) :
    Kept r0 (State.lowerPower s l1) := by
  induction l1 generalizing s with
  | nil => exact hk
  | cons y l ih =>
    unfold State.lowerPower
    repeat' first
      | with_reducible assumption
      | with_reducible apply ih
      | with_reducible apply State.setPowerCeil_kept
      | split
      | with_reducible apply Kept.foldl
      | intro _ _ _
      | intro _ _
      | with_reducible exact Kept.refl _
      | with_reducible apply Kept.useFree
      | (refine Kept.other (s := ?_) ?_ ?_; rotate_left 2; (dsimp only; with_reducible rfl))
      | (refine Kept.fresh (s := ?_) ?_ 1 ?_; rotate_left 2; (dsimp only; with_reducible rfl))

theorem State.raisePower_kept {r0 s : State} (l1 : List Nat) (hk : Kept r0 s) :
    Kept r0 (State.raisePower s l1) := by
  induction l1 generalizing s with
  | nil => exact hk
  | cons y l ih =>
    unfold State.raisePower
    repeat' first
      | with_reducible assumption
      | with_reducible apply ih
      | with_reducible apply State.setPowerCeil_kept
      | split
      | with_reducible apply Kept.foldl
      | intro _ _ _
      | intro _ _
      | with_reducible exact Kept.refl _
      | with_reducible apply Kept.useFree
      | (refine Kept.other (s := ?_) ?_ ?_; rotate_left 2; (dsimp only; with_reducible rfl))
      | (refine Kept.fresh (s := ?_) ?_ 1 ?_; rotate_left 2; (dsimp only; with_reducible rfl))

theorem State.powerCap_kept {r0 s : State} (p10 : Nat) (p1 : Nat) (raise : Bool) (hk : Kept r0 s) :
    Kept r0 (State.powerCap s p10 p1 raise) := by
  unfold State.powerCap
  repeat' first
    | with_reducible assumption
    | with_reducible apply State.wr_kept
    | with_reducible apply State.incBy_kept
    | with_reducible apply State.lowerPower_kept
    | with_reducible apply State.raisePower_kept
    | split
    | with_reducible apply Kept.foldl
    | intro _ _ _
    | intro _ _
    | with_reducible exact Kept.refl _
    | with_reducible apply Kept.useFree
    | (refine Kept.other (s := ?_) ?_ ?_; rotate_left 2; (dsimp only; with_reducible rfl))
    | (refine Kept.fresh (s := ?_) ?_ 1 ?_; rotate_left 2; (dsimp only; with_reducible rfl))

theorem State.setRail_kept {r0 s : State} (i : Nat) (v : Nat) (hk : Kept r0 s) :
    Kept r0 (State.setRail s i v) := by
  unfold State.setRail
  repeat' first
    | with_reducible assumption
    | split
    | with_reducible apply Kept.foldl
    | intro _ _ _
    | intro _ _
    | with_reducible exact Kept.refl _
    | with_reducible apply Kept.useFree
    | (refine Kept.other (s := ?_) ?_ ?_; rotate_left 2; (dsimp only; with_reducible rfl))
    | (refine Kept.fresh (s := ?_) ?_ 1 ?_; rotate_left 2; (dsimp only; with_reducible rfl))

theorem State.setClock_kept {r0 s : State} (k : Nat) (lost : Bool) (hk : Kept r0 s) :
    Kept r0 (State.setClock s k lost) := by
  unfold State.setClock
  repeat' first
    | with_reducible assumption
    | split
    | with_reducible apply Kept.foldl
    | intro _ _ _
    | intro _ _
    | with_reducible exact Kept.refl _
    | with_reducible apply Kept.useFree
    | (refine Kept.other (s := ?_) ?_ ?_; rotate_left 2; (dsimp only; with_reducible rfl))
    | (refine Kept.fresh (s := ?_) ?_ 1 ?_; rotate_left 2; (dsimp only; with_reducible rfl))

theorem State.refclkLoss_kept {r0 s : State} (k : RefClock) (hk : Kept r0 s) :
    Kept r0 (State.refclkLoss s k) := by
  unfold State.refclkLoss
  repeat' first
    | with_reducible assumption
    | with_reducible apply State.setClock_kept
    | with_reducible apply State.cxlDown_kept
    | with_reducible apply State.pwrPost_kept
    | with_reducible apply State.failPorts_kept
    | with_reducible apply State.haltAll_kept
    | split
    | with_reducible apply Kept.foldl
    | intro _ _ _
    | intro _ _
    | with_reducible exact Kept.refl _
    | with_reducible apply Kept.useFree
    | (refine Kept.other (s := ?_) ?_ ?_; rotate_left 2; (dsimp only; with_reducible rfl))
    | (refine Kept.fresh (s := ?_) ?_ 1 ?_; rotate_left 2; (dsimp only; with_reducible rfl))

theorem State.statusRead_kept {r0 s : State}  (hk : Kept r0 s) :
    Kept r0 (State.statusRead s) := by
  unfold State.statusRead
  repeat' first
    | with_reducible assumption
    | split
    | with_reducible apply Kept.foldl
    | intro _ _ _
    | intro _ _
    | with_reducible exact Kept.refl _
    | with_reducible apply Kept.useFree
    | (refine Kept.other (s := ?_) ?_ ?_; rotate_left 2; (dsimp only; with_reducible rfl))
    | (refine Kept.fresh (s := ?_) ?_ 1 ?_; rotate_left 2; (dsimp only; with_reducible rfl))

theorem State.tap_kept {r0 s : State} (i : TapInstr) (hk : Kept r0 s) :
    Kept r0 (State.tap s i) := by
  unfold State.tap
  repeat' first
    | with_reducible assumption
    | split
    | with_reducible apply Kept.foldl
    | intro _ _ _
    | intro _ _
    | with_reducible exact Kept.refl _
    | with_reducible apply Kept.useFree
    | (refine Kept.other (s := ?_) ?_ ?_; rotate_left 2; (dsimp only; with_reducible rfl))
    | (refine Kept.fresh (s := ?_) ?_ 1 ?_; rotate_left 2; (dsimp only; with_reducible rfl))

theorem State.unreachable_kept {r0 s : State}  (hk : Kept r0 s) :
    Kept r0 (State.unreachable s) := by
  unfold State.unreachable
  repeat' first
    | with_reducible assumption
    | with_reducible apply State.pwrPost_kept
    | with_reducible apply State.haltAll_kept
    | split
    | with_reducible apply Kept.foldl
    | intro _ _ _
    | intro _ _
    | with_reducible exact Kept.refl _
    | with_reducible apply Kept.useFree
    | (refine Kept.other (s := ?_) ?_ ?_; rotate_left 2; (dsimp only; with_reducible rfl))
    | (refine Kept.fresh (s := ?_) ?_ 1 ?_; rotate_left 2; (dsimp only; with_reducible rfl))

theorem State.replayPos_kept {r0 s : State} (h : Nat) (free : Nat) (l1 : Nat) (l2 : List (Option (Fin 17))) (hk : Kept r0 s) :
    Kept r0 (State.replayPos s h free l1 l2) := by
  induction l2 generalizing s h free l1 with
  | nil => exact hk
  | cons y l ih =>
    unfold State.replayPos
    repeat' first
      | with_reducible assumption
      | with_reducible apply ih
      | with_reducible apply State.setPhys_kept
      | split
      | with_reducible apply Kept.foldl
      | intro _ _ _
      | intro _ _
      | with_reducible exact Kept.refl _
      | with_reducible apply Kept.useFree
      | (refine Kept.other (s := ?_) ?_ ?_; rotate_left 2; (dsimp only; with_reducible rfl))
      | (refine Kept.fresh (s := ?_) ?_ 1 ?_; rotate_left 2; (dsimp only; with_reducible rfl))

theorem State.applyRec_kept {r0 s : State} (l1 : LedgerRec) (hk : Kept r0 s) :
    Kept r0 (State.applyRec s l1) := by
  unfold State.applyRec
  repeat' first
    | with_reducible assumption
    | with_reducible apply State.replayPos_kept
    | with_reducible apply State.showFree_kept
    | with_reducible apply State.setFree_kept
    | with_reducible apply State.wr_kept
    | with_reducible apply State.setSlot_kept
    | with_reducible apply State.inc_kept
    | split
    | with_reducible apply Kept.foldl
    | intro _ _ _
    | intro _ _
    | with_reducible exact Kept.refl _
    | with_reducible apply Kept.useFree
    | (refine Kept.other (s := ?_) ?_ ?_; rotate_left 2; (dsimp only; with_reducible rfl))
    | (refine Kept.fresh (s := ?_) ?_ 1 ?_; rotate_left 2; (dsimp only; with_reducible rfl))

theorem State.coldKept_kept {r0 s : State} (hk : Kept r0 s) : Kept r0 (State.coldKept s) :=
  ⟨hk.pending, hk.nowUs, hk.free, fun _ => rfl, hk.hostMem, hk.nvw, fun _ => rfl, fun _ => rfl, fun _ => rfl, fun _ => rfl, fun _ => rfl, fun _ => rfl⟩

theorem State.replayRecs_kept {r0 s : State} (l1 : List LedgerRec) (hk : Kept r0 s) :
    Kept r0 (State.replayRecs s l1) := by
  induction l1 generalizing s with
  | nil => exact hk
  | cons y l ih =>
    unfold State.replayRecs
    repeat' first
      | with_reducible assumption
      | with_reducible apply ih
      | with_reducible apply State.applyRec_kept
      | split
      | with_reducible apply Kept.foldl
      | intro _ _ _
      | intro _ _
      | with_reducible exact Kept.refl _
      | with_reducible apply Kept.useFree
      | (refine Kept.other (s := ?_) ?_ ?_; rotate_left 2; (dsimp only; with_reducible rfl))
      | (refine Kept.fresh (s := ?_) ?_ 1 ?_; rotate_left 2; (dsimp only; with_reducible rfl))

theorem State.settleSlot_kept {r0 s : State} (old : State) (n : Nat) (hk : Kept r0 s) :
    Kept r0 (State.settleSlot s old n) := by
  unfold State.settleSlot
  repeat' first
    | with_reducible assumption
    | with_reducible apply State.ledger_kept
    | with_reducible apply State.setSlot_kept
    | with_reducible apply State.showTeacher_kept
    | split
    | with_reducible apply Kept.foldl
    | intro _ _ _
    | intro _ _
    | with_reducible exact Kept.refl _
    | with_reducible apply Kept.useFree
    | (refine Kept.other (s := ?_) ?_ ?_; rotate_left 2; (dsimp only; with_reducible rfl))
    | (refine Kept.fresh (s := ?_) ?_ 1 ?_; rotate_left 2; (dsimp only; with_reducible rfl))

theorem State.settleSlots_kept {r0 s : State} (old : State) (l1 : List Nat) (hk : Kept r0 s) :
    Kept r0 (State.settleSlots s old l1) := by
  induction l1 generalizing s old with
  | nil => exact hk
  | cons y l ih =>
    unfold State.settleSlots
    repeat' first
      | with_reducible assumption
      | with_reducible apply ih
      | with_reducible apply State.settleSlot_kept
      | split
      | with_reducible apply Kept.foldl
      | intro _ _ _
      | intro _ _
      | with_reducible exact Kept.refl _
      | with_reducible apply Kept.useFree
      | (refine Kept.other (s := ?_) ?_ ?_; rotate_left 2; (dsimp only; with_reducible rfl))
      | (refine Kept.fresh (s := ?_) ?_ 1 ?_; rotate_left 2; (dsimp only; with_reducible rfl))

theorem State.coldReset_kept {r0 s : State} (recover : Bool) (hk : Kept r0 s) : Kept r0 (State.coldReset s recover) := by
  unfold State.coldReset
  extract_lets a torn src s1 s2 s3 s4 s5
  have h3 : Kept r0 s3 := State.wr_kept _ _ _ (State.wr_kept _ _ _ (State.wr_kept _ _ _ (State.newChallenge_kept (Kept.useFree 1 (State.coldKept_kept hk)))))
  clear_value s3
  have h5 : Kept r0 s5 := State.settleSlots_kept _ _ (State.showFill_kept (State.replayRecs_kept _ (Kept.other h3 rfl)))
  clear_value s5
  exact Kept.other h5 rfl

theorem State.dropRings_kept {r0 s : State} (l1 : List Nat) (hk : Kept r0 s) :
    Kept r0 (State.dropRings s l1) := by
  induction l1 generalizing s with
  | nil => exact hk
  | cons y l ih =>
    unfold State.dropRings
    repeat' first
      | with_reducible assumption
      | with_reducible apply ih
      | with_reducible apply State.disableRings_kept
      | split
      | with_reducible apply Kept.foldl
      | intro _ _ _
      | intro _ _
      | with_reducible exact Kept.refl _
      | with_reducible apply Kept.useFree
      | (refine Kept.other (s := ?_) ?_ ?_; rotate_left 2; (dsimp only; with_reducible rfl))
      | (refine Kept.fresh (s := ?_) ?_ 1 ?_; rotate_left 2; (dsimp only; with_reducible rfl))

theorem State.tearAll_kept {r0 s : State} (l1 : List Nat) (hk : Kept r0 s) :
    Kept r0 (State.tearAll s l1) := by
  induction l1 generalizing s with
  | nil => exact hk
  | cons y l ih =>
    unfold State.tearAll
    repeat' first
      | with_reducible assumption
      | with_reducible apply ih
      | with_reducible apply State.beginTeardown_kept
      | split
      | with_reducible apply Kept.foldl
      | intro _ _ _
      | intro _ _
      | with_reducible exact Kept.refl _
      | with_reducible apply Kept.useFree
      | (refine Kept.other (s := ?_) ?_ ?_; rotate_left 2; (dsimp only; with_reducible rfl))
      | (refine Kept.fresh (s := ?_) ?_ 1 ?_; rotate_left 2; (dsimp only; with_reducible rfl))

theorem State.keepRegs_kept {r0 s : State} (p : Nat → Bool) (hk : Kept r0 s) :
    Kept r0 (State.keepRegs s p) := by
  unfold State.keepRegs
  repeat' first
    | with_reducible assumption
    | split
    | with_reducible apply Kept.foldl
    | intro _ _ _
    | intro _ _
    | with_reducible exact Kept.refl _
    | with_reducible apply Kept.useFree
    | (refine Kept.other (s := ?_) ?_ ?_; rotate_left 2; (dsimp only; with_reducible rfl))
    | (refine Kept.fresh (s := ?_) ?_ 1 ?_; rotate_left 2; (dsimp only; with_reducible rfl))

theorem State.cxlReset_kept {r0 s : State} (hk : Kept r0 s) : Kept r0 (State.cxlReset s) := by
  unfold State.cxlReset
  split
  · exact hk
  · extract_lets xs s1 s2 s3
    have h3 : Kept r0 s3 := State.keepRegs_kept _ (State.zeroTier1_kept _ (State.dropRings_kept _ (State.tearAll_kept _ hk)))
    clear_value s3
    exact ⟨h3.pending, h3.nowUs, h3.free, h3.tier1, h3.hostMem, h3.nvw, h3.poison, h3.drone, fun _ => rfl, fun _ => rfl, fun _ => rfl, h3.rings⟩

theorem State.drainAll_kept {r0 s : State} (l1 : List Nat) (hk : Kept r0 s) :
    Kept r0 (State.drainAll s l1) := by
  induction l1 generalizing s with
  | nil => exact hk
  | cons y l ih =>
    unfold State.drainAll
    repeat' first
      | with_reducible assumption
      | with_reducible apply ih
      | with_reducible apply State.drainCore_kept
      | split
      | with_reducible apply Kept.foldl
      | intro _ _ _
      | intro _ _
      | with_reducible exact Kept.refl _
      | with_reducible apply Kept.useFree
      | (refine Kept.other (s := ?_) ?_ ?_; rotate_left 2; (dsimp only; with_reducible rfl))
      | (refine Kept.fresh (s := ?_) ?_ 1 ?_; rotate_left 2; (dsimp only; with_reducible rfl))

theorem State.endClears_kept {r0 s : State} (old : State) (hk : Kept r0 s) :
    Kept r0 (State.endClears s old) := by
  unfold State.endClears
  repeat' first
    | with_reducible assumption
    | with_reducible apply State.zeroRegion_kept
    | split
    | with_reducible apply Kept.foldl
    | intro _ _ _
    | intro _ _
    | with_reducible exact Kept.refl _
    | with_reducible apply Kept.useFree
    | (refine Kept.other (s := ?_) ?_ ?_; rotate_left 2; (dsimp only; with_reducible rfl))
    | (refine Kept.fresh (s := ?_) ?_ 1 ?_; rotate_left 2; (dsimp only; with_reducible rfl))

theorem State.hdmsOff_kept {r0 s : State} (l1 : List Nat) (hk : Kept r0 s) :
    Kept r0 (State.hdmsOff s l1) := by
  induction l1 generalizing s with
  | nil => exact hk
  | cons y l ih =>
    unfold State.hdmsOff
    repeat' first
      | with_reducible assumption
      | with_reducible apply ih
      | with_reducible apply State.objDisable_kept
      | with_reducible apply State.recallWindow_kept
      | split
      | with_reducible apply Kept.foldl
      | intro _ _ _
      | intro _ _
      | with_reducible exact Kept.refl _
      | with_reducible apply Kept.useFree
      | (refine Kept.other (s := ?_) ?_ ?_; rotate_left 2; (dsimp only; with_reducible rfl))
      | (refine Kept.fresh (s := ?_) ?_ 1 ?_; rotate_left 2; (dsimp only; with_reducible rfl))

theorem State.ringsDisable_kept {r0 s : State} (l1 : List Nat) (hk : Kept r0 s) :
    Kept r0 (State.ringsDisable s l1) := by
  induction l1 generalizing s with
  | nil => exact hk
  | cons y l ih =>
    unfold State.ringsDisable
    repeat' first
      | with_reducible assumption
      | with_reducible apply ih
      | with_reducible apply State.ringDisable_kept
      | split
      | with_reducible apply Kept.foldl
      | intro _ _ _
      | intro _ _
      | with_reducible exact Kept.refl _
      | with_reducible apply Kept.useFree
      | (refine Kept.other (s := ?_) ?_ ?_; rotate_left 2; (dsimp only; with_reducible rfl))
      | (refine Kept.fresh (s := ?_) ?_ 1 ?_; rotate_left 2; (dsimp only; with_reducible rfl))

theorem State.flr_kept {r0 s : State} (p : Nat) (hk : Kept r0 s) :
    Kept r0 (State.flr s p) := by
  unfold State.flr
  repeat' first
    | with_reducible assumption
    | with_reducible apply State.hdmsOff_kept
    | with_reducible apply State.ringsDisable_kept
    | split
    | with_reducible apply Kept.foldl
    | intro _ _ _
    | intro _ _
    | with_reducible exact Kept.refl _
    | with_reducible apply Kept.useFree
    | (refine Kept.other (s := ?_) ?_ ?_; rotate_left 2; (dsimp only; with_reducible rfl))
    | (refine Kept.fresh (s := ?_) ?_ 1 ?_; rotate_left 2; (dsimp only; with_reducible rfl))

theorem State.memorySet_kept {r0 s : State}  (hk : Kept r0 s) :
    Kept r0 (State.memorySet s) := by
  unfold State.memorySet
  repeat' first
    | with_reducible assumption
    | split
    | with_reducible apply Kept.foldl
    | intro _ _ _
    | intro _ _
    | with_reducible exact Kept.refl _
    | with_reducible apply Kept.useFree
    | (refine Kept.other (s := ?_) ?_ ?_; rotate_left 2; (dsimp only; with_reducible rfl))
    | (refine Kept.fresh (s := ?_) ?_ 1 ?_; rotate_left 2; (dsimp only; with_reducible rfl))

theorem State.offQueue_kept {r0 s : State} (x : Nat) (q : Nat) (hk : Kept r0 s) :
    Kept r0 (State.offQueue s x q) := by
  unfold State.offQueue
  repeat' first
    | with_reducible assumption
    | with_reducible apply State.zeroRegion_kept
    | with_reducible apply State.queuePacket_kept
    | with_reducible apply State.wr_kept
    | split
    | with_reducible apply Kept.foldl
    | intro _ _ _
    | intro _ _
    | with_reducible exact Kept.refl _
    | with_reducible apply Kept.useFree
    | (refine Kept.other (s := ?_) ?_ ?_; rotate_left 2; (dsimp only; with_reducible rfl))
    | (refine Kept.fresh (s := ?_) ?_ 1 ?_; rotate_left 2; (dsimp only; with_reducible rfl))

theorem State.offQueues_kept {r0 s : State} (l1 : List (Nat × Nat)) (hk : Kept r0 s) :
    Kept r0 (State.offQueues s l1) := by
  induction l1 generalizing s with
  | nil => exact hk
  | cons y l ih =>
    unfold State.offQueues
    repeat' first
      | with_reducible assumption
      | with_reducible apply ih
      | with_reducible apply State.offQueue_kept
      | split
      | with_reducible apply Kept.foldl
      | intro _ _ _
      | intro _ _
      | with_reducible exact Kept.refl _
      | with_reducible apply Kept.useFree
      | (refine Kept.other (s := ?_) ?_ ?_; rotate_left 2; (dsimp only; with_reducible rfl))
      | (refine Kept.fresh (s := ?_) ?_ 1 ?_; rotate_left 2; (dsimp only; with_reducible rfl))

theorem State.offObjs_kept {r0 s : State} (base : Nat → Nat) (enable : Field) (status : Field) (code : Nat) (l1 : List Nat) (hk : Kept r0 s) :
    Kept r0 (State.offObjs s base enable status code l1) := by
  induction l1 generalizing s base enable status code with
  | nil => exact hk
  | cons y l ih =>
    unfold State.offObjs
    repeat' first
      | with_reducible assumption
      | with_reducible apply ih
      | with_reducible apply State.wr_kept
      | split
      | with_reducible apply Kept.foldl
      | intro _ _ _
      | intro _ _
      | with_reducible exact Kept.refl _
      | with_reducible apply Kept.useFree
      | (refine Kept.other (s := ?_) ?_ ?_; rotate_left 2; (dsimp only; with_reducible rfl))
      | (refine Kept.fresh (s := ?_) ?_ 1 ?_; rotate_left 2; (dsimp only; with_reducible rfl))

theorem State.offLinks_kept {r0 s : State}  (hk : Kept r0 s) :
    Kept r0 (State.offLinks s) := by
  unfold State.offLinks
  repeat' first
    | with_reducible assumption
    | with_reducible apply State.offQueues_kept
    | with_reducible apply State.offObjs_kept
    | split
    | with_reducible apply Kept.foldl
    | intro _ _ _
    | intro _ _
    | with_reducible exact Kept.refl _
    | with_reducible apply Kept.useFree
    | (refine Kept.other (s := ?_) ?_ ?_; rotate_left 2; (dsimp only; with_reducible rfl))
    | (refine Kept.fresh (s := ?_) ?_ 1 ?_; rotate_left 2; (dsimp only; with_reducible rfl))

theorem State.outOfTolerance_kept {r0 s : State} (still : Bool) (hk : Kept r0 s) :
    Kept r0 (State.outOfTolerance s still) := by
  unfold State.outOfTolerance
  repeat' first
    | with_reducible assumption
    | with_reducible apply State.pwrPost_kept
    | with_reducible apply State.drainAll_kept
    | with_reducible apply State.haltAll_kept
    | with_reducible apply State.coldReset_kept
    | split
    | with_reducible apply Kept.foldl
    | intro _ _ _
    | intro _ _
    | with_reducible exact Kept.refl _
    | with_reducible apply Kept.useFree
    | (refine Kept.other (s := ?_) ?_ ?_; rotate_left 2; (dsimp only; with_reducible rfl))
    | (refine Kept.fresh (s := ?_) ?_ 1 ?_; rotate_left 2; (dsimp only; with_reducible rfl))

theorem State.perstDeassert_kept {r0 s : State} (p : Nat) (hk : Kept r0 s) :
    Kept r0 (State.perstDeassert s p) := by
  unfold State.perstDeassert
  repeat' first
    | with_reducible assumption
    | split
    | with_reducible apply Kept.foldl
    | intro _ _ _
    | intro _ _
    | with_reducible exact Kept.refl _
    | with_reducible apply Kept.useFree
    | (refine Kept.other (s := ?_) ?_ ?_; rotate_left 2; (dsimp only; with_reducible rfl))
    | (refine Kept.fresh (s := ?_) ?_ 1 ?_; rotate_left 2; (dsimp only; with_reducible rfl))

theorem State.portReset_kept {r0 s : State} (p : Nat) (hk : Kept r0 s) :
    Kept r0 (State.portReset s p) := by
  unfold State.portReset
  repeat' first
    | with_reducible assumption
    | with_reducible apply State.flr_kept
    | with_reducible apply State.cxlDown_kept
    | split
    | with_reducible apply Kept.foldl
    | intro _ _ _
    | intro _ _
    | with_reducible exact Kept.refl _
    | with_reducible apply Kept.useFree
    | (refine Kept.other (s := ?_) ?_ ?_; rotate_left 2; (dsimp only; with_reducible rfl))
    | (refine Kept.fresh (s := ?_) ?_ 1 ?_; rotate_left 2; (dsimp only; with_reducible rfl))

theorem State.warmKept_kept {r0 s : State} (hk : Kept r0 s) : Kept r0 (State.warmKept s) :=
  ⟨hk.pending, hk.nowUs, hk.free, fun _ => rfl, hk.hostMem, hk.nvw, fun _ => rfl, fun _ => rfl, fun _ => rfl, fun _ => rfl, fun _ => rfl, fun _ => rfl⟩

theorem State.sweepLost_kept {r0 s : State}  (hk : Kept r0 s) :
    Kept r0 (State.sweepLost s) := by
  unfold State.sweepLost
  repeat' first
    | with_reducible assumption
    | with_reducible apply State.wr_kept
    | with_reducible apply State.ledger_kept
    | split
    | with_reducible apply Kept.foldl
    | intro _ _ _
    | intro _ _
    | with_reducible exact Kept.refl _
    | with_reducible apply Kept.useFree
    | (refine Kept.other (s := ?_) ?_ ?_; rotate_left 2; (dsimp only; with_reducible rfl))
    | (refine Kept.fresh (s := ?_) ?_ 1 ?_; rotate_left 2; (dsimp only; with_reducible rfl))

theorem State.retrainPorts_kept {r0 s : State} (l1 : List Nat) (hk : Kept r0 s) :
    Kept r0 (State.retrainPorts s l1) := by
  induction l1 generalizing s with
  | nil => exact hk
  | cons y l ih =>
    unfold State.retrainPorts
    repeat' first
      | with_reducible assumption
      | with_reducible apply ih
      | with_reducible apply State.wr_kept
      | split
      | with_reducible apply Kept.foldl
      | intro _ _ _
      | intro _ _
      | with_reducible exact Kept.refl _
      | with_reducible apply Kept.useFree
      | (refine Kept.other (s := ?_) ?_ ?_; rotate_left 2; (dsimp only; with_reducible rfl))
      | (refine Kept.fresh (s := ?_) ?_ 1 ?_; rotate_left 2; (dsimp only; with_reducible rfl))

theorem State.warmBare_kept {r0 s : State}  (hk : Kept r0 s) :
    Kept r0 (State.warmBare s) := by
  unfold State.warmBare
  repeat' first
    | with_reducible assumption
    | with_reducible apply State.warmKept_kept
    | with_reducible apply State.sweepLost_kept
    | with_reducible apply State.retrainPorts_kept
    | split
    | with_reducible apply Kept.foldl
    | intro _ _ _
    | intro _ _
    | with_reducible exact Kept.refl _
    | with_reducible apply Kept.useFree
    | (refine Kept.other (s := ?_) ?_ ?_; rotate_left 2; (dsimp only; with_reducible rfl))
    | (refine Kept.fresh (s := ?_) ?_ 1 ?_; rotate_left 2; (dsimp only; with_reducible rfl))

theorem State.railBad_kept {r0 s : State}  (hk : Kept r0 s) :
    Kept r0 (State.railBad s) := by
  unfold State.railBad
  repeat' first
    | with_reducible assumption
    | with_reducible apply State.pwrPost_kept
    | with_reducible apply State.warmBare_kept
    | split
    | with_reducible apply Kept.foldl
    | intro _ _ _
    | intro _ _
    | with_reducible exact Kept.refl _
    | with_reducible apply Kept.useFree
    | (refine Kept.other (s := ?_) ?_ ?_; rotate_left 2; (dsimp only; with_reducible rfl))
    | (refine Kept.fresh (s := ?_) ?_ 1 ?_; rotate_left 2; (dsimp only; with_reducible rfl))

theorem State.railRecheck_kept {r0 s : State}  (hk : Kept r0 s) :
    Kept r0 (State.railRecheck s) := by
  unfold State.railRecheck
  repeat' first
    | with_reducible assumption
    | split
    | with_reducible apply Kept.foldl
    | intro _ _ _
    | intro _ _
    | with_reducible exact Kept.refl _
    | with_reducible apply Kept.useFree
    | (refine Kept.other (s := ?_) ?_ ?_; rotate_left 2; (dsimp only; with_reducible rfl))
    | (refine Kept.fresh (s := ?_) ?_ 1 ?_; rotate_left 2; (dsimp only; with_reducible rfl))

theorem State.railEvent_kept {r0 s : State} (r : Rail) (k : RailStep) (hk : Kept r0 s) :
    Kept r0 (State.railEvent s r k) := by
  unfold State.railEvent
  repeat' first
    | with_reducible assumption
    | with_reducible apply State.setRail_kept
    | with_reducible apply State.railBad_kept
    | with_reducible apply State.railRecheck_kept
    | split
    | with_reducible apply Kept.foldl
    | intro _ _ _
    | intro _ _
    | with_reducible exact Kept.refl _
    | with_reducible apply Kept.useFree
    | (refine Kept.other (s := ?_) ?_ ?_; rotate_left 2; (dsimp only; with_reducible rfl))
    | (refine Kept.fresh (s := ?_) ?_ 1 ?_; rotate_left 2; (dsimp only; with_reducible rfl))

theorem State.settleCtx_kept {r0 s : State} (x : Nat) (hk : Kept r0 s) :
    Kept r0 (State.settleCtx s x) := by
  unfold State.settleCtx
  repeat' first
    | with_reducible assumption
    | with_reducible apply State.setCtx_kept
    | with_reducible apply State.setCtxState_kept
    | with_reducible apply State.wr_kept
    | split
    | with_reducible apply Kept.foldl
    | intro _ _ _
    | intro _ _
    | with_reducible exact Kept.refl _
    | with_reducible apply Kept.useFree
    | (refine Kept.other (s := ?_) ?_ ?_; rotate_left 2; (dsimp only; with_reducible rfl))
    | (refine Kept.fresh (s := ?_) ?_ 1 ?_; rotate_left 2; (dsimp only; with_reducible rfl))

theorem State.settleCtxs_kept {r0 s : State} (l1 : List Nat) (hk : Kept r0 s) :
    Kept r0 (State.settleCtxs s l1) := by
  induction l1 generalizing s with
  | nil => exact hk
  | cons y l ih =>
    unfold State.settleCtxs
    repeat' first
      | with_reducible assumption
      | with_reducible apply ih
      | with_reducible apply State.settleCtx_kept
      | split
      | with_reducible apply Kept.foldl
      | intro _ _ _
      | intro _ _
      | with_reducible exact Kept.refl _
      | with_reducible apply Kept.useFree
      | (refine Kept.other (s := ?_) ?_ ?_; rotate_left 2; (dsimp only; with_reducible rfl))
      | (refine Kept.fresh (s := ?_) ?_ 1 ?_; rotate_left 2; (dsimp only; with_reducible rfl))

theorem State.sweepResume_kept {r0 s : State} (hk : Kept r0 s) : Kept r0 (State.sweepResume s) := by
  unfold State.sweepResume
  exact Kept.ite (State.wr_kept _ _ _ hk) hk

theorem State.warmPreserved_kept {r0 s : State} (hk : Kept r0 s) : Kept r0 (State.warmPreserved s) := by
  have h1 : Kept r0 ({ s.warmKept with
      regs := s.regs.filter (fun kv => (warmHeld kv.1 || preserveHeld kv.1) && !telemetryKey kv.1)
      tier1 := s.tier1, poison := s.poison, drone := s.drone, fresh := s.fresh, ctxs := s.ctxs, runSeq := s.runSeq, placeSeq := s.placeSeq } : State) := ?_
  · exact State.sweepResume_kept (State.offLinks_kept (State.settleCtxs_kept _ (State.retrainPorts_kept _ (State.endClears_kept _ h1))))
  exact ⟨hk.pending, hk.nowUs, hk.free, hk.tier1, hk.hostMem, hk.nvw, hk.poison, hk.drone, fun _ => rfl, hk.ctxs, fun _ => rfl, fun _ => rfl⟩

theorem State.warmReset_kept {r0 s : State}  (hk : Kept r0 s) :
    Kept r0 (State.warmReset s) := by
  unfold State.warmReset
  repeat' first
    | with_reducible assumption
    | with_reducible apply State.warmPreserved_kept
    | with_reducible apply State.warmBare_kept
    | split
    | with_reducible apply Kept.foldl
    | intro _ _ _
    | intro _ _
    | with_reducible exact Kept.refl _
    | with_reducible apply Kept.useFree
    | (refine Kept.other (s := ?_) ?_ ?_; rotate_left 2; (dsimp only; with_reducible rfl))
    | (refine Kept.fresh (s := ?_) ?_ 1 ?_; rotate_left 2; (dsimp only; with_reducible rfl))

theorem State.tickBays_kept {r0 s : State} (l1 : List Nat) (hk : Kept r0 s) :
    Kept r0 (State.tickBays s l1) := by
  induction l1 generalizing s with
  | nil => exact hk
  | cons y l ih =>
    unfold State.tickBays
    repeat' first
      | with_reducible assumption
      | with_reducible apply ih
      | with_reducible apply State.bump_kept
      | split
      | with_reducible apply Kept.foldl
      | intro _ _ _
      | intro _ _
      | with_reducible exact Kept.refl _
      | with_reducible apply Kept.useFree
      | (refine Kept.other (s := ?_) ?_ ?_; rotate_left 2; (dsimp only; with_reducible rfl))
      | (refine Kept.fresh (s := ?_) ?_ 1 ?_; rotate_left 2; (dsimp only; with_reducible rfl))

theorem State.tickBent_kept {r0 s : State} (h : Nat) (hk : Kept r0 s) :
    Kept r0 (State.tickBent s h) := by
  unfold State.tickBent
  repeat' first
    | with_reducible assumption
    | with_reducible apply State.wr_kept
    | with_reducible apply State.sequencedBent_kept
    | split
    | with_reducible apply Kept.foldl
    | intro _ _ _
    | intro _ _
    | with_reducible exact Kept.refl _
    | with_reducible apply Kept.useFree
    | (refine Kept.other (s := ?_) ?_ ?_; rotate_left 2; (dsimp only; with_reducible rfl))
    | (refine Kept.fresh (s := ?_) ?_ 1 ?_; rotate_left 2; (dsimp only; with_reducible rfl))

theorem State.tickBents_kept {r0 s : State} (l1 : List Nat) (hk : Kept r0 s) :
    Kept r0 (State.tickBents s l1) := by
  induction l1 generalizing s with
  | nil => exact hk
  | cons y l ih =>
    unfold State.tickBents
    repeat' first
      | with_reducible assumption
      | with_reducible apply ih
      | with_reducible apply State.tickBent_kept
      | split
      | with_reducible apply Kept.foldl
      | intro _ _ _
      | intro _ _
      | with_reducible exact Kept.refl _
      | with_reducible apply Kept.useFree
      | (refine Kept.other (s := ?_) ?_ ?_; rotate_left 2; (dsimp only; with_reducible rfl))
      | (refine Kept.fresh (s := ?_) ?_ 1 ?_; rotate_left 2; (dsimp only; with_reducible rfl))

theorem State.tickQueue_kept {r0 s : State} (x : Nat) (q : Nat) (hk : Kept r0 s) :
    Kept r0 (State.tickQueue s x q) := by
  unfold State.tickQueue
  repeat' first
    | with_reducible assumption
    | with_reducible apply State.incBy_kept
    | with_reducible apply State.setQueue_kept
    | split
    | with_reducible apply Kept.foldl
    | intro _ _ _
    | intro _ _
    | with_reducible exact Kept.refl _
    | with_reducible apply Kept.useFree
    | (refine Kept.other (s := ?_) ?_ ?_; rotate_left 2; (dsimp only; with_reducible rfl))
    | (refine Kept.fresh (s := ?_) ?_ 1 ?_; rotate_left 2; (dsimp only; with_reducible rfl))

theorem State.tickQueues_kept {r0 s : State} (l1 : List Nat) (hk : Kept r0 s) :
    Kept r0 (State.tickQueues s l1) := by
  induction l1 generalizing s with
  | nil => exact hk
  | cons y l ih =>
    unfold State.tickQueues
    repeat' first
      | with_reducible assumption
      | with_reducible apply ih
      | with_reducible apply State.tickQueue_kept
      | split
      | with_reducible apply Kept.foldl
      | intro _ _ _
      | intro _ _
      | with_reducible exact Kept.refl _
      | with_reducible apply Kept.useFree
      | (refine Kept.other (s := ?_) ?_ ?_; rotate_left 2; (dsimp only; with_reducible rfl))
      | (refine Kept.fresh (s := ?_) ?_ 1 ?_; rotate_left 2; (dsimp only; with_reducible rfl))

theorem State.tickStream_kept {r0 s : State} (x : Nat) (st : Nat) (since : Nat) (hk : Kept r0 s) :
    Kept r0 (State.tickStream s x st since) := by
  unfold State.tickStream
  repeat' first
    | with_reducible assumption
    | with_reducible apply State.setEnt_kept
    | split
    | with_reducible apply Kept.foldl
    | intro _ _ _
    | intro _ _
    | with_reducible exact Kept.refl _
    | with_reducible apply Kept.useFree
    | (refine Kept.other (s := ?_) ?_ ?_; rotate_left 2; (dsimp only; with_reducible rfl))
    | (refine Kept.fresh (s := ?_) ?_ 1 ?_; rotate_left 2; (dsimp only; with_reducible rfl))

theorem State.tickStreams_kept {r0 s : State} (x : Nat) (l1 : List (Nat × Nat)) (hk : Kept r0 s) :
    Kept r0 (State.tickStreams s x l1) := by
  induction l1 generalizing s x with
  | nil => exact hk
  | cons y l ih =>
    unfold State.tickStreams
    repeat' first
      | with_reducible assumption
      | with_reducible apply ih
      | with_reducible apply State.tickStream_kept
      | split
      | with_reducible apply Kept.foldl
      | intro _ _ _
      | intro _ _
      | with_reducible exact Kept.refl _
      | with_reducible apply Kept.useFree
      | (refine Kept.other (s := ?_) ?_ ?_; rotate_left 2; (dsimp only; with_reducible rfl))
      | (refine Kept.fresh (s := ?_) ?_ 1 ?_; rotate_left 2; (dsimp only; with_reducible rfl))

theorem State.tickTables_kept {r0 s : State} (l1 : List Nat) (hk : Kept r0 s) :
    Kept r0 (State.tickTables s l1) := by
  induction l1 generalizing s with
  | nil => exact hk
  | cons y l ih =>
    unfold State.tickTables
    repeat' first
      | with_reducible assumption
      | with_reducible apply ih
      | with_reducible apply State.tickStreams_kept
      | split
      | with_reducible apply Kept.foldl
      | intro _ _ _
      | intro _ _
      | with_reducible exact Kept.refl _
      | with_reducible apply Kept.useFree
      | (refine Kept.other (s := ?_) ?_ ?_; rotate_left 2; (dsimp only; with_reducible rfl))
      | (refine Kept.fresh (s := ?_) ?_ 1 ?_; rotate_left 2; (dsimp only; with_reducible rfl))

theorem State.sweepOn_kept {r0 s : State} (hk : Kept r0 s) : Kept r0 (State.sweepOn s) := by
  unfold State.sweepOn
  refine Kept.ite ?_ hk
  have h1 : Kept r0 ({ s with free := s.free + 1 } : State) := Kept.fresh hk 1 rfl
  exact Kept.ite (State.ledger_kept _ (State.wr_kept _ _ _ h1)) (State.wr_kept _ _ _ h1)

/-- Idling moves the clock and nothing else that Kept holds fast. -/
theorem idleTick_kept (s : State) : Kept { s with nowUs := s.nowUs + 1 } (idleTick s) :=
  State.sweepOn_kept (State.tickBents_kept _ (State.tickTables_kept _ (State.tickQueues_kept _ (State.tickBays_kept _ (Kept.refl _)))))

end Sys2Proof.Machine
end

