-- ==== Sys2Proof/Laws/State.lean ====
section
/-! SUPPORT. The updates of the state: one lemma for each field an update leaves, and what a read finds after a write. -/
namespace Sys2Proof.Machine

/-! ## Registers and parts: a read after a write -/

@[simp] theorem State.rd_wr (s : State) (b : Nat) (f : Field) (v : Nat) : (s.wr b f v).rd b f = v % 2 ^ f.width := by
  simp [State.rd, State.wr]
theorem State.rd_wr_ne (s : State) {b b' : Nat} {f f' : Field} (v : Nat) (h : f'.key b' ≠ f.key b) :
    (s.wr b f v).rd b' f' = s.rd b' f' := by
  simp only [State.rd, State.wr]; exact mapGet_mapSet_other _ _ _ _ h
@[simp] theorem State.core_setCore (s : State) (c : Nat) (k : Core) : (s.setCore c k).core c = k := by
  simp [State.core, State.setCore]
theorem State.core_setCore_ne (s : State) {c d : Nat} (k : Core) (h : d ≠ c) : (s.setCore c k).core d = s.core d := by
  simp [State.core, State.setCore, mapGet_mapSet, h]
@[simp] theorem State.ctx_setCtx (s : State) (x : Nat) (k : Ctx) : (s.setCtx x k).ctx x = k := by
  simp [State.ctx, State.setCtx]
theorem State.ctx_setCtx_ne (s : State) {x y : Nat} (k : Ctx) (h : y ≠ x) : (s.setCtx x k).ctx y = s.ctx y := by
  simp [State.ctx, State.setCtx, mapGet_mapSet, h]
@[simp] theorem State.queue_setQueue (s : State) (x q : Nat) (k : Queue) : (s.setQueue x q k).queue x q = k := by
  simp [State.queue, State.setQueue]
@[simp] theorem State.ring_setRing (s : State) (r : Nat) (k : Ring) : (s.setRing r k).ring r = k := by
  simp [State.ring, State.setRing]
theorem State.ring_setRing_ne (s : State) {r q : Nat} (k : Ring) (h : q ≠ r) : (s.setRing r k).ring q = s.ring q := by
  simp [State.ring, State.setRing, mapGet_mapSet, h]
@[simp] theorem State.port_setPort (s : State) (p : Nat) (k : Port) : (s.setPort p k).port p = k := by
  simp [State.port, State.setPort]
theorem State.port_setPort_ne (s : State) {p q : Nat} (k : Port) (h : q ≠ p) : (s.setPort p k).port q = s.port q := by
  simp [State.port, State.setPort, mapGet_mapSet, h]
/-- The last of two writes to one core is the one that stays. -/
theorem State.setCore_setCore (s : State) (c : Nat) (k l : Core) : (s.setCore c k).setCore c l = s.setCore c l := by
  simp [State.setCore, mapSet_mapSet]
theorem State.setCtx_setCtx (s : State) (x : Nat) (k l : Ctx) : (s.setCtx x k).setCtx x l = s.setCtx x l := by
  simp [State.setCtx, mapSet_mapSet]

/-! ## What an update leaves -/

@[simp] theorem State.wr_cores (s : State) (b : Nat) (f : Field) (v : Nat) : (s.wr b f v).cores = s.cores := rfl
@[simp] theorem State.wr_ctxs (s : State) (b : Nat) (f : Field) (v : Nat) : (s.wr b f v).ctxs = s.ctxs := rfl
@[simp] theorem State.wr_queues (s : State) (b : Nat) (f : Field) (v : Nat) : (s.wr b f v).queues = s.queues := rfl
@[simp] theorem State.wr_pegs (s : State) (b : Nat) (f : Field) (v : Nat) : (s.wr b f v).pegs = s.pegs := rfl
@[simp] theorem State.wr_pegSignals (s : State) (b : Nat) (f : Field) (v : Nat) : (s.wr b f v).pegSignals = s.pegSignals := rfl
@[simp] theorem State.wr_posCore (s : State) (b : Nat) (f : Field) (v : Nat) : (s.wr b f v).posCore = s.posCore := rfl
@[simp] theorem State.wr_freeCore (s : State) (b : Nat) (f : Field) (v : Nat) : (s.wr b f v).freeCore = s.freeCore := rfl
@[simp] theorem State.wr_rings (s : State) (b : Nat) (f : Field) (v : Nat) : (s.wr b f v).rings = s.rings := rfl
@[simp] theorem State.wr_msix (s : State) (b : Nat) (f : Field) (v : Nat) : (s.wr b f v).msix = s.msix := rfl
@[simp] theorem State.wr_pba (s : State) (b : Nat) (f : Field) (v : Nat) : (s.wr b f v).pba = s.pba := rfl
@[simp] theorem State.wr_msgs (s : State) (b : Nat) (f : Field) (v : Nat) : (s.wr b f v).msgs = s.msgs := rfl
@[simp] theorem State.wr_tier1 (s : State) (b : Nat) (f : Field) (v : Nat) : (s.wr b f v).tier1 = s.tier1 := rfl
@[simp] theorem State.wr_poison (s : State) (b : Nat) (f : Field) (v : Nat) : (s.wr b f v).poison = s.poison := rfl
@[simp] theorem State.wr_drone (s : State) (b : Nat) (f : Field) (v : Nat) : (s.wr b f v).drone = s.drone := rfl
@[simp] theorem State.wr_hostHeld (s : State) (b : Nat) (f : Field) (v : Nat) : (s.wr b f v).hostHeld = s.hostHeld := rfl
@[simp] theorem State.wr_bayFreed (s : State) (b : Nat) (f : Field) (v : Nat) : (s.wr b f v).bayFreed = s.bayFreed := rfl
@[simp] theorem State.wr_backInv (s : State) (b : Nat) (f : Field) (v : Nat) : (s.wr b f v).backInv = s.backInv := rfl
@[simp] theorem State.wr_hostMem (s : State) (b : Nat) (f : Field) (v : Nat) : (s.wr b f v).hostMem = s.hostMem := rfl
@[simp] theorem State.wr_nvw (s : State) (b : Nat) (f : Field) (v : Nat) : (s.wr b f v).nvw = s.nvw := rfl
@[simp] theorem State.wr_fresh (s : State) (b : Nat) (f : Field) (v : Nat) : (s.wr b f v).fresh = s.fresh := rfl
@[simp] theorem State.wr_checks (s : State) (b : Nat) (f : Field) (v : Nat) : (s.wr b f v).checks = s.checks := rfl
@[simp] theorem State.wr_ports (s : State) (b : Nat) (f : Field) (v : Nat) : (s.wr b f v).ports = s.ports := rfl
@[simp] theorem State.wr_channels (s : State) (b : Nat) (f : Field) (v : Nat) : (s.wr b f v).channels = s.channels := rfl
@[simp] theorem State.wr_outbox (s : State) (b : Nat) (f : Field) (v : Nat) : (s.wr b f v).outbox = s.outbox := rfl
@[simp] theorem State.wr_delivered (s : State) (b : Nat) (f : Field) (v : Nat) : (s.wr b f v).delivered = s.delivered := rfl
@[simp] theorem State.wr_identities (s : State) (b : Nat) (f : Field) (v : Nat) : (s.wr b f v).identities = s.identities := rfl
@[simp] theorem State.wr_conflicts (s : State) (b : Nat) (f : Field) (v : Nat) : (s.wr b f v).conflicts = s.conflicts := rfl
@[simp] theorem State.wr_incoming (s : State) (b : Nat) (f : Field) (v : Nat) : (s.wr b f v).incoming = s.incoming := rfl
@[simp] theorem State.wr_runSeq (s : State) (b : Nat) (f : Field) (v : Nat) : (s.wr b f v).runSeq = s.runSeq := rfl
@[simp] theorem State.wr_placeSeq (s : State) (b : Nat) (f : Field) (v : Nat) : (s.wr b f v).placeSeq = s.placeSeq := rfl
@[simp] theorem State.wr_manifests (s : State) (b : Nat) (f : Field) (v : Nat) : (s.wr b f v).manifests = s.manifests := rfl
@[simp] theorem State.wr_installs (s : State) (b : Nat) (f : Field) (v : Nat) : (s.wr b f v).installs = s.installs := rfl
@[simp] theorem State.wr_erasures (s : State) (b : Nat) (f : Field) (v : Nat) : (s.wr b f v).erasures = s.erasures := rfl
@[simp] theorem State.wr_staging (s : State) (b : Nat) (f : Field) (v : Nat) : (s.wr b f v).staging = s.staging := rfl
@[simp] theorem State.wr_wear (s : State) (b : Nat) (f : Field) (v : Nat) : (s.wr b f v).wear = s.wear := rfl
@[simp] theorem State.wr_decoders (s : State) (b : Nat) (f : Field) (v : Nat) : (s.wr b f v).decoders = s.decoders := rfl
@[simp] theorem State.wr_decoderErr (s : State) (b : Nat) (f : Field) (v : Nat) : (s.wr b f v).decoderErr = s.decoderErr := rfl
@[simp] theorem State.wr_revoked (s : State) (b : Nat) (f : Field) (v : Nat) : (s.wr b f v).revoked = s.revoked := rfl
@[simp] theorem State.wr_minVersion (s : State) (b : Nat) (f : Field) (v : Nat) : (s.wr b f v).minVersion = s.minVersion := rfl
@[simp] theorem State.wr_images (s : State) (b : Nat) (f : Field) (v : Nat) : (s.wr b f v).images = s.images := rfl
@[simp] theorem State.wr_meas3 (s : State) (b : Nat) (f : Field) (v : Nat) : (s.wr b f v).meas3 = s.meas3 := rfl
@[simp] theorem State.wr_challenge (s : State) (b : Nat) (f : Field) (v : Nat) : (s.wr b f v).challenge = s.challenge := rfl
@[simp] theorem State.wr_fences (s : State) (b : Nat) (f : Field) (v : Nat) : (s.wr b f v).fences = s.fences := rfl
@[simp] theorem State.wr_memberSeq (s : State) (b : Nat) (f : Field) (v : Nat) : (s.wr b f v).memberSeq = s.memberSeq := rfl
@[simp] theorem State.wr_frames (s : State) (b : Nat) (f : Field) (v : Nat) : (s.wr b f v).frames = s.frames := rfl
@[simp] theorem State.wr_served (s : State) (b : Nat) (f : Field) (v : Nat) : (s.wr b f v).served = s.served := rfl
@[simp] theorem State.wr_clkLost (s : State) (b : Nat) (f : Field) (v : Nat) : (s.wr b f v).clkLost = s.clkLost := rfl
@[simp] theorem State.wr_stackHot (s : State) (b : Nat) (f : Field) (v : Nat) : (s.wr b f v).stackHot = s.stackHot := rfl
@[simp] theorem State.wr_coreHot (s : State) (b : Nat) (f : Field) (v : Nat) : (s.wr b f v).coreHot = s.coreHot := rfl
@[simp] theorem State.wr_dstate (s : State) (b : Nat) (f : Field) (v : Nat) : (s.wr b f v).dstate = s.dstate := rfl
@[simp] theorem State.wr_corrected (s : State) (b : Nat) (f : Field) (v : Nat) : (s.wr b f v).corrected = s.corrected := rfl
@[simp] theorem State.wr_retrains (s : State) (b : Nat) (f : Field) (v : Nat) : (s.wr b f v).retrains = s.retrains := rfl
@[simp] theorem State.wr_droops (s : State) (b : Nat) (f : Field) (v : Nat) : (s.wr b f v).droops = s.droops := rfl
@[simp] theorem State.wr_riskHist (s : State) (b : Nat) (f : Field) (v : Nat) : (s.wr b f v).riskHist = s.riskHist := rfl
@[simp] theorem State.wr_risk (s : State) (b : Nat) (f : Field) (v : Nat) : (s.wr b f v).risk = s.risk := rfl
@[simp] theorem State.wr_ckptIndex (s : State) (b : Nat) (f : Field) (v : Nat) : (s.wr b f v).ckptIndex = s.ckptIndex := rfl
@[simp] theorem State.wr_ckpts (s : State) (b : Nat) (f : Field) (v : Nat) : (s.wr b f v).ckpts = s.ckpts := rfl
@[simp] theorem State.wr_drains (s : State) (b : Nat) (f : Field) (v : Nat) : (s.wr b f v).drains = s.drains := rfl
@[simp] theorem State.wr_ledgerWait (s : State) (b : Nat) (f : Field) (v : Nat) : (s.wr b f v).ledgerWait = s.ledgerWait := rfl
@[simp] theorem State.wr_faultLog (s : State) (b : Nat) (f : Field) (v : Nat) : (s.wr b f v).faultLog = s.faultLog := rfl
@[simp] theorem State.wr_transients (s : State) (b : Nat) (f : Field) (v : Nat) : (s.wr b f v).transients = s.transients := rfl
@[simp] theorem State.wr_suspects (s : State) (b : Nat) (f : Field) (v : Nat) : (s.wr b f v).suspects = s.suspects := rfl
@[simp] theorem State.wr_islandFaults (s : State) (b : Nat) (f : Field) (v : Nat) : (s.wr b f v).islandFaults = s.islandFaults := rfl
@[simp] theorem State.wr_testAsked (s : State) (b : Nat) (f : Field) (v : Nat) : (s.wr b f v).testAsked = s.testAsked := rfl
@[simp] theorem State.wr_slotAt (s : State) (b : Nat) (f : Field) (v : Nat) : (s.wr b f v).slotAt = s.slotAt := rfl
@[simp] theorem State.wr_migrating (s : State) (b : Nat) (f : Field) (v : Nat) : (s.wr b f v).migrating = s.migrating := rfl
@[simp] theorem State.wr_uncovNext (s : State) (b : Nat) (f : Field) (v : Nat) : (s.wr b f v).uncovNext = s.uncovNext := rfl
@[simp] theorem State.wr_ucodeTaken (s : State) (b : Nat) (f : Field) (v : Nat) : (s.wr b f v).ucodeTaken = s.ucodeTaken := rfl
@[simp] theorem State.wr_journal (s : State) (b : Nat) (f : Field) (v : Nat) : (s.wr b f v).journal = s.journal := rfl
@[simp] theorem State.wr_halfEpoch (s : State) (b : Nat) (f : Field) (v : Nat) : (s.wr b f v).halfEpoch = s.halfEpoch := rfl
@[simp] theorem State.wr_calibs (s : State) (b : Nat) (f : Field) (v : Nat) : (s.wr b f v).calibs = s.calibs := rfl
@[simp] theorem State.wr_laneCals (s : State) (b : Nat) (f : Field) (v : Nat) : (s.wr b f v).laneCals = s.laneCals := rfl
@[simp] theorem State.wr_patrol (s : State) (b : Nat) (f : Field) (v : Nat) : (s.wr b f v).patrol = s.patrol := rfl
@[simp] theorem State.wr_thermCeil (s : State) (b : Nat) (f : Field) (v : Nat) : (s.wr b f v).thermCeil = s.thermCeil := rfl
@[simp] theorem State.wr_powerCeil (s : State) (b : Nat) (f : Field) (v : Nat) : (s.wr b f v).powerCeil = s.powerCeil := rfl
@[simp] theorem State.wr_rails (s : State) (b : Nat) (f : Field) (v : Nat) : (s.wr b f v).rails = s.rails := rfl
@[simp] theorem State.wr_railFault (s : State) (b : Nat) (f : Field) (v : Nat) : (s.wr b f v).railFault = s.railFault := rfl
@[simp] theorem State.wr_perstOff (s : State) (b : Nat) (f : Field) (v : Nat) : (s.wr b f v).perstOff = s.perstOff := rfl
@[simp] theorem State.wr_dfun (s : State) (b : Nat) (f : Field) (v : Nat) : (s.wr b f v).dfun = s.dfun := rfl
@[simp] theorem State.wr_l1 (s : State) (b : Nat) (f : Field) (v : Nat) : (s.wr b f v).l1 = s.l1 := rfl
@[simp] theorem State.wr_l0p (s : State) (b : Nat) (f : Field) (v : Nat) : (s.wr b f v).l0p = s.l0p := rfl
@[simp] theorem State.wr_thermtrip (s : State) (b : Nat) (f : Field) (v : Nat) : (s.wr b f v).thermtrip = s.thermtrip := rfl
@[simp] theorem State.wr_recovery (s : State) (b : Nat) (f : Field) (v : Nat) : (s.wr b f v).recovery = s.recovery := rfl
@[simp] theorem State.wr_recBytes (s : State) (b : Nat) (f : Field) (v : Nat) : (s.wr b f v).recBytes = s.recBytes := rfl
@[simp] theorem State.wr_recLen (s : State) (b : Nat) (f : Field) (v : Nat) : (s.wr b f v).recLen = s.recLen := rfl
@[simp] theorem State.wr_recStatus (s : State) (b : Nat) (f : Field) (v : Nat) : (s.wr b f v).recStatus = s.recStatus := rfl
@[simp] theorem State.wr_alertSeen (s : State) (b : Nat) (f : Field) (v : Nat) : (s.wr b f v).alertSeen = s.alertSeen := rfl
@[simp] theorem State.wr_lastPower (s : State) (b : Nat) (f : Field) (v : Nat) : (s.wr b f v).lastPower = s.lastPower := rfl
@[simp] theorem State.wr_tapIr (s : State) (b : Nat) (f : Field) (v : Nat) : (s.wr b f v).tapIr = s.tapIr := rfl
@[simp] theorem State.wr_dynAddr (s : State) (b : Nat) (f : Field) (v : Nat) : (s.wr b f v).dynAddr = s.dynAddr := rfl
@[simp] theorem State.wr_reply (s : State) (b : Nat) (f : Field) (v : Nat) : (s.wr b f v).reply = s.reply := rfl
@[simp] theorem State.wr_memActive (s : State) (b : Nat) (f : Field) (v : Nat) : (s.wr b f v).memActive = s.memActive := rfl
@[simp] theorem State.wr_nowUs (s : State) (b : Nat) (f : Field) (v : Nat) : (s.wr b f v).nowUs = s.nowUs := rfl
@[simp] theorem State.wr_free (s : State) (b : Nat) (f : Field) (v : Nat) : (s.wr b f v).free = s.free := rfl
@[simp] theorem State.wr_pending (s : State) (b : Nat) (f : Field) (v : Nat) : (s.wr b f v).pending = s.pending := rfl

@[simp] theorem State.setCore_regs (s : State) (c : Nat) (k : Core) : (s.setCore c k).regs = s.regs := rfl
@[simp] theorem State.setCore_ctxs (s : State) (c : Nat) (k : Core) : (s.setCore c k).ctxs = s.ctxs := rfl
@[simp] theorem State.setCore_queues (s : State) (c : Nat) (k : Core) : (s.setCore c k).queues = s.queues := rfl
@[simp] theorem State.setCore_pegs (s : State) (c : Nat) (k : Core) : (s.setCore c k).pegs = s.pegs := rfl
@[simp] theorem State.setCore_pegSignals (s : State) (c : Nat) (k : Core) : (s.setCore c k).pegSignals = s.pegSignals := rfl
@[simp] theorem State.setCore_posCore (s : State) (c : Nat) (k : Core) : (s.setCore c k).posCore = s.posCore := rfl
@[simp] theorem State.setCore_freeCore (s : State) (c : Nat) (k : Core) : (s.setCore c k).freeCore = s.freeCore := rfl
@[simp] theorem State.setCore_rings (s : State) (c : Nat) (k : Core) : (s.setCore c k).rings = s.rings := rfl
@[simp] theorem State.setCore_msix (s : State) (c : Nat) (k : Core) : (s.setCore c k).msix = s.msix := rfl
@[simp] theorem State.setCore_pba (s : State) (c : Nat) (k : Core) : (s.setCore c k).pba = s.pba := rfl
@[simp] theorem State.setCore_msgs (s : State) (c : Nat) (k : Core) : (s.setCore c k).msgs = s.msgs := rfl
@[simp] theorem State.setCore_tier1 (s : State) (c : Nat) (k : Core) : (s.setCore c k).tier1 = s.tier1 := rfl
@[simp] theorem State.setCore_poison (s : State) (c : Nat) (k : Core) : (s.setCore c k).poison = s.poison := rfl
@[simp] theorem State.setCore_drone (s : State) (c : Nat) (k : Core) : (s.setCore c k).drone = s.drone := rfl
@[simp] theorem State.setCore_hostHeld (s : State) (c : Nat) (k : Core) : (s.setCore c k).hostHeld = s.hostHeld := rfl
@[simp] theorem State.setCore_bayFreed (s : State) (c : Nat) (k : Core) : (s.setCore c k).bayFreed = s.bayFreed := rfl
@[simp] theorem State.setCore_backInv (s : State) (c : Nat) (k : Core) : (s.setCore c k).backInv = s.backInv := rfl
@[simp] theorem State.setCore_hostMem (s : State) (c : Nat) (k : Core) : (s.setCore c k).hostMem = s.hostMem := rfl
@[simp] theorem State.setCore_nvw (s : State) (c : Nat) (k : Core) : (s.setCore c k).nvw = s.nvw := rfl
@[simp] theorem State.setCore_fresh (s : State) (c : Nat) (k : Core) : (s.setCore c k).fresh = s.fresh := rfl
@[simp] theorem State.setCore_checks (s : State) (c : Nat) (k : Core) : (s.setCore c k).checks = s.checks := rfl
@[simp] theorem State.setCore_ports (s : State) (c : Nat) (k : Core) : (s.setCore c k).ports = s.ports := rfl
@[simp] theorem State.setCore_channels (s : State) (c : Nat) (k : Core) : (s.setCore c k).channels = s.channels := rfl
@[simp] theorem State.setCore_outbox (s : State) (c : Nat) (k : Core) : (s.setCore c k).outbox = s.outbox := rfl
@[simp] theorem State.setCore_delivered (s : State) (c : Nat) (k : Core) : (s.setCore c k).delivered = s.delivered := rfl
@[simp] theorem State.setCore_identities (s : State) (c : Nat) (k : Core) : (s.setCore c k).identities = s.identities := rfl
@[simp] theorem State.setCore_conflicts (s : State) (c : Nat) (k : Core) : (s.setCore c k).conflicts = s.conflicts := rfl
@[simp] theorem State.setCore_incoming (s : State) (c : Nat) (k : Core) : (s.setCore c k).incoming = s.incoming := rfl
@[simp] theorem State.setCore_runSeq (s : State) (c : Nat) (k : Core) : (s.setCore c k).runSeq = s.runSeq := rfl
@[simp] theorem State.setCore_placeSeq (s : State) (c : Nat) (k : Core) : (s.setCore c k).placeSeq = s.placeSeq := rfl
@[simp] theorem State.setCore_manifests (s : State) (c : Nat) (k : Core) : (s.setCore c k).manifests = s.manifests := rfl
@[simp] theorem State.setCore_installs (s : State) (c : Nat) (k : Core) : (s.setCore c k).installs = s.installs := rfl
@[simp] theorem State.setCore_erasures (s : State) (c : Nat) (k : Core) : (s.setCore c k).erasures = s.erasures := rfl
@[simp] theorem State.setCore_staging (s : State) (c : Nat) (k : Core) : (s.setCore c k).staging = s.staging := rfl
@[simp] theorem State.setCore_wear (s : State) (c : Nat) (k : Core) : (s.setCore c k).wear = s.wear := rfl
@[simp] theorem State.setCore_decoders (s : State) (c : Nat) (k : Core) : (s.setCore c k).decoders = s.decoders := rfl
@[simp] theorem State.setCore_decoderErr (s : State) (c : Nat) (k : Core) : (s.setCore c k).decoderErr = s.decoderErr := rfl
@[simp] theorem State.setCore_revoked (s : State) (c : Nat) (k : Core) : (s.setCore c k).revoked = s.revoked := rfl
@[simp] theorem State.setCore_minVersion (s : State) (c : Nat) (k : Core) : (s.setCore c k).minVersion = s.minVersion := rfl
@[simp] theorem State.setCore_images (s : State) (c : Nat) (k : Core) : (s.setCore c k).images = s.images := rfl
@[simp] theorem State.setCore_meas3 (s : State) (c : Nat) (k : Core) : (s.setCore c k).meas3 = s.meas3 := rfl
@[simp] theorem State.setCore_challenge (s : State) (c : Nat) (k : Core) : (s.setCore c k).challenge = s.challenge := rfl
@[simp] theorem State.setCore_fences (s : State) (c : Nat) (k : Core) : (s.setCore c k).fences = s.fences := rfl
@[simp] theorem State.setCore_memberSeq (s : State) (c : Nat) (k : Core) : (s.setCore c k).memberSeq = s.memberSeq := rfl
@[simp] theorem State.setCore_frames (s : State) (c : Nat) (k : Core) : (s.setCore c k).frames = s.frames := rfl
@[simp] theorem State.setCore_served (s : State) (c : Nat) (k : Core) : (s.setCore c k).served = s.served := rfl
@[simp] theorem State.setCore_clkLost (s : State) (c : Nat) (k : Core) : (s.setCore c k).clkLost = s.clkLost := rfl
@[simp] theorem State.setCore_stackHot (s : State) (c : Nat) (k : Core) : (s.setCore c k).stackHot = s.stackHot := rfl
@[simp] theorem State.setCore_coreHot (s : State) (c : Nat) (k : Core) : (s.setCore c k).coreHot = s.coreHot := rfl
@[simp] theorem State.setCore_dstate (s : State) (c : Nat) (k : Core) : (s.setCore c k).dstate = s.dstate := rfl
@[simp] theorem State.setCore_corrected (s : State) (c : Nat) (k : Core) : (s.setCore c k).corrected = s.corrected := rfl
@[simp] theorem State.setCore_retrains (s : State) (c : Nat) (k : Core) : (s.setCore c k).retrains = s.retrains := rfl
@[simp] theorem State.setCore_droops (s : State) (c : Nat) (k : Core) : (s.setCore c k).droops = s.droops := rfl
@[simp] theorem State.setCore_riskHist (s : State) (c : Nat) (k : Core) : (s.setCore c k).riskHist = s.riskHist := rfl
@[simp] theorem State.setCore_risk (s : State) (c : Nat) (k : Core) : (s.setCore c k).risk = s.risk := rfl
@[simp] theorem State.setCore_ckptIndex (s : State) (c : Nat) (k : Core) : (s.setCore c k).ckptIndex = s.ckptIndex := rfl
@[simp] theorem State.setCore_ckpts (s : State) (c : Nat) (k : Core) : (s.setCore c k).ckpts = s.ckpts := rfl
@[simp] theorem State.setCore_drains (s : State) (c : Nat) (k : Core) : (s.setCore c k).drains = s.drains := rfl
@[simp] theorem State.setCore_ledgerWait (s : State) (c : Nat) (k : Core) : (s.setCore c k).ledgerWait = s.ledgerWait := rfl
@[simp] theorem State.setCore_faultLog (s : State) (c : Nat) (k : Core) : (s.setCore c k).faultLog = s.faultLog := rfl
@[simp] theorem State.setCore_transients (s : State) (c : Nat) (k : Core) : (s.setCore c k).transients = s.transients := rfl
@[simp] theorem State.setCore_suspects (s : State) (c : Nat) (k : Core) : (s.setCore c k).suspects = s.suspects := rfl
@[simp] theorem State.setCore_islandFaults (s : State) (c : Nat) (k : Core) : (s.setCore c k).islandFaults = s.islandFaults := rfl
@[simp] theorem State.setCore_testAsked (s : State) (c : Nat) (k : Core) : (s.setCore c k).testAsked = s.testAsked := rfl
@[simp] theorem State.setCore_slotAt (s : State) (c : Nat) (k : Core) : (s.setCore c k).slotAt = s.slotAt := rfl
@[simp] theorem State.setCore_migrating (s : State) (c : Nat) (k : Core) : (s.setCore c k).migrating = s.migrating := rfl
@[simp] theorem State.setCore_uncovNext (s : State) (c : Nat) (k : Core) : (s.setCore c k).uncovNext = s.uncovNext := rfl
@[simp] theorem State.setCore_ucodeTaken (s : State) (c : Nat) (k : Core) : (s.setCore c k).ucodeTaken = s.ucodeTaken := rfl
@[simp] theorem State.setCore_journal (s : State) (c : Nat) (k : Core) : (s.setCore c k).journal = s.journal := rfl
@[simp] theorem State.setCore_halfEpoch (s : State) (c : Nat) (k : Core) : (s.setCore c k).halfEpoch = s.halfEpoch := rfl
@[simp] theorem State.setCore_calibs (s : State) (c : Nat) (k : Core) : (s.setCore c k).calibs = s.calibs := rfl
@[simp] theorem State.setCore_laneCals (s : State) (c : Nat) (k : Core) : (s.setCore c k).laneCals = s.laneCals := rfl
@[simp] theorem State.setCore_patrol (s : State) (c : Nat) (k : Core) : (s.setCore c k).patrol = s.patrol := rfl
@[simp] theorem State.setCore_thermCeil (s : State) (c : Nat) (k : Core) : (s.setCore c k).thermCeil = s.thermCeil := rfl
@[simp] theorem State.setCore_powerCeil (s : State) (c : Nat) (k : Core) : (s.setCore c k).powerCeil = s.powerCeil := rfl
@[simp] theorem State.setCore_rails (s : State) (c : Nat) (k : Core) : (s.setCore c k).rails = s.rails := rfl
@[simp] theorem State.setCore_railFault (s : State) (c : Nat) (k : Core) : (s.setCore c k).railFault = s.railFault := rfl
@[simp] theorem State.setCore_perstOff (s : State) (c : Nat) (k : Core) : (s.setCore c k).perstOff = s.perstOff := rfl
@[simp] theorem State.setCore_dfun (s : State) (c : Nat) (k : Core) : (s.setCore c k).dfun = s.dfun := rfl
@[simp] theorem State.setCore_l1 (s : State) (c : Nat) (k : Core) : (s.setCore c k).l1 = s.l1 := rfl
@[simp] theorem State.setCore_l0p (s : State) (c : Nat) (k : Core) : (s.setCore c k).l0p = s.l0p := rfl
@[simp] theorem State.setCore_thermtrip (s : State) (c : Nat) (k : Core) : (s.setCore c k).thermtrip = s.thermtrip := rfl
@[simp] theorem State.setCore_recovery (s : State) (c : Nat) (k : Core) : (s.setCore c k).recovery = s.recovery := rfl
@[simp] theorem State.setCore_recBytes (s : State) (c : Nat) (k : Core) : (s.setCore c k).recBytes = s.recBytes := rfl
@[simp] theorem State.setCore_recLen (s : State) (c : Nat) (k : Core) : (s.setCore c k).recLen = s.recLen := rfl
@[simp] theorem State.setCore_recStatus (s : State) (c : Nat) (k : Core) : (s.setCore c k).recStatus = s.recStatus := rfl
@[simp] theorem State.setCore_alertSeen (s : State) (c : Nat) (k : Core) : (s.setCore c k).alertSeen = s.alertSeen := rfl
@[simp] theorem State.setCore_lastPower (s : State) (c : Nat) (k : Core) : (s.setCore c k).lastPower = s.lastPower := rfl
@[simp] theorem State.setCore_tapIr (s : State) (c : Nat) (k : Core) : (s.setCore c k).tapIr = s.tapIr := rfl
@[simp] theorem State.setCore_dynAddr (s : State) (c : Nat) (k : Core) : (s.setCore c k).dynAddr = s.dynAddr := rfl
@[simp] theorem State.setCore_reply (s : State) (c : Nat) (k : Core) : (s.setCore c k).reply = s.reply := rfl
@[simp] theorem State.setCore_memActive (s : State) (c : Nat) (k : Core) : (s.setCore c k).memActive = s.memActive := rfl
@[simp] theorem State.setCore_nowUs (s : State) (c : Nat) (k : Core) : (s.setCore c k).nowUs = s.nowUs := rfl
@[simp] theorem State.setCore_free (s : State) (c : Nat) (k : Core) : (s.setCore c k).free = s.free := rfl
@[simp] theorem State.setCore_pending (s : State) (c : Nat) (k : Core) : (s.setCore c k).pending = s.pending := rfl

@[simp] theorem State.setCtx_regs (s : State) (x : Nat) (k : Ctx) : (s.setCtx x k).regs = s.regs := rfl
@[simp] theorem State.setCtx_cores (s : State) (x : Nat) (k : Ctx) : (s.setCtx x k).cores = s.cores := rfl
@[simp] theorem State.setCtx_queues (s : State) (x : Nat) (k : Ctx) : (s.setCtx x k).queues = s.queues := rfl
@[simp] theorem State.setCtx_pegs (s : State) (x : Nat) (k : Ctx) : (s.setCtx x k).pegs = s.pegs := rfl
@[simp] theorem State.setCtx_pegSignals (s : State) (x : Nat) (k : Ctx) : (s.setCtx x k).pegSignals = s.pegSignals := rfl
@[simp] theorem State.setCtx_posCore (s : State) (x : Nat) (k : Ctx) : (s.setCtx x k).posCore = s.posCore := rfl
@[simp] theorem State.setCtx_freeCore (s : State) (x : Nat) (k : Ctx) : (s.setCtx x k).freeCore = s.freeCore := rfl
@[simp] theorem State.setCtx_rings (s : State) (x : Nat) (k : Ctx) : (s.setCtx x k).rings = s.rings := rfl
@[simp] theorem State.setCtx_msix (s : State) (x : Nat) (k : Ctx) : (s.setCtx x k).msix = s.msix := rfl
@[simp] theorem State.setCtx_pba (s : State) (x : Nat) (k : Ctx) : (s.setCtx x k).pba = s.pba := rfl
@[simp] theorem State.setCtx_msgs (s : State) (x : Nat) (k : Ctx) : (s.setCtx x k).msgs = s.msgs := rfl
@[simp] theorem State.setCtx_tier1 (s : State) (x : Nat) (k : Ctx) : (s.setCtx x k).tier1 = s.tier1 := rfl
@[simp] theorem State.setCtx_poison (s : State) (x : Nat) (k : Ctx) : (s.setCtx x k).poison = s.poison := rfl
@[simp] theorem State.setCtx_drone (s : State) (x : Nat) (k : Ctx) : (s.setCtx x k).drone = s.drone := rfl
@[simp] theorem State.setCtx_hostHeld (s : State) (x : Nat) (k : Ctx) : (s.setCtx x k).hostHeld = s.hostHeld := rfl
@[simp] theorem State.setCtx_bayFreed (s : State) (x : Nat) (k : Ctx) : (s.setCtx x k).bayFreed = s.bayFreed := rfl
@[simp] theorem State.setCtx_backInv (s : State) (x : Nat) (k : Ctx) : (s.setCtx x k).backInv = s.backInv := rfl
@[simp] theorem State.setCtx_hostMem (s : State) (x : Nat) (k : Ctx) : (s.setCtx x k).hostMem = s.hostMem := rfl
@[simp] theorem State.setCtx_nvw (s : State) (x : Nat) (k : Ctx) : (s.setCtx x k).nvw = s.nvw := rfl
@[simp] theorem State.setCtx_fresh (s : State) (x : Nat) (k : Ctx) : (s.setCtx x k).fresh = s.fresh := rfl
@[simp] theorem State.setCtx_checks (s : State) (x : Nat) (k : Ctx) : (s.setCtx x k).checks = s.checks := rfl
@[simp] theorem State.setCtx_ports (s : State) (x : Nat) (k : Ctx) : (s.setCtx x k).ports = s.ports := rfl
@[simp] theorem State.setCtx_channels (s : State) (x : Nat) (k : Ctx) : (s.setCtx x k).channels = s.channels := rfl
@[simp] theorem State.setCtx_outbox (s : State) (x : Nat) (k : Ctx) : (s.setCtx x k).outbox = s.outbox := rfl
@[simp] theorem State.setCtx_delivered (s : State) (x : Nat) (k : Ctx) : (s.setCtx x k).delivered = s.delivered := rfl
@[simp] theorem State.setCtx_identities (s : State) (x : Nat) (k : Ctx) : (s.setCtx x k).identities = s.identities := rfl
@[simp] theorem State.setCtx_conflicts (s : State) (x : Nat) (k : Ctx) : (s.setCtx x k).conflicts = s.conflicts := rfl
@[simp] theorem State.setCtx_incoming (s : State) (x : Nat) (k : Ctx) : (s.setCtx x k).incoming = s.incoming := rfl
@[simp] theorem State.setCtx_runSeq (s : State) (x : Nat) (k : Ctx) : (s.setCtx x k).runSeq = s.runSeq := rfl
@[simp] theorem State.setCtx_placeSeq (s : State) (x : Nat) (k : Ctx) : (s.setCtx x k).placeSeq = s.placeSeq := rfl
@[simp] theorem State.setCtx_manifests (s : State) (x : Nat) (k : Ctx) : (s.setCtx x k).manifests = s.manifests := rfl
@[simp] theorem State.setCtx_installs (s : State) (x : Nat) (k : Ctx) : (s.setCtx x k).installs = s.installs := rfl
@[simp] theorem State.setCtx_erasures (s : State) (x : Nat) (k : Ctx) : (s.setCtx x k).erasures = s.erasures := rfl
@[simp] theorem State.setCtx_staging (s : State) (x : Nat) (k : Ctx) : (s.setCtx x k).staging = s.staging := rfl
@[simp] theorem State.setCtx_wear (s : State) (x : Nat) (k : Ctx) : (s.setCtx x k).wear = s.wear := rfl
@[simp] theorem State.setCtx_decoders (s : State) (x : Nat) (k : Ctx) : (s.setCtx x k).decoders = s.decoders := rfl
@[simp] theorem State.setCtx_decoderErr (s : State) (x : Nat) (k : Ctx) : (s.setCtx x k).decoderErr = s.decoderErr := rfl
@[simp] theorem State.setCtx_revoked (s : State) (x : Nat) (k : Ctx) : (s.setCtx x k).revoked = s.revoked := rfl
@[simp] theorem State.setCtx_minVersion (s : State) (x : Nat) (k : Ctx) : (s.setCtx x k).minVersion = s.minVersion := rfl
@[simp] theorem State.setCtx_images (s : State) (x : Nat) (k : Ctx) : (s.setCtx x k).images = s.images := rfl
@[simp] theorem State.setCtx_meas3 (s : State) (x : Nat) (k : Ctx) : (s.setCtx x k).meas3 = s.meas3 := rfl
@[simp] theorem State.setCtx_challenge (s : State) (x : Nat) (k : Ctx) : (s.setCtx x k).challenge = s.challenge := rfl
@[simp] theorem State.setCtx_fences (s : State) (x : Nat) (k : Ctx) : (s.setCtx x k).fences = s.fences := rfl
@[simp] theorem State.setCtx_memberSeq (s : State) (x : Nat) (k : Ctx) : (s.setCtx x k).memberSeq = s.memberSeq := rfl
@[simp] theorem State.setCtx_frames (s : State) (x : Nat) (k : Ctx) : (s.setCtx x k).frames = s.frames := rfl
@[simp] theorem State.setCtx_served (s : State) (x : Nat) (k : Ctx) : (s.setCtx x k).served = s.served := rfl
@[simp] theorem State.setCtx_clkLost (s : State) (x : Nat) (k : Ctx) : (s.setCtx x k).clkLost = s.clkLost := rfl
@[simp] theorem State.setCtx_stackHot (s : State) (x : Nat) (k : Ctx) : (s.setCtx x k).stackHot = s.stackHot := rfl
@[simp] theorem State.setCtx_coreHot (s : State) (x : Nat) (k : Ctx) : (s.setCtx x k).coreHot = s.coreHot := rfl
@[simp] theorem State.setCtx_dstate (s : State) (x : Nat) (k : Ctx) : (s.setCtx x k).dstate = s.dstate := rfl
@[simp] theorem State.setCtx_corrected (s : State) (x : Nat) (k : Ctx) : (s.setCtx x k).corrected = s.corrected := rfl
@[simp] theorem State.setCtx_retrains (s : State) (x : Nat) (k : Ctx) : (s.setCtx x k).retrains = s.retrains := rfl
@[simp] theorem State.setCtx_droops (s : State) (x : Nat) (k : Ctx) : (s.setCtx x k).droops = s.droops := rfl
@[simp] theorem State.setCtx_riskHist (s : State) (x : Nat) (k : Ctx) : (s.setCtx x k).riskHist = s.riskHist := rfl
@[simp] theorem State.setCtx_risk (s : State) (x : Nat) (k : Ctx) : (s.setCtx x k).risk = s.risk := rfl
@[simp] theorem State.setCtx_ckptIndex (s : State) (x : Nat) (k : Ctx) : (s.setCtx x k).ckptIndex = s.ckptIndex := rfl
@[simp] theorem State.setCtx_ckpts (s : State) (x : Nat) (k : Ctx) : (s.setCtx x k).ckpts = s.ckpts := rfl
@[simp] theorem State.setCtx_drains (s : State) (x : Nat) (k : Ctx) : (s.setCtx x k).drains = s.drains := rfl
@[simp] theorem State.setCtx_ledgerWait (s : State) (x : Nat) (k : Ctx) : (s.setCtx x k).ledgerWait = s.ledgerWait := rfl
@[simp] theorem State.setCtx_faultLog (s : State) (x : Nat) (k : Ctx) : (s.setCtx x k).faultLog = s.faultLog := rfl
@[simp] theorem State.setCtx_transients (s : State) (x : Nat) (k : Ctx) : (s.setCtx x k).transients = s.transients := rfl
@[simp] theorem State.setCtx_suspects (s : State) (x : Nat) (k : Ctx) : (s.setCtx x k).suspects = s.suspects := rfl
@[simp] theorem State.setCtx_islandFaults (s : State) (x : Nat) (k : Ctx) : (s.setCtx x k).islandFaults = s.islandFaults := rfl
@[simp] theorem State.setCtx_testAsked (s : State) (x : Nat) (k : Ctx) : (s.setCtx x k).testAsked = s.testAsked := rfl
@[simp] theorem State.setCtx_slotAt (s : State) (x : Nat) (k : Ctx) : (s.setCtx x k).slotAt = s.slotAt := rfl
@[simp] theorem State.setCtx_migrating (s : State) (x : Nat) (k : Ctx) : (s.setCtx x k).migrating = s.migrating := rfl
@[simp] theorem State.setCtx_uncovNext (s : State) (x : Nat) (k : Ctx) : (s.setCtx x k).uncovNext = s.uncovNext := rfl
@[simp] theorem State.setCtx_ucodeTaken (s : State) (x : Nat) (k : Ctx) : (s.setCtx x k).ucodeTaken = s.ucodeTaken := rfl
@[simp] theorem State.setCtx_journal (s : State) (x : Nat) (k : Ctx) : (s.setCtx x k).journal = s.journal := rfl
@[simp] theorem State.setCtx_halfEpoch (s : State) (x : Nat) (k : Ctx) : (s.setCtx x k).halfEpoch = s.halfEpoch := rfl
@[simp] theorem State.setCtx_calibs (s : State) (x : Nat) (k : Ctx) : (s.setCtx x k).calibs = s.calibs := rfl
@[simp] theorem State.setCtx_laneCals (s : State) (x : Nat) (k : Ctx) : (s.setCtx x k).laneCals = s.laneCals := rfl
@[simp] theorem State.setCtx_patrol (s : State) (x : Nat) (k : Ctx) : (s.setCtx x k).patrol = s.patrol := rfl
@[simp] theorem State.setCtx_thermCeil (s : State) (x : Nat) (k : Ctx) : (s.setCtx x k).thermCeil = s.thermCeil := rfl
@[simp] theorem State.setCtx_powerCeil (s : State) (x : Nat) (k : Ctx) : (s.setCtx x k).powerCeil = s.powerCeil := rfl
@[simp] theorem State.setCtx_rails (s : State) (x : Nat) (k : Ctx) : (s.setCtx x k).rails = s.rails := rfl
@[simp] theorem State.setCtx_railFault (s : State) (x : Nat) (k : Ctx) : (s.setCtx x k).railFault = s.railFault := rfl
@[simp] theorem State.setCtx_perstOff (s : State) (x : Nat) (k : Ctx) : (s.setCtx x k).perstOff = s.perstOff := rfl
@[simp] theorem State.setCtx_dfun (s : State) (x : Nat) (k : Ctx) : (s.setCtx x k).dfun = s.dfun := rfl
@[simp] theorem State.setCtx_l1 (s : State) (x : Nat) (k : Ctx) : (s.setCtx x k).l1 = s.l1 := rfl
@[simp] theorem State.setCtx_l0p (s : State) (x : Nat) (k : Ctx) : (s.setCtx x k).l0p = s.l0p := rfl
@[simp] theorem State.setCtx_thermtrip (s : State) (x : Nat) (k : Ctx) : (s.setCtx x k).thermtrip = s.thermtrip := rfl
@[simp] theorem State.setCtx_recovery (s : State) (x : Nat) (k : Ctx) : (s.setCtx x k).recovery = s.recovery := rfl
@[simp] theorem State.setCtx_recBytes (s : State) (x : Nat) (k : Ctx) : (s.setCtx x k).recBytes = s.recBytes := rfl
@[simp] theorem State.setCtx_recLen (s : State) (x : Nat) (k : Ctx) : (s.setCtx x k).recLen = s.recLen := rfl
@[simp] theorem State.setCtx_recStatus (s : State) (x : Nat) (k : Ctx) : (s.setCtx x k).recStatus = s.recStatus := rfl
@[simp] theorem State.setCtx_alertSeen (s : State) (x : Nat) (k : Ctx) : (s.setCtx x k).alertSeen = s.alertSeen := rfl
@[simp] theorem State.setCtx_lastPower (s : State) (x : Nat) (k : Ctx) : (s.setCtx x k).lastPower = s.lastPower := rfl
@[simp] theorem State.setCtx_tapIr (s : State) (x : Nat) (k : Ctx) : (s.setCtx x k).tapIr = s.tapIr := rfl
@[simp] theorem State.setCtx_dynAddr (s : State) (x : Nat) (k : Ctx) : (s.setCtx x k).dynAddr = s.dynAddr := rfl
@[simp] theorem State.setCtx_reply (s : State) (x : Nat) (k : Ctx) : (s.setCtx x k).reply = s.reply := rfl
@[simp] theorem State.setCtx_memActive (s : State) (x : Nat) (k : Ctx) : (s.setCtx x k).memActive = s.memActive := rfl
@[simp] theorem State.setCtx_nowUs (s : State) (x : Nat) (k : Ctx) : (s.setCtx x k).nowUs = s.nowUs := rfl
@[simp] theorem State.setCtx_free (s : State) (x : Nat) (k : Ctx) : (s.setCtx x k).free = s.free := rfl
@[simp] theorem State.setCtx_pending (s : State) (x : Nat) (k : Ctx) : (s.setCtx x k).pending = s.pending := rfl

@[simp] theorem State.setQueue_regs (s : State) (x q : Nat) (k : Queue) : (s.setQueue x q k).regs = s.regs := rfl
@[simp] theorem State.setQueue_cores (s : State) (x q : Nat) (k : Queue) : (s.setQueue x q k).cores = s.cores := rfl
@[simp] theorem State.setQueue_ctxs (s : State) (x q : Nat) (k : Queue) : (s.setQueue x q k).ctxs = s.ctxs := rfl
@[simp] theorem State.setQueue_pegs (s : State) (x q : Nat) (k : Queue) : (s.setQueue x q k).pegs = s.pegs := rfl
@[simp] theorem State.setQueue_pegSignals (s : State) (x q : Nat) (k : Queue) : (s.setQueue x q k).pegSignals = s.pegSignals := rfl
@[simp] theorem State.setQueue_posCore (s : State) (x q : Nat) (k : Queue) : (s.setQueue x q k).posCore = s.posCore := rfl
@[simp] theorem State.setQueue_freeCore (s : State) (x q : Nat) (k : Queue) : (s.setQueue x q k).freeCore = s.freeCore := rfl
@[simp] theorem State.setQueue_rings (s : State) (x q : Nat) (k : Queue) : (s.setQueue x q k).rings = s.rings := rfl
@[simp] theorem State.setQueue_msix (s : State) (x q : Nat) (k : Queue) : (s.setQueue x q k).msix = s.msix := rfl
@[simp] theorem State.setQueue_pba (s : State) (x q : Nat) (k : Queue) : (s.setQueue x q k).pba = s.pba := rfl
@[simp] theorem State.setQueue_msgs (s : State) (x q : Nat) (k : Queue) : (s.setQueue x q k).msgs = s.msgs := rfl
@[simp] theorem State.setQueue_tier1 (s : State) (x q : Nat) (k : Queue) : (s.setQueue x q k).tier1 = s.tier1 := rfl
@[simp] theorem State.setQueue_poison (s : State) (x q : Nat) (k : Queue) : (s.setQueue x q k).poison = s.poison := rfl
@[simp] theorem State.setQueue_drone (s : State) (x q : Nat) (k : Queue) : (s.setQueue x q k).drone = s.drone := rfl
@[simp] theorem State.setQueue_hostHeld (s : State) (x q : Nat) (k : Queue) : (s.setQueue x q k).hostHeld = s.hostHeld := rfl
@[simp] theorem State.setQueue_bayFreed (s : State) (x q : Nat) (k : Queue) : (s.setQueue x q k).bayFreed = s.bayFreed := rfl
@[simp] theorem State.setQueue_backInv (s : State) (x q : Nat) (k : Queue) : (s.setQueue x q k).backInv = s.backInv := rfl
@[simp] theorem State.setQueue_hostMem (s : State) (x q : Nat) (k : Queue) : (s.setQueue x q k).hostMem = s.hostMem := rfl
@[simp] theorem State.setQueue_nvw (s : State) (x q : Nat) (k : Queue) : (s.setQueue x q k).nvw = s.nvw := rfl
@[simp] theorem State.setQueue_fresh (s : State) (x q : Nat) (k : Queue) : (s.setQueue x q k).fresh = s.fresh := rfl
@[simp] theorem State.setQueue_checks (s : State) (x q : Nat) (k : Queue) : (s.setQueue x q k).checks = s.checks := rfl
@[simp] theorem State.setQueue_ports (s : State) (x q : Nat) (k : Queue) : (s.setQueue x q k).ports = s.ports := rfl
@[simp] theorem State.setQueue_channels (s : State) (x q : Nat) (k : Queue) : (s.setQueue x q k).channels = s.channels := rfl
@[simp] theorem State.setQueue_outbox (s : State) (x q : Nat) (k : Queue) : (s.setQueue x q k).outbox = s.outbox := rfl
@[simp] theorem State.setQueue_delivered (s : State) (x q : Nat) (k : Queue) : (s.setQueue x q k).delivered = s.delivered := rfl
@[simp] theorem State.setQueue_identities (s : State) (x q : Nat) (k : Queue) : (s.setQueue x q k).identities = s.identities := rfl
@[simp] theorem State.setQueue_conflicts (s : State) (x q : Nat) (k : Queue) : (s.setQueue x q k).conflicts = s.conflicts := rfl
@[simp] theorem State.setQueue_incoming (s : State) (x q : Nat) (k : Queue) : (s.setQueue x q k).incoming = s.incoming := rfl
@[simp] theorem State.setQueue_runSeq (s : State) (x q : Nat) (k : Queue) : (s.setQueue x q k).runSeq = s.runSeq := rfl
@[simp] theorem State.setQueue_placeSeq (s : State) (x q : Nat) (k : Queue) : (s.setQueue x q k).placeSeq = s.placeSeq := rfl
@[simp] theorem State.setQueue_manifests (s : State) (x q : Nat) (k : Queue) : (s.setQueue x q k).manifests = s.manifests := rfl
@[simp] theorem State.setQueue_installs (s : State) (x q : Nat) (k : Queue) : (s.setQueue x q k).installs = s.installs := rfl
@[simp] theorem State.setQueue_erasures (s : State) (x q : Nat) (k : Queue) : (s.setQueue x q k).erasures = s.erasures := rfl
@[simp] theorem State.setQueue_staging (s : State) (x q : Nat) (k : Queue) : (s.setQueue x q k).staging = s.staging := rfl
@[simp] theorem State.setQueue_wear (s : State) (x q : Nat) (k : Queue) : (s.setQueue x q k).wear = s.wear := rfl
@[simp] theorem State.setQueue_decoders (s : State) (x q : Nat) (k : Queue) : (s.setQueue x q k).decoders = s.decoders := rfl
@[simp] theorem State.setQueue_decoderErr (s : State) (x q : Nat) (k : Queue) : (s.setQueue x q k).decoderErr = s.decoderErr := rfl
@[simp] theorem State.setQueue_revoked (s : State) (x q : Nat) (k : Queue) : (s.setQueue x q k).revoked = s.revoked := rfl
@[simp] theorem State.setQueue_minVersion (s : State) (x q : Nat) (k : Queue) : (s.setQueue x q k).minVersion = s.minVersion := rfl
@[simp] theorem State.setQueue_images (s : State) (x q : Nat) (k : Queue) : (s.setQueue x q k).images = s.images := rfl
@[simp] theorem State.setQueue_meas3 (s : State) (x q : Nat) (k : Queue) : (s.setQueue x q k).meas3 = s.meas3 := rfl
@[simp] theorem State.setQueue_challenge (s : State) (x q : Nat) (k : Queue) : (s.setQueue x q k).challenge = s.challenge := rfl
@[simp] theorem State.setQueue_fences (s : State) (x q : Nat) (k : Queue) : (s.setQueue x q k).fences = s.fences := rfl
@[simp] theorem State.setQueue_memberSeq (s : State) (x q : Nat) (k : Queue) : (s.setQueue x q k).memberSeq = s.memberSeq := rfl
@[simp] theorem State.setQueue_frames (s : State) (x q : Nat) (k : Queue) : (s.setQueue x q k).frames = s.frames := rfl
@[simp] theorem State.setQueue_served (s : State) (x q : Nat) (k : Queue) : (s.setQueue x q k).served = s.served := rfl
@[simp] theorem State.setQueue_clkLost (s : State) (x q : Nat) (k : Queue) : (s.setQueue x q k).clkLost = s.clkLost := rfl
@[simp] theorem State.setQueue_stackHot (s : State) (x q : Nat) (k : Queue) : (s.setQueue x q k).stackHot = s.stackHot := rfl
@[simp] theorem State.setQueue_coreHot (s : State) (x q : Nat) (k : Queue) : (s.setQueue x q k).coreHot = s.coreHot := rfl
@[simp] theorem State.setQueue_dstate (s : State) (x q : Nat) (k : Queue) : (s.setQueue x q k).dstate = s.dstate := rfl
@[simp] theorem State.setQueue_corrected (s : State) (x q : Nat) (k : Queue) : (s.setQueue x q k).corrected = s.corrected := rfl
@[simp] theorem State.setQueue_retrains (s : State) (x q : Nat) (k : Queue) : (s.setQueue x q k).retrains = s.retrains := rfl
@[simp] theorem State.setQueue_droops (s : State) (x q : Nat) (k : Queue) : (s.setQueue x q k).droops = s.droops := rfl
@[simp] theorem State.setQueue_riskHist (s : State) (x q : Nat) (k : Queue) : (s.setQueue x q k).riskHist = s.riskHist := rfl
@[simp] theorem State.setQueue_risk (s : State) (x q : Nat) (k : Queue) : (s.setQueue x q k).risk = s.risk := rfl
@[simp] theorem State.setQueue_ckptIndex (s : State) (x q : Nat) (k : Queue) : (s.setQueue x q k).ckptIndex = s.ckptIndex := rfl
@[simp] theorem State.setQueue_ckpts (s : State) (x q : Nat) (k : Queue) : (s.setQueue x q k).ckpts = s.ckpts := rfl
@[simp] theorem State.setQueue_drains (s : State) (x q : Nat) (k : Queue) : (s.setQueue x q k).drains = s.drains := rfl
@[simp] theorem State.setQueue_ledgerWait (s : State) (x q : Nat) (k : Queue) : (s.setQueue x q k).ledgerWait = s.ledgerWait := rfl
@[simp] theorem State.setQueue_faultLog (s : State) (x q : Nat) (k : Queue) : (s.setQueue x q k).faultLog = s.faultLog := rfl
@[simp] theorem State.setQueue_transients (s : State) (x q : Nat) (k : Queue) : (s.setQueue x q k).transients = s.transients := rfl
@[simp] theorem State.setQueue_suspects (s : State) (x q : Nat) (k : Queue) : (s.setQueue x q k).suspects = s.suspects := rfl
@[simp] theorem State.setQueue_islandFaults (s : State) (x q : Nat) (k : Queue) : (s.setQueue x q k).islandFaults = s.islandFaults := rfl
@[simp] theorem State.setQueue_testAsked (s : State) (x q : Nat) (k : Queue) : (s.setQueue x q k).testAsked = s.testAsked := rfl
@[simp] theorem State.setQueue_slotAt (s : State) (x q : Nat) (k : Queue) : (s.setQueue x q k).slotAt = s.slotAt := rfl
@[simp] theorem State.setQueue_migrating (s : State) (x q : Nat) (k : Queue) : (s.setQueue x q k).migrating = s.migrating := rfl
@[simp] theorem State.setQueue_uncovNext (s : State) (x q : Nat) (k : Queue) : (s.setQueue x q k).uncovNext = s.uncovNext := rfl
@[simp] theorem State.setQueue_ucodeTaken (s : State) (x q : Nat) (k : Queue) : (s.setQueue x q k).ucodeTaken = s.ucodeTaken := rfl
@[simp] theorem State.setQueue_journal (s : State) (x q : Nat) (k : Queue) : (s.setQueue x q k).journal = s.journal := rfl
@[simp] theorem State.setQueue_halfEpoch (s : State) (x q : Nat) (k : Queue) : (s.setQueue x q k).halfEpoch = s.halfEpoch := rfl
@[simp] theorem State.setQueue_calibs (s : State) (x q : Nat) (k : Queue) : (s.setQueue x q k).calibs = s.calibs := rfl
@[simp] theorem State.setQueue_laneCals (s : State) (x q : Nat) (k : Queue) : (s.setQueue x q k).laneCals = s.laneCals := rfl
@[simp] theorem State.setQueue_patrol (s : State) (x q : Nat) (k : Queue) : (s.setQueue x q k).patrol = s.patrol := rfl
@[simp] theorem State.setQueue_thermCeil (s : State) (x q : Nat) (k : Queue) : (s.setQueue x q k).thermCeil = s.thermCeil := rfl
@[simp] theorem State.setQueue_powerCeil (s : State) (x q : Nat) (k : Queue) : (s.setQueue x q k).powerCeil = s.powerCeil := rfl
@[simp] theorem State.setQueue_rails (s : State) (x q : Nat) (k : Queue) : (s.setQueue x q k).rails = s.rails := rfl
@[simp] theorem State.setQueue_railFault (s : State) (x q : Nat) (k : Queue) : (s.setQueue x q k).railFault = s.railFault := rfl
@[simp] theorem State.setQueue_perstOff (s : State) (x q : Nat) (k : Queue) : (s.setQueue x q k).perstOff = s.perstOff := rfl
@[simp] theorem State.setQueue_dfun (s : State) (x q : Nat) (k : Queue) : (s.setQueue x q k).dfun = s.dfun := rfl
@[simp] theorem State.setQueue_l1 (s : State) (x q : Nat) (k : Queue) : (s.setQueue x q k).l1 = s.l1 := rfl
@[simp] theorem State.setQueue_l0p (s : State) (x q : Nat) (k : Queue) : (s.setQueue x q k).l0p = s.l0p := rfl
@[simp] theorem State.setQueue_thermtrip (s : State) (x q : Nat) (k : Queue) : (s.setQueue x q k).thermtrip = s.thermtrip := rfl
@[simp] theorem State.setQueue_recovery (s : State) (x q : Nat) (k : Queue) : (s.setQueue x q k).recovery = s.recovery := rfl
@[simp] theorem State.setQueue_recBytes (s : State) (x q : Nat) (k : Queue) : (s.setQueue x q k).recBytes = s.recBytes := rfl
@[simp] theorem State.setQueue_recLen (s : State) (x q : Nat) (k : Queue) : (s.setQueue x q k).recLen = s.recLen := rfl
@[simp] theorem State.setQueue_recStatus (s : State) (x q : Nat) (k : Queue) : (s.setQueue x q k).recStatus = s.recStatus := rfl
@[simp] theorem State.setQueue_alertSeen (s : State) (x q : Nat) (k : Queue) : (s.setQueue x q k).alertSeen = s.alertSeen := rfl
@[simp] theorem State.setQueue_lastPower (s : State) (x q : Nat) (k : Queue) : (s.setQueue x q k).lastPower = s.lastPower := rfl
@[simp] theorem State.setQueue_tapIr (s : State) (x q : Nat) (k : Queue) : (s.setQueue x q k).tapIr = s.tapIr := rfl
@[simp] theorem State.setQueue_dynAddr (s : State) (x q : Nat) (k : Queue) : (s.setQueue x q k).dynAddr = s.dynAddr := rfl
@[simp] theorem State.setQueue_reply (s : State) (x q : Nat) (k : Queue) : (s.setQueue x q k).reply = s.reply := rfl
@[simp] theorem State.setQueue_memActive (s : State) (x q : Nat) (k : Queue) : (s.setQueue x q k).memActive = s.memActive := rfl
@[simp] theorem State.setQueue_nowUs (s : State) (x q : Nat) (k : Queue) : (s.setQueue x q k).nowUs = s.nowUs := rfl
@[simp] theorem State.setQueue_free (s : State) (x q : Nat) (k : Queue) : (s.setQueue x q k).free = s.free := rfl
@[simp] theorem State.setQueue_pending (s : State) (x q : Nat) (k : Queue) : (s.setQueue x q k).pending = s.pending := rfl

@[simp] theorem State.setRing_regs (s : State) (r : Nat) (k : Ring) : (s.setRing r k).regs = s.regs := rfl
@[simp] theorem State.setRing_cores (s : State) (r : Nat) (k : Ring) : (s.setRing r k).cores = s.cores := rfl
@[simp] theorem State.setRing_ctxs (s : State) (r : Nat) (k : Ring) : (s.setRing r k).ctxs = s.ctxs := rfl
@[simp] theorem State.setRing_queues (s : State) (r : Nat) (k : Ring) : (s.setRing r k).queues = s.queues := rfl
@[simp] theorem State.setRing_pegs (s : State) (r : Nat) (k : Ring) : (s.setRing r k).pegs = s.pegs := rfl
@[simp] theorem State.setRing_pegSignals (s : State) (r : Nat) (k : Ring) : (s.setRing r k).pegSignals = s.pegSignals := rfl
@[simp] theorem State.setRing_posCore (s : State) (r : Nat) (k : Ring) : (s.setRing r k).posCore = s.posCore := rfl
@[simp] theorem State.setRing_freeCore (s : State) (r : Nat) (k : Ring) : (s.setRing r k).freeCore = s.freeCore := rfl
@[simp] theorem State.setRing_msix (s : State) (r : Nat) (k : Ring) : (s.setRing r k).msix = s.msix := rfl
@[simp] theorem State.setRing_pba (s : State) (r : Nat) (k : Ring) : (s.setRing r k).pba = s.pba := rfl
@[simp] theorem State.setRing_msgs (s : State) (r : Nat) (k : Ring) : (s.setRing r k).msgs = s.msgs := rfl
@[simp] theorem State.setRing_tier1 (s : State) (r : Nat) (k : Ring) : (s.setRing r k).tier1 = s.tier1 := rfl
@[simp] theorem State.setRing_poison (s : State) (r : Nat) (k : Ring) : (s.setRing r k).poison = s.poison := rfl
@[simp] theorem State.setRing_drone (s : State) (r : Nat) (k : Ring) : (s.setRing r k).drone = s.drone := rfl
@[simp] theorem State.setRing_hostHeld (s : State) (r : Nat) (k : Ring) : (s.setRing r k).hostHeld = s.hostHeld := rfl
@[simp] theorem State.setRing_bayFreed (s : State) (r : Nat) (k : Ring) : (s.setRing r k).bayFreed = s.bayFreed := rfl
@[simp] theorem State.setRing_backInv (s : State) (r : Nat) (k : Ring) : (s.setRing r k).backInv = s.backInv := rfl
@[simp] theorem State.setRing_hostMem (s : State) (r : Nat) (k : Ring) : (s.setRing r k).hostMem = s.hostMem := rfl
@[simp] theorem State.setRing_nvw (s : State) (r : Nat) (k : Ring) : (s.setRing r k).nvw = s.nvw := rfl
@[simp] theorem State.setRing_fresh (s : State) (r : Nat) (k : Ring) : (s.setRing r k).fresh = s.fresh := rfl
@[simp] theorem State.setRing_checks (s : State) (r : Nat) (k : Ring) : (s.setRing r k).checks = s.checks := rfl
@[simp] theorem State.setRing_ports (s : State) (r : Nat) (k : Ring) : (s.setRing r k).ports = s.ports := rfl
@[simp] theorem State.setRing_channels (s : State) (r : Nat) (k : Ring) : (s.setRing r k).channels = s.channels := rfl
@[simp] theorem State.setRing_outbox (s : State) (r : Nat) (k : Ring) : (s.setRing r k).outbox = s.outbox := rfl
@[simp] theorem State.setRing_delivered (s : State) (r : Nat) (k : Ring) : (s.setRing r k).delivered = s.delivered := rfl
@[simp] theorem State.setRing_identities (s : State) (r : Nat) (k : Ring) : (s.setRing r k).identities = s.identities := rfl
@[simp] theorem State.setRing_conflicts (s : State) (r : Nat) (k : Ring) : (s.setRing r k).conflicts = s.conflicts := rfl
@[simp] theorem State.setRing_incoming (s : State) (r : Nat) (k : Ring) : (s.setRing r k).incoming = s.incoming := rfl
@[simp] theorem State.setRing_runSeq (s : State) (r : Nat) (k : Ring) : (s.setRing r k).runSeq = s.runSeq := rfl
@[simp] theorem State.setRing_placeSeq (s : State) (r : Nat) (k : Ring) : (s.setRing r k).placeSeq = s.placeSeq := rfl
@[simp] theorem State.setRing_manifests (s : State) (r : Nat) (k : Ring) : (s.setRing r k).manifests = s.manifests := rfl
@[simp] theorem State.setRing_installs (s : State) (r : Nat) (k : Ring) : (s.setRing r k).installs = s.installs := rfl
@[simp] theorem State.setRing_erasures (s : State) (r : Nat) (k : Ring) : (s.setRing r k).erasures = s.erasures := rfl
@[simp] theorem State.setRing_staging (s : State) (r : Nat) (k : Ring) : (s.setRing r k).staging = s.staging := rfl
@[simp] theorem State.setRing_wear (s : State) (r : Nat) (k : Ring) : (s.setRing r k).wear = s.wear := rfl
@[simp] theorem State.setRing_decoders (s : State) (r : Nat) (k : Ring) : (s.setRing r k).decoders = s.decoders := rfl
@[simp] theorem State.setRing_decoderErr (s : State) (r : Nat) (k : Ring) : (s.setRing r k).decoderErr = s.decoderErr := rfl
@[simp] theorem State.setRing_revoked (s : State) (r : Nat) (k : Ring) : (s.setRing r k).revoked = s.revoked := rfl
@[simp] theorem State.setRing_minVersion (s : State) (r : Nat) (k : Ring) : (s.setRing r k).minVersion = s.minVersion := rfl
@[simp] theorem State.setRing_images (s : State) (r : Nat) (k : Ring) : (s.setRing r k).images = s.images := rfl
@[simp] theorem State.setRing_meas3 (s : State) (r : Nat) (k : Ring) : (s.setRing r k).meas3 = s.meas3 := rfl
@[simp] theorem State.setRing_challenge (s : State) (r : Nat) (k : Ring) : (s.setRing r k).challenge = s.challenge := rfl
@[simp] theorem State.setRing_fences (s : State) (r : Nat) (k : Ring) : (s.setRing r k).fences = s.fences := rfl
@[simp] theorem State.setRing_memberSeq (s : State) (r : Nat) (k : Ring) : (s.setRing r k).memberSeq = s.memberSeq := rfl
@[simp] theorem State.setRing_frames (s : State) (r : Nat) (k : Ring) : (s.setRing r k).frames = s.frames := rfl
@[simp] theorem State.setRing_served (s : State) (r : Nat) (k : Ring) : (s.setRing r k).served = s.served := rfl
@[simp] theorem State.setRing_clkLost (s : State) (r : Nat) (k : Ring) : (s.setRing r k).clkLost = s.clkLost := rfl
@[simp] theorem State.setRing_stackHot (s : State) (r : Nat) (k : Ring) : (s.setRing r k).stackHot = s.stackHot := rfl
@[simp] theorem State.setRing_coreHot (s : State) (r : Nat) (k : Ring) : (s.setRing r k).coreHot = s.coreHot := rfl
@[simp] theorem State.setRing_dstate (s : State) (r : Nat) (k : Ring) : (s.setRing r k).dstate = s.dstate := rfl
@[simp] theorem State.setRing_corrected (s : State) (r : Nat) (k : Ring) : (s.setRing r k).corrected = s.corrected := rfl
@[simp] theorem State.setRing_retrains (s : State) (r : Nat) (k : Ring) : (s.setRing r k).retrains = s.retrains := rfl
@[simp] theorem State.setRing_droops (s : State) (r : Nat) (k : Ring) : (s.setRing r k).droops = s.droops := rfl
@[simp] theorem State.setRing_riskHist (s : State) (r : Nat) (k : Ring) : (s.setRing r k).riskHist = s.riskHist := rfl
@[simp] theorem State.setRing_risk (s : State) (r : Nat) (k : Ring) : (s.setRing r k).risk = s.risk := rfl
@[simp] theorem State.setRing_ckptIndex (s : State) (r : Nat) (k : Ring) : (s.setRing r k).ckptIndex = s.ckptIndex := rfl
@[simp] theorem State.setRing_ckpts (s : State) (r : Nat) (k : Ring) : (s.setRing r k).ckpts = s.ckpts := rfl
@[simp] theorem State.setRing_drains (s : State) (r : Nat) (k : Ring) : (s.setRing r k).drains = s.drains := rfl
@[simp] theorem State.setRing_ledgerWait (s : State) (r : Nat) (k : Ring) : (s.setRing r k).ledgerWait = s.ledgerWait := rfl
@[simp] theorem State.setRing_faultLog (s : State) (r : Nat) (k : Ring) : (s.setRing r k).faultLog = s.faultLog := rfl
@[simp] theorem State.setRing_transients (s : State) (r : Nat) (k : Ring) : (s.setRing r k).transients = s.transients := rfl
@[simp] theorem State.setRing_suspects (s : State) (r : Nat) (k : Ring) : (s.setRing r k).suspects = s.suspects := rfl
@[simp] theorem State.setRing_islandFaults (s : State) (r : Nat) (k : Ring) : (s.setRing r k).islandFaults = s.islandFaults := rfl
@[simp] theorem State.setRing_testAsked (s : State) (r : Nat) (k : Ring) : (s.setRing r k).testAsked = s.testAsked := rfl
@[simp] theorem State.setRing_slotAt (s : State) (r : Nat) (k : Ring) : (s.setRing r k).slotAt = s.slotAt := rfl
@[simp] theorem State.setRing_migrating (s : State) (r : Nat) (k : Ring) : (s.setRing r k).migrating = s.migrating := rfl
@[simp] theorem State.setRing_uncovNext (s : State) (r : Nat) (k : Ring) : (s.setRing r k).uncovNext = s.uncovNext := rfl
@[simp] theorem State.setRing_ucodeTaken (s : State) (r : Nat) (k : Ring) : (s.setRing r k).ucodeTaken = s.ucodeTaken := rfl
@[simp] theorem State.setRing_journal (s : State) (r : Nat) (k : Ring) : (s.setRing r k).journal = s.journal := rfl
@[simp] theorem State.setRing_halfEpoch (s : State) (r : Nat) (k : Ring) : (s.setRing r k).halfEpoch = s.halfEpoch := rfl
@[simp] theorem State.setRing_calibs (s : State) (r : Nat) (k : Ring) : (s.setRing r k).calibs = s.calibs := rfl
@[simp] theorem State.setRing_laneCals (s : State) (r : Nat) (k : Ring) : (s.setRing r k).laneCals = s.laneCals := rfl
@[simp] theorem State.setRing_patrol (s : State) (r : Nat) (k : Ring) : (s.setRing r k).patrol = s.patrol := rfl
@[simp] theorem State.setRing_thermCeil (s : State) (r : Nat) (k : Ring) : (s.setRing r k).thermCeil = s.thermCeil := rfl
@[simp] theorem State.setRing_powerCeil (s : State) (r : Nat) (k : Ring) : (s.setRing r k).powerCeil = s.powerCeil := rfl
@[simp] theorem State.setRing_rails (s : State) (r : Nat) (k : Ring) : (s.setRing r k).rails = s.rails := rfl
@[simp] theorem State.setRing_railFault (s : State) (r : Nat) (k : Ring) : (s.setRing r k).railFault = s.railFault := rfl
@[simp] theorem State.setRing_perstOff (s : State) (r : Nat) (k : Ring) : (s.setRing r k).perstOff = s.perstOff := rfl
@[simp] theorem State.setRing_dfun (s : State) (r : Nat) (k : Ring) : (s.setRing r k).dfun = s.dfun := rfl
@[simp] theorem State.setRing_l1 (s : State) (r : Nat) (k : Ring) : (s.setRing r k).l1 = s.l1 := rfl
@[simp] theorem State.setRing_l0p (s : State) (r : Nat) (k : Ring) : (s.setRing r k).l0p = s.l0p := rfl
@[simp] theorem State.setRing_thermtrip (s : State) (r : Nat) (k : Ring) : (s.setRing r k).thermtrip = s.thermtrip := rfl
@[simp] theorem State.setRing_recovery (s : State) (r : Nat) (k : Ring) : (s.setRing r k).recovery = s.recovery := rfl
@[simp] theorem State.setRing_recBytes (s : State) (r : Nat) (k : Ring) : (s.setRing r k).recBytes = s.recBytes := rfl
@[simp] theorem State.setRing_recLen (s : State) (r : Nat) (k : Ring) : (s.setRing r k).recLen = s.recLen := rfl
@[simp] theorem State.setRing_recStatus (s : State) (r : Nat) (k : Ring) : (s.setRing r k).recStatus = s.recStatus := rfl
@[simp] theorem State.setRing_alertSeen (s : State) (r : Nat) (k : Ring) : (s.setRing r k).alertSeen = s.alertSeen := rfl
@[simp] theorem State.setRing_lastPower (s : State) (r : Nat) (k : Ring) : (s.setRing r k).lastPower = s.lastPower := rfl
@[simp] theorem State.setRing_tapIr (s : State) (r : Nat) (k : Ring) : (s.setRing r k).tapIr = s.tapIr := rfl
@[simp] theorem State.setRing_dynAddr (s : State) (r : Nat) (k : Ring) : (s.setRing r k).dynAddr = s.dynAddr := rfl
@[simp] theorem State.setRing_reply (s : State) (r : Nat) (k : Ring) : (s.setRing r k).reply = s.reply := rfl
@[simp] theorem State.setRing_memActive (s : State) (r : Nat) (k : Ring) : (s.setRing r k).memActive = s.memActive := rfl
@[simp] theorem State.setRing_nowUs (s : State) (r : Nat) (k : Ring) : (s.setRing r k).nowUs = s.nowUs := rfl
@[simp] theorem State.setRing_free (s : State) (r : Nat) (k : Ring) : (s.setRing r k).free = s.free := rfl
@[simp] theorem State.setRing_pending (s : State) (r : Nat) (k : Ring) : (s.setRing r k).pending = s.pending := rfl

@[simp] theorem State.setPort_regs (s : State) (p : Nat) (k : Port) : (s.setPort p k).regs = s.regs := rfl
@[simp] theorem State.setPort_cores (s : State) (p : Nat) (k : Port) : (s.setPort p k).cores = s.cores := rfl
@[simp] theorem State.setPort_ctxs (s : State) (p : Nat) (k : Port) : (s.setPort p k).ctxs = s.ctxs := rfl
@[simp] theorem State.setPort_queues (s : State) (p : Nat) (k : Port) : (s.setPort p k).queues = s.queues := rfl
@[simp] theorem State.setPort_pegs (s : State) (p : Nat) (k : Port) : (s.setPort p k).pegs = s.pegs := rfl
@[simp] theorem State.setPort_pegSignals (s : State) (p : Nat) (k : Port) : (s.setPort p k).pegSignals = s.pegSignals := rfl
@[simp] theorem State.setPort_posCore (s : State) (p : Nat) (k : Port) : (s.setPort p k).posCore = s.posCore := rfl
@[simp] theorem State.setPort_freeCore (s : State) (p : Nat) (k : Port) : (s.setPort p k).freeCore = s.freeCore := rfl
@[simp] theorem State.setPort_rings (s : State) (p : Nat) (k : Port) : (s.setPort p k).rings = s.rings := rfl
@[simp] theorem State.setPort_msix (s : State) (p : Nat) (k : Port) : (s.setPort p k).msix = s.msix := rfl
@[simp] theorem State.setPort_pba (s : State) (p : Nat) (k : Port) : (s.setPort p k).pba = s.pba := rfl
@[simp] theorem State.setPort_msgs (s : State) (p : Nat) (k : Port) : (s.setPort p k).msgs = s.msgs := rfl
@[simp] theorem State.setPort_tier1 (s : State) (p : Nat) (k : Port) : (s.setPort p k).tier1 = s.tier1 := rfl
@[simp] theorem State.setPort_poison (s : State) (p : Nat) (k : Port) : (s.setPort p k).poison = s.poison := rfl
@[simp] theorem State.setPort_drone (s : State) (p : Nat) (k : Port) : (s.setPort p k).drone = s.drone := rfl
@[simp] theorem State.setPort_hostHeld (s : State) (p : Nat) (k : Port) : (s.setPort p k).hostHeld = s.hostHeld := rfl
@[simp] theorem State.setPort_bayFreed (s : State) (p : Nat) (k : Port) : (s.setPort p k).bayFreed = s.bayFreed := rfl
@[simp] theorem State.setPort_backInv (s : State) (p : Nat) (k : Port) : (s.setPort p k).backInv = s.backInv := rfl
@[simp] theorem State.setPort_hostMem (s : State) (p : Nat) (k : Port) : (s.setPort p k).hostMem = s.hostMem := rfl
@[simp] theorem State.setPort_nvw (s : State) (p : Nat) (k : Port) : (s.setPort p k).nvw = s.nvw := rfl
@[simp] theorem State.setPort_fresh (s : State) (p : Nat) (k : Port) : (s.setPort p k).fresh = s.fresh := rfl
@[simp] theorem State.setPort_checks (s : State) (p : Nat) (k : Port) : (s.setPort p k).checks = s.checks := rfl
@[simp] theorem State.setPort_channels (s : State) (p : Nat) (k : Port) : (s.setPort p k).channels = s.channels := rfl
@[simp] theorem State.setPort_outbox (s : State) (p : Nat) (k : Port) : (s.setPort p k).outbox = s.outbox := rfl
@[simp] theorem State.setPort_delivered (s : State) (p : Nat) (k : Port) : (s.setPort p k).delivered = s.delivered := rfl
@[simp] theorem State.setPort_identities (s : State) (p : Nat) (k : Port) : (s.setPort p k).identities = s.identities := rfl
@[simp] theorem State.setPort_conflicts (s : State) (p : Nat) (k : Port) : (s.setPort p k).conflicts = s.conflicts := rfl
@[simp] theorem State.setPort_incoming (s : State) (p : Nat) (k : Port) : (s.setPort p k).incoming = s.incoming := rfl
@[simp] theorem State.setPort_runSeq (s : State) (p : Nat) (k : Port) : (s.setPort p k).runSeq = s.runSeq := rfl
@[simp] theorem State.setPort_placeSeq (s : State) (p : Nat) (k : Port) : (s.setPort p k).placeSeq = s.placeSeq := rfl
@[simp] theorem State.setPort_manifests (s : State) (p : Nat) (k : Port) : (s.setPort p k).manifests = s.manifests := rfl
@[simp] theorem State.setPort_installs (s : State) (p : Nat) (k : Port) : (s.setPort p k).installs = s.installs := rfl
@[simp] theorem State.setPort_erasures (s : State) (p : Nat) (k : Port) : (s.setPort p k).erasures = s.erasures := rfl
@[simp] theorem State.setPort_staging (s : State) (p : Nat) (k : Port) : (s.setPort p k).staging = s.staging := rfl
@[simp] theorem State.setPort_wear (s : State) (p : Nat) (k : Port) : (s.setPort p k).wear = s.wear := rfl
@[simp] theorem State.setPort_decoders (s : State) (p : Nat) (k : Port) : (s.setPort p k).decoders = s.decoders := rfl
@[simp] theorem State.setPort_decoderErr (s : State) (p : Nat) (k : Port) : (s.setPort p k).decoderErr = s.decoderErr := rfl
@[simp] theorem State.setPort_revoked (s : State) (p : Nat) (k : Port) : (s.setPort p k).revoked = s.revoked := rfl
@[simp] theorem State.setPort_minVersion (s : State) (p : Nat) (k : Port) : (s.setPort p k).minVersion = s.minVersion := rfl
@[simp] theorem State.setPort_images (s : State) (p : Nat) (k : Port) : (s.setPort p k).images = s.images := rfl
@[simp] theorem State.setPort_meas3 (s : State) (p : Nat) (k : Port) : (s.setPort p k).meas3 = s.meas3 := rfl
@[simp] theorem State.setPort_challenge (s : State) (p : Nat) (k : Port) : (s.setPort p k).challenge = s.challenge := rfl
@[simp] theorem State.setPort_fences (s : State) (p : Nat) (k : Port) : (s.setPort p k).fences = s.fences := rfl
@[simp] theorem State.setPort_memberSeq (s : State) (p : Nat) (k : Port) : (s.setPort p k).memberSeq = s.memberSeq := rfl
@[simp] theorem State.setPort_frames (s : State) (p : Nat) (k : Port) : (s.setPort p k).frames = s.frames := rfl
@[simp] theorem State.setPort_served (s : State) (p : Nat) (k : Port) : (s.setPort p k).served = s.served := rfl
@[simp] theorem State.setPort_clkLost (s : State) (p : Nat) (k : Port) : (s.setPort p k).clkLost = s.clkLost := rfl
@[simp] theorem State.setPort_stackHot (s : State) (p : Nat) (k : Port) : (s.setPort p k).stackHot = s.stackHot := rfl
@[simp] theorem State.setPort_coreHot (s : State) (p : Nat) (k : Port) : (s.setPort p k).coreHot = s.coreHot := rfl
@[simp] theorem State.setPort_dstate (s : State) (p : Nat) (k : Port) : (s.setPort p k).dstate = s.dstate := rfl
@[simp] theorem State.setPort_corrected (s : State) (p : Nat) (k : Port) : (s.setPort p k).corrected = s.corrected := rfl
@[simp] theorem State.setPort_retrains (s : State) (p : Nat) (k : Port) : (s.setPort p k).retrains = s.retrains := rfl
@[simp] theorem State.setPort_droops (s : State) (p : Nat) (k : Port) : (s.setPort p k).droops = s.droops := rfl
@[simp] theorem State.setPort_riskHist (s : State) (p : Nat) (k : Port) : (s.setPort p k).riskHist = s.riskHist := rfl
@[simp] theorem State.setPort_risk (s : State) (p : Nat) (k : Port) : (s.setPort p k).risk = s.risk := rfl
@[simp] theorem State.setPort_ckptIndex (s : State) (p : Nat) (k : Port) : (s.setPort p k).ckptIndex = s.ckptIndex := rfl
@[simp] theorem State.setPort_ckpts (s : State) (p : Nat) (k : Port) : (s.setPort p k).ckpts = s.ckpts := rfl
@[simp] theorem State.setPort_drains (s : State) (p : Nat) (k : Port) : (s.setPort p k).drains = s.drains := rfl
@[simp] theorem State.setPort_ledgerWait (s : State) (p : Nat) (k : Port) : (s.setPort p k).ledgerWait = s.ledgerWait := rfl
@[simp] theorem State.setPort_faultLog (s : State) (p : Nat) (k : Port) : (s.setPort p k).faultLog = s.faultLog := rfl
@[simp] theorem State.setPort_transients (s : State) (p : Nat) (k : Port) : (s.setPort p k).transients = s.transients := rfl
@[simp] theorem State.setPort_suspects (s : State) (p : Nat) (k : Port) : (s.setPort p k).suspects = s.suspects := rfl
@[simp] theorem State.setPort_islandFaults (s : State) (p : Nat) (k : Port) : (s.setPort p k).islandFaults = s.islandFaults := rfl
@[simp] theorem State.setPort_testAsked (s : State) (p : Nat) (k : Port) : (s.setPort p k).testAsked = s.testAsked := rfl
@[simp] theorem State.setPort_slotAt (s : State) (p : Nat) (k : Port) : (s.setPort p k).slotAt = s.slotAt := rfl
@[simp] theorem State.setPort_migrating (s : State) (p : Nat) (k : Port) : (s.setPort p k).migrating = s.migrating := rfl
@[simp] theorem State.setPort_uncovNext (s : State) (p : Nat) (k : Port) : (s.setPort p k).uncovNext = s.uncovNext := rfl
@[simp] theorem State.setPort_ucodeTaken (s : State) (p : Nat) (k : Port) : (s.setPort p k).ucodeTaken = s.ucodeTaken := rfl
@[simp] theorem State.setPort_journal (s : State) (p : Nat) (k : Port) : (s.setPort p k).journal = s.journal := rfl
@[simp] theorem State.setPort_halfEpoch (s : State) (p : Nat) (k : Port) : (s.setPort p k).halfEpoch = s.halfEpoch := rfl
@[simp] theorem State.setPort_calibs (s : State) (p : Nat) (k : Port) : (s.setPort p k).calibs = s.calibs := rfl
@[simp] theorem State.setPort_laneCals (s : State) (p : Nat) (k : Port) : (s.setPort p k).laneCals = s.laneCals := rfl
@[simp] theorem State.setPort_patrol (s : State) (p : Nat) (k : Port) : (s.setPort p k).patrol = s.patrol := rfl
@[simp] theorem State.setPort_thermCeil (s : State) (p : Nat) (k : Port) : (s.setPort p k).thermCeil = s.thermCeil := rfl
@[simp] theorem State.setPort_powerCeil (s : State) (p : Nat) (k : Port) : (s.setPort p k).powerCeil = s.powerCeil := rfl
@[simp] theorem State.setPort_rails (s : State) (p : Nat) (k : Port) : (s.setPort p k).rails = s.rails := rfl
@[simp] theorem State.setPort_railFault (s : State) (p : Nat) (k : Port) : (s.setPort p k).railFault = s.railFault := rfl
@[simp] theorem State.setPort_perstOff (s : State) (p : Nat) (k : Port) : (s.setPort p k).perstOff = s.perstOff := rfl
@[simp] theorem State.setPort_dfun (s : State) (p : Nat) (k : Port) : (s.setPort p k).dfun = s.dfun := rfl
@[simp] theorem State.setPort_l1 (s : State) (p : Nat) (k : Port) : (s.setPort p k).l1 = s.l1 := rfl
@[simp] theorem State.setPort_l0p (s : State) (p : Nat) (k : Port) : (s.setPort p k).l0p = s.l0p := rfl
@[simp] theorem State.setPort_thermtrip (s : State) (p : Nat) (k : Port) : (s.setPort p k).thermtrip = s.thermtrip := rfl
@[simp] theorem State.setPort_recovery (s : State) (p : Nat) (k : Port) : (s.setPort p k).recovery = s.recovery := rfl
@[simp] theorem State.setPort_recBytes (s : State) (p : Nat) (k : Port) : (s.setPort p k).recBytes = s.recBytes := rfl
@[simp] theorem State.setPort_recLen (s : State) (p : Nat) (k : Port) : (s.setPort p k).recLen = s.recLen := rfl
@[simp] theorem State.setPort_recStatus (s : State) (p : Nat) (k : Port) : (s.setPort p k).recStatus = s.recStatus := rfl
@[simp] theorem State.setPort_alertSeen (s : State) (p : Nat) (k : Port) : (s.setPort p k).alertSeen = s.alertSeen := rfl
@[simp] theorem State.setPort_lastPower (s : State) (p : Nat) (k : Port) : (s.setPort p k).lastPower = s.lastPower := rfl
@[simp] theorem State.setPort_tapIr (s : State) (p : Nat) (k : Port) : (s.setPort p k).tapIr = s.tapIr := rfl
@[simp] theorem State.setPort_dynAddr (s : State) (p : Nat) (k : Port) : (s.setPort p k).dynAddr = s.dynAddr := rfl
@[simp] theorem State.setPort_reply (s : State) (p : Nat) (k : Port) : (s.setPort p k).reply = s.reply := rfl
@[simp] theorem State.setPort_memActive (s : State) (p : Nat) (k : Port) : (s.setPort p k).memActive = s.memActive := rfl
@[simp] theorem State.setPort_nowUs (s : State) (p : Nat) (k : Port) : (s.setPort p k).nowUs = s.nowUs := rfl
@[simp] theorem State.setPort_free (s : State) (p : Nat) (k : Port) : (s.setPort p k).free = s.free := rfl
@[simp] theorem State.setPort_pending (s : State) (p : Nat) (k : Port) : (s.setPort p k).pending = s.pending := rfl

@[simp] theorem State.ledger_regs (s : State) (rs : List LedgerRec) : (s.ledger rs).regs = s.regs := rfl
@[simp] theorem State.ledger_cores (s : State) (rs : List LedgerRec) : (s.ledger rs).cores = s.cores := rfl
@[simp] theorem State.ledger_ctxs (s : State) (rs : List LedgerRec) : (s.ledger rs).ctxs = s.ctxs := rfl
@[simp] theorem State.ledger_queues (s : State) (rs : List LedgerRec) : (s.ledger rs).queues = s.queues := rfl
@[simp] theorem State.ledger_pegs (s : State) (rs : List LedgerRec) : (s.ledger rs).pegs = s.pegs := rfl
@[simp] theorem State.ledger_pegSignals (s : State) (rs : List LedgerRec) : (s.ledger rs).pegSignals = s.pegSignals := rfl
@[simp] theorem State.ledger_posCore (s : State) (rs : List LedgerRec) : (s.ledger rs).posCore = s.posCore := rfl
@[simp] theorem State.ledger_freeCore (s : State) (rs : List LedgerRec) : (s.ledger rs).freeCore = s.freeCore := rfl
@[simp] theorem State.ledger_rings (s : State) (rs : List LedgerRec) : (s.ledger rs).rings = s.rings := rfl
@[simp] theorem State.ledger_msix (s : State) (rs : List LedgerRec) : (s.ledger rs).msix = s.msix := rfl
@[simp] theorem State.ledger_pba (s : State) (rs : List LedgerRec) : (s.ledger rs).pba = s.pba := rfl
@[simp] theorem State.ledger_msgs (s : State) (rs : List LedgerRec) : (s.ledger rs).msgs = s.msgs := rfl
@[simp] theorem State.ledger_tier1 (s : State) (rs : List LedgerRec) : (s.ledger rs).tier1 = s.tier1 := rfl
@[simp] theorem State.ledger_poison (s : State) (rs : List LedgerRec) : (s.ledger rs).poison = s.poison := rfl
@[simp] theorem State.ledger_drone (s : State) (rs : List LedgerRec) : (s.ledger rs).drone = s.drone := rfl
@[simp] theorem State.ledger_hostHeld (s : State) (rs : List LedgerRec) : (s.ledger rs).hostHeld = s.hostHeld := rfl
@[simp] theorem State.ledger_bayFreed (s : State) (rs : List LedgerRec) : (s.ledger rs).bayFreed = s.bayFreed := rfl
@[simp] theorem State.ledger_backInv (s : State) (rs : List LedgerRec) : (s.ledger rs).backInv = s.backInv := rfl
@[simp] theorem State.ledger_hostMem (s : State) (rs : List LedgerRec) : (s.ledger rs).hostMem = s.hostMem := rfl
@[simp] theorem State.ledger_nvw (s : State) (rs : List LedgerRec) : (s.ledger rs).nvw = s.nvw := rfl
@[simp] theorem State.ledger_fresh (s : State) (rs : List LedgerRec) : (s.ledger rs).fresh = s.fresh := rfl
@[simp] theorem State.ledger_checks (s : State) (rs : List LedgerRec) : (s.ledger rs).checks = s.checks := rfl
@[simp] theorem State.ledger_ports (s : State) (rs : List LedgerRec) : (s.ledger rs).ports = s.ports := rfl
@[simp] theorem State.ledger_channels (s : State) (rs : List LedgerRec) : (s.ledger rs).channels = s.channels := rfl
@[simp] theorem State.ledger_outbox (s : State) (rs : List LedgerRec) : (s.ledger rs).outbox = s.outbox := rfl
@[simp] theorem State.ledger_delivered (s : State) (rs : List LedgerRec) : (s.ledger rs).delivered = s.delivered := rfl
@[simp] theorem State.ledger_identities (s : State) (rs : List LedgerRec) : (s.ledger rs).identities = s.identities := rfl
@[simp] theorem State.ledger_conflicts (s : State) (rs : List LedgerRec) : (s.ledger rs).conflicts = s.conflicts := rfl
@[simp] theorem State.ledger_incoming (s : State) (rs : List LedgerRec) : (s.ledger rs).incoming = s.incoming := rfl
@[simp] theorem State.ledger_runSeq (s : State) (rs : List LedgerRec) : (s.ledger rs).runSeq = s.runSeq := rfl
@[simp] theorem State.ledger_placeSeq (s : State) (rs : List LedgerRec) : (s.ledger rs).placeSeq = s.placeSeq := rfl
@[simp] theorem State.ledger_manifests (s : State) (rs : List LedgerRec) : (s.ledger rs).manifests = s.manifests := rfl
@[simp] theorem State.ledger_installs (s : State) (rs : List LedgerRec) : (s.ledger rs).installs = s.installs := rfl
@[simp] theorem State.ledger_erasures (s : State) (rs : List LedgerRec) : (s.ledger rs).erasures = s.erasures := rfl
@[simp] theorem State.ledger_staging (s : State) (rs : List LedgerRec) : (s.ledger rs).staging = s.staging := rfl
@[simp] theorem State.ledger_wear (s : State) (rs : List LedgerRec) : (s.ledger rs).wear = s.wear := rfl
@[simp] theorem State.ledger_decoders (s : State) (rs : List LedgerRec) : (s.ledger rs).decoders = s.decoders := rfl
@[simp] theorem State.ledger_decoderErr (s : State) (rs : List LedgerRec) : (s.ledger rs).decoderErr = s.decoderErr := rfl
@[simp] theorem State.ledger_revoked (s : State) (rs : List LedgerRec) : (s.ledger rs).revoked = s.revoked := rfl
@[simp] theorem State.ledger_minVersion (s : State) (rs : List LedgerRec) : (s.ledger rs).minVersion = s.minVersion := rfl
@[simp] theorem State.ledger_images (s : State) (rs : List LedgerRec) : (s.ledger rs).images = s.images := rfl
@[simp] theorem State.ledger_meas3 (s : State) (rs : List LedgerRec) : (s.ledger rs).meas3 = s.meas3 := rfl
@[simp] theorem State.ledger_challenge (s : State) (rs : List LedgerRec) : (s.ledger rs).challenge = s.challenge := rfl
@[simp] theorem State.ledger_fences (s : State) (rs : List LedgerRec) : (s.ledger rs).fences = s.fences := rfl
@[simp] theorem State.ledger_memberSeq (s : State) (rs : List LedgerRec) : (s.ledger rs).memberSeq = s.memberSeq := rfl
@[simp] theorem State.ledger_frames (s : State) (rs : List LedgerRec) : (s.ledger rs).frames = s.frames := rfl
@[simp] theorem State.ledger_served (s : State) (rs : List LedgerRec) : (s.ledger rs).served = s.served := rfl
@[simp] theorem State.ledger_clkLost (s : State) (rs : List LedgerRec) : (s.ledger rs).clkLost = s.clkLost := rfl
@[simp] theorem State.ledger_stackHot (s : State) (rs : List LedgerRec) : (s.ledger rs).stackHot = s.stackHot := rfl
@[simp] theorem State.ledger_coreHot (s : State) (rs : List LedgerRec) : (s.ledger rs).coreHot = s.coreHot := rfl
@[simp] theorem State.ledger_dstate (s : State) (rs : List LedgerRec) : (s.ledger rs).dstate = s.dstate := rfl
@[simp] theorem State.ledger_corrected (s : State) (rs : List LedgerRec) : (s.ledger rs).corrected = s.corrected := rfl
@[simp] theorem State.ledger_retrains (s : State) (rs : List LedgerRec) : (s.ledger rs).retrains = s.retrains := rfl
@[simp] theorem State.ledger_droops (s : State) (rs : List LedgerRec) : (s.ledger rs).droops = s.droops := rfl
@[simp] theorem State.ledger_riskHist (s : State) (rs : List LedgerRec) : (s.ledger rs).riskHist = s.riskHist := rfl
@[simp] theorem State.ledger_risk (s : State) (rs : List LedgerRec) : (s.ledger rs).risk = s.risk := rfl
@[simp] theorem State.ledger_ckptIndex (s : State) (rs : List LedgerRec) : (s.ledger rs).ckptIndex = s.ckptIndex := rfl
@[simp] theorem State.ledger_ckpts (s : State) (rs : List LedgerRec) : (s.ledger rs).ckpts = s.ckpts := rfl
@[simp] theorem State.ledger_drains (s : State) (rs : List LedgerRec) : (s.ledger rs).drains = s.drains := rfl
@[simp] theorem State.ledger_faultLog (s : State) (rs : List LedgerRec) : (s.ledger rs).faultLog = s.faultLog := rfl
@[simp] theorem State.ledger_transients (s : State) (rs : List LedgerRec) : (s.ledger rs).transients = s.transients := rfl
@[simp] theorem State.ledger_suspects (s : State) (rs : List LedgerRec) : (s.ledger rs).suspects = s.suspects := rfl
@[simp] theorem State.ledger_islandFaults (s : State) (rs : List LedgerRec) : (s.ledger rs).islandFaults = s.islandFaults := rfl
@[simp] theorem State.ledger_testAsked (s : State) (rs : List LedgerRec) : (s.ledger rs).testAsked = s.testAsked := rfl
@[simp] theorem State.ledger_slotAt (s : State) (rs : List LedgerRec) : (s.ledger rs).slotAt = s.slotAt := rfl
@[simp] theorem State.ledger_migrating (s : State) (rs : List LedgerRec) : (s.ledger rs).migrating = s.migrating := rfl
@[simp] theorem State.ledger_uncovNext (s : State) (rs : List LedgerRec) : (s.ledger rs).uncovNext = s.uncovNext := rfl
@[simp] theorem State.ledger_ucodeTaken (s : State) (rs : List LedgerRec) : (s.ledger rs).ucodeTaken = s.ucodeTaken := rfl
@[simp] theorem State.ledger_journal (s : State) (rs : List LedgerRec) : (s.ledger rs).journal = s.journal := rfl
@[simp] theorem State.ledger_halfEpoch (s : State) (rs : List LedgerRec) : (s.ledger rs).halfEpoch = s.halfEpoch := rfl
@[simp] theorem State.ledger_calibs (s : State) (rs : List LedgerRec) : (s.ledger rs).calibs = s.calibs := rfl
@[simp] theorem State.ledger_laneCals (s : State) (rs : List LedgerRec) : (s.ledger rs).laneCals = s.laneCals := rfl
@[simp] theorem State.ledger_patrol (s : State) (rs : List LedgerRec) : (s.ledger rs).patrol = s.patrol := rfl
@[simp] theorem State.ledger_thermCeil (s : State) (rs : List LedgerRec) : (s.ledger rs).thermCeil = s.thermCeil := rfl
@[simp] theorem State.ledger_powerCeil (s : State) (rs : List LedgerRec) : (s.ledger rs).powerCeil = s.powerCeil := rfl
@[simp] theorem State.ledger_rails (s : State) (rs : List LedgerRec) : (s.ledger rs).rails = s.rails := rfl
@[simp] theorem State.ledger_railFault (s : State) (rs : List LedgerRec) : (s.ledger rs).railFault = s.railFault := rfl
@[simp] theorem State.ledger_perstOff (s : State) (rs : List LedgerRec) : (s.ledger rs).perstOff = s.perstOff := rfl
@[simp] theorem State.ledger_dfun (s : State) (rs : List LedgerRec) : (s.ledger rs).dfun = s.dfun := rfl
@[simp] theorem State.ledger_l1 (s : State) (rs : List LedgerRec) : (s.ledger rs).l1 = s.l1 := rfl
@[simp] theorem State.ledger_l0p (s : State) (rs : List LedgerRec) : (s.ledger rs).l0p = s.l0p := rfl
@[simp] theorem State.ledger_thermtrip (s : State) (rs : List LedgerRec) : (s.ledger rs).thermtrip = s.thermtrip := rfl
@[simp] theorem State.ledger_recovery (s : State) (rs : List LedgerRec) : (s.ledger rs).recovery = s.recovery := rfl
@[simp] theorem State.ledger_recBytes (s : State) (rs : List LedgerRec) : (s.ledger rs).recBytes = s.recBytes := rfl
@[simp] theorem State.ledger_recLen (s : State) (rs : List LedgerRec) : (s.ledger rs).recLen = s.recLen := rfl
@[simp] theorem State.ledger_recStatus (s : State) (rs : List LedgerRec) : (s.ledger rs).recStatus = s.recStatus := rfl
@[simp] theorem State.ledger_alertSeen (s : State) (rs : List LedgerRec) : (s.ledger rs).alertSeen = s.alertSeen := rfl
@[simp] theorem State.ledger_lastPower (s : State) (rs : List LedgerRec) : (s.ledger rs).lastPower = s.lastPower := rfl
@[simp] theorem State.ledger_tapIr (s : State) (rs : List LedgerRec) : (s.ledger rs).tapIr = s.tapIr := rfl
@[simp] theorem State.ledger_dynAddr (s : State) (rs : List LedgerRec) : (s.ledger rs).dynAddr = s.dynAddr := rfl
@[simp] theorem State.ledger_reply (s : State) (rs : List LedgerRec) : (s.ledger rs).reply = s.reply := rfl
@[simp] theorem State.ledger_memActive (s : State) (rs : List LedgerRec) : (s.ledger rs).memActive = s.memActive := rfl
@[simp] theorem State.ledger_nowUs (s : State) (rs : List LedgerRec) : (s.ledger rs).nowUs = s.nowUs := rfl
@[simp] theorem State.ledger_free (s : State) (rs : List LedgerRec) : (s.ledger rs).free = s.free := rfl
@[simp] theorem State.ledger_pending (s : State) (rs : List LedgerRec) : (s.ledger rs).pending = s.pending := rfl

@[simp] theorem State.setCore_rd (s : State) (c : Nat) (k : Core) (base : Nat) (f : Field) : (s.setCore c k).rd base f = s.rd base f := rfl
@[simp] theorem State.setCtx_rd (s : State) (x : Nat) (k : Ctx) (base : Nat) (f : Field) : (s.setCtx x k).rd base f = s.rd base f := rfl
@[simp] theorem State.setQueue_rd (s : State) (x q : Nat) (k : Queue) (base : Nat) (f : Field) : (s.setQueue x q k).rd base f = s.rd base f := rfl
@[simp] theorem State.setRing_rd (s : State) (r : Nat) (k : Ring) (base : Nat) (f : Field) : (s.setRing r k).rd base f = s.rd base f := rfl
@[simp] theorem State.setPort_rd (s : State) (p : Nat) (k : Port) (base : Nat) (f : Field) : (s.setPort p k).rd base f = s.rd base f := rfl
@[simp] theorem State.ledger_rd (s : State) (rs : List LedgerRec) (base : Nat) (f : Field) : (s.ledger rs).rd base f = s.rd base f := rfl
@[simp] theorem State.wr_coreAt (s : State) (b : Nat) (f : Field) (v : Nat) (c' : Nat) : (s.wr b f v).core c' = s.core c' := rfl
@[simp] theorem State.wr_ctxAt (s : State) (b : Nat) (f : Field) (v : Nat) (x' : Nat) : (s.wr b f v).ctx x' = s.ctx x' := rfl
@[simp] theorem State.wr_queueAt (s : State) (b : Nat) (f : Field) (v : Nat) (x' q' : Nat) : (s.wr b f v).queue x' q' = s.queue x' q' := rfl
@[simp] theorem State.wr_ringAt (s : State) (b : Nat) (f : Field) (v : Nat) (r' : Nat) : (s.wr b f v).ring r' = s.ring r' := rfl
@[simp] theorem State.wr_portAt (s : State) (b : Nat) (f : Field) (v : Nat) (p' : Nat) : (s.wr b f v).port p' = s.port p' := rfl
@[simp] theorem State.setCore_ctxAt (s : State) (c : Nat) (k : Core) (x' : Nat) : (s.setCore c k).ctx x' = s.ctx x' := rfl
@[simp] theorem State.setCore_queueAt (s : State) (c : Nat) (k : Core) (x' q' : Nat) : (s.setCore c k).queue x' q' = s.queue x' q' := rfl
@[simp] theorem State.setCore_ringAt (s : State) (c : Nat) (k : Core) (r' : Nat) : (s.setCore c k).ring r' = s.ring r' := rfl
@[simp] theorem State.setCore_portAt (s : State) (c : Nat) (k : Core) (p' : Nat) : (s.setCore c k).port p' = s.port p' := rfl
@[simp] theorem State.setCtx_coreAt (s : State) (x : Nat) (k : Ctx) (c' : Nat) : (s.setCtx x k).core c' = s.core c' := rfl
@[simp] theorem State.setCtx_queueAt (s : State) (x : Nat) (k : Ctx) (x' q' : Nat) : (s.setCtx x k).queue x' q' = s.queue x' q' := rfl
@[simp] theorem State.setCtx_ringAt (s : State) (x : Nat) (k : Ctx) (r' : Nat) : (s.setCtx x k).ring r' = s.ring r' := rfl
@[simp] theorem State.setCtx_portAt (s : State) (x : Nat) (k : Ctx) (p' : Nat) : (s.setCtx x k).port p' = s.port p' := rfl
@[simp] theorem State.setQueue_coreAt (s : State) (x q : Nat) (k : Queue) (c' : Nat) : (s.setQueue x q k).core c' = s.core c' := rfl
@[simp] theorem State.setQueue_ctxAt (s : State) (x q : Nat) (k : Queue) (x' : Nat) : (s.setQueue x q k).ctx x' = s.ctx x' := rfl
@[simp] theorem State.setQueue_ringAt (s : State) (x q : Nat) (k : Queue) (r' : Nat) : (s.setQueue x q k).ring r' = s.ring r' := rfl
@[simp] theorem State.setQueue_portAt (s : State) (x q : Nat) (k : Queue) (p' : Nat) : (s.setQueue x q k).port p' = s.port p' := rfl
@[simp] theorem State.setRing_coreAt (s : State) (r : Nat) (k : Ring) (c' : Nat) : (s.setRing r k).core c' = s.core c' := rfl
@[simp] theorem State.setRing_ctxAt (s : State) (r : Nat) (k : Ring) (x' : Nat) : (s.setRing r k).ctx x' = s.ctx x' := rfl
@[simp] theorem State.setRing_queueAt (s : State) (r : Nat) (k : Ring) (x' q' : Nat) : (s.setRing r k).queue x' q' = s.queue x' q' := rfl
@[simp] theorem State.setRing_portAt (s : State) (r : Nat) (k : Ring) (p' : Nat) : (s.setRing r k).port p' = s.port p' := rfl
@[simp] theorem State.setPort_coreAt (s : State) (p : Nat) (k : Port) (c' : Nat) : (s.setPort p k).core c' = s.core c' := rfl
@[simp] theorem State.setPort_ctxAt (s : State) (p : Nat) (k : Port) (x' : Nat) : (s.setPort p k).ctx x' = s.ctx x' := rfl
@[simp] theorem State.setPort_queueAt (s : State) (p : Nat) (k : Port) (x' q' : Nat) : (s.setPort p k).queue x' q' = s.queue x' q' := rfl
@[simp] theorem State.setPort_ringAt (s : State) (p : Nat) (k : Port) (r' : Nat) : (s.setPort p k).ring r' = s.ring r' := rfl
@[simp] theorem State.ledger_coreAt (s : State) (rs : List LedgerRec) (c' : Nat) : (s.ledger rs).core c' = s.core c' := rfl
@[simp] theorem State.ledger_ctxAt (s : State) (rs : List LedgerRec) (x' : Nat) : (s.ledger rs).ctx x' = s.ctx x' := rfl
@[simp] theorem State.ledger_queueAt (s : State) (rs : List LedgerRec) (x' q' : Nat) : (s.ledger rs).queue x' q' = s.queue x' q' := rfl
@[simp] theorem State.ledger_ringAt (s : State) (rs : List LedgerRec) (r' : Nat) : (s.ledger rs).ring r' = s.ring r' := rfl
@[simp] theorem State.ledger_portAt (s : State) (rs : List LedgerRec) (p' : Nat) : (s.ledger rs).port p' = s.port p' := rfl

end Sys2Proof.Machine
end

