-- ==== Sys2Proof/Laws/Slots.lean ====
section
/-! SUPPORT. What a slot row does, said once: off, trapped at issue, or its effect; and the fields of the word it spells. -/
namespace Sys2Proof.Machine

/-! ## The fields of a slot word -/

theorem fld_extract {w : Nat} (x : BitVec w) (lo len : Nat) : fld x lo len = (x.extractLsb' lo len).toNat := by
  simp [fld, bitsAt, BitVec.extractLsb'_toNat]

theorem slotWord_lsb (op : Nat) (a : SlotArgs) (i : Nat) : (slotWord op a).getLsbD i =
    if i < 4 then a.pred.getLsbD i else if i < 5 then a.pneg else if i < 13 then op.testBit (i - 5) else a.operands.getLsbD (i - 13) := by
  unfold slotWord
  simp only [BitVec.getLsbD_append, BitVec.getLsbD_ofBool, BitVec.getLsbD_ofNat]
  by_cases h0 : i < 4
  · simp [h0]
  · by_cases h1 : i < 5
    · have : i = 4 := by omega
      subst this; simp
    · by_cases h2 : i < 13
      · have e1 : ¬ (i - 4 < 1) := by omega
        have e2 : i - 4 - 1 < 8 := by omega
        have e3 : i - 4 - 1 = i - 5 := by omega
        simp [h0, h1, h2, e1, e3, show i - 5 < 8 by omega]
      · have e1 : ¬ (i - 4 < 1) := by omega
        have e2 : ¬ (i - 4 - 1 < 8) := by omega
        have e3 : i - 4 - 1 - 8 = i - 13 := by omega
        simp only [h0, h1, h2, e1, e2, if_false, e3]
/-- The operand fields lie at bit 13 and up. -/
theorem slotWord_operand (op : Nat) (a : SlotArgs) (n len : Nat) : fld (slotWord op a) (13 + n) len = fld a.operands n len := by
  rw [fld_extract, fld_extract]
  congr 1
  ext i hi
  have e1 : ¬ (13 + n + i < 4) := by omega
  have e2 : ¬ (13 + n + i < 5) := by omega
  have e3 : ¬ (13 + n + i < 13) := by omega
  have e4 : 13 + n + i - 13 = n + i := by omega
  simp only [BitVec.getElem_extractLsb', slotWord_lsb, e1, e2, e3, e4, if_false]
theorem slotWord_bit (op : Nat) (a : SlotArgs) (n : Nat) : (slotWord op a).getLsbD (13 + n) = a.operands.getLsbD n := by
  have e4 : 13 + n - 13 = n := by omega
  rw [slotWord_lsb, if_neg (by omega), if_neg (by omega), if_neg (by omega), e4]
theorem slotWord_pred (op : Nat) (a : SlotArgs) : fld (slotWord op a) 0 4 = a.pred.toNat := by
  rw [fld_extract]
  congr 1
  ext i hi
  simp only [BitVec.getElem_extractLsb', slotWord_lsb]
  rw [if_pos (by omega)]
  simp [BitVec.getLsbD_eq_getElem hi]
theorem slotWord_pneg (op : Nat) (a : SlotArgs) : (slotWord op a).getLsbD 4 = a.pneg := by
  rw [slotWord_lsb]; simp
theorem slotWord_op (op : Nat) (a : SlotArgs) (h : op < 256) : fld (slotWord op a) 5 8 = op := by
  rw [fld_extract]
  have : (slotWord op a).extractLsb' 5 8 = BitVec.ofNat 8 op := by
    ext i hi
    simp only [BitVec.getElem_extractLsb', slotWord_lsb]
    rw [if_neg (by omega), if_neg (by omega), if_pos (by omega)]
    have e : 5 + i - 5 = i := by omega
    rw [e, ← BitVec.getLsbD_eq_getElem hi, BitVec.getLsbD_ofNat]
    simp [hi]
  rw [this]; simp; omega

/-! ## The view of a slot row -/

/-- What a slot row's instruction sees as it issues. -/
theorem viewOf_i (s : State) (c : Nat) (i : InFlight) : (viewOf s c i).i = i := by
  unfold viewOf; split
  · rfl
  · split <;> rfl
theorem viewOf_s (s : State) (c : Nat) (i : InFlight) : (viewOf s c i).s = s.asRead c i := by
  unfold viewOf; split
  · rfl
  · split <;> rfl
theorem viewOf_c (s : State) (c : Nat) (i : InFlight) : (viewOf s c i).c = c := by
  unfold viewOf; split
  · rfl
  · split <;> rfl

theorem setLanes_core (s : State) (c : Nat) (m : Map Lane) :
    (s.setLanes c m).core c = { s.core c with regs := { (s.core c).regs with lanes := m } } := by
  simp [State.setLanes]

/-! ## The three outcomes of a slot row -/

/-- The instruction a slot row issues. -/
theorem runSlot_eq (s : State) (c : CoreId) (sl : Slot) (op : Nat) (a : SlotArgs) :
    s.runSlot c sl op a =
      match issueCause (s.slotView c sl op a) with
      | some cause => s.trapAtIssue c.val (s.slotInst c sl op a) cause
      | none => if (s.slotView c sl op a).executes then
          s.instPoison (s.slotView c sl op a) (effSlot (s.slotView c sl op a))
            ((s.setLanes c.val ((s.slotView c sl op a).lanesAfter (drawsSlot (s.slotView c sl op a)))).completeTraced c
              (s.slotInst c sl op a) (effSlot (s.slotView c sl op a))) else s := rfl
theorem slotView_i (s : State) (c : CoreId) (sl : Slot) (op : Nat) (a : SlotArgs) : (s.slotView c sl op a).i = s.slotInst c sl op a := viewOf_i ..
theorem slotView_s (s : State) (c : CoreId) (sl : Slot) (op : Nat) (a : SlotArgs) : (s.slotView c sl op a).s = s := viewOf_s ..
theorem slotView_c (s : State) (c : CoreId) (sl : Slot) (op : Nat) (a : SlotArgs) : (s.slotView c sl op a).c = c.val := viewOf_c ..
theorem slotView_op (s : State) (c : CoreId) (sl : Slot) (op : Nat) (a : SlotArgs) (h : op < 256) : (s.slotView c sl op a).op = op := by
  simp only [View.op, View.f, slotView_i]; exact slotWord_op op a h
theorem slotView_f (s : State) (c : CoreId) (sl : Slot) (op : Nat) (a : SlotArgs) (n len : Nat) : (s.slotView c sl op a).f (13 + n) len = fld a.operands n len := by
  simp only [View.f, slotView_i]; exact slotWord_operand op a n len
theorem slotView_bit (s : State) (c : CoreId) (sl : Slot) (op : Nat) (a : SlotArgs) (n : Nat) : (s.slotView c sl op a).bit (13 + n) = a.operands.getLsbD n := by
  simp only [View.bit, slotView_i]; exact slotWord_bit op a n
theorem slotView_regs (s : State) (c : CoreId) (sl : Slot) (op : Nat) (a : SlotArgs) : (s.slotView c sl op a).i.regs = (s.core c.val).regs := by
  simp only [slotView_i]; rfl
theorem slotView_executes (s : State) (c : CoreId) (sl : Slot) (op : Nat) (a : SlotArgs) : (s.slotView c sl op a).executes = s.slotOn c a := by
  simp only [View.executes, View.pr, View.f, View.bit, slotView_i, State.slotOn]
  rw [show (s.slotInst c sl op a).word = slotWord op a from rfl, slotWord_pred, slotWord_pneg]; rfl

/-- The reserved-bit test on the operand field. -/
theorem bitsClear_slotWord (op : Nat) (a : SlotArgs) (fs : List (Nat × Nat)) :
    bitsClear (slotWord op a) (fs.map (fun f => (13 + f.1, f.2))) = a.only fs := by
  unfold bitsClear SlotArgs.only
  congr 1
  funext i
  rw [slotWord_bit, List.any_map]
  congr 2
  funext f
  simp only [Function.comp]
  congr 1 <;> (apply Bool.eq_iff_iff.mpr; simp only [decide_eq_true_eq]; omega)
/-- A word with none but assigned bits decodes. -/
theorem decode_only (sl : Slot) (op : Nat) (a : SlotArgs) (fs : List (Nat × Nat))
    (h : assignedBits sl (slotWord op a) = some (fs.map (fun f => (13 + f.1, f.2)))) (ho : a.only fs = true) :
    decodeCause sl (slotWord op a) = [] := by
  simp [decodeCause, h, bitsClear_slotWord, ho, causeIf]
/-- The predicate holds the slot back: nothing changes. -/
theorem runSlot_off (s : State) (c : CoreId) (sl : Slot) (op : Nat) (a : SlotArgs) (hd : decodeCause sl (slotWord op a) = [])
    (hoff : s.slotOn c a = false) : s.runSlot c sl op a = s := by
  have hi : issueCause (s.slotView c sl op a) = none := by
    unfold issueCause
    rw [slotView_executes, hoff]
    simp only [slotView_i, State.slotInst, instOf, hd]
    rfl
  rw [runSlot_eq, hi, slotView_executes, hoff]; rfl
/-- It runs: nothing it is judged for stands. -/
theorem runSlot_on (s : State) (c : CoreId) (sl : Slot) (op : Nat) (a : SlotArgs) (hd : decodeCause sl (slotWord op a) = [])
    (hon : s.slotOn c a = true) (hc : slotCauses (s.slotView c sl op a) = []) :
    s.runSlot c sl op a = s.instPoison (s.slotView c sl op a) (effSlot (s.slotView c sl op a))
      ((s.setLanes c.val ((s.slotView c sl op a).lanesAfter (drawsSlot (s.slotView c sl op a)))).completeTraced c
        (s.slotInst c sl op a) (effSlot (s.slotView c sl op a))) := by
  have hi : issueCause (s.slotView c sl op a) = none := by
    unfold issueCause
    rw [slotView_executes, hon]
    simp only [slotView_i, State.slotInst, instOf, hd]
    simp [hc, lowest]
  rw [runSlot_eq, hi, slotView_executes, hon]; rfl
/-- It traps: the decoder's cause, or the lowest of the others. -/
theorem runSlot_reserved (s : State) (c : CoreId) (sl : Slot) (op : Nat) (a : SlotArgs) (x : Cause)
    (hd : decodeCause sl (slotWord op a) = [x]) : s.runSlot c sl op a = s.trapAtIssue c.val (s.slotInst c sl op a) x := by
  have hi : issueCause (s.slotView c sl op a) = some x := by
    unfold issueCause
    simp only [slotView_i, State.slotInst, instOf, hd]
    rfl
  rw [runSlot_eq, hi]
theorem runSlot_trap (s : State) (c : CoreId) (sl : Slot) (op : Nat) (a : SlotArgs) (x : Cause)
    (hd : decodeCause sl (slotWord op a) = []) (hon : s.slotOn c a = true)
    (hc : lowest (slotCauses (s.slotView c sl op a)) = some x) :
    s.runSlot c sl op a = s.trapAtIssue c.val (s.slotInst c sl op a) x := by
  have hi : issueCause (s.slotView c sl op a) = some x := by
    unfold issueCause
    rw [slotView_executes, hon]
    simp only [slotView_i, State.slotInst, instOf, hd]
    simp [hc]
  rw [runSlot_eq, hi]

/-- An effect on the core alone. -/
theorem complete_core (s : State) (c : CoreId) (i : InFlight) (e : Effect) (hm : e.mem = []) (hn : e.nan = none)
    (hp : e.posts = []) : s.complete c i e = (s.setCore c.val (e.onCore (s.core c.val))).control c i e.ctl := by
  simp [State.complete, hm, hn, hp, joinWrites, storeAll, State.deferAll, Effect.onCore]
theorem complete_core_none (s : State) (c : CoreId) (i : InFlight) (e : Effect) (hm : e.mem = []) (hn : e.nan = none)
    (hp : e.posts = []) (hc : e.ctl = .none) : s.complete c i e = s.setCore c.val (e.onCore (s.core c.val)) := by
  simp [complete_core s c i e hm hn hp, hc, State.control]
/-- A whole instruction is its own rest. -/
theorem rest_zero (e : Effect) : e.rest 0 = e := rfl
/-- The S slot leaves nothing in a record (09 R268 lists M, V and D slots). -/
theorem completeTraced_S (s : State) (c : CoreId) (i : InFlight) (e : Effect) (h : i.slot = .S) (h0 : i.cursor = 0) :
    s.completeTraced c i e = s.complete c i e := by
  have hs : (viewOf s c.val i).imports = [] := by simp [View.imports, View.reads, viewOf_i, h]
  unfold State.completeTraced
  rw [h0, rest_zero]
  split
  · rfl
  · split
    · simp only [hs, List.isEmpty_nil, if_true]
      unfold State.traceEffect
      split
      · simp [h]
      · rfl
    · rfl
/-- An instruction that reads no memory and stores nothing in tier 1 meets no poison. -/
theorem instPoison_none (s : State) (v : View) (e : Effect) (t : State) (hr : v.reads = [])
    (hw : (joinWrites e.mem).flatMap MemWrite.regionPart = []) : s.instPoison v e t = t := by
  unfold State.instPoison State.hostPoison
  split
  · simp [State.afterPoison, State.poisonMet, hr, hw]
  · rfl

/-! ## What latching, deferring and trapping leave of the data -/

theorem SameData.refl (s : State) : SameData s s := ⟨fun _ => rfl, rfl, rfl, rfl, rfl, rfl, rfl⟩
theorem SameData.trans {a b c : State} (h : SameData a b) (g : SameData b c) : SameData a c := by
  obtain ⟨h1, h2, h3, h4, h5, h6, h7⟩ := h
  obtain ⟨g1, g2, g3, g4, g5, g6, g7⟩ := g
  exact ⟨fun d => (g1 d).trans (h1 d), g2.trans h2, g3.trans h3, g4.trans h4, g5.trans h5, g6.trans h6, g7.trans h7⟩
/-- An update of anything but cores, memories and pegs. -/
theorem SameData.other {a t : State} (hc : t.cores = a.cores) (h1 : t.tier1 = a.tier1) (h2 : t.hostMem = a.hostMem)
    (h3 : t.nvw = a.nvw) (h4 : t.poison = a.poison) (h5 : t.drone = a.drone) (h6 : t.pegs = a.pegs) : SameData a t :=
  ⟨fun d => by simp [State.core, hc], h1, h2, h3, h4, h5, h6⟩
theorem SameData.setCore (s : State) (c : Nat) (k : Core) (h : k.data = (s.core c).data) : SameData s (s.setCore c k) := by
  refine ⟨fun d => ?_, rfl, rfl, rfl, rfl, rfl, rfl⟩
  by_cases hd : d = c
  · subst hd; simpa using h
  · rw [State.core_setCore_ne s k hd]
theorem SameData.wr (s : State) (b : Nat) (f : Field) (v : Nat) : SameData s (s.wr b f v) := .other rfl rfl rfl rfl rfl rfl rfl
theorem SameData.setCtx (s : State) (x : Nat) (k : Ctx) : SameData s (s.setCtx x k) := .other rfl rfl rfl rfl rfl rfl rfl
theorem SameData.setQueue (s : State) (x q : Nat) (k : Queue) : SameData s (s.setQueue x q k) := .other rfl rfl rfl rfl rfl rfl rfl
theorem SameData.setRing (s : State) (x : Nat) (k : Ring) : SameData s (s.setRing x k) := .other rfl rfl rfl rfl rfl rfl rfl
theorem SameData.ite {s a b : State} {p : Prop} [Decidable p] (ha : SameData s a) (hb : SameData s b) :
    SameData s (if p then a else b) := by split <;> assumption
theorem sameData_sendMsix (s : State) (f : CxlId) (v : Nat) : SameData s (s.sendMsix f v) := by
  unfold State.sendMsix; exact .ite (.other rfl rfl rfl rfl rfl rfl rfl) (.other rfl rfl rfl rfl rfl rfl rfl)
theorem sameData_event (s : State) (f : Field) : SameData s (s.event f) := by
  unfold State.event
  exact .ite (.wr ..) ((SameData.wr ..).trans (by unfold State.eventMsg; exact sameData_sendMsix ..))
theorem sameData_settleRing (s : State) (r : Nat) : SameData s (s.settleRing r) := by
  unfold State.settleRing
  exact .ite (((SameData.setRing ..).trans (.wr ..)).trans (.wr ..)) (.refl s)
theorem sameData_post (s : State) (t : Ticket) (fin : Bool) (a b d : Nat) : SameData s (s.post t fin a b d) := by
  unfold State.post
  exact ((SameData.setRing ..).trans (.ite (by unfold State.bump; exact .wr ..) (.refl _))).trans (sameData_settleRing ..)
theorem sameData_foldl {α : Type} (f : State → α → State) (hf : ∀ s a, SameData s (f s a)) :
    ∀ (l : List α) (s : State), SameData s (l.foldl f s)
  | [], s => .refl s
  | a :: l, s => (hf s a).trans (sameData_foldl f hf l (f s a))
theorem sameData_finishLoads (s : State) (x code : Nat) : SameData s (s.finishLoads x code).1 := by
  unfold State.finishLoads
  exact (SameData.setCtx ..).trans (sameData_foldl _ (fun _ _ => sameData_post ..) _ _)
theorem sameData_finishTickets (s : State) (x op code : Nat) : SameData s (s.finishTickets x op code) := by
  unfold State.finishTickets
  exact (SameData.setCtx ..).trans (sameData_foldl _ (fun _ _ => sameData_post ..) _ _)
theorem sameData_enterStopped (s : State) (x code : Nat) : SameData s (s.enterStopped x code) := by
  unfold State.enterStopped
  extract_lets k cd st torn s1 s2
  have h1 : SameData s s1 := (SameData.setCtx ..).trans (.wr ..)
  have h2 : SameData s s2 := h1.trans (.wr ..)
  have h3 := h2.trans (sameData_finishLoads s2 x cd)
  have h4 := h3.trans (sameData_finishTickets (s2.finishLoads x cd).1 x 4 0)
  exact .ite h4 (h4.trans (sameData_event ..))
theorem sameData_drainCore (s : State) (c : Nat) : SameData s (s.drainCore c) := by
  unfold State.drainCore
  extract_lets k
  split
  · exact .setCore _ _ _ rfl
  · exact .refl s
theorem sameData_drainCores (l : List (Nat × Nat)) : ∀ s : State, SameData s (s.drainCores l) := by
  induction l with
  | nil => exact fun s => .refl s
  | cons a l ih => exact fun s => (sameData_drainCore s a.2).trans (ih _)
theorem sameData_haltCtx (s : State) (x code : Nat) : SameData s (s.haltCtx x code) := by
  unfold State.haltCtx
  extract_lets st torn k0 step' state s0 s1 s2 k
  have h1 : SameData s s1 := (SameData.setCtx ..).trans (.wr ..)
  have h2 : SameData s s2 := .ite (h1.trans (.wr ..)) h1
  refine .ite (.refl s) (.ite ?_ (.ite ?_ (.ite ?_ ?_)))
  · exact ((h2.trans (.setCtx ..)).trans (.wr ..)).trans (sameData_drainCores _ _)
  · exact h2.trans (sameData_enterStopped ..)
  · exact h2.trans (sameData_event ..)
  · split
    · exact h2
    · exact h2.trans (.setCtx ..)
theorem sameData_takeTrap (s : State) (c : Nat) (r : BitVec 2048) : SameData s (s.takeTrap c r) := by
  unfold State.takeTrap
  extract_lets k s1
  have h1 : SameData s s1 := .setCore _ _ _ rfl
  split
  · exact h1
  · exact h1.trans (sameData_haltCtx ..)
theorem sameData_addDue (s : State) (c : Nat) (d : Deferred) : SameData s (s.addDue c d) := by
  unfold State.addDue; exact .ite (.refl s) (.setCore _ _ _ rfl)
theorem sameData_latchNan (s : State) (c : Nat) (i : InFlight) (n : NanPos) : SameData s (s.latchNan c i n) := by
  unfold State.latchNan
  extract_lets k r s1
  have h1 : SameData s s1 := .setCore _ _ _ rfl
  exact .ite (.refl s) (.ite h1 (h1.trans (sameData_addDue ..)))
theorem sameData_deferAll (c : Nat) (i : InFlight) (l : List PostTrap) : ∀ s : State, SameData s (s.deferAll c i l) := by
  induction l with
  | nil => exact fun s => .refl s
  | cons p l ih => exact fun s => (sameData_addDue ..).trans (ih _)
theorem sameData_settleHeld (s : State) (c : Nat) : SameData s (s.settleHeld c) := by
  unfold State.settleHeld State.postDeferred
  refine .ite (.ite (.refl s) ?_) (.refl s)
  split
  · exact .refl s
  · exact sameData_takeTrap ..
theorem sameData_control (s : State) (c : CoreId) (i : InFlight) (ctl : Ctl) : SameData s (s.control c i ctl) := by
  unfold State.control
  extract_lets k
  cases ctl <;> simp only
  · exact .refl s
  · exact .setCore _ _ _ rfl
  · split
    · exact .other rfl rfl rfl rfl rfl rfl rfl
    · exact .refl s
  · split
    · exact .setCore _ _ _ rfl
    · exact .refl s
  · exact .ite (.refl s) (.setCore _ _ _ rfl)
  · exact .setCore _ _ _ rfl
  · split
    · refine SameData.trans ?_ (SameData.setQueue _ _ _ _)
      exact .setCore _ _ _ rfl
    · exact .refl s
  · split
    · refine SameData.trans ?_ (SameData.setQueue _ _ _ _)
      exact .setCore _ _ _ rfl
    · exact .refl s
/-- What completing an instruction does to the data: the effect's core share, then its stores. -/
theorem sameData_complete (s : State) (c : CoreId) (i : InFlight) (e : Effect) :
    SameData (storeAll (s.setCore c.val (e.onCore (s.core c.val))) (viewOf s c.val i).origin (joinWrites e.mem)) (s.complete c i e) := by
  unfold State.complete
  extract_lets origin s1 s2 s3 s4 s5
  have h3 : SameData s2 s3 := by
    simp only [s3]; split
    · exact sameData_latchNan ..
    · exact .refl _
  have h5 : SameData s2 s5 := (h3.trans (sameData_deferAll c.val i e.posts s3)).trans (sameData_control _ c i e.ctl)
  exact .ite h5 (h5.trans (sameData_settleHeld ..))
/-- Where nothing is recorded, completing is all. -/
theorem completeTraced_plain (s : State) (c : CoreId) (i : InFlight) (e : Effect) (h : s.recording c = false) (h0 : i.cursor = 0) :
    s.completeTraced c i e = s.complete c i e := by
  unfold State.completeTraced
  rw [h0, rest_zero]
  unfold State.recording at h
  split <;> simp_all
theorem sameData_logFault (s : State) (f : FaultInfo) : SameData s (s.logFault f) := by
  unfold State.logFault
  extract_lets head step r
  have h1 : SameData s ({ s with free := s.free + 1, faultLog := mapSet faultRecordReset s.faultLog (head % 256) r } : State) :=
    .other rfl rfl rfl rfl rfl rfl rfl
  exact (h1.trans (SameData.wr ..)).trans (sameData_event ..)
theorem sameData_dataFault (s : State) (x code : Nat) (f : FaultInfo) : SameData s (s.dataFault x code f) := by
  unfold State.dataFault State.bump
  exact ((SameData.wr ..).trans (sameData_logFault ..)).trans (sameData_haltCtx ..)
theorem sameData_poisonFault (s : State) (x code g : Nat) : SameData s (s.poisonFault x code g) := by
  unfold State.poisonFault
  exact sameData_dataFault ..
theorem sameData_afterPoison (s : State) (x : Nat) (r w : List (Nat × Nat)) (t : State) : SameData t (s.afterPoison x r w t) := by
  unfold State.afterPoison
  split
  · exact sameData_poisonFault ..
  · exact .refl t
theorem sameData_hostPoison (s : State) (v : View) (t : State) : SameData t (s.hostPoison v t) := by
  unfold State.hostPoison State.bump
  split
  · split
    · exact (SameData.wr ..).trans (sameData_dataFault ..)
    · exact .refl t
  · exact .refl t
theorem sameData_instPoison (s : State) (v : View) (e : Effect) (t : State) : SameData t (s.instPoison v e t) := by
  unfold State.instPoison
  split
  · exact (sameData_afterPoison ..).trans (sameData_hostPoison ..)
  · exact .refl t

theorem origin_setCore (s : State) (c d : Nat) (k : Core) (i : InFlight) :
    (viewOf (s.setCore d k) c i).origin = (viewOf s c i).origin := by
  have hp : (s.setCore d k).place c = s.place c := rfl
  unfold viewOf
  rw [hp]
  cases s.place c with
  | none => rfl
  | some xk =>
    obtain ⟨x, j⟩ := xk
    have hc : (s.setCore d k).ctx x = s.ctx x := rfl
    have hr : ((s.setCore d k).asRead c i).isDrone x (j / 4) = (s.asRead c i).isDrone x (j / 4) := by
      unfold State.asRead; split <;> rfl
    simp only [hc]
    cases (s.ctx x).programOn (j / 4) <;> exact congrArg (fun b : Bool => if b = true then x + 1 else 0) hr
/-- A slot row that is clear to run leaves the data its effect gives, where no step is recorded. -/
theorem runSlot_data (s : State) (c : CoreId) (sl : Slot) (op : Nat) (a : SlotArgs) (h : s.slotClear c sl op a = true)
    (hr : s.recording c = false) :
    SameData (s.withEffect c (s.slotView c sl op a) (effSlot (s.slotView c sl op a))) (s.runSlot c sl op a) := by
  simp only [State.slotClear, Bool.and_eq_true, decide_eq_true_eq] at h
  rw [runSlot_on s c sl op a h.1.1 h.1.2 h.2]
  refine SameData.trans ?_ (sameData_instPoison ..)
  rw [completeTraced_plain _ _ _ _ (by exact hr) rfl]
  have g := sameData_complete (s.setLanes c.val ((s.slotView c sl op a).lanesAfter (drawsSlot (s.slotView c sl op a)))) c
    (s.slotInst c sl op a) (effSlot (s.slotView c sl op a))
  have ho : (viewOf (s.setLanes c.val ((s.slotView c sl op a).lanesAfter (drawsSlot (s.slotView c sl op a)))) c.val
      (s.slotInst c sl op a)).origin = (s.slotView c sl op a).origin := origin_setCore ..
  rw [ho] at g
  simpa only [State.withEffect, State.core_setCore, State.setLanes, State.setCore_setCore] using g

/-! ## The S slot -/

theorem slotView_legacyOnly (s : State) (c : CoreId) (sl : Slot) (op : Nat) (a : SlotArgs) :
    (s.slotView c sl op a).legacyOnly = false := by simp [View.legacyOnly, slotView_i, State.slotInst, instOf]
theorem slotView_slot (s : State) (c : CoreId) (sl : Slot) (op : Nat) (a : SlotArgs) : (s.slotView c sl op a).i.slot = sl := by
  rw [slotView_i]; rfl
theorem slotView_core (s : State) (c : CoreId) (sl : Slot) (op : Nat) (a : SlotArgs) :
    (s.slotView c sl op a).core = s.core c.val := by simp [View.core, slotView_s, slotView_c]
theorem slotView_decl (s : State) (c : CoreId) (sl : Slot) (op : Nat) (a : SlotArgs) :
    (s.slotView c sl op a).decl = s.declOf c := by
  unfold State.slotView viewOf State.declOf State.programOf
  cases s.place c.val with
  | none => rfl
  | some xk => cases h : (s.ctx xk.1).programOn (xk.2 / 4) <;> simp [h]
theorem slotView_modeOf (s : State) (c : CoreId) (sl : Slot) (op : Nat) (a : SlotArgs) (code : Nat) :
    (s.slotView c sl op a).rm code = s.modeOf c code := by
  simp only [View.rm, slotView_i]
  rfl
/-- The S-slot rows: what is judged, drawn and done is R177 to R183's. -/
theorem effSlot_S (s : State) (c : CoreId) (op : Nat) (a : SlotArgs) (h : op < 256) (h0 : op ≠ 0) :
    effSlot (s.slotView c .S op a) = effScalar (s.slotView c .S op a) := by
  simp [effSlot, slotView_op _ _ _ _ _ h, h0, slotView_legacyOnly, slotView_slot]
theorem slotCauses_S (s : State) (c : CoreId) (op : Nat) (a : SlotArgs) (h : op < 256) (h0 : op ≠ 0) :
    slotCauses (s.slotView c .S op a) = judgeS (s.slotView c .S op a) ++ drawCause (s.slotView c .S op a) := by
  simp [slotCauses, judgeSlot, memSlot, slotView_op _ _ _ _ _ h, h0, slotView_legacyOnly, slotView_slot]
theorem drawsSlot_S (s : State) (c : CoreId) (op : Nat) (a : SlotArgs) (h : op < 256) (h0 : op ≠ 0) :
    drawsSlot (s.slotView c .S op a) = drawsS (s.slotView c .S op a) := by
  simp [drawsSlot, slotView_op _ _ _ _ _ h, h0, slotView_legacyOnly, slotView_slot]
/-- An S-slot row that is clear to run completes with its effect. -/
theorem runSlot_S (s : State) (c : CoreId) (op : Nat) (a : SlotArgs) (fs : List (Nat × Nat)) (h : op < 256) (h0 : op ≠ 0)
    (hf : assignedS op (slotWord op a) = some (fs.map (fun f => (13 + f.1, f.2)))) (ho : a.only fs = true)
    (hon : s.slotOn c a = true) (hj : judgeS (s.slotView c .S op a) = []) (hd : drawCause (s.slotView c .S op a) = [])
    (hw : (joinWrites (effScalar (s.slotView c .S op a)).mem).flatMap MemWrite.regionPart = []) :
    s.runSlot c .S op a = (s.setLanes c.val (reserveAll (s.core c.val).regs.lanes 0 (drawsS (s.slotView c .S op a)))).complete c
      (s.slotInst c .S op a) (effScalar (s.slotView c .S op a)) := by
  have ha : assignedBits .S (slotWord op a) = some (fs.map (fun f => (13 + f.1, f.2))) := by
    simpa [assignedBits, slotWord_op op a h] using hf
  rw [runSlot_on s c .S op a (decode_only .S op a fs ha ho) hon (by simp [slotCauses_S _ _ _ _ h h0, hj, hd]),
    completeTraced_S _ _ _ _ rfl rfl, drawsSlot_S _ _ _ _ h h0, effSlot_S _ _ _ _ h h0,
    instPoison_none _ _ _ _ (by simp [View.reads, slotView_slot]) hw]
  congr 2
  simp [View.lanesAfter, slotView_slot, slotView_regs]

end Sys2Proof.Machine
end

