-- ==== Sys2Proof/Machine/AtRest.lean ====
section
/-! DEFINITION. What stands in the memories at rest (15 R404, R407, R408, R421): the keys derived from ROOT, the key of each area
of tier 1, the bytes of a save window (14 R385), and the ciphertext and sideband of a granule. State keeps plaintext; every
reader of the package decrypts under the generation a granule's tag names, so this is what the stacks hold. -/
namespace Sys2Proof.Machine

/-! ## Keys (15 Table 15-1) -/

def ascii (t : String) : List Byte := t.toList.map (fun c => BitVec.ofNat 8 c.toNat)
/-- The leading bytes of SHAKE256(ROOT, label, inputs). -/
def deviceKey (label : String) (inputs : List Byte) (n : Nat) : List Byte :=
  (shake256 (leBytes 32 Config.root.toNat ++ ascii label ++ inputs)).take n
/-- TENANT_NONCE of a context (R405). -/
def State.tenantNonce (s : State) (x : Nat) : Word := match (s.ctx x).nonce with | some n => Config.randomWord n | none => 0
/-- W2-DRAM and W2-STORE. DESIGN CHOICE (log entry 101): a context number and a store number as 2 bytes, a generation as 4. -/
def State.dramKey (s : State) (x gen : Nat) : List Byte :=
  deviceKey "W2-DRAM" (leBytes 2 x ++ leBytes 4 gen ++ leBytes 8 (s.tenantNonce x).toNat) 64
def storeKey (n gen : Nat) : List Byte := deviceKey "W2-STORE" (leBytes 2 n ++ leBytes 4 gen) 64

/-! ## Areas of tier 1 (R407) -/

inductive KeyArea where
  | context (x : Nat)
  | store (n : Nat)
  | spare
deriving DecidableEq, Repr

/-- A region and its save window belong to their context, a checkpoint store to itself. -/
def State.areaOf (s : State) (a : Nat) : KeyArea :=
  match s.enabledCtxs.find? (fun x => (s.regionOff x a).isSome || s.inSaveWindow x a) with
  | some x => .context x
  | none => match s.enabledStores.find? (fun n => decide ((s.storeRange n).1 ≤ a) && decide (a < (s.storeRange n).1 + (s.storeRange n).2)) with
    | some n => .store n
    | none => .spare
def State.areaKey (s : State) (k : KeyArea) (gen : Nat) : List Byte :=
  match k with
  | .context x => s.dramKey x gen
  | .store n => storeKey n gen
  | .spare => Config.spareKey gen
/-- The generation that a granule's tag names: the current one, or the one before it (R408). -/
def State.granuleGen (s : State) (g : Nat) : Nat := if s.granuleTag g = s.keyGen % 4 then s.keyGen else s.keyGen - 1

/-! ## Save records (14 R385) -/

/-- A withdrawn instruction as its record keeps it. -/
def withdrawnBytes (i : InFlight) : List Byte :=
  leBytes 8 i.word.toNat ++ leBytes 8 i.addr.toNat ++ leBytes 8 i.seq.toNat ++ leBytes 8 i.cursor ++
    (upto 480).map (Config.heldByte i.word.toNat i.seq.toNat)
/-- What of Table 05-1 follows the arrays and the vector registers. -/
def coreTail (k : Core) : List Byte :=
  (upto 64).flatMap (fun n => leBytes 8 (k.regs.sreg n).toNat) ++ (upto 16).flatMap (fun n => leBytes 8 (k.regs.preg n).toNat) ++
  (upto 32).flatMap (fun n => leBytes 32 (k.regs.tdreg n).toNat) ++
  (upto 64).flatMap (fun j => let l := mapGet Lane.start k.regs.lanes j; leBytes 8 l.state.toNat ++ leBytes 6 l.counter) ++
  (upto 16).flatMap (fun t => leBytes 2 (mapGet 0 k.tileStatus t).toNat) ++ leBytes 8 k.numStatus.toNat ++ leBytes 8 k.trapControl.toNat ++
  leBytes 256 k.trapRec.toNat ++ leBytes 256 k.nanRec.toNat ++ (upto 34).flatMap (fun n => leBytes 8 (mapGet 0 k.counters n)) ++
  leBytes 8 k.pc.toNat ++ leBytes 8 k.seq.toNat ++ k.withdrawn.flatMap withdrawnBytes
/-- The share of one logical core, 3,224 KiB. DESIGN CHOICE (log entry 101): scratchpad, tiles, side memory, vector registers, and
what is left, in this order. -/
def coreShare : Nat := 3301376
def shareByte (k : Core) (o : Nat) : Byte :=
  if o < 2 * mib then mapGet 0 k.scratch o
  else if o < 3 * mib then BitVec.ofNat 8 (bitsAt (mapGet 0 k.acc ((o - 2 * mib) / 4)).toNat (8 * (o % 4)) 8)
  else if o < 3 * mib + 131072 then BitVec.ofNat 8 (bitsAt (mapGet 0 k.side ((o - 3 * mib) / 32)).toNat (8 * (o % 32)) 8)
  else if o < 3 * mib + 147456 then BitVec.ofNat 8 (bitsAt (k.regs.vreg ((o - 3 * mib - 131072) / 256)).toNat (8 * (o % 256)) 8)
  else (coreTail k).getD (o - (3 * mib + 147456)) 0
/-- Where a tier-1 address lies in a save window that holds a context's records. -/
def State.windowOff (s : State) (a : Nat) : Option (Nat × Nat) :=
  s.enabledCtxs.findSome? (fun x =>
    if (s.ctx x).hasSaved then (stripeOff (s.groups x) (s.rd (Reg.ctx x) Reg.CTX_SAVE_BASE) (s.savePerGroup x) a).map (fun o => (x, o)) else none)

/-! ## Granules -/

/-- The plaintext byte of tier 1 at an address: a save window's records, or what was stored. -/
def State.dramByte (s : State) (a : Nat) : Byte :=
  match s.windowOff a with
  | some (x, o) => shareByte (mapGet Core.start (s.ctx x).saved (o / coreShare)) (o % coreShare)
  | none => mapGet 0 s.tier1 a
def State.granulePlain (s : State) (g : Nat) : List Byte := (upto granule).map (fun i => s.dramByte (g * granule + i))
/-- A granule at rest: its data unit under its area's key, the tweak being its address divided by 512. -/
def State.granuleCipher (s : State) (g : Nat) : List Byte :=
  Config.xtsEncrypt (s.areaKey (s.areaOf (g * granule)) (s.granuleGen g)) g (s.granulePlain g)
/-- What a reader makes of ciphertext found at a granule. -/
def State.openGranule (s : State) (g : Nat) (c : List Byte) : List Byte :=
  Config.xtsDecrypt (s.areaKey (s.areaOf (g * granule)) (s.granuleGen g)) g c
/-- Its sideband: check value (16 R430), generation tag, DRONE_ORIGIN (R424), poison (13 R357). -/
structure Sideband where
  check : BitVec 32
  tag : Nat
  droneOrigin : Bool
  poisoned : Bool
deriving DecidableEq, Repr
def State.sideband (s : State) (g : Nat) : Sideband :=
  ⟨crc32c (s.granulePlain g), s.granuleTag g, decide (mapGet 0 s.drone g ≠ 0), mapGet false s.poison g⟩

/-! ## Flits on a link (R412, R413; 10 R278) -/

/-- The transmit key of one end of port p at a link generation: this end's, or the neighbour's. -/
def State.linkKey (s : State) (p : Nat) (tx : Bool) : Nat → List Byte
  | 0 =>
    let mine := leBytes 8 Config.deviceIdentity.toNat
    let peer := leBytes 8 (s.rd (Reg.trsPort p) Reg.TRS_PEER_IDENTITY)
    let own := leBytes 32 (Config.linkSecret (s.port p).linkDraw).toNat
    let far := leBytes 32 (Config.peerSecret (s.port p).linkDraw).toNat
    let low := decide (Config.deviceIdentity.toNat < s.rd (Reg.trsPort p) Reg.TRS_PEER_IDENTITY)
    (shake256 (ascii "W2-LINK" ++ (if low then own ++ far else far ++ own) ++ (if tx then mine ++ peer else peer ++ mine))).take 32
  | n + 1 => (shake256 (ascii "W2-LINK-NEXT" ++ s.linkKey p tx n)).take 32
/-- The 256 bytes of a flit on the link: its header, and its payload sealed as flit number count under generation gen. -/
def State.flitOnLink (s : State) (p : Nat) (tx : Bool) (gen count : Nat) (f : Flit) : List Byte :=
  flitHeader f ++ Config.gcmSeal (s.linkKey p tx gen) (leBytes 8 count ++ zeros 4) (flitHeader f) f.payload

/-! ## Tier 2 (R421) -/

/-- A granule of the NVW at rest: under the teacher key of the manifest whose slots hold it. -/
def State.nvwCipher (s : State) (g : Nat) : List Byte :=
  let slot := g * granule / slotBytes
  let head := s.rd (Reg.nvwSlot slot) Reg.SLOT_FIRST_SLOT
  let at' := g - head * (slotBytes / granule)
  Config.xtsEncrypt (Config.teacherKey (mapGet [] s.manifests head)) at' (mapRead 0 s.nvw (g * granule) granule)

end Sys2Proof.Machine
end

