-- ==== Sys2Proof/Machine/Reads.lean ====
section
/-! DEFINITION. What reads of the register spaces answer (18 R477 to R480; 20 R525): the fields held as they are, the fields
the device derives (POISONED, RECORD_BYTES, CHALLENGE), the fault log, the PBA, the telemetry windows, and the member table
(01 R9 to R22). -/
namespace Sys2Proof.Machine

/-! ## BAR0, BAR2 and the management space -/

def State.routeWord (s : State) (d : Nat) : Nat :=
  let r (f : Field) : Nat := s.rd (Reg.route d) f * 2 ^ f.lo
  r Reg.ROUTE_PORT_SET + r Reg.ROUTE_ORDERED_PORT + r Reg.ROUTE_VALID + r Reg.ROUTE_HOPS
/-- A 64-bit word of BAR0 as function f reads it, at an offset that is a multiple of 8. -/
def State.readBar0 (s : State) (f : CxlId) (o : Nat) : Nat :=
  if o = 8 ∨ o = 16 then s.word (Reg.hifPort ((o - 8) / 8)) Reg.hifEach 8
  else if 0x1088 ≤ o ∧ o < 0x10A8 then leNat ((s.challengeBytes.drop (o - 0x1088)).take 8)
  else if 0x10000 ≤ o ∧ o < 0x14000 then fld (mapGet faultRecordReset s.faultLog ((o - 0x10000) / 64)) (8 * (o % 64)) 64
  else if 0x20000 ≤ o ∧ o < 0x20000 + 128 * 366 then s.memberWord ((o - 0x20000) / 128) (o % 128 / 8)
  else if 0x40000 ≤ o ∧ o < 0x80000 then s.routeWord ((o - 0x40000) / 4) + s.routeWord ((o - 0x40000) / 4 + 1) * 2 ^ 32
  else if 0x90000 ≤ o ∧ o < 0x98000 then
    let e := mapGet MsixEntry.start s.msix (2048 * f.val + (o - 0x90000) / 16)
    if o % 16 = 0 then e.addr.toNat else e.data.toNat + bit e.masked 32
  else if 0x98000 ≤ o ∧ o < 0x98100 then
    (upto 64).foldl (fun m i => m + bit (mapGet false s.pba (2048 * f.val + 8 * (o - 0x98000) + i)) i) 0
  else match blockAt o with
    | none => 0
    | some (base, fs, _) =>
      let w := s.word base fs (o - base)
      if 0x2200 ≤ base ∧ base < 0x2300 ∧ o - base = 0x10 then w + s.poisoned ((base - 0x2200) / 32)
      else if Reg.wwy 0 0 ≤ base ∧ o = base ∧ s.rd base Reg.WWY_RECORD_KIND ≠ 3 then
        let i := (base - Reg.wwy 0 0) / 64
        w % 2 ^ 48 + s.recordSize (i / 256) (i % 256) * 2 ^ 48
      else w
/-- A word of BAR2 (R480, Table 18-4). -/
def State.readBar2 (s : State) (o : Nat) : Nat :=
  let x := o / 0x40000
  let k := s.coreView x (o / 0x400 % 256)
  let d := o % 0x400
  if s.ctxState x = stDisabled then 0
  else if d < 0x110 then mapGet 0 k.counters (d / 8)
  else if d = 0x120 then k.icacheMisses
  else if 0x200 ≤ d ∧ d < 0x300 then fld k.trapRec (8 * (d - 0x200)) 64
  else if 0x300 ≤ d then fld k.nanRec (8 * (d - 0x300)) 64
  else 0
/-- A register of the management space (20 Table 20-6). -/
def State.readMgmt (s : State) (o : Nat) : Nat :=
  if o % 8 ≠ 0 then 0
  else if o = 0 then s.word Reg.hif Reg.hifFields 0
  else if o = 8 then Config.deviceIdentity.toNat
  else if o = 0x10 then s.lastPower + bit s.recovery 16 + bit s.memActive 17
  else if 0x1000 ≤ o ∧ o < 0x1018 then s.word Reg.pwr Reg.pwrFields (o - 0x1000)
  else if 0x1100 ≤ o ∧ o < 0x1300 then s.word (Reg.pwrBay ((o - 0x1100) / 8)) Reg.pwrEach 0x100
  else if 0x2000 ≤ o ∧ o < 0x2100 then s.readBar0 0 (o + 0x200)
  else if o = 0x3000 ∧ s.recovery = true then s.recLen
  else if o = 0x3018 then s.recStatus
  else 0
/-! ## Configuration space (18 R476) -/

/-- The three DVSECs in their chain: offset, DVSEC ID, offset of the next. PRESUMED (log entry 100): the places in the header and
the identifiers are those of PCIe and CXL; the offsets of the chain are the model's. -/
def dvsecs : List (Nat × Nat × Nat) := [(0x100, 0, 0x140), (0x140, 8, 0x180), (0x180, 7, 0)]
/-- A dword of a function's configuration space: Vendor ID and Device ID; revision and class code; the DVSEC headers, and in
the DVSEC for CXL devices Memory_Active (19 R501). Others read zero. It answers once PERST is released. -/
def State.readConfig (s : State) (f : CxlId) (o : Nat) : Nat :=
  if mapGet false s.perstOff f.val = false then 0
  else if o = 0 then Config.vendorId.toNat + 0x2416 * 2 ^ 16
  else if o = 8 then 0xB0 + 0x120000 * 2 ^ 8
  else if o = 0x11C then bit s.memActive 1
  else match dvsecs.find? (fun d => decide (d.1 ≤ o) && decide (o < d.1 + 12)) with
    | some (at', id, next) => if o = at' then 0x23 + 2 ^ 16 + next * 2 ^ 20 else if o = at' + 4 then 0x1E98 else id
    | none => 0
/-- A read of BAR0 or BAR2: an access of another size or alignment reads zero, as does any before Memory_Active (19 R501). -/
def State.readSpace (s : State) (sp : RegSpace) (o n : Nat) : Nat :=
  let half (w : Nat) : Nat := if n = 8 then w else bitsAt w (8 * (o % 8)) 32
  let good := (decide (n = 4) || decide (n = 8)) && decide (o % n = 0)
  match sp with
  | .mgmt => if n = 8 ∧ s.dstate < 2 then s.readMgmt o else 0
  | .config f => if n = 4 ∧ o % 4 = 0 then s.readConfig f o else 0
  | .bar0 f => if good && s.memActive && decide (s.dstate = 0) then half (s.readBar0 f (o / 8 * 8)) else 0
  | .bar2 => if good && s.memActive && decide (s.dstate = 0) then half (s.readBar2 (o / 8 * 8)) else 0

end Sys2Proof.Machine
end

