-- ==== Sys2Proof/WellFormed.lean ====
section
/-! DEFINITION. What a command must satisfy beyond its types: the values an encoding or a wire format cannot carry. -/
namespace Sys2Proof

/-- A payload is whole: flits carry at most 236 bytes, blocks hold 32 codes, entries hold seven argument words, and a
compare names an assigned condition. -/
def Instr.wf : Instr → Bool
  | .fcmp _ cond _ => decide (cond ≠ 7)
  | .reducePacketReceive _ r => r.blocks.all (fun b => decide (b.codes.length = 32))
  | .ctxStop e => decide (e.args.length = 7)
  | _ => true

end Sys2Proof
end

