-- ==== Sys2Proof/Tests/Slice0.lean ====
section
/-! SUPPORT. Tests: ill-formed terms refused, small facts written out from the spec by hand, and for the hypotheses of each
statement a state and operands that meet them. -/
namespace Sys2Proof.Tests
set_option Elab.async false
open Sys2Proof Sys2Proof.Machine

/-! ## Ill-formed terms -/

/-- FCMP has seven conditions (06 Table 06-5). -/
theorem test_wf_fcmp : Instr.wf (.fcmp 0 7 ⟨0, false, 0⟩) = false ∧ Instr.wf (.fcmp 0 6 ⟨0, false, 0⟩) = true := by decide
/-- A block of the exchange holds 32 codes (11 R306). -/
theorem test_wf_block : Instr.wf (.reducePacketReceive 0 ⟨0, 0, false, 1, 0, 0, 0, 0, 0, 0, 0, [⟨[1], 0, 0, 0, 0⟩]⟩) = false := by decide
/-- A command entry has seven argument words (18 Table 18-9). -/
theorem test_wf_entry : Instr.wf (.ctxStop ⟨0, 0, false, false, false, 0, 0, 0, []⟩) = false := by decide
/-- No row of the table gives its words bits, so no word spells a command (log entry 1). -/
theorem test_no_word : decodeTableWord 64 0x123456789 = none ∧ State.reset.withFetchWord 64 0x123456789 = State.reset := ⟨rfl, rfl⟩

/-! ## States to test in -/

/-- Memory_Active is set: BAR0 answers. -/
def up : State := { State.reset with memActive := true }
def wrs (s : State) (l : List (Nat × Field × Nat)) : State := l.foldl (fun t p => t.wr p.1 p.2.1 p.2.2) s
def op0 : SlotArgs := ⟨0, false, 0⟩
def ops (l : List (Nat × Nat)) : SlotArgs := ⟨0, false, BitVec.ofNat 51 (l.foldl (fun n p => n + p.2 * 2 ^ p.1) 0)⟩
/-- Core 0 with scalar registers, and a TRAP_CONTROL. -/
def withS (l : List (Nat × Word)) (tc : Word) : State :=
  State.reset.setCore 0 { Core.start with regs := { RegFile.zero with s := l }, trapControl := tc }

/-! ## The machine as a whole -/

theorem test_queue : ({ State.reset with pending := [.thermtrip] } : State).pending = .thermtrip :: [] ∧ State.reset.pending = [] := by decide
theorem test_step_runs : ∃ t, step { State.reset with pending := [.thermtrip] } = .next t ∧ t.thermtrip = true := ⟨_, rfl, rfl⟩
theorem test_canonical : Canonical State.reset := by unfold Canonical; decide
theorem test_reset_steps : ∃ t, step State.reset = .next t := ⟨_, rfl⟩

/-! ## Slot rows -/

/-- Off, and not off: SEGR with all operand bits zero names a reserved operation, so it is asked with another. -/
theorem test_slot_off : State.reset.slotOn 0 ⟨0, true, 0⟩ = false ∧
    (∀ p ∈ slotRows, p.2.2 = 0x92 ∨ decodeCause p.2.1 (slotWord p.2.2 ⟨0, true, 0⟩) = []) ∧
    decodeCause .V (slotWord 0x92 ⟨0, true, 1#51 <<< 18⟩) = [] ∧
    (∀ c : Fin 8, decodeCause .S (slotWord (0x30 + c.val) ⟨0, true, 0⟩) = []) ∧
    (∀ c : Fin 7, decodeCause .S (slotWord (0x38 + c.val) ⟨0, true, 0⟩) = []) ∧ op0.only [] = true := by decide +kernel
theorem test_reserved : (assignedBits .S (slotWord 0x60 (ops [(50, 1)]))).map (fun fs => bitsClear (slotWord 0x60 (ops [(50, 1)])) fs) = some false ∧
    (assignedBits .V (slotWord 0xA9 (ops [(50, 1)]))).map (fun fs => bitsClear (slotWord 0xA9 (ops [(50, 1)])) fs) = some false := by decide +kernel
theorem test_scalar : State.reset.slotOn 0 op0 = true ∧ op0.only [(0, 6), (19, 32)] = true ∧
    (ops [(0, 63), (19, 2 ^ 32 - 1)]).only [(0, 6), (19, 32)] = true ∧ State.reset.modeOf 0 0 = some .rne ∧ State.reset.modeOf 0 6 = some .rne := by
  decide +kernel
theorem test_draw_left : drawLeft State.reset 0 .rne ∧ drawLeft State.reset 0 .sr := by
  exact ⟨fun h => absurd h (by decide), fun _ => by decide⟩
/-- FADD of 1.0 and 1.0 in binary32 is 2.0. -/
theorem test_fadd : ((match exec (.fadd 0 (ops [(0, 3), (6, 1), (12, 1)])) (withS [(1, 0x3F800000)] 1) with
    | .next t => (t.core 0).regs.sreg 3 | _ => 0)) = 0x40000000 := by decide +kernel
theorem test_float_kinds :
    (finish .b32 .rne 0 (numAdd .rne (decodeFloat .b32 0x3F800000) (decodeFloat .b32 0))).produced = false ∧
    (finish .b32 .rne 0 (numAdd .rne (decodeFloat .b32 0x7F800000) (decodeFloat .b32 0xFF800000))).produced = true ∧
    nanSeen (0 : Word) = false ∧ nanMode (0 : Word) = 0 ∧ nanMode (2 : Word) = 2 ∧ nanSeen (2 : Word) = false ∧ nanSeen (4 : Word) = true := by
  decide +kernel
theorem test_convert : (ops [(23, 3)]).only [(0, 6), (6, 6), (19, 3), (23, 2)] = true ∧ (fcvtResult State.reset 0 (ops [(23, 3)]) .rne).produced = false ∧
    (fcvtResult State.reset 0 (ops [(23, 0)]) .rne).produced = false := by decide +kernel
theorem test_compare : op0.only [(0, 4), (6, 6), (12, 6), (18, 1), (19, 32)] = true ∧ op0.only [(0, 4), (6, 6), (12, 6), (19, 3), (22, 1)] = true ∧
    integerCond 6 0 0 = (0 < 0) ∧ (0 : Nat) < 1 := by refine ⟨by decide, by decide, rfl, by decide⟩
/-- The last aligned byte range of the scratchpad, and the first past it. -/
theorem test_scratch :
    (let a := ops [(19, (State.reset.declOf 0).scratch - 8)]; a.only [(0, 6), (6, 6), (19, 32)] = true ∧ scratchFits State.reset 0 a 8) ∧
    (let a := ops [(19, (State.reset.declOf 0).scratch)]; a.only [(0, 5), (6, 6), (19, 32)] = true ∧ ¬ scratchFits State.reset 0 a 32) ∧
    (let a := ops [(19, (State.reset.declOf 0).scratch - 32)]; scratchFits State.reset 0 a 32) ∧
    (ops [(12, 15)]).only [(0, 5), (6, 6), (12, 4), (19, 32)] = true ∧ fld (ops [(12, 5)]).operands 12 3 < 6 := by
  unfold scratchFits; decide +kernel
theorem test_branch : branchLegal State.reset 0 ((State.reset.core 0).pc + 32 * SlotArgs.imm (ops [(19, 1)])) = true ∧
    branchLegal State.reset 0 (State.reset.argS 0 (ops [(19, 1)]) 6 + SlotArgs.imm (ops [(19, 1)])) = false ∧
    branchLegal (State.reset.setCore 0 { Core.start with pc := 8 }) 0 (8 + 32 * SlotArgs.imm op0) = false := by decide +kernel
theorem test_status : (∀ i ∈ [0, 1, 2, 3, 0x10, 0x1F, 0x100, 0x13F], (ops [(19, i)]).only [(6, 6), (19, 12)] = true ∧
    (ops [(19, i)]).only [(0, 6), (19, 12)] = true ∧ fld (ops [(19, i)]).operands 19 12 = i) ∧ (ops [(0, 15)]).only [(0, 4)] = true := by decide +kernel

/-! ## The vector engine and the units -/

/-- A descriptor of binary32 in the scratchpad, its base at a multiple of 1024. -/
def td32 (n rows cols stride : Nat) : BitVec 256 :=
  BitVec.ofNat 256 (1024 * n + 2 ^ 52 + rows * 2 ^ 96 + cols * 2 ^ 128 + stride * 2 ^ 152)
/-- One record of a kind, phase and K. -/
def rec1 (kind phase k : Nat) : BitVec 256 := BitVec.ofNat 256 (2 ^ 192 * (if kind = 4 then 0 else 1) + kind * 2 ^ 224 + phase * 2 ^ 232 + k * 2 ^ 236)
/-- The record an operation of the row engine finds in its turn (04 Table 04-5). -/
def unitRec (sl : Slot) (op : Nat) : BitVec 256 :=
  if sl ≠ .V then 0
  else match op with
    | 0x71 => rec1 1 0 0 | 0x72 => rec1 1 1 0 | 0x80 => rec1 1 1 0 | 0x81 => rec1 1 2 0 | 0x82 => rec1 1 3 0
    | 0x74 => rec1 3 0 0 | 0x75 => rec1 3 1 0 | 0x83 => rec1 3 1 0 | 0x84 => rec1 3 2 0 | 0x85 => rec1 3 3 0
    | 0x77 => rec1 4 0 1 | 0x78 => rec1 4 0 1 | _ => 0
def unitState (sl : Slot) (op : Nat) : State :=
  State.reset.setCore 0 { Core.start with
    side := mapSet 0 [] 0 (unitRec sl op)
    regs := { RegFile.zero with
      s := [(1, BitVec.ofNat 64 (2 ^ 32))]
      td := (upto 8).map (fun i => (i, td32 (i + 1) 1 8 64)) ++ [(9, td32 12 8 1 4)] } }
def unitArgs (sl : Slot) (op : Nat) : SlotArgs :=
  match sl with
  | .M => if op = 0x20 then ops [(4, 1), (34, 7)] else ops [(0, 1), (5, 2)]
  | .D => ops [(0, 1), (5, if op = 0x10 then 9 else 2)]
  | _ =>
    if op < 0x60 then ops [(6, 1)]
    else if op = 0x60 then ops [(0, 1), (5, 2)]
    else if op < 0x90 then ops [(0, 1), (6, 5), (23, 1)]
    else if op < 0xA0 then ops [(0, 1), (5, 2), (10, 3), (18, 1)]
    else ops [(0, 1)]

theorem test_vector_rows :
    (∀ p ∈ vecIntRows, State.reset.slotClear 0 .V p.2.1 (ops [(27, 2)]) = true) ∧
    (∀ p ∈ vecFloatRows, State.reset.slotClear 0 .V p.2.1 (ops [(27, 1)]) = true ∧ State.reset.slotClear 0 .V p.2.1 op0 = true) ∧
    (∀ p ∈ vecFnRows, State.reset.slotClear 0 .V p.2.1 op0 = true) ∧ State.reset.modeOf 0 (fld (ops [(27, 1)]).operands 24 3) = some .rne := by
  decide +kernel
/-- Lane 0 of core 0 has drawn once. -/
def drawn : State := State.reset.setCore 0 { Core.start with regs := { RegFile.zero with s := [(1, 1)], p := [(1, 1)], lanes := [(0, ⟨5, 1⟩)] } }
theorem test_vector_lanes : (∀ v : Fin 3, State.reset.slotClear 0 .V 0x07 (ops [(27, v.val)]) = true ∧
    State.reset.slotClear 0 .V 0x24 (ops [(27, v.val)]) = true) ∧ State.reset.slotClear 0 .V 0xA8 op0 = true ∧
    drawn.slotClear 0 .V 0xA9 (ops [(0, 1), (6, 1)]) = true := by decide +kernel
/-- Each row of the units finds operands under which nothing stands against it. -/
theorem test_units : ∀ p ∈ unitRows, (unitState p.2.1 p.2.2.1).slotClear 0 p.2.1 p.2.2.1 (unitArgs p.2.1 p.2.2.1) = true := by decide +kernel

/-! ## Cores at work -/

def ran (i : Instr) (s : State) : State := match exec i s with | .next t => t | _ => s
/-- A program of 64 bytes of code at offset 0, of one kind: 1 bundles, 2 legacy words. -/
def prog (kind : Nat) : Program :=
  { bays := 1, base := 0, bytes := 64, entry := 0, segs := [⟨0, kind, 64, 0⟩]
    decl := { Decl.hardware with pegs := 16, credits := 64, tier3 := 4096 }
    args := [], ticket := none, reportStart := false, started := true }
/-- Context 0 is Running on bay 0, its queue 0 is local with four records of 32 bytes, and core 0 holds descriptors. -/
def placed (kind : Nat) : State :=
  let s := (up.setCtx 0 { Ctx.start with bayMap := [0], programs := [prog kind] }).setCore 0 { Core.start with
    run := .running, regs := { RegFile.zero with td := [(0, td32 1 1 8 64), (1, td32 2 1 8 64), (2, td32 3 1 8 64 + 2#256 <<< 52)] } }
  wrs s [(Reg.ctx 0, Reg.CTX_ENABLE, 1), (Reg.ctx 0, Reg.CTX_STATE, 3), (Reg.ctx 0, Reg.CTX_PEG_BASE, 64), (Reg.ctx 0, Reg.CTX_BAYS, 1),
    (Reg.wwy 0 0, Reg.WWY_ENABLE, 1), (Reg.wwy 0 0, Reg.WWY_RECORD_KIND, 3), (Reg.wwy 0 0, Reg.WWY_RECORD_BYTES, 32), (Reg.wwy 0 0, Reg.WWY_DEPTH, 4)]
theorem test_mma_exact :
    (let s := State.reset.setCore 0 { Core.start with regs := { RegFile.zero with
        td := [(0, BitVec.ofNat 256 (td32 1 1 1 4).toNat + 7#256 <<< 52), (1, BitVec.ofNat 256 (td32 2 1 1 4).toNat + 7#256 <<< 52)] } }
     let a := ops [(5, 1)]
     s.slotClear 0 .M 0x01 a = true ∧ isIntMma (s.slotView 0 .M 0x01 a) = true ∧ a.operands.getLsbD 14 = false ∧
     (s.slotView 0 .M 0x01 a).tx.rows = 1 ∧ (s.slotView 0 .M 0x01 a).ints (s.slotView 0 .M 0x01 a).tx = [[0]] ∧
     (s.slotView 0 .M 0x01 a).ints (s.slotView 0 .M 0x01 a).ty = [[0]]) := by decide +kernel
theorem test_placed : (placed 1).place 0 = some (0, 0) ∧ (placed 1).slotClear 0 .D 0x20 op0 = true ∧ (placed 1).slotClear 0 .D 0x28 op0 = true ∧
    15 < ((placed 1).declOf 0).pegs ∧ (ops [(0, 15), (16, 1)]).only [(0, 16), (16, 8)] = true ∧ (ops [(0, 31)]).only [(0, 5)] = true := by
  decide +kernel
theorem test_status_place : ((placed 1).ctx 0).programOn 0 = some (prog 1) ∧ ((placed 1).ctx 0).bayMap[0]? = some 0 := by decide +kernel
theorem test_legacy : (∀ op ∈ [0x18, 0x19, 0x1A, 0x21, 0x28, 0x29, 0x2A, 0x2B, 0x2C, 0x2D, 0x2E, 0x30, 0x38, 0x39],
    (placed 2).legacyClear 0 op ⟨0, 0, false⟩ = true) ∧ (placed 1).legacyClear 0 0x1B ⟨0, 2, true⟩ = true ∧
    (placed 2).legacyClear 0 0x20 ⟨2 + 2 * 32, 0, false⟩ = true ∧ 8 ≤ ((placed 2).declOf 0).scratch := by decide +kernel
/-- Core 0 of a program of legacy words, at an offset of its code. -/
def legacyPlaced (pc : Nat) : State :=
  let s := placed 2
  s.setCore 0 { s.core 0 with legacyAt := some 0, pc := BitVec.ofNat 64 pc }
theorem test_issue : (mayIssue (placed 1) 0).isSome = true ∧ ((placed 1).core 0).withdrawn = [] ∧ ((placed 1).core 0).halt = false ∧
    legacySeg (prog 1) 0 = none ∧ inBundleCode (prog 1) 0 = true ∧ inBundleCode (prog 1) 32 = true ∧
    inBundleCode (prog 1) 64 = false ∧ ((placed 1).core 0).legacyAt = none ∧
    (∀ pc ∈ [0, 64], let s := legacyPlaced pc
      mayIssue s 0 = some (prog 2) ∧ (s.core 0).legacyAt = some 0 ∧ s.fetch 0 (prog 2) 8 = 0 ∧ inLegacySeg (prog 2) 0 pc = decide (pc = 0) ∧
      (s.regulateFetch 0).2 = true ∧ s.fetchPoison 0 = none) ∧ ((placed 1).regulateFetch 0).2 = true ∧ (placed 1).fetchPoison 0 = none ∧
    (bundleSlots (placed 1) 0 (prog 1)).any (fun i => predWaits (placed 1) 0 [] i.word) = false ∧
    partsIssue (placed 1) 0 (bundleSlots (placed 1) 0 (prog 1)) = true ∧ partsBranch (placed 1) 0 (bundleSlots (placed 1) 0 (prog 1)) = false := by
  decide +kernel
/-- Core 0 has an instruction of a unit in flight: the word of a slot row, its registers those of the core. -/
def flying (sl : Slot) (op : Nat) (a : SlotArgs) (s : State) : State :=
  let i := s.slotInst 0 sl op a
  s.setCore 0 { s.core 0 with flight := [{ i with regs := (s.core 0).regs }] }
theorem test_units_complete :
    (let s := flying .V 0x01 op0 (placed 1)
     ∃ i, onUnit (s.core 0).flight .vector 0 = some i ∧ isWw i = false ∧ passDone s 0 i = true ∧
       storesAfter s 0 (s.core 0).flight i = false ∧ (s.regulate 0 i).2 = true) ∧
    (let s := flying .D 0x01 (ops [(5, 1)]) (placed 1)
     ∃ i, onUnit (s.core 0).flight .bellows 0 = some i ∧ isWw i = false ∧ passDone s 0 i = true ∧ s.place 0 = some (0, 0) ∧
       storesAfter s 0 (s.core 0).flight i = false ∧ (s.regulate 0 i).2 = true) ∧
    (let s := flying .D 0x20 op0 (placed 1)
     ∃ i, onUnit (s.core 0).flight .bellows 0 = some i ∧ isWw i = true) := by
  refine ⟨⟨_, rfl, ?_⟩, ⟨_, rfl, ?_⟩, ⟨_, rfl, ?_⟩⟩ <;> decide +kernel
/-- Two INT8 numbers whose product added to the largest INT32 does not fit, and the array at work on them. -/
def overflowing (r : RunState) : State :=
  let d (n : Nat) : BitVec 256 := td32 n 1 1 4 + 7#256 <<< 52 + 1#256 <<< 56
  let s := State.reset.setCore 0 { Core.start with
    run := r, tileStatus := [(0, 1)], acc := [(0, 0x7FFFFFFF)], scratch := [(1024, 1), (2048, 1)]
    regs := { RegFile.zero with td := [(0, d 1), (1, d 2)] } }
  flying .M 0x01 (ops [(5, 1), (14, 1)]) s
theorem test_retry : (∀ r ∈ [RunState.running, .draining, .trapped], (onUnit ((overflowing r).core 0).flight .array 0).any (fun i =>
    isIntMma (viewOf (overflowing r) 0 i) && !passDone (overflowing r) 0 i && decide (intStart (viewOf (overflowing r) 0 i) + i.retries < 2)) = true) := by
  decide +kernel
theorem test_pegs :
    (let s := { placed 1 with pegSignals := [⟨64, 1, none⟩] }
     takeSignal 64 s.pegSignals = some (⟨64, 1, none⟩, [])) ∧
    (let s := ran (.pegw 0 (ops [(19, 1)])) (placed 1)
     ∃ w, (s.core 0).pegWait = some w ∧ w.released = false) ∧
    (let s := ran (.pegw 0 op0) (placed 1)
     ∃ w, (s.core 0).pegWait = some w ∧ w.released = true) ∧
    (let s := ran (.fence 0 (ops [(0, 31)])) (placed 1)
     ∃ b, (s.core 0).fence = some b ∧ b.mask = 31) := by
  refine ⟨rfl, ⟨_, rfl, ?_⟩, ⟨_, rfl, ?_⟩, ⟨_, rfl, ?_⟩⟩ <;> decide +kernel
/-- A FENCE behind a Bellows move that is still in flight, and one with nothing before it. -/
theorem test_fence_blocks :
    (let s0 := flying .D 0x01 (ops [(5, 1)]) (placed 1)
     let s := ran (.fence 0 (ops [(0, 31)])) (s0.setCore 0 { s0.core 0 with seq := 1 })
     (s.core 0).fence.any (fun b => (s.core 0).flight.any (fun e => decide (e.seq.toNat < b.seq.toNat) &&
       decide (scopesOf (viewOf s 0 e) &&& b.mask.toNat ≠ 0))) = true) := by decide +kernel
theorem test_drain :
    ((placed 1).core 0).run = .running ∧
    (let s := (placed 1).setCore 0 { Core.start with run := .draining }
     (s.core 0).run = .draining ∧ (s.core 0).deferred = [] ∧ s.quiet 0 = true ∧ s.migrating = [] ∧ s.ctxCore 0 0 = some 0 ∧ s.memActive = true) ∧
    (let s := wrs ((State.reset.setCtx 0 { Ctx.start with bayMap := [0] }).setCore 0 { Core.start with halt := true, run := .running })
       [(Reg.ctx 0, Reg.CTX_ENABLE, 1), (Reg.ctx 0, Reg.CTX_STATE, 3)]
     s.place 0 = some (0, 0) ∧ s.ctxState 0 = stRunning ∧ (s.ctx 0).programOn 0 = none ∧ (s.core 0).withdrawn = [] ∧ s.quiet 0 = true) ∧
    (let s := ((placed 1).setCore 0 { Core.start with halt := true, run := .running }).setCore 1 { Core.start with run := .running }
     s.place 0 = some (0, 0) ∧ s.ctxState 0 = stRunning ∧ (s.ctx 0).programOn 0 = some (prog 1) ∧ s.quiet 0 = true ∧
       (s.programCores 0 (prog 1)).any (fun d => decide (d ≠ 0) && decide ((s.core d).run ≠ .halted) && decide ((s.core d).run ≠ .idle)) = true) ∧
    (let d : Deferred := ⟨0, 0x7004, false, false⟩
     let s := State.reset.setCore 0 { Core.start with run := .draining, deferred := [d] }
     firstDue (s.core 0).deferred = some d ∧ (s.core 0).run ≠ .trapped ∧ (s.core 0).flight.any holdsIssue = false) := by
  decide +kernel

/-! ## Windway queues -/

theorem test_windway_put :
    (let s := ran (.wwput 0 op0) (placed 1)
     (∃ i, s.refInst ⟨0, 0⟩ = some i ∧ i.taken = false ∧ (viewOf s 0 i).wwDesc.rows = 1 ∧
       (s.putRows 0 0 0 (s.recordSize 0 0) (viewOf s 0 i) (upto 1)).2 = none) ∧
     (s.queue 0 0).puts = [⟨0, 0⟩] ∧ s.isSender 0 0 = false ∧ s.freeCredits 0 0 = 4 ∧ s.flag (Reg.wwy 0 0) Reg.WWY_SPILL = false) := by
  refine ⟨⟨_, rfl, ?_⟩, ?_⟩ <;> decide +kernel
theorem test_windway_get :
    (let s := ran (.wwputTakeCredits 0 0) (ran (.wwput 0 op0) (placed 1))
     let t := ran (.wwget 0 op0) s
     (∃ i, t.refInst ⟨0, 1⟩ = some i ∧ (viewOf t 0 i).wwDesc.rows = 1) ∧ (t.queue 0 0).gets = [⟨0, 1⟩] ∧ (t.queue 0 0).recs.length = 1 ∧
     (let u := ran (.wwgetTakeRecords 0 0) t
      u.isReceiver 0 0 = false ∧ (u.queue 0 0).delivering.length = 1 ∧ (u.queue 0 0).delivering.all (fun d =>
        (u.refInst d.ref).any (fun i => decide (((viewOf u 0 i).wwRow d.row).1 = .scratch 0))) = true ∧
        (u.queue 0 0).delivering.all (fun d => (u.poisonMet 0 (u.recordReads 0 0 d.rcd) []).isNone) = true)) := by
  refine ⟨⟨_, rfl, ?_⟩, ?_⟩ <;> decide +kernel
theorem test_windway_remote :
    (let s := wrs (placed 1) [(Reg.wwy 0 0, Reg.WWY_REMOTE_GET, 1)]
     s.queueOn 0 0 = true ∧ (s.isSender 0 0 || s.isReceiver 0 0) = true) ∧
    (let s := wrs (placed 1) [(Reg.wwy 0 0, Reg.WWY_REMOTE_PUT, 1)]
     s.queueOn 0 0 = true ∧ (s.isSender 0 0 || s.isReceiver 0 0) = true ∧ 0 < s.freeCredits 0 0 ∧ s.recordSize 0 0 = 32 ∧
       (s.placeRecord 0 0 0 (List.replicate 32 0)).isSome = true ∧ s.checking (.queue 0 0) = false) ∧
    (let s := ran (.queueDisable 0 0) (placed 1)
     (s.queue 0 0).clearing ≠ []) := by decide +kernel

/-! ## Objects, contexts and the scheduler -/

def entry (args : List Word) : Entry := ⟨0, 7, false, false, false, 0, 0, 0, args⟩
def zeros : List Word := List.replicate 7 0
/-- A descriptor that context 0 may be enabled with: one bay, one DRAM group with 64 MiB of region and its save area, some pegs. -/
def ctxFields : List (Nat × Field × Nat) :=
  [(Reg.ctx 0, Reg.CTX_BAYS, 1), (Reg.ctx 0, Reg.CTX_DRAM_GROUPS, 1), (Reg.ctx 0, Reg.CTX_GROUP_BYTES, 2 ^ 26),
   (Reg.ctx 0, Reg.CTX_SAVE_BASE, 2 ^ 27), (Reg.ctx 0, Reg.CTX_PEG_BASE, 64), (Reg.ctx 0, Reg.CTX_PEG_COUNT, 64), (Reg.ctx 0, Reg.CTX_BW_GBPS, 100)]
/-- Context 0 enabled in a state of R382. -/
def inState (st : Nat) (k : Ctx) : State :=
  wrs (up.setCtx 0 k) (ctxFields ++ [(Reg.ctx 0, Reg.CTX_ENABLE, 1), (Reg.ctx 0, Reg.CTX_STATE, st)])
theorem test_enable : up.barOpen = true ∧ up.objOn (.ctx 4095) = false ∧ up.checking (.ctx 4095) = false ∧ up.objOn .address = false ∧
    up.objOn (.ring 511) = false ∧ State.reset.barOpen = false := by decide +kernel
theorem test_check_ends :
    (let s := { wrs up ctxFields with checks := [.ctx 0] }
     s.checks = [.ctx 0] ∧ ({ s with checks := [] } : State).checkOf (.ctx 0) = none) ∧
    (({ up with checks := [] } : State).checkOf (.ctx 0) = some 0x1301) ∧ State.reset.checks = [] := by decide +kernel
theorem test_teardown :
    (let s := { up with checks := [.ctx 0] }
     s.barOpen = true ∧ s.checking (.ctx 0) = true) ∧
    (let s := inState 3 { Ctx.start with bayMap := [0], programs := [prog 1] }
     s.barOpen = true ∧ s.checking (.ctx 0) = false ∧ s.ctxState 0 = stRunning) ∧
    (let s := inState 7 { Ctx.start with bayMap := [0], programs := [prog 1] }
     s.ctxState 0 = stTearing ∧ s.settled 0 = true ∧ s.clearings.any (fun yc => decide (yc.1 = 0)) = false ∧ s.migrating = []) := by
  decide +kernel
/-- An image of one bundle, written out from Tables 05-8 to 05-10, with its digest. -/
def imageBody (digest : List Byte) : List Byte :=
  leBytes 8 (0x49325751 + 2 * 2 ^ 32 + 2 ^ 48) ++ leBytes 8 192 ++ leBytes 8 224 ++ leBytes 8 0 ++
  leBytes 8 0 ++ leBytes 8 0 ++ leBytes 8 (2 ^ 32 + 3 * 2 ^ 39) ++ List.replicate 40 0 ++ digest ++
  leBytes 8 (192 + 2 ^ 48) ++ leBytes 8 32 ++ leBytes 8 0 ++ List.replicate 40 0
def image : List Byte := imageBody (shake256 (imageBody (List.replicate 64 0)))
def loadEntry : Entry := entry [4096, 224, 4096, 1, 8192, 0, 0]
def loadable : State := { inState 1 Ctx.start with hostMem := mapWrite 0 [] 4096 image }
theorem test_load : loadable.admits 1 loadEntry = true ∧ loadable.ctxState 0 = stIdle ∧
    (let m := loadable.started 1 loadEntry
     m.fitCheck 0 (m.bytesAt (.host 4096) 0 224) 224 4096 1 = none) := by decide +kernel
theorem test_load_refused :
    (let s := inState 1 Ctx.start
     s.admits 1 loadEntry = true ∧ s.ctxState 0 = stIdle ∧
     (let m := s.started 1 loadEntry
      m.fitCheck 0 (m.bytesAt (.host 4096) 0 224) 224 4096 1 = some (0x2001, 0))) ∧
    (let s := inState 4 Ctx.start
     s.admits 1 loadEntry = true ∧ s.ctxState 0 = stSwitching) ∧
    (let s := wrs (inState 5 Ctx.start) [(Reg.ctx 0, Reg.CTX_STEP_STATE, 6)]
     s.admits 1 loadEntry = true ∧ s.ctxState 0 = stStopped ∧ s.rd (Reg.ctx 0) Reg.CTX_STEP_STATE = 6) := by decide +kernel
theorem test_context_commands :
    (∀ op ∈ [4, 5, 6], ∀ st ∈ [1, 2, 3, 5], (inState st Ctx.start).admits op (entry zeros) = true ∧ (inState st Ctx.start).ctxState 0 = st) ∧
    ((inState 5 Ctx.start).ctx 0).faulted = false ∧ (inState 5 Ctx.start).rd (Reg.ctx 0) Reg.CTX_STEP_STATE ≠ 6 ∧
    ((inState 5 { Ctx.start with faulted := true }).ctx 0).faulted = true := by decide +kernel
/-- Context 1 beside context 0, with a state, and bay 0 the only bay context 0 may have. -/
def besides (s : State) (st : Nat) (l : List (Nat × Field × Nat)) (k : Ctx) : State :=
  wrs (s.setCtx 1 k) ([(Reg.ctx 1, Reg.CTX_ENABLE, 1), (Reg.ctx 1, Reg.CTX_STATE, st), (Reg.ctx 1, Reg.CTX_BAYS, 1),
    (Reg.ctx 0, Reg.CTX_ALLOWED_BAYS, 1)] ++ l)
theorem test_placement :
    ({ up with clkLost := [(3, true)] } : State).mayPlace = false ∧
    (let s := inState 2 { Ctx.start with programs := [prog 1] }
     s.mayPlace = true ∧ s.waitingOrder = [0] ∧ s.neverPlaceable 0 = false ∧ s.chosenBays 0 = some [0]) ∧
    (let s := wrs (inState 2 { Ctx.start with programs := [prog 1] }) [(Reg.ctx 0, Reg.CTX_ALLOWED_BAYS, 0)]
     s.waitingOrder = [0] ∧ s.neverPlaceable 0 = true) := by decide +kernel
theorem test_preemption :
    (let s := besides (inState 2 Ctx.start) 3 [(Reg.ctx 0, Reg.CTX_CLASS, 1)] { Ctx.start with bayMap := [0] }
     s.mayPlace = true ∧ s.waitingOrder = [0] ∧ s.isLc 0 = true ∧ s.neverPlaceable 0 = false ∧ s.chosenBays 0 = none ∧ s.victims 0 = some [1]) ∧
    (let s := besides (inState 2 Ctx.start) 3 [(Reg.ctx 0, Reg.CTX_CLASS, 1), (Reg.ctx 1, Reg.CTX_CLASS, 1)] { Ctx.start with bayMap := [0] }
     s.waitingOrder = [0] ∧ s.neverPlaceable 0 = false ∧ s.chosenBays 0 = none ∧ s.victims 0 = none) ∧
    (let s := besides (inState 3 { Ctx.start with bayMap := [0] }) 2 [(Reg.ctx 0, Reg.CTX_QUANTUM_MS, 1)] Ctx.start
     s.ctxState 0 = stRunning ∧ s.isLc 0 = false ∧ s.rd (Reg.ctx 0) Reg.CTX_QUANTUM_MS ≠ 0 ∧
     (s.ctx 0).placedUs + 1000 * s.rd (Reg.ctx 0) Reg.CTX_QUANTUM_MS ≤ ({ s with nowUs := 1000 } : State).nowUs ∧
     (s.inState stWaiting).any (fun y => !s.isLc y && decide (s.priority 0 ≤ s.priority y)) = true) := by decide +kernel
def switching (g : SwitchGoal) (p : SwitchPhase) (saved : Bool) : State :=
  inState 4 { Ctx.start with bayMap := [0], programs := [prog 1], goal := some g, phase := p, hasSaved := saved }
theorem test_switches :
    (let s := switching .preempt .drain false
     s.migrating = [] ∧ s.ctxState 0 = stSwitching ∧ (s.ctx 0).goal = some .preempt ∧ s.settled 0 = true) ∧
    (switching (.stop 0x5005) .scrub true).ctxState 0 = stSwitching ∧
    (let s := switching .place .restore true
     s.ctxState 0 = stSwitching ∧ s.asleep 0 = false ∧ (s.ctx 0).hasSaved = true ∧ s.windowBad 0 = false ∧ (s.ctx 0).bayNums.all (fun b =>
       decide ((s.ctx 0).coresNeeded ≤ s.activeCores b)) = true ∧ s.bayHolder 0 = some (0, 0)) := by decide +kernel

/-! ## Training and the exchange -/

def openStep : OpenStep := ⟨0, 1, false, false, 16, [], [], none, false⟩
def aSummary : Summary := ⟨0, 1, 0, false, false, 0, 0, 0, 0, [], []⟩
/-- Context 0 trains, its step in a state of R249. -/
def training (st : Nat) (k : Ctx) (l : List (Nat × Field × Nat)) : State :=
  wrs (inState 3 k) ([(Reg.ctx 0, Reg.CTX_STATE_BYTES, 4096), (Reg.ctx 0, Reg.CTX_STEP_STATE, st), (Reg.ctx 0, Reg.CTX_LOSS_BOUND, 8)] ++ l)
theorem test_steps :
    (∀ st ∈ [0, 1, 2, 3, 4, 5, 6], ∀ op ∈ [2, 3], let s := training st { Ctx.start with bayMap := [0], step := some openStep } []
      s.admits op (entry zeros) = true ∧ s.trains 0 = true ∧ s.stepState 0 = st) ∧
    (let s := training 4 { Ctx.start with dataNextDue := some 5 } []
     (s.ctx 0).dataNextDue = some 5 ∧ (5 : Word) ≠ (entry zeros).args.getD 0 0) ∧
    (let s := training 0 Ctx.start []
     (s.ctx 0).dataNextDue = none ∧ (s.exch 0).early = [] ∧ (s.exch 0).earlySummaries = []) ∧ openStep.floorHalt = false := by decide +kernel
theorem test_gate :
    (let s := training 1 { Ctx.start with bayMap := [0], step := some openStep, exch := { Exchange.idle with totals := some { aSummary with nonfinite := true } } } []
     s.stepState 0 = 1 ∧ (s.ctx 0).step = some openStep ∧ openStep.stopEvent = none ∧ (s.exch 0).abort = none ∧
     (s.exch 0).totals = some { aSummary with nonfinite := true } ∧ (s.ctx 0).captures = [] ∧ (s.ctx 0).tickets = [] ∧
     s.cf 0 Reg.CTX_STEP + 1 - s.cf 0 Reg.CTX_LAST_CKPT_STEP ≤ s.cf 0 Reg.CTX_LOSS_BOUND) ∧
    (let s := training 1 { Ctx.start with step := some openStep, exch := { Exchange.idle with totals := some aSummary } } []
     (s.exch 0).totals = some aSummary ∧ aSummary.nonfinite = false ∧ (s.exch 0).earlyChunks = []) ∧
    (let s := training 1 { Ctx.start with step := some { openStep with stopEvent := some 0x8101 } } []
     s.canRerun 0 = true ∧ (s.exch 0).merged = false ∧ (0x8101 : BitVec 16) ≠ 0x3205) ∧
    (let s := training 1 { Ctx.start with step := some openStep, exch := { Exchange.idle with abort := some 0x3204 } } []
     (s.exch 0).abort = some 0x3204) := by decide +kernel
def aCheckpoint : Checkpoint := ⟨0, 0, [], false, 1, 0, 4096, [], [], [], 0⟩
def restorable : State :=
  { wrs (inState 1 Ctx.start) [(Reg.ctx 0, Reg.CTX_STATE_BYTES, 4096)] with ckpts := [aCheckpoint], ckptIndex := [(0, 0)] }
def capturing (d : Due) : State := training 0 { Ctx.start with bayMap := [0], captures := [d] } []
theorem test_checkpoint :
    (let s := capturing ⟨0, 0, false, none, 0, 0⟩
     (splitDue (s.ctx 0).captures).isSome = true ∧ s.marksReady 0 1 = true ∧
     s.droneInRange 0 (s.cf 0 Reg.CTX_STATE_BASE) (s.cf 0 Reg.CTX_STATE_BYTES) = false ∧ s.poisonMet 0 (s.ckptReads 0) [] = none) ∧
    (let d : Due := ⟨0, 0, false, some aCheckpoint, 0, 3⟩
     ((capturing d).ctx 0).captures = [d] ∧ (capturing d).ckptArrived 0 d = true) ∧
    (let d : Due := ⟨0, 0, false, some aCheckpoint, 0, 3⟩
     let s := { capturing d with outbox := [⟨(capturing d).ckptKey 0, false, 4, 1, []⟩] }
     s.ckptArrived 0 d = false) ∧
    (restorable.admits 7 (entry zeros) = true ∧ restorable.ctxState 0 = stIdle ∧
     (match restorable.restoreFault 0 0 .drain with | .error c => c | .ok _ => 0) = 0x9002) ∧
    (∀ op ∈ [8, 9], (training 0 Ctx.start []).admits op (entry zeros) = true) ∧
    (let e := entry [3, 0, 0, 0, 0, 0, 0]
     (training 0 Ctx.start []).admits 8 e = true ∧ (training 0 Ctx.start []).cf 0 Reg.CTX_STEP + 2 < entryArg e 0) := by decide +kernel
/-- A replay of bay 0 whose base is step 0's checkpoint: the replay bays it may run on, and too few of them. -/
theorem test_replay :
    (let e := entry [1, 0, 0, 0, 0, 0, 0]
     let s := { training 0 { Ctx.start with bayMap := [0, 1], traceStep := 1 } [(Reg.ctx 0, Reg.CTX_REPLAY_BAYS, 2)] with ckpts := [aCheckpoint] }
     s.admits 9 e = true ∧ (s.ctx 0).bayMap ≠ [] ∧ maskList 64 (entryArg e 0) = [0] ∧ maskList 64 (s.cf 0 Reg.CTX_REPLAY_BAYS) = [1] ∧
     (s.ctx 0).programOn 1 = none ∧ (s.ckpts ++ s.drains).find? (fun c => decide (c.ctx.val = 0) && decide (c.step + 1 = (s.ctx 0).traceStep)) =
       some aCheckpoint) ∧
    (let e := entry [3, 0, 0, 0, 0, 0, 0]
     (maskList 64 (entryArg e 0)).length = 2) := by decide +kernel
/-- The marks of its 256 lanes carry the number of the step after it. -/
def marked : Checkpoint := { aCheckpoint with keyGen := 1, marks := (List.replicate 256 [0, 0, 0, 0, 0, 0, 1, 0]).flatten }
theorem test_restore : (match ({ restorable with ckpts := [marked] } : State).restoreFault 0 0 .buddy with
    | .error _ => 0 | .ok c => c.bays) = 1 := by decide +kernel

/-! ## The Truss and the exchange -/

/-- Port 0 enabled in a link state, at a width, with more fields and a port's own state. -/
def linked (st width : Nat) (k : Port) : State :=
  wrs ({ up with ports := mapSet Port.start [] 0 k }) [(Reg.trsPort 0, Reg.TRS_ENABLE, 1), (Reg.trsPort 0, Reg.TRS_LINK_STATE, st),
    (Reg.trsPort 0, Reg.TRS_WIDTH, width), (Reg.trsAddress, Reg.TRSA_ENABLE, 1), (Reg.trsAddress, Reg.TRSA_ADDRESS, 5),
    (Reg.route 9, Reg.ROUTE_VALID, 1), (Reg.route 9, Reg.ROUTE_PORT_SET, 1)]
def flit (type seq : Nat) : Flit := ⟨BitVec.ofNat 4 type, 0, BitVec.ofNat 16 seq, 0, false, 0, 0, []⟩
theorem test_links :
    (∀ w ∈ [0, 1, 2, 3], (linked 1 w .start).rd (Reg.trsPort 0) Reg.TRS_LINK_STATE = 1 ∧ trainResult w 0 = none ∧ (trainResult w 0xFF).isSome = true) ∧
    trainResult 0 0x0F = some (3, 0x0F) ∧ trainResult 1 0x0F = none ∧
    (linked 2 0 .start).barOpen = true ∧ (linked 2 0 .start).checking (.port 0) = false ∧ (linked 2 0 .start).objOn (.port 0) = true ∧
    portUp (linked 2 0 .start) 0 = true ∧ portUp (linked 3 0 .start) 0 = true ∧ ((linked 2 0 .start).port 0).peerSeen = false ∧
    (linked 2 0 .start).ownAddress = some 5 ∧ ((linked 2 0 .start).port 0).ctl = [] ∧ ((linked 2 0 .start).port 0).retry.length < 2048 ∧
    (let s := linked 2 0 { Port.start with peerSeen := true, keyed := true, rekeyDue := true, retry := [(flit 1 0, 8)] }
     (s.port 0).peerSeen = true ∧ (s.port 0).keyed = true ∧ (s.port 0).rekeyDue = true ∧ s.retrainDue 0 .resends = true ∧
     s.rd (Reg.trsPort 0) Reg.TRS_PEER_IDENTITY ≠ 1) ∧ (linked 2 0 .start).retrainDue 0 .resends = false ∧
    (linked 2 0 .start).retrainDue 0 .uncorrectable = false := by decide +kernel
/-- The third failed retrain within 1 s, and the first. -/
theorem test_retrains :
    (let s := linked 4 0 { Port.start with failTimes := [0, 0] }
     s.rd (Reg.trsPort 0) Reg.TRS_LINK_STATE = 4 ∧ trainResult 0 0 = none ∧ 3 ≤ (s.within 1000000 ((s.port 0).failTimes ++ [s.nowUs])).length) ∧
    (linked 4 0 .start).within 1000000 (((linked 4 0 .start).port 0).failTimes ++ [0]) = [0] := by decide +kernel
theorem test_flits : epochOk ((linked 2 0 .start).port 0) 0 = true ∧ epochOk ((linked 2 0 .start).port 0) 1 = false ∧
    (flit 1 0).seq.toNat = (((linked 2 0 .start).port 0).rxSeq + 1) % 65536 ∧ (flit 3 0).type = 3 ∧ (flit 1 0).cls = 0 ∧ (flit 1 0).nak = false ∧
    (flit 1 1).seq.toNat ≠ (((linked 2 0 .start).port 0).rxSeq + 1) % 65536 ∧ ((linked 2 0 .start).port 0).ctl = [] ∧
    ((linked 2 0 .start).port 0).nextClass = none := by decide +kernel
def key (src dest : Nat) : ChannelKey := ⟨BitVec.ofNat 16 src, 0, BitVec.ofNat 16 dest, 0, 0⟩
def packet (src dest type : Nat) : Packet := ⟨key src dest, false, BitVec.ofNat 4 type, 0, []⟩
/-- A packet of three words comes out of its bytes as it went in, and what is left over stays. -/
theorem test_packet_bytes : (let pk : Packet := ⟨key 5 9, true, 2, 7, [1, 2, 3, 4, 5, 6, 7, 8, 9, 10, 11, 12]⟩
    (parsePackets 64 (packetBytes pk ++ [1, 0])).1 = [pk] ∧ (parsePackets 64 (packetBytes pk ++ [1, 0])).2 = [1, 0]) := by decide +kernel
/-- Port 0 up and keyed: a packet sent on it leaves in one data flit, whose payload the neighbour's end takes as that packet. -/
theorem test_flit_carries :
    (let pk : Packet := ⟨key 5 9, false, 2, 0, [1, 2, 3, 4]⟩
     let s := (linked 2 0 { Port.start with peerSeen := true, keyed := true, credits := [8, 8, 8] }).sendOn 0 pk
     (s.port 0).out.length = 1 ∧ (s.port 0).out.all (fun f => decide (f.type = 1) && decide (f.payload.length = 232) &&
       decide ((parsePackets 232 f.payload).1 = [pk])) = true) := by decide +kernel
theorem test_packets :
    (linked 2 0 .start).ownAddress ≠ some (packet 5 9 2).key.dest.toNat ∧ (linked 2 0 .start).portFor (packet 5 9 2) = some 0 ∧
    (linked 2 0 .start).portFor (packet 5 8 2) = none ∧ (linked 2 0 .start).ownAddress = some (packet 9 5 2).key.dest.toNat ∧
    (linked 2 0 .start).windowShut (packet 5 9 2) = false ∧ packetOwner (packet 5 9 2) = some 0 ∧
    (let s := { linked 2 0 .start with outbox := [packet 5 9 2] }
     s.windowShut { packet 5 9 2 with seq := 4095 } = false ∧ s.windowShut { packet 5 9 2 with seq := 4096 } = true) ∧
    (let s := wrs (linked 2 0 .start) [(Reg.ctx 0, Reg.CTX_ENABLE, 1)]
     s.ctxOn (packet 9 5 2).key.ctx.toNat = true ∧ ((s.channelOr (key 9 5) false).take 0).isSome = true ∧
     (s.channelOr (key 9 5) false).take 4096 = none ∧ ((s.channelOr (key 9 5) false).take 4095).isSome = true) ∧
    (let s : State := { linked 2 0 .start with channels := [{ freshChannel (key 5 9) false with unacked := [(packet 5 9 2, 8, 0)] }], nowUs := 500 }
     (s.channel (reverseKey (packet 9 5 7).key)).isSome = true ∧ s.routeValid 9 = true ∧
     (s.channel (key 5 9)).any (fun c => !c.down && c.unacked.any (fun e => decide (e.1.seq = 0) && decide (e.2.2 + 500 ≤ s.nowUs) && decide (8 ≤ e.2.1)) &&
       c.unacked.all (fun e => !decide (e.1.seq = 1))) = true) ∧
    (let s := { linked 2 0 .start with channels := [{ freshChannel (key 5 9) true with unacked := [(packet 5 9 2, 7, 0)] }] }
     (s.orderedRoute 9).isSome = true ∧ (s.channel (key 5 9)).any (fun c => !c.down && c.unacked.all (fun e => decide (e.2.1 < 8))) = true ∧
     (s.channel (key 5 9)).any (fun c => c.unacked.all (fun e => !decide (e.2.2 + 500 ≤ s.nowUs))) = true) ∧
    ({ up with identities := [(9, 3)] } : State).identities.find? (fun e => decide (e.1 = 9)) = some (9, 3) ∧
    ({ up with identities := [(9, 3)] } : State).conflicts = [] := by decide +kernel
/-- A granule followed by four bytes that are not its check value is a bad granule: of two such tails at most one is the check value. -/
theorem bad_granule_of (d : List Byte) (hd : d.length = 512) : ∃ pk : Packet, pk.key = key 9 5 ∧ badGranule pk = true := by
  have h (b : List Byte) (hb : b.length = 4) (hg : granuleBody d ≠ d ++ b) : badGranule { packet 9 5 4 with body := d ++ b } = true := by
    have ht : (d ++ b).take 512 = d := by rw [← hd, List.take_left]
    have hl : isGranuleBody (d ++ b) = true := by rw [isGranuleBody, List.length_append, hd, hb]; rfl
    simp only [badGranule, ht, hl, ne_eq, hg]; rfl
  by_cases h0 : granuleBody d = d ++ [0, 0, 0, 0]
  · refine ⟨_, rfl, h [1, 1, 1, 1] rfl fun h1 => ?_⟩
    exact absurd (List.append_cancel_left (h0.symm.trans h1)) (by decide)
  · exact ⟨_, rfl, h _ rfl h0⟩
theorem test_bad_granule : ∃ pk : Packet, pk.key = key 9 5 ∧ badGranule pk = true := bad_granule_of (List.replicate 512 1) List.length_replicate
/-- A channel that a remote queue of context 0 owns, opened from this end. -/
theorem test_channel_owned :
    (let s := wrs (linked 2 0 .start) [(Reg.ctx 0, Reg.CTX_ENABLE, 1), (Reg.wwy 0 0, Reg.WWY_ENABLE, 1), (Reg.wwy 0 0, Reg.WWY_REMOTE_GET, 1),
       (Reg.wwy 0 0, Reg.WWY_REMOTE_DEVICE, 9)]
     s.ownAddress = some (s.queueKey 0 0).src.toNat ∧ s.channelQueues 0 (s.queueKey 0 0) = [0] ∧ s.channelQueues 0 (key 5 8) = [] ∧
     s.exchangeOwns 0 (key 5 8) = false) := by decide +kernel
/-- Context 0 exchanges with one other rank, one bucket of 1 MiB a step. -/
def exchanging (st : Nat) (e : Exchange) : State :=
  training st { Ctx.start with bayMap := [0], step := some openStep, exch := e }
    [(Reg.ctx 0, Reg.CTX_RANKS, 2), (Reg.ctx 0, Reg.CTX_BUCKETS, 1), (Reg.ctx 0, Reg.CTX_BUCKET_MIB, 1), (Reg.ctx 0, Reg.CTX_SLOTS, 1),
     (Reg.ctx 0, Reg.CTX_CHANNELS, 1), (Reg.ctx 0, Reg.CTX_THIN_N, 1), (Reg.ctx 0, Reg.CTX_DEADLINE_US, 1)]
theorem test_buckets :
    (let s := exchanging 1 { Exchange.idle with fillCount := 1 }
     s.trains 0 = true ∧ s.stepState 0 = 1 ∧ 0 < (s.exch 0).fillCount ∧ (s.exch 0).closed < s.cf 0 Reg.CTX_BUCKETS ∧
     s.droneInRange 0 (s.slotBase 0 0) (s.bucketBytes 0) = false ∧ s.poisonMet 0 (s.closeReads 0 0) [] = none ∧ s.exchanges 0 = true ∧ s.shardComplete 0 = false ∧ (s.exch 0).abort = none) ∧
    (let s := exchanging 1 { Exchange.idle with fillCount := 1, closed := 1 }
     s.cf 0 Reg.CTX_BUCKETS ≤ (s.exch 0).closed) ∧
    (let s := { exchanging 1 { Exchange.idle with fillCount := 1 } with poison := [(0, true)] }
     (s.poisonMet 0 (s.closeReads 0 0) []).isSome = true) ∧
    (let s := exchanging 1 { Exchange.idle with buckets := [{ freshBucket 0 with arrived := 1 }] }
     0 < ((s.exch 0).bucket 0).arrived ∧ ((s.exch 0).bucket 0).closed = false ∧ ((s.exch 0).bucket 0).excluded = false ∧ s.cf 0 Reg.CTX_DEADLINE_US ≠ 0) ∧
    (let s := exchanging 1 { Exchange.idle with delivered := 1 }
     s.shardComplete 0 = true) := by decide +kernel
theorem test_exchange_packets :
    (let s := exchanging 1 .idle
     1 < s.ranks 0 ∧ s.turnOf 0 (s.stepNo 0) 32 0 = .now ∧ s.turnOf 0 (s.stepNo 0) 32 255 = .past ∧ s.turnOf 0 (s.stepNo 0) 32 1 = .later ∧
     s.expectedBucket 0 0 = some 0 ∧
     ((s.workItems 0)[((s.workItems 0).filter (fun hj => decide (hj.1 = 0))).length + 0]?).any (fun hj => decide (hj.1 = 1) && decide (hj.2 = 0)) = true ∧
     (s.ownSummary 0).buckets = 1 ∧ s.stepEByte 0 = 16) ∧
    (let s := exchanging 1 { Exchange.idle with delivered := 1, soFar := some aSummary }
     s.shardComplete 0 = true ∧ (s.exch 0).soFar = some aSummary ∧ (s.exch 0).merged = false) ∧
    (let s := exchanging 2 { Exchange.idle with gatherCount := 1 }
     0 < (s.exch 0).gatherCount ∧ s.stepState 0 = 2 ∧ (s.exch 0).gathering = false ∧ s.droneInRange 0 (s.workcopyAt 0) (s.pieceBytes 0) = false ∧
     s.poisonMet 0 [(s.workcopyAt 0, s.pieceBytes 0)] [] = none) ∧
    (let s := exchanging 5 { Exchange.idle with merged := true }
     s.stepState 0 = 5 ∧ (s.exch 0).merged = true ∧ 1 < s.ranks 0) ∧
    (∀ st ∈ [1, 2], let s := exchanging st .idle
      let c : Chunk := ⟨false, 0, 16, 1, 1, 0, 0, [], []⟩
      s.stepState 0 = st ∧ c.step.toNat = s.stepNo 0 % 2 ^ 32 ∧ c.attempt.toNat = s.cf 0 Reg.CTX_ATTEMPT ∧ c.hop.toNat + 1 < s.ranks 0 ∧
      (c.owner.toNat + c.hop.toNat + 1) % s.ranks 0 = s.rank 0 ∧ c.lsExp = s.stepEByte 0) ∧
    granuleChecks [] = [] ∧ granuleChecks [] ≠ [1] ∧ attemptAhead 255 0 = false := by decide +kernel

/-! ## Streams -/

/-- Context 0 has a stream table of two streams; stream 0 is in a state, with more fields of its entry. -/
def streaming (st : Nat) (l : List (Field × Nat)) (e : Streams) : State :=
  let s := wrs (inState 3 { Ctx.start with bayMap := [0], streams := e, cmdCount := 1 })
    ([(Reg.ST_ENABLE, 1), (Reg.ST_STREAMS, 2), (Reg.ST_MAX_TOKENS, 64), (Reg.ST_C_BLOCK_UNITS, 1), (Reg.ST_POOL_C, 16), (Reg.ST_POOL_D, 4),
      (Reg.ST_ENTRY_BASE, 0x1000), (Reg.ST_TOKEN_BASE, 0x2000), (Reg.ST_BTABLE_BASE, 0x3000), (Reg.ST_POOL_C_BASE, 0x10000),
      (Reg.ST_POOL_D_BASE, 0x20000), (Reg.ST_REGISTRY_BASE, 0x30000), (Reg.ST_ADAPTER_BASE, 0x40000), (Reg.ST_CMD_BASE, 0x50000),
      (Reg.ST_CMD_SLOTS, 4), (Reg.ST_PAUSE_BYTES, 0x10000)].map (fun p => (Reg.streamTable 0, p.1, p.2)))
  ((Ent.STATE, st) :: l).foldl (fun t p => t.setEnt 0 0 p.1 p.2) s
def rec0 (flags count arg1 arg2 : Nat) : StreamRec := ⟨BitVec.ofNat 8 flags, 0, BitVec.ofNat 32 count, BitVec.ofNat 64 arg1, BitVec.ofNat 64 arg2⟩
def host0 : HostRef := ⟨0, 7, false⟩
theorem test_stream_refusals :
    (∀ op ∈ [1, 2, 3, 4, 5, 6, 7, 8, 9, 0x0A, 0x10, 0x11, 0x12], (streaming 0 [] .start).takesStream 0 op (rec0 0 0 0 0)) ∧
    ¬ (streaming 0 [] .start).takesStream 0 1 { rec0 0 0 0 0 with stream := 2 } ∧ ¬ up.takesStream 0 1 (rec0 0 0 0 0) ∧
    (streaming 0 [] .start).live 0 0 = false ∧ (streaming 1 [] .start).ent 0 0 Ent.STATE ≠ 0 ∧
    (let s := streaming 2 [(Ent.IN_STEP, 1)] .start
     s.live 0 0 = true ∧ s.ent 0 0 Ent.IN_STEP = 1) ∧
    8 < draftLen (rec0 9 0 0 0) ∧ (streaming 0 [] .start).takesStream 0 1 (rec0 9 0 0 0) ∧
    (streaming 0 [] { Streams.start with grammars := [(0, (64, 80))] }).grammarLoaded 0 0 = true ∧ (streaming 0 [] .start).grammarLoaded 0 0 = false ∧
    (∀ r ∈ [rec0 0 0 0 0], (streaming 0 [] .start).admits 0x0A ((streaming 0 [] .start).streamEntry 0 1 r host0) = true) := by
  unfold State.takesStream; decide +kernel
theorem test_stream_open :
    (let s := streaming 0 [] .start
     let r := rec0 0 55 0x100000 0
     s.takesStream 0 0x01 r ∧ s.takesStream 0 0x0A (rec0 0 0 0 0) ∧ s.ent 0 0 Ent.STATE = 0 ∧ draftLen r ≤ 8 ∧ useGrammar r = false ∧ useAdapter r = false ∧
     r.count.toNat + 9 ≤ s.tf 0 Reg.ST_MAX_TOKENS ∧ s.badRange 0 (argList r) (4 * 55) = false ∧ badToken (s.listTokens 0 (argList r) 55) = false) := by
  unfold State.takesStream; decide +kernel
theorem test_stream_append :
    (let s := streaming 2 [] .start
     let r := rec0 0 8 0 0
     s.takesStream 0 0x02 r ∧ s.live 0 0 = true ∧ ceilDiv 8 16 - ceilDiv 0 16 ≤ s.available 0 0 ∧ 8 ≤ s.ent 0 0 Ent.COMMIT + 8 ∧
     s.ent 0 0 Ent.WRITTEN_C = 0 ∧ r.flags.toNat % 2 = 0) := by unfold State.takesStream; decide +kernel
theorem test_stream_commit :
    (let s := streaming 1 [(Ent.PROMPT_TOKENS, 4)] .start
     let r := rec0 0 5 0x100000 4
     s.takesStream 0 0x03 r ∧ s.ent 0 0 Ent.COMMIT = 0 ∧ 0 + 5 ≤ s.ent 0 0 Ent.PROMPT_TOKENS + 1 ∧ loPart r.arg2 ≤ 0 + 5 ∧
     s.badRange 0 (argList r) 4 = false ∧ badToken (s.listTokens 0 (argList r) 1) = false ∧ s.ent 0 0 Ent.GRAMMAR_ON ≠ 1) ∧
    (let s := streaming 2 [(Ent.DRAFT_LEN, 8)] .start
     s.ent 0 0 Ent.STATE = 2 ∧ 9 ≤ s.ent 0 0 Ent.DRAFT_LEN + 1) := by unfold State.takesStream; decide +kernel
/-- The bytes of a grammar of one state and one range, at 64 bytes of header, written out from Table 12-6. -/
def grammarBytes : List Byte :=
  leBytes 8 (0x5147524D + 2 ^ 32) ++ leBytes 4 1 ++ leBytes 4 1 ++ leBytes 8 0 ++ leBytes 8 1 ++ leBytes 8 64 ++ leBytes 8 72 ++ List.replicate 32 0
def withGrammar : State :=
  (streaming 1 [(Ent.GRAMMAR_ON, 1)] { Streams.start with grammars := [(0, (0x200000, 80))] }).store (.tier1 0) 0x200000 0 grammarBytes
theorem test_stream_grammar :
    (let r := rec0 0 8 0x100000 0x300000
     withGrammar.takesStream 0 0x04 r ∧ withGrammar.ent 0 0 Ent.GRAMMAR_ON ≠ 0 ∧ badToken (withGrammar.listTokens 0 (argList r) 8) = false ∧
     withGrammar.badRange 0 (argList r) 32 = false ∧ withGrammar.badRange 0 (argOut r) (9 * maskRowBytes (withGrammar.gHead 0 0x200000).vocab) = false) ∧
    (let r := rec0 0 1 0x200000 80
     withGrammar.takesStream 0 0x11 r ∧ withGrammar.grammarLoaded 0 1 = false ∧ withGrammar.grammarValid 0 0x200000 80 = true) ∧
    (withGrammar.takesStream 0 0x12 (rec0 0 0 0 0) ∧ withGrammar.grammarLoaded 0 0 = true ∧
     (∀ j ∈ upto 1, (streaming 0 [] .start).ent 0 j Ent.STATE = 0)) := by unfold State.takesStream; decide +kernel
theorem test_stream_next :
    (let s := streaming 1 [] .start
     let r := rec0 0 4096 16384 0x100000
     s.takesStream 0 0x05 r ∧ 0 < loPart r.arg1 ∧ loPart r.arg1 ≤ 16384 ∧ hiPart r.arg1 ≤ loPart r.arg1 ∧ s.badRange 0 (argOut r) (16 * 4096) = false) := by
  unfold State.takesStream; decide +kernel
theorem test_stream_pause :
    (let s := streaming 2 [] .start
     let s1 := (s.cutTo 0 0 0 (s.ent 0 0 Ent.COMMIT)).cutTo 0 0 1 (s.ent 0 0 Ent.COMMIT)
     s.takesStream 0 0x06 (rec0 0 0 0 0) ∧ s.ent 0 0 Ent.IN_STEP ≠ 1 ∧ s.gaps 0 (ceilDiv (sumOf ((s1.chanterRanges 0 0).map (fun q => q.2))) 4068 * 4096) ≠ [] ∧
     (∀ q ∈ s1.chanterRanges 0 0, s1.droneInRange 0 q.1 q.2 = false) ∧ s.poisonMet 0 (s1.chanterRanges 0 0) [] = none) ∧
    (let s := streaming 3 [(Ent.TTL_LEFT_S, 1)] { Streams.start with pauses := [⟨0, 0, 0, [], 0⟩] }
     s.takesStream 0 0x07 (rec0 0 0 0 0) ∧ s.ent 0 0 Ent.STATE = 3 ∧ ceilDiv (s.ent 0 0 Ent.WRITTEN_C) 16 ≤ s.available 0 0 ∧
     s.ent 0 0 Ent.TTL_LEFT_S ≠ 0 ∧ s.pauseOf 0 0 = some ⟨0, 0, 0, [], 0⟩ ∧
     s.bytesAt (s.pauseAddr 0 0).1 (s.pauseAddr 0 0).2 0 = sealedBytes 0 0) ∧
    (streaming 3 [] .start).takesStream 0 0x08 (rec0 0 0 0 0) := by unfold State.takesStream; decide +kernel
theorem test_stream_export :
    (let s := wrs (streaming 2 [] .start) [(Reg.route 9, Reg.ROUTE_VALID, 1)]
     let r := rec0 0 0 9 0
     s.takesStream 0 0x09 r ∧ s.live 0 0 = true ∧ s.routeValid (bitsAt r.arg1.toNat 0 16) = true ∧ s.ent 0 0 Ent.WRITTEN_D = 0 ∧
     (∀ q ∈ s.chanterRanges 0 0, s.droneInRange 0 q.1 q.2 = false) ∧ s.poisonMet 0 (s.exportRanges 0 0) [] = none) := by unfold State.takesStream; decide +kernel
theorem test_stream_adapter :
    (let s := streaming 0 [] .start
     let r := rec0 0 63 (2 ^ 26 - 512) 512
     s.takesStream 0 0x10 r ∧ argOut r ≠ 0 ∧ argOut r % 512 = 0 ∧ argList r + argOut r ≤ s.regionBytes 0 ∧
     firstIdx (fun a : Adapter => decide (a.version = 0)) ((upto 4).map (fun j => s.adapter 0 (4 * 63 + j))) 0 = some 0 ∧
     (∀ a ∈ (upto 4).map (fun j => s.adapter 0 (4 * 63 + j)), a.version ≠ 1)) := by unfold State.takesStream; decide +kernel
theorem test_stream_engine :
    (let s := streaming 3 [] .start
     (s.ctx 0).cmdNext < (s.ctx 0).cmdCount ∧ s.tableOn 0 = true ∧ s.dstate = 0 ∧ s.ent 0 0 Ent.STATE = 3 ∧ s.ent 0 0 Ent.TTL_LEFT_S = 0 ∧
     streamReserved (s.natAt (.tier1 0) 0x50000 8 % 256) (recOf 0 0 0) = true) ∧
    (streaming 5 [] .start).ent 0 0 Ent.STATE = 5 := by decide +kernel

/-! ## Memory, security, faults and service -/

def ticket : Ticket := ⟨0, 7, 0x20, 0, false⟩
theorem test_dram :
    ({ up with patrol := [(1, 5)] } : State).dstate = 0 ∧ (0x1000000A00 : BitVec 39).toNat / granule = 1 * 2 ^ 27 + 5 ∧ stackOf 0x1000000A00 = 1 ∧
    (0 : BitVec 39).toNat / granule ≠ 0 * 2 ^ 27 + 5 ∧ (108 ≤ 108 ∧ 107 < 108) ∧ up.barOpen = true ∧
    (wrs up [(Reg.safDram 0, Reg.DRAM_TEMP_C, 102)]).rd (Reg.safDram 0) Reg.DRAM_TEMP_C = 102 ∧ (102 < 103) ∧
    up.bayHeat [(0, 105)] 0 = 105 ∧ up.bayHeat [(0, 98)] 0 = 98 := by decide +kernel
/-- Slot 0 heads a teacher of one slot in a state; context 0 is Running and bound to it. -/
def taught (st : Nat) (l : List (Nat × Field × Nat)) : State :=
  wrs (inState 3 { Ctx.start with bayMap := [0] }) ([(Reg.nvwSlot 0, Reg.SLOT_STATE, st), (Reg.nvwSlot 0, Reg.SLOT_SLOTS, 1)] ++ l)
/-- The bytes of a manifest with one byte of teacher (15 Table 15-5). -/
def manifest : List Byte := (upto 512).map (fun i => if i = 0x10 then 1 else 0)
theorem test_install :
    (let s := taught 0 []
     let e := entry [16, 64, 512, 64, 0, 0, 0]
     s.admits 0x20 e = true ∧ entryArg e 0 / 16 % 16 = 1 ∧ s.rd (Reg.nvwSlot 0) Reg.SLOT_STATE = 0) ∧
    (let s := taught 3 []
     let e := entry [16, 64, 512, 64, 0, 0, 0]
     s.admits 0x20 e = true ∧ s.rd (Reg.nvwSlot 0) Reg.SLOT_STATE ≠ 5) ∧
    (let e := entry [8 * 16 + 1, 64, 512, 64, 0, 0, 0]
     up.admits 0x20 e = true ∧ 8 < 1 + entryArg e 0 / 16 % 16) ∧
    (let w : Install := ⟨0, 1, ticket, manifest, 64, []⟩
     let s := { taught 2 [] with installs := [w] }
     s.installOf 0 = some w ∧ mBlocks w.manifest = 1 ∧ (s.ring w.ticket.ring.val).closing = false) ∧
    (let w : Install := ⟨0, 1, ticket, manifest, 64, [0]⟩
     mBlocks w.manifest ≤ w.programmed.length) := by decide +kernel
theorem test_slots :
    (let s := { taught 3 [] with staging := [0] }
     (0 : SlotId) ∈ s.staging ∧ s.slotCtx 0 = 0 ∧ s.ctxOn 0 = true ∧ s.ctxState 0 ≠ stTearing ∧
     s.rd (Reg.nvwSlot 0) Reg.SLOT_STATE = 3 ∧ s.stageGood 0 = true) ∧
    (({ taught 5 [] with staging := [0] } : State).rd (Reg.nvwSlot 0) Reg.SLOT_STATE ≠ 3) ∧
    (({ inState 7 Ctx.start with staging := [0] } : State).ctxState 0 = stTearing) ∧
    (taught 3 [(Reg.nvwSlot 0, Reg.SLOT_STAGE_BYTES, 2 ^ 26)]).rd (Reg.nvwSlot 0) Reg.SLOT_STAGE_BYTES ≠ 0 ∧
    (let s := taught 3 [(Reg.nvwSlot 0, Reg.SLOT_ENABLE, 1)]
     s.barOpen = true ∧ s.checking (.slot 0) = false ∧ s.objOn (.slot 0) = true ∧ s.rd (Reg.nvwSlot 0) Reg.SLOT_FIRST_SLOT = 0 ∧
     s.rd (Reg.nvwSlot 0) Reg.SLOT_STATE = 3 ∧ (s.ctx 0).programs = []) ∧
    (let s := { taught 1 [] with erasures := [⟨0, ticket⟩] }
     s.erasures.find? (fun y => decide (y.head.val = 0)) = some ⟨0, ticket⟩) ∧
    (∀ st ∈ [2, 3, 5, 6], (taught st []).admits 0x21 (entry zeros) = true ∧ (taught st []).flag (Reg.nvwSlot 0) Reg.SLOT_ENABLE = false ∧
      (taught st []).checking (.slot 0) = false) := by decide +kernel
theorem test_stores :
    (let s := wrs up [(Reg.ckptStore 15, Reg.STORE_ENABLE, 1), (Reg.ckptStore 15, Reg.STORE_BYTES, 8192), (Reg.ckptStore 15, Reg.STORE_SOURCE_DEVICE, 0)]
     s.barOpen = true ∧ s.checking (.store 15) = false ∧ s.objOn (.store 15) = true ∧ s.rd (Reg.ckptStore 15) Reg.STORE_SOURCE_DEVICE = 0 ∧
     s.rd (Reg.ckptStore 15) Reg.STORE_SOURCE_CONTEXT = 0 ∧ 4096 ≤ s.rd (Reg.ckptStore 15) Reg.STORE_BYTES / 2) ∧
    (let s := { wrs (inState 3 { Ctx.start with bayMap := [0], programs := [prog 1] })
       [(Reg.hifPort 1, Reg.HIF_MODE, 2), (Reg.hdm 63, Reg.HDM_ENABLE, 1), (Reg.hdm 63, Reg.HDM_BYTES, 2 ^ 26)] with decoders := [(63, (4096, 2 ^ 26))] }
     s.cxlMode 0 ≠ 2 ∧ s.cxlMode 1 = 2 ∧ s.objOn (.hdm 63) = true ∧ s.checking (.hdm 63) = false ∧ s.windowAt 4095 1 = none ∧ s.windowAt (4096 + 2 ^ 26) 1 = none ∧
     s.windowAt (4095 + 2 ^ 26) 1 = some (63, 2 ^ 26 - 1) ∧ s.windowAt (4096 + 63) 1 = some (63, 63) ∧ s.windowAt (4096 + 64) 1 = some (63, 64) ∧
     meetsAny (63, 1) (s.protectedAreas 0) = true ∧ meetsAny (64, 1) (s.protectedAreas 0) = false ∧ s.droneInRange 0 64 1 = false ∧
     s.poisonIn 0 64 1 = [] ∧ ({ s with poison := [(0, true)] } : State).poisonIn 0 64 1 ≠ [] ∧
     (4096 : Nat) ≠ s.rd (Reg.hdm 63) Reg.HDM_BYTES) := by decide +kernel
/-- A granule of a capture that is coming in has its place in the store; one of another source has none. -/
theorem test_incoming :
    (let i : Incoming := ⟨15, 0, 1, 0, 0, 4096, 7, 8, 8⟩
     i.place { packet 0 5 4 with seq := 14 } = some (4096 + 7 * 512) ∧ i.place { packet 0 5 4 with seq := 15 } = none ∧
     i.place { packet 1 5 4 with seq := 7 } = none ∧ (i.left ≤ 1 ↔ False) ∧ (1 : Nat) < i.left) ∧
    isGranuleBody (List.replicate 516 0) = true := by decide +kernel
theorem test_security :
    up.sweeping = false ∧ up.keyGen ≠ 0xFFFFFFFF ∧ (wrs up [(Reg.jnrKeys, Reg.KEYS_KEY_GEN, 0xFFFFFFFF)]).keyGen = 0xFFFFFFFF ∧
    (wrs up [(Reg.jnrKeys, Reg.KEYS_SWEEP_ACTIVE, 1)]).sweeping = true ∧
    up.admits 0x22 (entry [1, 2, 3, 4, 64, 0, 0]) = true ∧ up.admits 0x23 (entry [64, 1, 0, 0, 0, 0, 0]) = true ∧
    up.admits 0x28 (entry [64, 1, 0, 0, 0, 0, 0]) = true ∧
    (let s := { wrs (linked 2 0 .start) [(Reg.nvwSlot 0, Reg.SLOT_ENABLE, 1), (Reg.trsPort 0, Reg.TRS_SPAN_OK, 1)] with
       manifests := [(0, (upto 512).map (fun i => if i = 0x28 then 8 else 0))] }
     portUp s 0 = true ∧ s.reportHolds ⟨true, 0, 0, true⟩ = true ∧ s.reportHolds ⟨true, 0, 0, false⟩ = true ∧ s.reportHolds ⟨false, 0, 0, true⟩ = false ∧ s.portAlive 0 = true ∧ s.slotUnder 0 = some 0 ∧
     manifestBit (mapGet [] s.manifests 0) 3 = true ∧ s.flag (Reg.trsPort 0) Reg.TRS_SPAN_OK = true ∧ s.enabledSlots = [0]) := by decide +kernel
def fault (k : FaultKind) : FaultEvent := ⟨k, 0, 0, 0, [], 0, 0, 0⟩
theorem test_faults :
    implicates (fault .residue) = true ∧ implicates (fault .egress) = false ∧ (fault .egress).kind ≠ .tier0Corrected ∧ up.coreFence 0 = 0 ∧
    ({ up with fences := [(0, 1)] } : State).coreFence 0 = 1 ∧ up.freeOf 15 = 271 ∧ mapGet false up.migrating 15 = false ∧
    ({ up with freeCore := [(0, 272)] } : State).freeOf 0 = 272 ∧
    (let s := wrs up [(Reg.safBent 0, Reg.BENT_UNCOVERED, 1)]
     s.flag (Reg.safBent 0) Reg.BENT_UNCOVERED = true ∧ (s.uncoveredNext 0).isSome = true) ∧ up.barOpen = true ∧
    up.rd Reg.safTest Reg.TEST_CORE = 0 ∧ up.testAsked = none ∧ (up.testEnd 0).isSome = true ∧
    (wrs up [(Reg.safTest, Reg.TEST_CORE, 272)]).rd Reg.safTest Reg.TEST_CORE = 272 ∧
    ({ placed 1 with freeCore := [(0, 272)] } : State).testEnd 0 = none ∧
    (wrs up [(Reg.safSafety, Reg.SAF_FENCE_CORE, 271)]).rd Reg.safSafety Reg.SAF_FENCE_CORE = 271 := by decide +kernel
theorem test_service :
    (∀ op ∈ [0x24, 0x26], up.admits op (entry [64, 1, 0, 0, 0, 0, 0]) = true) ∧ up.admits 0x25 (entry zeros) = true ∧
    (wrs up [(Reg.jnrStatus, Reg.JNR_VALID_B, 1)]).slotValid (1 - up.activeSlot) = true ∧ up.slotValid 1 = false ∧
    (∀ k ∈ [0, 1, 2], up.admits 0x27 (entry [BitVec.ofNat 64 k, 0, 0, 0, 0, 0, 0]) = true) ∧
    (let s := linked 2 0 .start
     s.rd (Reg.trsPort 0) Reg.TRS_LANE_CAL = 0 ∧ s.rd (Reg.trsPort 0) Reg.TRS_LINK_STATE = 2 ∧ s.rd (Reg.trsPort 0) Reg.TRS_WIDTH ≠ 1) ∧
    stackBusy up 3 = false ∧ stackBusy (taught 1 []) 0 = true ∧
    (let s := { up with laneCals := [((0, 7), ticket)], calibs := [(.dram 127, ticket)] }
     s.laneCals.find? (fun c => decide (c.1 = (0, 7))) = some ((0, 7), ticket) ∧ (s.port 0).narrowed = false ∧
     s.calibs.find? (fun c => decide (c.1 = .dram 127)) = some (.dram 127, ticket) ∧ (s.ring ticket.ring.val).closing = false) ∧
    isClass4 0x24 = true ∧ isClass4 0x22 = false := by decide +kernel
theorem test_ledger : up.flag Reg.ldgStatus Reg.LDG_COMPACTING = false ∧
    (wrs up [(Reg.ldgStatus, Reg.LDG_COMPACTING, 1)]).flag Reg.ldgStatus Reg.LDG_COMPACTING = true ∧ up.activeHalf ≤ 1 := by decide +kernel

/-! ## The host interface, power and resets -/

/-- Port 0 runs CXL and ring 0 is enabled on it, with a state of its own. -/
def ringed (l : List (Nat × Field × Nat)) (k : Ring) : State :=
  wrs { up with rings := [(0, k)] } ([(Reg.hifPort 0, Reg.HIF_MODE, 2), (Reg.ring 0, Reg.RING_ENABLE, 1)] ++ l)
def rcd : Record := ⟨7, 4095, true, 0x27, 0x8004, 1, 2, false⟩
theorem test_rings :
    (let s := ringed [(Reg.ring 0, Reg.RING_HEAD, 2 ^ 32 - 1)] { Ring.start with hasCopy := true }
     s.barOpen = true ∧ s.checks.contains (.ring 0) = false ∧ s.objOn (.ring 0) = true ∧ s.rd (Reg.ring 0) Reg.RING_HEAD < 2 ^ 32 ∧
     s.fetching 0 = true ∧ (s.hostStores [(0, 1)]).fetching 0 = true ∧ (s.ring 0).hasCopy = true ∧ (s.ring 0).running = 0 ∧ (s.ring 0).fetched = []) ∧
    (let s := ringed [] { Ring.start with running := 1 }
     s.fetching 0 = true ∧ (s.ring 0).hasCopy = false ∧ (s.ring 0).running ≠ 0) := by decide +kernel
/-- Two entries of eight wait in the ring: NOP with COMMAND_ID 5 and NOP with 6. -/
def submitted : State :=
  let s := ringed [(Reg.ring 0, Reg.RING_SUB_BASE, 4096), (Reg.ring 0, Reg.RING_SUB_LOG2, 3), (Reg.ring 0, Reg.RING_CTRL_LINE, 8192)] Ring.start
  { s with hostMem := [(4100, 5), (4164, 6), (8192, 2)] }
theorem test_fetch : ((ran (.ringPoll 0 [] true) submitted).ring 0).fetched.length = 2 ∧ (ran (.ringPoll 0 [] true) submitted).rd (Reg.ring 0) Reg.RING_HEAD = 2 ∧
    (ran (.ringPoll 0 [(8193, 1)] true) submitted).rd (Reg.ring 0) Reg.RING_STATUS = 0x1D06 := by decide +kernel
theorem test_records :
    up.admits 0 (entry zeros) = true ∧
    (let s := ringed [(Reg.ring 0, Reg.RING_COMP_LOG2, 3), (Reg.ring 0, Reg.RING_COMP_SEQ, 7), (Reg.ring 0, Reg.RING_MSIX_MODE, 1)] { Ring.start with records := [rcd] }
     (s.ring 0).records = [rcd] ∧ (7 + 2 ^ 32 - (s.ring 0).compHead.toNat) % 2 ^ 32 < 2 ^ s.rd (Reg.ring 0) Reg.RING_COMP_LOG2 ∧ s.objOn (.ring 0) = true ∧
     s.cxlMode (s.ringPort 0).val = 2 ∧ s.fnAsleep (s.ringPort 0).val = false ∧ s.rd (Reg.ring 0) Reg.RING_MSIX_MODE = 1) ∧
    (let s := ringed [(Reg.ring 0, Reg.RING_COMP_LOG2, 3), (Reg.ring 0, Reg.RING_COMP_SEQ, 8)] { Ring.start with records := [rcd] }
     2 ^ s.rd (Reg.ring 0) Reg.RING_COMP_LOG2 ≤ (s.rd (Reg.ring 0) Reg.RING_COMP_SEQ + 2 ^ 32 - (s.ring 0).compHead.toNat) % 2 ^ 32) ∧
    (let s := ringed [(Reg.ring 0, Reg.RING_MSIX_MODE, 2), (Reg.ring 0, Reg.RING_COAL_US, 1)] { Ring.start with sinceMsg := 1 }
     s.rd (Reg.ring 0) Reg.RING_MSIX_MODE = 2 ∧ s.rd (Reg.ring 0) Reg.RING_COAL_US ≠ 0 ∧ (s.ring 0).sinceMsg ≠ 0) := by decide +kernel
theorem test_messages :
    up.barOpen = true ∧ up.flag Reg.hif Reg.HIF_EVENT_MSIX = false ∧ (wrs up [(Reg.hif, Reg.HIF_EV_FAULT_LOG, 1)]).anyEvent = true ∧
    (let s := wrs (placed 1) [(Reg.t3w 0, Reg.T3W_ENABLE, 1)]
     s.barOpen = true ∧ s.checks.contains (.t3w 0) = false ∧ s.objOn (.t3w 0) = true ∧ ∃ p ∈ (s.ctx 0).programs, p.decl.tier3 ≠ 0) ∧
    (let s := wrs up [(Reg.t3w 4095, Reg.T3W_ENABLE, 1)]
     s.objOn (.t3w 4095) = true ∧ ∀ p ∈ (s.ctx 4095).programs, p.decl.tier3 = 0) := by decide +kernel
theorem test_writes :
    (let w : RegWrite := ⟨.bar0 0, 4, 8, 0⟩
     w.space ≠ .mgmt ∧ w.off.toNat % w.size.val ≠ 0) ∧ (let w : RegWrite := ⟨.bar2, 8, 16, 0⟩; w.size ≠ 4 ∧ w.size ≠ 8) ∧ up.barOpen = true ∧
    State.reset.barOpen = false ∧ mapGet false up.dfun 0 = false ∧ (∃ k ∈ Reg.ctxCoreFields, k.off ≠ 0 ∧ k.acc = .rwe) ∧
    (∃ k ∈ Reg.ctxCoreFields, k.acc = .ro) ∧ up.objOn (.ctx 0) = false ∧ up.checking (.ctx 0) = false ∧
    (inState 3 Ctx.start).objOn (.ctx 0) = true ∧ up.dstate < 2 ∧ up.target 63 < 1024 := by decide +kernel
theorem test_recovery : (let s := { up with recovery := true, recBytes := [1, 2], recLen := 4 * mib }; s.recovery = true ∧ s.recLen ≤ 4 * mib) ∧
    up.recovery = false := by decide +kernel
theorem test_power :
    (let s := { State.reset with rails := [(0, 0), (1, 1), (2, 0), (3, 0)] }
     s.rail 0 = 0 ∧ s.railTurn 0 = true ∧ s.rail 2 = 0 ∧ s.railTurn 2 = false ∧ s.rail 1 = 1) ∧ State.reset.dstate = 0 ∧
    (let s := wrs up [(Reg.pwrBay 63, Reg.PWR_CURRENT_MHZ, 300)]
     s.currentMhz 63 ≠ min (s.target 63) (s.rd (Reg.pwrBay 63) Reg.PWR_CEILING_MHZ)) ∧
    up.currentMhz 0 = min (up.target 0) (up.rd (Reg.pwrBay 0) Reg.PWR_CEILING_MHZ) ∧
    (let s := wrs (placed 1) [(Reg.pwrBay 0, Reg.PWR_CURRENT_MHZ, 300), (Reg.pwr, Reg.PWR_EXCURSION_W, 500), (Reg.pwr, Reg.PWR_POWER_10MS_W, 501)]
     s.overLimit = true ∧ (∃ b < 64, (s.bayHolder b).isSome = true) ∧ ∀ b < 64, (s.bayHolder b).isSome = true → s.currentMhz b = 300) ∧
    up.overLimit = false ∧ (placed 1).clockBay 0 = some 0 ∧ (placed 1).holders (fun y => decide (y = 0)) = [0] := by decide +kernel
/-- Both ports have links. -/
def bothUp : State := wrs up [(Reg.hifPort 0, Reg.HIF_MODE, 2), (Reg.hifPort 1, Reg.HIF_MODE, 1), (Reg.hifPort 0, Reg.HIF_WIDTH, 16)]
theorem test_sleep :
    (let s := wrs up [(Reg.pwr, Reg.PWR_BAY_SLEEP, 1)]
     s.flag Reg.pwr Reg.PWR_BAY_SLEEP = true ∧ (s.bayHolder 63).isSome = false ∧ s.rd Reg.pwr Reg.PWR_SLEEP_AFTER_MS = 100 ∧
     mapGet 0 s.bayFreed 63 = 0 ∧ s.nowUs < 100000 ∧ ({ s with nowUs := 100000 } : State).bayHolder 63 = none) ∧ up.flag Reg.pwr Reg.PWR_BAY_SLEEP = false ∧
    (let s := wrs up [(Reg.pwrBay 0, Reg.PWR_SLEEPING, 1)]
     s.flag (Reg.pwrBay 0) Reg.PWR_SLEEPING = true ∧ s.flag Reg.pwr Reg.PWR_BAY_SLEEP = false) ∧
    bothUp.dstate = 0 ∧ bothUp.hifMode 0 ≠ 0 ∧ bothUp.hifMode 1 ≠ 0 ∧ mapGet false bothUp.dfun 0 = false ∧
    (let s := { bothUp with dfun := [(1, true)] }
     s.hifMode 0 ≠ 0 ∧ mapGet false s.dfun 0 = false ∧ mapGet false s.dfun 1 = true ∧ s.dstate = 0) ∧
    ({ bothUp with dstate := 1 } : State).dstate = 1 := by decide +kernel
theorem test_cxl_links :
    (let s := { up with perstOff := [(0, true)] }
     mapGet false s.perstOff 0 = true ∧ s.recovery = false ∧ mapGet false s.clkLost 0 = false ∧ s.hifMode 0 = 0) ∧
    cxlLanes .x16 ≤ bothUp.rd (Reg.hifPort 0) Reg.HIF_WIDTH ∧ bothUp.rd (Reg.hifPort 1) Reg.HIF_WIDTH < cxlLanes .x4 ∧
    bothUp.enabledRings = [] ∧ bothUp.enabledT3ws = [] ∧ (∃ r ∈ (ringed [] Ring.start).enabledRings, ((ringed [] Ring.start).ringPort r).val = 0) := by
  decide +kernel
theorem test_lands :
    State.reset.railsGood = true ∧ State.reset.railFault = 0 ∧ ({ State.reset with rails := [(9, 1)] } : State).railsGood = false ∧
    State.reset.hifMode 0 = 0 ∧ bothUp.hifMode 1 ≠ 0 ∧ mapGet false ({ up with perstOff := [(1, true)] } : State).perstOff 1 = true ∧
    State.reset.recovery = false ∧ State.reset.dstate < 2 ∧ State.reset.rail 1 = 2 ∧ State.reset.rail 3 = 2 ∧
    ({ State.reset with rails := [(1, 0)] } : State).rail 1 ≠ 2 := by decide +kernel
theorem test_resets :
    bothUp.hifMode 1 ≠ 2 ∧ bothUp.hifMode 0 = 2 ∧ up.hifMode 0 = 0 ∧ up.hifMode 1 = 0 ∧ bothUp.flag Reg.pwr Reg.PWR_PRESERVE = false ∧
    (wrs bothUp [(Reg.pwr, Reg.PWR_PRESERVE, 1)]).flag Reg.pwr Reg.PWR_PRESERVE = true ∧
    (let s := { up with journal := [(0, [[LedgerRec.fence 5]])] }
     LedgerRec.fence 5 ∈ (mapGet [] s.journal (if mapGet 0 s.halfEpoch 0 < mapGet 0 s.halfEpoch 1 then 1 else 0)).flatten) ∧
    (let s := placed 1
     (s.ctx 0).bayMap ≠ [] ∧ s.ctxState 0 ≠ stTearing) := by decide +kernel

end Sys2Proof.Tests
end

section
/-! The machine as a whole (log entries 2 to 4): a step runs the command at the front of the queue, and every command answers. -/
namespace Sys2Proof.Machine

/-- Every command answers a next state that keeps the queue, the clock and the canonical form of every memory: each
meaning is a composition of operations that do (log entries 2 and 3). -/
theorem exec_kept (i : Instr) (s : State) : ∃ t, exec i s = .next t ∧ Kept s t := by
  have h := Kept.refl s
  cases i with
  -- the slot rows and the legacy rows
  | noop | add | sub | mul | mulh | and_ | or_ | xor | shl | shr | sar | min_ | max_ | minu | maxu | ldi | ldih | fadd | fsub
  | fmul | fdiv | fmax | fmin | fcvt | sld | sst | tdld | tdst | tdfld | smovs | smovt | cmp | fcmp | bra | brr | call | pegs
  | pegw | fence | trapnan | halt | mma | mmx | writeOut | vadd | vsub | vmul | vfma | vmax | vmin | vcmp | viadd | visub
  | vshl | vshr | vsar | vand | vor | vxor | vdiv | vsqrt | vexp | vlog | vsig | vtanh | vsilu | vgelu | vsigd | vtanhd
  | vsilud | vgelud | vld | vst | vmpack | vmload | vmsel | cvt | normAcc | normFin | normApply | normBacc | normBfin
  | normBapply | smaxAcc | smaxFin | smaxApply | smaxBacc | smaxBfin | smaxBapply | topkInit | topkMerge | topkEmit | clear
  | statsave | statload | gath | scat | segr | vopt | vnrm | seed | rwnd | xfer | xfert | wwput | wwget =>
    exact ⟨_, rfl, State.runSlot_kept _ _ _ _ h⟩
  | lnop | ladd | lsub | lmul | land | lor | lxor | lshl | laddi | lldi | lorsh | lld | lst | ltdld | lbr | lbnz | lbz | lbx
  | lmma | lwo | lvadd | lvsub | lvmul | lvmax | lvmin | lvld | lvst | lxfer | lpegs | lpegw | lfence | lhalt =>
    exact ⟨_, rfl, State.runLegacy_kept _ _ _ h⟩
  -- ENABLE and the other register starts
  | portDisable => exact ⟨_, rfl, State.bar_kept _ (State.disablePort_kept _ h) h⟩
  | routeTableWrite => exact ⟨_, rfl, State.bar_kept _ (State.writeRoute_kept _ _ h) h⟩
  | nvwSlotDisable => exact ⟨_, rfl, State.bar_kept _ (State.slotDisable_kept _ h) h⟩
  | ckptStoreDisable => exact ⟨_, rfl, State.bar_kept _ (State.storeDisable_kept _ h) h⟩
  | hdmDisable => exact ⟨_, rfl, State.bar_kept _ (State.hdmDisable_kept _ h) h⟩
  | rotate => exact ⟨_, rfl, State.bar_kept _ (State.rotate_kept h) h⟩
  | testRequestGo => exact ⟨_, rfl, State.bar_kept _ (State.testRequest_kept h) h⟩
  | ringEnable => exact ⟨_, rfl, State.bar_kept _ (State.ringEnable_kept _ h) h⟩
  | ringDisable => exact ⟨_, rfl, State.bar_kept _ (State.ringDisable_kept _ h) h⟩
  | t3wDisable => exact ⟨_, rfl, State.bar_kept _ (State.t3wDisable_kept _ h) h⟩
  | eventMsixSet => exact ⟨_, rfl, State.bar_kept _ (State.setEventMsix_kept _ h) h⟩
  | queueEnable | portEnable | streamTableEnable | nvwSlotEnable | ckptStoreEnable | hdmEnable | ctxEnable | t3wEnable =>
    exact ⟨_, rfl, State.bar_kept _ (State.requestEnable_kept _ h) h⟩
  | queueDisable => exact ⟨_, rfl, State.bar_kept _ (.ite (State.cancelCheck_kept _ h) (State.clearPair_kept _ _ _ h)) h⟩
  | trsAddressEnable => exact ⟨_, rfl, State.bar_kept _ (.ite h (State.requestEnable_kept _ (State.wr_kept _ _ _ h))) h⟩
  | trippedClear => exact ⟨_, rfl, State.bar_kept _ (State.wr_kept _ _ _ h) h⟩
  | ctxDisable => exact ⟨_, rfl, State.bar_kept _ (.ite (State.cancelCheck_kept _ h) (State.beginTeardown_kept _ h)) h⟩
  | fenceGo => exact ⟨_, rfl, State.bar_kept _ (State.sequencedBent_kept _ _ (State.fenceGo_kept h) h) h⟩
  -- host commands
  | stepOpen => exact ⟨_, rfl, State.command_kept _ _ _ (fun _ k => State.stepOpen_kept _ k) h⟩
  | stepCommit => exact ⟨_, rfl, State.command_kept _ _ _ (fun _ k => State.stepCommit_kept _ k) h⟩
  | restore => exact ⟨_, rfl, State.command_kept _ _ _ (fun _ k => State.restore_kept _ _ k) h⟩
  | replayArm => exact ⟨_, rfl, State.command_kept _ _ _ (fun _ k => State.replayArm_kept _ k) h⟩
  | replay => exact ⟨_, rfl, State.command_kept _ _ _ (fun _ k => State.replay_kept _ _ k) h⟩
  | teacherInstall => exact ⟨_, rfl, State.command_kept _ _ _ (fun _ k => State.teacherInstall_kept _ k) h⟩
  | teacherErase => exact ⟨_, rfl, State.command_kept _ _ _ (fun _ k => State.teacherErase_kept _ k) h⟩
  | load => exact ⟨_, rfl, State.command_kept _ _ _ (fun _ k => State.load_kept _ k) h⟩
  | ctxStop => exact ⟨_, rfl, State.command_kept _ _ _ (fun _ k => State.ctxStop_kept _ k) h⟩
  | ctxResume => exact ⟨_, rfl, State.command_kept _ _ _ (fun _ k => State.ctxResume_kept _ k) h⟩
  | ctxUnload => exact ⟨_, rfl, State.command_kept _ _ _ (fun _ k => State.ctxUnload_kept _ k) h⟩
  | attest => exact ⟨_, rfl, State.command_kept _ _ _ (fun _ k => State.attest_kept _ k) h⟩
  | debugUnlock => exact ⟨_, rfl, State.command_kept _ _ _ (fun _ k => State.debugUnlock_kept _ k) h⟩
  | vendorSigned => exact ⟨_, rfl, State.command_kept _ _ _ (fun _ k => State.vendorSigned_kept _ k) h⟩
  | fwStage => exact ⟨_, rfl, State.command_kept _ _ _ (fun _ k => State.fwStage_kept _ k) h⟩
  | fwActivate => exact ⟨_, rfl, State.command_kept _ _ _ (fun _ k => State.fwActivate_kept _ k) h⟩
  | ucodeStage => exact ⟨_, rfl, State.command_kept _ _ _ (fun _ k => State.ucodeStage_kept _ k) h⟩
  | calibrateTrussLane | calibrateDramChannel | calibrateNvwStack =>
    exact ⟨_, rfl, State.command_kept _ _ _ (fun _ k => State.calibrate_kept _ k) h⟩
  | hostNop => exact ⟨_, rfl, State.command_kept _ _ _ (fun _ k => State.done_kept _ _ _ k) h⟩
  -- tests and faults of a bent
  | faultDetect => exact ⟨_, rfl, State.sequencedBent_kept _ _ (State.faultDetect_kept _ h) h⟩
  | retestDone => exact ⟨_, rfl, State.sequencedBent_kept _ _ (State.retestDone_kept _ _ h) h⟩
  | slotEnd => exact ⟨_, rfl, State.sequencedBent_kept _ _ (State.slotEnd_kept _ _ h) h⟩
  | uncoveredTest => exact ⟨_, rfl, State.sequencedBent_kept _ _ (State.uncoveredTest_kept _ _ h) h⟩
  -- stream commands
  | streamOpen | streamAppend | streamCommit | streamMask | streamNext | streamPause | streamResume | streamClose
  | streamExport | streamReceive | streamAdapterLoad | streamGrammarLoad | streamGrammarDrop =>
    exact ⟨_, rfl, State.streamCommand_kept _ _ _ _ _ h⟩
  -- cores and their queues
  | bundleIssue => exact ⟨_, rfl, State.bundleIssue_kept _ h⟩
  | unitComplete => exact ⟨_, rfl, State.unitComplete_kept _ _ _ h⟩
  | deferredTrapPost => exact ⟨_, rfl, State.postDeferred_kept _ h⟩
  | pegApply => exact ⟨_, rfl, State.pegApply_kept _ h⟩
  | pegwRelease => exact ⟨_, rfl, State.pegwRelease_kept _ h⟩
  | fenceClear => exact ⟨_, rfl, State.fenceClear_kept _ h⟩
  | coreHalted => exact ⟨_, rfl, State.coreHalted_kept _ h⟩
  | integerRetryPass => exact ⟨_, rfl, State.integerRetry_kept _ h⟩
  | tier3ReadAbandon => exact ⟨_, rfl, State.abandonReads_kept _ h⟩
  | wwputTakeCredits => exact ⟨_, rfl, State.putTake_kept _ _ h⟩
  | wwgetTakeRecords => exact ⟨_, rfl, State.getTake_kept _ _ h⟩
  | recordDelivered => exact ⟨_, rfl, State.deliverRecord_kept _ _ _ h⟩
  | remoteRecordArrive => exact ⟨_, rfl, State.remoteRecord_kept _ _ _ h⟩
  | remoteCreditArrive => exact ⟨_, rfl, State.remoteCredit_kept _ _ h⟩
  | legacyWordIssue => exact ⟨_, rfl, State.legacyWordIssue_kept _ h⟩
  | drainRequest => exact ⟨_, rfl, State.drainRequest_kept _ h⟩
  | queueClearDone => exact ⟨_, rfl, State.clearDone_kept _ _ h⟩
  -- training
  | gateDecide => exact ⟨_, rfl, State.gateDecide_kept _ _ h⟩
  | riskSample => exact ⟨_, rfl, State.sequenced_kept _ _ (State.riskSample_kept _ h) h⟩
  | checkpointCaptureStart => exact ⟨_, rfl, State.captureStart_kept _ _ h⟩
  | checkpointSecured => exact ⟨_, rfl, State.secured_kept _ h⟩
  -- links and packets
  | linkTrained => exact ⟨_, rfl, State.linkTrained_kept _ _ h⟩
  | discoveryFlitReceive => exact ⟨_, rfl, State.discovered_kept _ _ _ _ h⟩
  | linkKeyExchange => exact ⟨_, rfl, State.keyExchange_kept _ _ h⟩
  | flitReceive => exact ⟨_, rfl, State.flitIn_kept _ _ _ _ h⟩
  | nakResend => exact ⟨_, rfl, State.nakResend_kept _ _ h⟩
  | keyChangeFlit => exact ⟨_, rfl, State.keyChange_kept _ h⟩
  | retrain => exact ⟨_, rfl, State.startRetrain_kept _ _ h⟩
  | retrainDone => exact ⟨_, rfl, State.retrainDone_kept _ _ h⟩
  | channelOpen => exact ⟨_, rfl, State.channelOpen_kept _ _ h⟩
  | packetSend => exact ⟨_, rfl, State.packetSend_kept _ h⟩
  | packetReceive => exact ⟨_, rfl, State.packetIn_kept _ h⟩
  | packetResendTimeout => exact ⟨_, rfl, State.resendTimeout_kept _ _ h⟩
  | frameEntryUpdate => exact ⟨_, rfl, State.frameUpdate_kept _ _ h⟩
  -- the exchange
  | bucketClose => exact ⟨_, rfl, State.bucketClose_kept _ h⟩
  | reducePacketReceive => exact ⟨_, rfl, State.reduceIn_kept _ _ h⟩
  | bucketDeadlineExpire => exact ⟨_, rfl, State.deadlineExpire_kept _ _ h⟩
  | cutoffExpire => exact ⟨_, rfl, State.cutoff_kept _ h⟩
  | abortPacketReceive => exact ⟨_, rfl, State.abortIn_kept _ _ _ _ h⟩
  | summaryMerge => exact ⟨_, rfl, State.summaryMerge_kept _ h⟩
  | summaryReceive => exact ⟨_, rfl, State.summaryIn_kept _ _ h⟩
  | gatherStart => exact ⟨_, rfl, State.gatherStart_kept _ h⟩
  | gatherChunkReceive => exact ⟨_, rfl, State.chunkIn_kept _ _ h⟩
  | streamCommandSubmit => exact ⟨_, rfl, State.streamSubmit_kept _ h⟩
  | exportAck => exact ⟨_, rfl, State.exportAcked_kept _ _ h⟩
  -- memories, teachers and stores
  | dchainTrainingAccess => exact ⟨_, rfl, State.granuleRead_kept _ _ h⟩
  | patrolRead => exact ⟨_, rfl, State.patrolRead_kept _ _ _ h⟩
  | dramTempBandChange => exact ⟨_, rfl, State.tempBand_kept _ _ h⟩
  | throttleStep => exact ⟨_, rfl, State.throttleStep_kept _ h⟩
  | stackTrip => exact ⟨_, rfl, State.stackTrip_kept _ _ h⟩
  | stagingDone => exact ⟨_, rfl, State.stagingDone_kept _ _ h⟩
  | shardProgrammed => exact ⟨_, rfl, State.shardProgrammed_kept _ _ _ _ h⟩
  | installReadbackDone => exact ⟨_, rfl, State.readbackDone_kept _ _ h⟩
  | eraseDone => exact ⟨_, rfl, State.eraseDone_kept _ h⟩
  | verifyPass => exact ⟨_, rfl, State.verifyPass_kept _ _ _ h⟩
  | captureReceive => exact ⟨_, rfl, State.captureReceive_kept _ _ h⟩
  | hdmHostAccess => exact ⟨_, rfl, State.hdmAccess_kept _ _ _ h⟩
  | hdmDecoderCommit => exact ⟨_, rfl, State.decoderCommit_kept _ _ _ h⟩
  -- contexts
  | placement => exact ⟨_, rfl, State.placement_kept h⟩
  | preemption => exact ⟨_, rfl, State.preemption_kept h⟩
  | sliceExpire => exact ⟨_, rfl, State.sliceExpire_kept _ h⟩
  -- keys and reports
  | sweepEnd => exact ⟨_, rfl, State.sweepEnd_kept h⟩
  | linkRekey => exact ⟨_, rfl, State.linkRekey_kept _ h⟩
  | attestReportReceive => exact ⟨_, rfl, State.reportIn_kept _ _ h⟩
  | attestReportLapse => exact ⟨_, rfl, State.reportLapse_kept _ h⟩
  -- live service and the Ledger
  | laneCalDone => exact ⟨_, rfl, State.laneCalDone_kept _ _ h⟩
  | calibrationDone => exact ⟨_, rfl, State.calibrationDone_kept _ h⟩
  | joinerWatchdog => exact ⟨_, rfl, State.watchdog_kept h⟩
  | commandBusyTimeout => exact ⟨_, rfl, State.busyTimeout_kept _ _ h⟩
  | telemetrySample => exact ⟨_, rfl, State.telemetry_kept _ h⟩
  | ledgerAppend => exact ⟨_, rfl, State.ledgerAppend_kept _ h⟩
  | ledgerCompaction => exact ⟨_, rfl, State.compaction_kept h⟩
  | compactionDone => exact ⟨_, rfl, State.compactionDone_kept h⟩
  -- the host interface
  | objectCheckEnd => exact ⟨_, rfl, State.sequenced_kept _ _ (State.checkEnd_kept h) h⟩
  | controlLineSnoop => exact ⟨_, rfl, State.lineSnoop_kept _ _ _ h⟩
  | ringPoll => exact ⟨_, rfl, State.ringPoll_kept _ _ _ h⟩
  | completionRecordWrite => exact ⟨_, rfl, State.recordWrite_kept _ h⟩
  | msixCoalesceExpire => exact ⟨_, rfl, State.coalesce_kept _ h⟩
  | registerWrite => exact ⟨_, rfl, State.registerWrite_kept _ h⟩
  -- power and resets
  | railEvent => exact ⟨_, rfl, State.railEvent_kept _ _ h⟩
  | railOutOfTolerance => exact ⟨_, rfl, State.outOfTolerance_kept _ h⟩
  | refclkLoss => exact ⟨_, rfl, State.refclkLoss_kept _ h⟩
  | frequencyStep => exact ⟨_, rfl, State.frequencyStep_kept _ h⟩
  | powerCapTest => exact ⟨_, rfl, State.powerCap_kept _ _ _ h⟩
  | coreThermalTrip => exact ⟨_, rfl, State.coreTrip_kept _ h⟩
  | powerLimitUnreachable => exact ⟨_, rfl, State.unreachable_kept h⟩
  | baySleep => exact ⟨_, rfl, State.baySleep_kept _ h⟩
  | bayWake => exact ⟨_, rfl, State.bayWake_kept _ h⟩
  | functionD3hot => exact ⟨_, rfl, State.functionSleep_kept _ h⟩
  | d3hotEntry => exact ⟨_, rfl, State.d3hot_kept h⟩
  | d0Return => exact ⟨_, rfl, State.d0Return_kept h⟩
  | d3coldEntry => exact ⟨_, rfl, State.d3cold_kept h⟩
  | l0pWidthChange => exact ⟨_, rfl, State.l0pChange_kept _ _ h⟩
  | coldReset => exact ⟨_, rfl, State.coldReset_kept _ h⟩
  | warmReset => exact ⟨_, rfl, State.warmReset_kept h⟩
  | portReset => exact ⟨_, rfl, State.portReset_kept _ h⟩
  | cxlReset => exact ⟨_, rfl, State.cxlReset_kept h⟩
  | flr => exact ⟨_, rfl, State.flr_kept _ h⟩
  | tapInstruction => exact ⟨_, rfl, State.tap_kept _ h⟩
  | refclkReturn => exact ⟨_, rfl, State.setClock_kept _ _ h⟩
  | cxlLinkTrained => exact ⟨_, rfl, State.cxlTrained_kept _ _ h⟩
  | cxlLinkDown => exact ⟨_, rfl, State.cxlLost_kept _ h⟩
  | perstDeassert => exact ⟨_, rfl, State.perstDeassert_kept _ h⟩
  | memoryActiveSet => exact ⟨_, rfl, State.memorySet_kept h⟩
  | functionD0Return => exact ⟨_, rfl, State.functionWake_kept _ h⟩
  -- reports, links and messages
  | spanReportSend => exact ⟨_, rfl, State.spanReportSend_kept h⟩
  | thermalTripRelease => exact ⟨_, rfl, State.tripRelease_kept _ h⟩
  | aspmL1 => exact ⟨_, rfl, State.aspm_kept _ _ h⟩
  | doeRequest => exact ⟨_, rfl, State.doe_kept _ _ h⟩
  | dynamicAddressAssignment => exact ⟨_, rfl, State.assignAddress_kept _ h⟩
  | pwrStatusRead => exact ⟨_, rfl, State.statusRead_kept h⟩
  -- one operation on the result of another
  | coreDrained => exact ⟨_, rfl, State.goOn_kept (State.coreDrained_kept _ h)⟩
  | counterClear => exact ⟨_, rfl, .ite (State.counterClear_kept _ _ h) h⟩
  | discoveryFlitSend => exact ⟨_, rfl, .ite (State.sendDiscovery_kept _ h) h⟩
  | streamExpire => exact ⟨_, rfl, .ite (State.expireStream_kept _ _ h) h⟩
  | teardownDone => exact ⟨_, rfl, State.goOn_kept (State.sequenced_kept _ _ (State.teardownDone_kept _ h) h)⟩
  | switchSaveDone => exact ⟨_, rfl, State.goOn_kept (State.switchSaved_kept _ _ h)⟩
  | switchScrubDone => exact ⟨_, rfl, State.goOn_kept (State.switchScrubbed_kept _ h)⟩
  | switchRestoreDone => exact ⟨_, rfl, State.goOn_kept (State.switchRestored_kept _ _ h)⟩
  | bwRegulatorWindow =>
    refine ⟨_, rfl, ?_⟩
    split
    · exact State.setCtx_kept _ _ h
    · exact h
  | droopEvent => exact ⟨_, rfl, (State.inc_kept Reg.pwr Reg.PWR_DROOP_EVENTS h).other rfl⟩
  | thermtrip => exact ⟨_, rfl, h.other rfl⟩
  | recoveryImageGo => exact ⟨_, rfl, .ite (State.recoveryGo_kept h) h⟩
  | tier3LineSnoop => exact ⟨_, rfl, h⟩

/-- Settles O1: both sides are the same run of the front command. -/
theorem stepTakesFront : Obligations.StepTakesFront := by
  intro i rest s h
  rw [step, h]

/-- Settles O3: what every command keeps says it of the queue, the clock and the draws. -/
theorem everyCommandAnswers : Obligations.EveryCommandAnswers := by
  intro i s
  obtain ⟨t, ht, hk⟩ := exec_kept i s
  exact ⟨t, ht, hk.pending, hk.nowUs, hk.free⟩

end Sys2Proof.Machine
end

section
/-! Registers and bytes read back what was written (00 R6; 14 R384). -/
namespace Sys2Proof.Machine

theorem byteAt_setByte_scratch (s : State) (a : Nat) (b : Byte) (c a' : Nat) :
    (s.setByte (.scratch c) a b).byteAt (.scratch c) a' = if a' = a then b else s.byteAt (.scratch c) a' := by
  simp only [State.setByte, State.byteAt, State.core_setCore, mapGet_mapSet]

/-- Offsets of a region name one byte of tier 1 just when they lie at one address. -/
theorem byteAt_setByte_tier1 (s : State) (a : Nat) (b : Byte) (x a' : Nat) :
    (s.setByte (.tier1 x) a b).byteAt (.tier1 x) a' =
      if s.regionAddr x a' = s.regionAddr x a then b else s.byteAt (.tier1 x) a' :=
  mapGet_mapSet _ _ _ _ _

theorem byteAt_setByte_host (s : State) (a : Nat) (b : Byte) (h a' : Nat) :
    (s.setByte (.host h) a b).byteAt (.host h) a' = if a' = a then b else s.byteAt (.host h) a' := by
  simp only [State.setByte, State.byteAt, mapGet_mapSet, Nat.add_left_cancel_iff]

/-- Settles O6: registers and memories are sparse arrays, and a read of one finds its last write. -/
theorem readsAfterWrites : Obligations.ReadsAfterWrites := by
  constructor
  · exact fun s b f v => ⟨s.rd_wr b f v, fun _ _ h => s.rd_wr_ne v h⟩
  · exact fun s a b => ⟨byteAt_setByte_scratch s a b, byteAt_setByte_tier1 s a b, byteAt_setByte_host s a b, fun _ _ => rfl⟩

end Sys2Proof.Machine
end

section
/-! Register writes and the recovery image (18 R478; 19 R507; 20 R527; 00 R7). -/
namespace Sys2Proof.Machine

/-! ## One field of a written word -/

/-- An 8-byte write covers every bit of a field that lies in the word. -/
theorem bitsAt_all {lo n : Nat} (h : lo + n ≤ 64) : bitsAt (2 ^ 64 - 1) lo n = 2 ^ n - 1 := by
  refine Nat.eq_of_testBit_eq fun i => ?_
  simp only [bitsAt, Nat.testBit_mod_two_pow, Nat.testBit_shiftRight, Nat.testBit_two_pow_sub_one]
  by_cases hi : i < n
  · simp [hi, show lo + i < 64 by omega]
  · simp [hi]

theorem mask_ne_zero {n : Nat} (h : 0 < n) : 2 ^ n - 1 ≠ 0 :=
  Nat.sub_ne_zero_of_lt (Nat.one_lt_two_pow h.ne')

/-- Replacing every bit of a field leaves what it held above its width, and takes the written bits below. -/
theorem replace_all (old v lo n : Nat) :
    old - (old &&& (2 ^ n - 1)) + (bitsAt v lo n &&& (2 ^ n - 1)) = 2 ^ n * (old / 2 ^ n) + bitsAt v lo n := by
  have hold := Nat.div_add_mod old (2 ^ n)
  rw [Nat.and_two_pow_sub_one_eq_mod, Nat.and_two_pow_sub_one_eq_mod, bitsAt, Nat.mod_mod]
  omega

/-- A field that a program may not write stands. -/
theorem writeField_ro (s : State) (base mask v : Nat) (o : Option ObjRef) {f : Field} (h : f.acc = .ro) :
    s.writeField base mask v o f = s := by
  simp [State.writeField, h]

/-- A lockable field stands while its object is enabled or checked. -/
theorem writeField_locked (s : State) (base mask v : Nat) (p : ObjRef) {f : Field} (h : f.acc = .rwe)
    (hp : s.objOn p = true ∨ s.checking p = true) : s.writeField base mask v (some p) f = s := by
  simp [State.writeField, h, hp]

/-- A write to a read-only or lockable field changes at most that field. -/
theorem writeField_eq_or_wr (s : State) (base mask v : Nat) (o : Option ObjRef) {f : Field} (h : f.acc = .ro ∨ f.acc = .rwe) :
    s.writeField base mask v o f = s ∨ f.acc = .rwe ∧ ∃ n, s.writeField base mask v o f = s.wr base f n := by
  rcases h with h | h
  · exact .inl (writeField_ro s base mask v o h)
  · simp only [State.writeField, h]
    split
    · exact .inl rfl
    · split
      · exact .inl rfl
      · exact .inr ⟨trivial, _, rfl⟩

/-- A lockable field of an object that is neither enabled nor checked takes the written bits. -/
theorem rd_writeField_unlocked (s : State) (base v : Nat) (p : ObjRef) {f : Field} (h : f.acc = .rwe) (hw : 0 < f.width)
    (hl : f.lo + f.width ≤ 64) (hon : s.objOn p = false) (hc : s.checking p = false) (ht : ∀ n, s.takes base f n = true) :
    (s.writeField base (2 ^ 64 - 1) v (some p) f).rd base f = bitsAt v f.lo f.width := by
  simp only [State.writeField, bitsAt_all hl, replace_all, h, if_neg (mask_ne_zero hw), ht, Option.any_some, hon, hc, Bool.or_self,
    Bool.not_true, Bool.false_eq_true, if_false, State.rd_wr, Nat.mul_add_mod]
  exact Nat.mod_mod _ _

/-- A field that is always writable takes the written bits if it takes their value. -/
theorem writeField_rw (s : State) (base v : Nat) {f : Field} {n : Nat} (h : f.acc = .rw) (hw : 0 < f.width)
    (hl : f.lo + f.width ≤ 64) (hb : base ≠ Reg.hif)
    (hn : 2 ^ f.width * (s.rd base f / 2 ^ f.width) + bitsAt v f.lo f.width = n) :
    s.writeField base (2 ^ 64 - 1) v none f = if s.takes base f n then s.wr base f n else s := by
  simp only [State.writeField, bitsAt_all hl, replace_all, hn, h, if_neg (mask_ne_zero hw), Option.any_none, Bool.false_eq_true,
    if_false, hb, false_and]

/-! ## The fields of a written word -/

/-- Fields a program may not write, at this place or at this time, stand. -/
theorem writeFields_eq_self (s : State) (base mask v : Nat) (o : Option ObjRef) {fs : List Field}
    (h : ∀ f ∈ fs, s.writeField base mask v o f = s) : s.writeFields base mask v o fs = s := by
  induction fs with
  | nil => rfl
  | cons f fs ih =>
    rw [State.writeFields, h f List.mem_cons_self]
    exact ih fun g hg => h g (List.mem_cons_of_mem f hg)

/-- Writes to read-only and lockable fields leave every field that lies at none of the lockable ones. -/
theorem rd_writeFields_other (s : State) (base mask v : Nat) (o : Option ObjRef) {fs : List Field} {b' : Nat} {k : Field}
    (ha : ∀ f ∈ fs, f.acc = .ro ∨ f.acc = .rwe) (hk : ∀ f ∈ fs, f.acc = .rwe → k.key b' ≠ f.key base) :
    (s.writeFields base mask v o fs).rd b' k = s.rd b' k := by
  induction fs generalizing s with
  | nil => rfl
  | cons f fs ih =>
    rw [State.writeFields, ih _ (fun g hg => ha g (List.mem_cons_of_mem f hg)) (fun g hg => hk g (List.mem_cons_of_mem f hg))]
    rcases writeField_eq_or_wr s base mask v o (ha f List.mem_cons_self) with e | ⟨hf, n, e⟩
    · rw [e]
    · rw [e, State.rd_wr_ne s n (hk f List.mem_cons_self hf)]

/-! ## Words of a context (14 Table 14-1, 09 Table 09-1, 11 Table 11-1) -/

/-- The fields of a context's registers. -/
def ctxFields : List Field := Reg.ctxCoreFields ++ Reg.ctxTrainFields ++ Reg.ctxExchFields

theorem ctxFields_place : ∀ f ∈ ctxFields, f.off % 8 = 0 ∧ f.off < 1024 ∧ 0 < f.width ∧ f.lo + f.width ≤ 64 := by decide
/-- Outside the first word, which holds ENABLE, no field of a context is writable while it is locked. -/
theorem ctxFields_acc : ∀ f ∈ ctxFields, f.off ≠ 0 → f.acc = .ro ∨ f.acc = .rwe := by decide
theorem ctxFields_keys_nodup : (ctxFields.map fun f => f.key 0).Nodup := by decide

theorem key_eq_add (f : Field) (base : Nat) : f.key base = base * 8 + f.key 0 := by
  simp only [Field.key]; omega

theorem ctxFields_nodup : ctxFields.Nodup := ctxFields_keys_nodup.of_map _

theorem eq_of_key_eq {base : Nat} {f g : Field} (hf : f ∈ ctxFields) (hg : g ∈ ctxFields) (h : f.key base = g.key base) : f = g := by
  rw [key_eq_add f, key_eq_add g] at h
  exact List.inj_on_of_nodup_map ctxFields_keys_nodup hf hg (Nat.add_left_cancel h)

theorem blockAt_ctx (x : CtxId) {off : Nat} (h : off < 1024) :
    blockAt (Reg.ctx x.val + off) = some (Reg.ctx x.val, ctxFields, some (.ctx x)) := by
  have hx := x.isLt
  have hi : (Reg.ctx x.val + off - 0x400000) / 1024 = x.val := by simp only [Reg.ctx]; omega
  have ho : 0x400000 ≤ Reg.ctx x.val + off ∧ Reg.ctx x.val + off < 0x800000 := by simp only [Reg.ctx]; omega
  simp (disch := omega) only [blockAt, if_neg, if_pos, hi]
  simp [ctxFields]

/-- A context's fields take any value: they are judged at ENABLE. -/
theorem takes_ctx (s : State) (x : CtxId) {f : Field} (n : Nat) (h : f.acc = .rwe) : s.takes (Reg.ctx x.val) f n = true := by
  have hx := x.isLt
  have hf : f ≠ Reg.PWR_TARGET_MHZ := fun e => by simp [e, Reg.PWR_TARGET_MHZ] at h
  simp (disch := simp only [Reg.ctx, Reg.jnrKeys, Reg.nvwVerify, Reg.safSafety, Reg.safTest, Reg.wwy, Reg.mgmtSpace, Reg.pwr]; omega)
    only [State.takes, if_neg, if_neg hf]

theorem enable_key_ne {base : Nat} {f : Field} (hf : f ∈ ctxFields) (h0 : f.off ≠ 0) : Reg.CTX_ENABLE.key base ≠ f.key base :=
  fun e => h0 (eq_of_key_eq (by simp [ctxFields, Reg.ctxCoreFields]) hf e ▸ rfl)

/-- A write to a field outside the first word leaves the context as locked as it was. -/
theorem writeField_keeps_lock (s : State) (mask v : Nat) (o : Option ObjRef) (x : CtxId) {f : Field} (hf : f ∈ ctxFields)
    (h0 : f.off ≠ 0) : (s.writeField (Reg.ctx x.val) mask v o f).objOn (.ctx x) = s.objOn (.ctx x) ∧
      (s.writeField (Reg.ctx x.val) mask v o f).checking (.ctx x) = s.checking (.ctx x) := by
  rcases writeField_eq_or_wr s (Reg.ctx x.val) mask v o (ctxFields_acc f hf h0) with e | ⟨-, n, e⟩
  · rw [e]; exact ⟨rfl, rfl⟩
  · rw [e]
    exact ⟨congrArg (fun n => decide (n = 1)) (s.rd_wr_ne n (enable_key_ne hf h0)), rfl⟩

/-- A lockable field of an unlocked context takes the written bits, whatever else is written before and after it. -/
theorem rd_writeFields_unlocked (s : State) (x : CtxId) (v : Nat) {fs : List Field} (hn : fs.Nodup)
    (hfs : ∀ f ∈ fs, f ∈ ctxFields ∧ f.off ≠ 0) {k : Field} (hk : k ∈ fs) (ha : k.acc = .rwe)
    (hon : s.objOn (.ctx x) = false) (hc : s.checking (.ctx x) = false) :
    (s.writeFields (Reg.ctx x.val) (2 ^ 64 - 1) v (some (.ctx x)) fs).rd (Reg.ctx x.val) k = bitsAt v k.lo k.width := by
  induction fs generalizing s with
  | nil => simp at hk
  | cons f fs ih =>
    simp only [List.mem_cons, forall_eq_or_imp, List.nodup_cons] at hk hn hfs
    obtain ⟨⟨hf, hf0⟩, hrest⟩ := hfs
    rw [State.writeFields]
    rcases hk with rfl | hk
    · obtain ⟨-, -, hw, hl⟩ := ctxFields_place k hf
      rw [rd_writeFields_other _ _ _ _ _ (fun g hg => ctxFields_acc g (hrest g hg).1 (hrest g hg).2)
        fun g hg _ e => hn.1 (eq_of_key_eq hf (hrest g hg).1 e ▸ hg)]
      exact rd_writeField_unlocked s _ v _ ha hw hl hon hc fun n => takes_ctx s x n ha
    · obtain ⟨hon', hc'⟩ := writeField_keeps_lock s (2 ^ 64 - 1) v (some (.ctx x)) x hf hf0
      exact ih _ hn.2 hrest hk (hon'.trans hon) (hc'.trans hc)

/-! ## A word of a context by the access codes of its fields (00 Table 00-2) -/

/-- What an 8-byte write makes of the word at an offset of a context's registers. -/
def State.writeCtxWord (s : State) (x : CtxId) (v off : Nat) : State :=
  s.writeFields (Reg.ctx x.val) (2 ^ 64 - 1) v (some (.ctx x)) (ctxFields.filter fun f => decide (f.off = off))

theorem mem_ctxWord {off : Nat} (h0 : off ≠ 0) : ∀ f ∈ ctxFields.filter (fun f => decide (f.off = off)), f ∈ ctxFields ∧ f.off ≠ 0 := by
  intro f hf
  obtain ⟨hm, ho⟩ := List.mem_filter.mp hf
  exact ⟨hm, (of_decide_eq_true ho).symm ▸ h0⟩

/-- A write to a word of a context other than its first writes the fields of that word, and starts nothing. -/
theorem writeBar0_ctx (s : State) (f : CxlId) (x : CtxId) (v : Nat) {off : Nat} (h : off < 1024) (h0 : off ≠ 0) :
    s.writeBar0 f (Reg.ctx x.val + off) (2 ^ 64 - 1) v = s.writeCtxWord x v off := by
  have hb : 0x98000 ≤ Reg.ctx x.val + off := by simp only [Reg.ctx]; omega
  rw [State.writeBar0, if_neg (by omega), if_neg (by omega), blockAt_ctx x h]
  simp [State.writeCtxWord, State.writeStarts, h0]

section Word
variable (s : State) (x : CtxId) (v : Nat) {k : Field}

theorem writeCtxWord_ro (hk : k ∈ ctxFields) (h0 : k.off ≠ 0) (ha : k.acc = .ro) :
    (s.writeCtxWord x v k.off).rd (Reg.ctx x.val) k = s.rd (Reg.ctx x.val) k := by
  refine rd_writeFields_other _ _ _ _ _ (fun g hg => ?_) fun g hg hr e => ?_
  · obtain ⟨hm, hg0⟩ := mem_ctxWord h0 g hg
    exact ctxFields_acc g hm hg0
  · rw [eq_of_key_eq hk (mem_ctxWord h0 g hg).1 e, hr] at ha
    cases ha

/-- No field outside the first word of a locked context changes. -/
theorem writeCtxWord_locked {off : Nat} (h0 : off ≠ 0) (hl : s.objOn (.ctx x) = true ∨ s.checking (.ctx x) = true) :
    s.writeCtxWord x v off = s := by
  refine writeFields_eq_self _ _ _ _ _ fun g hg => ?_
  obtain ⟨hm, hg0⟩ := mem_ctxWord h0 g hg
  rcases ctxFields_acc g hm hg0 with ha | ha
  · exact writeField_ro _ _ _ _ _ ha
  · exact writeField_locked _ _ _ _ _ ha hl

theorem writeCtxWord_unlocked (hk : k ∈ ctxFields) (h0 : k.off ≠ 0) (ha : k.acc = .rwe) (hon : s.objOn (.ctx x) = false)
    (hc : s.checking (.ctx x) = false) : (s.writeCtxWord x v k.off).rd (Reg.ctx x.val) k = bitsAt v k.lo k.width :=
  rd_writeFields_unlocked s x v (ctxFields_nodup.filter _) (mem_ctxWord h0) (List.mem_filter.mpr ⟨hk, by simp⟩) ha hon hc

end Word

/-! ## A register write by the space it goes to (R478) -/

theorem bar_of_closed {s : State} (f : State → State) (h : s.barOpen = false) : s.bar f = s := by
  rw [State.barOpen] at h
  rw [State.bar, h]; rfl

theorem bar_of_open {s : State} (f : State → State) (h : s.barOpen = true) : s.bar f = f s := by
  rw [State.barOpen] at h
  rw [State.bar, h]; rfl

/-- A write of BAR0 or BAR2 does nothing while they do not answer. -/
theorem registerWrite_closed {s : State} {w : RegWrite} (hw : w.space = .bar2 ∨ ∃ f, w.space = .bar0 f) (h : s.barOpen = false) :
    s.registerWrite w = s := by
  rcases hw with hw | ⟨f, hw⟩
  all_goals simp only [State.registerWrite, hw]; exact bar_of_closed _ h

/-- One of a wrong size or alignment is counted. -/
theorem registerWrite_bad {s : State} {w : RegWrite} (hw : w.space = .bar2 ∨ ∃ f, w.space = .bar0 f) (h : s.barOpen = true)
    (hbad : (w.size ≠ 4 ∧ w.size ≠ 8) ∨ w.off.toNat % w.size.val ≠ 0) :
    s.registerWrite w = s.inc Reg.hif Reg.HIF_BAD_ACCESS := by
  have hgood : ((decide (w.size.val = 4) || decide (w.size.val = 8)) && decide (w.off.toNat % w.size.val = 0)) = false := by
    rcases hbad with ⟨h4, h8⟩ | ha
    · have h4' : w.size.val ≠ 4 := fun e => h4 (Fin.ext e)
      have h8' : w.size.val ≠ 8 := fun e => h8 (Fin.ext e)
      simp [h4', h8']
    · simp [ha]
  rcases hw with hw | ⟨f, hw⟩
  all_goals simp only [State.registerWrite, hw, hgood]; exact bar_of_open _ h

/-- An aligned 8-byte write through a function in D0 writes the whole word. -/
theorem registerWrite_bar0 {s : State} {f : CxlId} (o : BitVec 30) (v : Word) (h : s.barOpen = true)
    (hf : mapGet false s.dfun f.val = false) (ho : o.toNat % 8 = 0) :
    s.registerWrite ⟨.bar0 f, o, 8, v⟩ = s.writeBar0 f o.toNat (2 ^ 64 - 1) v.toNat := by
  have ha : o.toNat / 8 * 8 = o.toNat := by omega
  simp only [State.registerWrite, bar_of_open _ h]
  simp [ho, hf, ha]

/-- Above D3cold the management space takes aligned 8-byte writes (20 R525). -/
theorem registerWrite_mgmt {s : State} (o : BitVec 30) (v : Word) (hd : s.dstate < 2) (ho : o.toNat % 8 = 0) :
    s.registerWrite ⟨.mgmt, o, 8, v⟩ = s.writeMgmt o.toNat v.toNat := by
  simp [State.registerWrite, ho, hd]

/-- An 8-byte write to a word of a context other than its first. -/
theorem registerWrite_ctx {s : State} {f : CxlId} (x : CtxId) (v : Word) (h : s.barOpen = true)
    (hf : mapGet false s.dfun f.val = false) {k : Field} (hk : k ∈ ctxFields) (h0 : k.off ≠ 0) :
    s.registerWrite ⟨.bar0 f, BitVec.ofNat 30 (Reg.ctx x.val + k.off), 8, v⟩ = s.writeCtxWord x v.toNat k.off := by
  obtain ⟨h8, hlt, -, -⟩ := ctxFields_place k hk
  have hx := x.isLt
  have ho : (BitVec.ofNat 30 (Reg.ctx x.val + k.off)).toNat = Reg.ctx x.val + k.off := by
    simp only [BitVec.toNat_ofNat, Reg.ctx]; omega
  rw [registerWrite_bar0 _ _ h hf (by rw [ho, Reg.ctx]; omega), ho, writeBar0_ctx s f x _ hlt h0]

/-! ## A bay's target (19 R507) -/

theorem writeMgmt_bay (s : State) (b : BayId) (v : Nat) :
    s.writeMgmt (0x1100 + 8 * b.val) v = s.writeField (Reg.pwrBay b.val) (2 ^ 64 - 1) v none Reg.PWR_TARGET_MHZ := by
  have hb := b.isLt
  have hi : (0x1100 + 8 * b.val - 0x1100) / 8 = b.val := by omega
  rw [State.writeMgmt, if_neg (by omega), if_neg (by omega), if_neg (by omega), if_neg (by omega), if_pos (by omega), hi]
  simp only [Reg.pwrEach, State.writeFields]
  rw [writeField_ro _ _ _ _ _ (f := Reg.PWR_SLEEPING) rfl, writeField_ro _ _ _ _ _ (f := Reg.PWR_CURRENT_MHZ) rfl,
    writeField_ro _ _ _ _ _ (f := Reg.PWR_CEILING_MHZ) rfl]

/-- TARGET_MHZ takes a multiple of 25 from 300 to 600. -/
theorem takes_target (s : State) (b : Nat) (n : Nat) :
    s.takes (Reg.pwrBay b) Reg.PWR_TARGET_MHZ n = decide (300 ≤ n ∧ n ≤ 600 ∧ n % 25 = 0) := by
  have hp : ¬ Reg.pwrBay b < Reg.pwr := by simp only [Reg.pwrBay, Reg.pwr]; omega
  simp (disch := simp only [Reg.pwrBay, Reg.jnrKeys, Reg.nvwVerify, Reg.safSafety, Reg.safTest, Reg.wwy, Reg.mgmtSpace]; omega)
    only [State.takes, if_neg]
  simp [hp, Bool.and_assoc]

theorem target_writeField (s : State) (b v : Nat) (h : s.target b < 2 ^ 10) :
    (s.writeField (Reg.pwrBay b) (2 ^ 64 - 1) v none Reg.PWR_TARGET_MHZ).target b =
      if 300 ≤ v % 1024 ∧ v % 1024 ≤ 600 ∧ v % 1024 % 25 = 0 then v % 1024 else s.target b := by
  have hbase : Reg.pwrBay b ≠ Reg.hif := by simp only [Reg.pwrBay, Reg.hif]; omega
  have hnew : 2 ^ 10 * (s.target b / 2 ^ 10) + bitsAt v 0 10 = v % 1024 := by
    rw [Nat.div_eq_of_lt h, Nat.mul_zero, Nat.zero_add]; rfl
  rw [writeField_rw s _ v rfl (by decide) (by decide) hbase hnew, takes_target]
  by_cases hc : 300 ≤ v % 1024 ∧ v % 1024 ≤ 600 ∧ v % 1024 % 25 = 0
  · simp only [hc, and_self, decide_true, if_true, State.target, State.rd_wr]
    exact Nat.mod_mod v 1024
  · simp only [hc, decide_false, Bool.false_eq_true, if_false]

/-- The register of a bay in the management space (20 Table 20-6). -/
theorem target_registerWrite (s : State) (b : BayId) (v : Word) (hd : s.dstate < 2) (ht : s.target b.val < 2 ^ 10) :
    (s.registerWrite ⟨.mgmt, BitVec.ofNat 30 (0x1100 + 8 * b.val), 8, v⟩).target b.val =
      if 300 ≤ v.toNat % 1024 ∧ v.toNat % 1024 ≤ 600 ∧ v.toNat % 1024 % 25 = 0 then v.toNat % 1024 else s.target b.val := by
  have hb := b.isLt
  have ho : (BitVec.ofNat 30 (0x1100 + 8 * b.val)).toNat = 0x1100 + 8 * b.val := by rw [BitVec.toNat_ofNat]; omega
  rw [registerWrite_mgmt _ _ hd (by rw [ho]; omega), ho, writeMgmt_bay]
  exact target_writeField s b.val v.toNat ht

/-! ## The recovery image (20 R527) -/

theorem recoveryGo_ignored {s : State} (h : s.recovery = false ∨ 4 * mib < s.recLen) : s.recoveryGo = s := by
  have : (!s.recovery || decide (recoveryMax < s.recLen)) = true := by
    rcases h with h | h <;> simp [recoveryMax, h]
  simp only [State.recoveryGo, this, if_true]

theorem recoveryGo_refused {s : State} {code : Nat} (hr : s.recovery = true) (hn : s.recLen ≤ 4 * mib)
    (hf : s.imageFault 0 (s.recBytes.take s.recLen) = some code) :
    s.recoveryGo = { s with recBytes := [], recLen := 0, recStatus := code } := by
  simp [State.recoveryGo, hr, recoveryMax, Nat.not_lt.mpr hn, hf]

/-- A good image stands in slot A, which is valid from now on. -/
theorem recoveryGo_taken {s : State} (hr : s.recovery = true) (hn : s.recLen ≤ 4 * mib)
    (hf : s.imageFault 0 (s.recBytes.take s.recLen) = none) :
    s.recoveryGo.recBytes = [] ∧ s.recoveryGo.recLen = 0 ∧ s.recoveryGo.recStatus = 0 ∧
      mapGet [] s.recoveryGo.images 0 = s.recBytes.take s.recLen ∧ s.recoveryGo.slotValid 0 = true := by
  simp [State.recoveryGo, hr, recoveryMax, Nat.not_lt.mpr hn, hf, State.slotValid, State.flag, validField, Reg.JNR_VALID_A]

/-- Settles O55: a write is one of its space; in a context it goes by the access codes of its word's fields. -/
theorem writesAndRecovery : Obligations.WritesAndRecovery := by
  refine fun s => ⟨fun w f hw => ?_, fun w hw => ⟨fun hb => ?_, fun hb hbad => ?_⟩, fun f x v hb hf k hk h0 => ?_, fun b v hd ht => ?_,
    fun _ => rfl, fun v => ⟨fun h => ?_, fun hv hr hn => ?_⟩⟩
  · show Host.Outcome.next (s.registerWrite w) = _
    rw [State.registerWrite, hw]
  · exact congrArg _ (registerWrite_closed hw hb)
  · refine ⟨_, rfl, ?_⟩
    rw [registerWrite_bad hw hb hbad]
    exact ⟨State.rd_wr _ _ _ _, rfl, rfl⟩
  · refine ⟨_, rfl, ?_⟩
    rw [registerWrite_ctx x v hb hf hk h0]
    exact ⟨writeCtxWord_ro s x _ hk h0, fun _ hl => congrArg (fun t => State.rd t _ k) (writeCtxWord_locked s x _ h0 hl),
      writeCtxWord_unlocked s x _ hk h0⟩
  · exact ⟨_, rfl, target_registerWrite s b v hd ht⟩
  · show Host.Outcome.next (if v = 1 then s.recoveryGo else s) = _
    rcases h with h | h
    · rw [if_neg h]
    · rw [recoveryGo_ignored h, ite_self]
  · subst hv
    refine ⟨s.recoveryGo, rfl, ?_⟩
    cases hf : s.imageFault 0 (s.recBytes.take s.recLen) with
    | some code =>
      rw [recoveryGo_refused hr hn hf]
      exact ⟨rfl, rfl, rfl, rfl, rfl⟩
    | none => exact recoveryGo_taken hr hn hf

end Sys2Proof.Machine
end

section
/-! The lane generators step back as they step (02 R63, R69). -/
namespace Sys2Proof.Machine

/-- Each round of the inverse moves the part still wrong k places on. -/
theorem unShl_xorShift (k : Nat) (z : Word) (n : Nat) : unShl k (z ^^^ (z <<< k)) n = z ^^^ (z <<< (k * (n + 1))) := by
  induction n with
  | zero => simp [unShl]
  | succ n ih =>
    rw [unShl, ih, BitVec.shiftLeft_xor_distrib, ← BitVec.shiftLeft_add, Nat.mul_succ k (n + 1), ← BitVec.xor_assoc,
      BitVec.xor_assoc z, BitVec.xor_self, BitVec.xor_zero]

theorem unShr_xorShift (k : Nat) (z : Word) (n : Nat) : unShr k (z ^^^ (z >>> k)) n = z ^^^ (z >>> (k * (n + 1))) := by
  induction n with
  | zero => simp [unShr]
  | succ n ih =>
    rw [unShr, ih, BitVec.ushiftRight_xor_distrib, ← BitVec.shiftRight_add, Nat.mul_succ k (n + 1), ← BitVec.xor_assoc,
      BitVec.xor_assoc z, BitVec.xor_self, BitVec.xor_zero]

/-- After rounds enough to pass the word nothing is wrong. -/
theorem unShl_inverse {k n : Nat} (z : Word) (h : 64 ≤ k * (n + 1)) : unShl k (z ^^^ (z <<< k)) n = z := by
  rw [unShl_xorShift, BitVec.shiftLeft_eq_zero h, BitVec.xor_zero]

theorem unShr_inverse {k n : Nat} (z : Word) (h : 64 ≤ k * (n + 1)) : unShr k (z ^^^ (z >>> k)) n = z := by
  rw [unShr_xorShift, BitVec.ushiftRight_eq_zero h, BitVec.xor_zero]

theorem laneBack_laneStep (z : Word) : laneBack (laneStep z) = z := by
  rw [laneBack, laneStep, unShl_inverse _ (by decide), unShr_inverse _ (by decide), unShl_inverse _ (by decide)]

theorem laneSteps_laneStep (n : Nat) (z : Word) : laneSteps n (laneStep z) = laneStep (laneSteps n z) := by
  induction n generalizing z with
  | zero => rfl
  | succ n ih => exact ih (laneStep z)

theorem laneBacks_laneSteps (n : Nat) (z : Word) : laneBacks n (laneSteps n z) = z := by
  induction n with
  | zero => rfl
  | succ n ih => rw [laneSteps, laneSteps_laneStep, laneBacks, laneBack_laneStep, ih]

theorem rewind_reserve (l : Lane) (n : Nat) : (l.reserve n).rewind n = l := by
  simp only [Lane.reserve, Lane.rewind, laneBacks_laneSteps, Nat.add_sub_cancel]

/-! ## Writing the lanes of a mask (02 R64, R69) -/

theorem laneOf_setLane (m : Map Lane) (i j : Nat) (l : Lane) :
    laneOf (setLane m i l) j = if j = i then l else laneOf m j := mapGet_mapSet _ _ _ _ _

theorem laneOf_putLanes (f : Nat → Lane) (is : List Nat) (m : Map Lane) (j : Nat) :
    laneOf (putLanes m (is.map fun i => (i, f i))) j = if j ∈ is then f j else laneOf m j := by
  induction is generalizing m with
  | nil => simp [putLanes]
  | cons i is ih =>
    rw [List.map_cons, putLanes, ih, laneOf_setLane]
    by_cases hi : j = i
    · subst hi; simp
    · simp [hi]

theorem mem_maskList {n m j : Nat} : j ∈ maskList n m ↔ j < n ∧ m.testBit j = true := by
  simp [maskList, upto]

/-- The lanes of a predicate register's bits are written. -/
theorem laneOf_putLanes_mask (f : Nat → Lane) (p : Word) (m : Map Lane) {j : Nat} (h : j < 64) :
    laneOf (putLanes m ((maskList 64 p.toNat).map fun i => (i, f i))) j = if p.getLsbD j then f j else laneOf m j := by
  simp only [laneOf_putLanes, mem_maskList, h, true_and, BitVec.testBit_toNat]

end Sys2Proof.Machine
end

section
/-! Slot rows that read and write no memory, and what a recording adds to them (09 R268). -/
namespace Sys2Proof.Machine

/-! ## A store to the trace area -/

/-- Nothing but tier 1, there only at addresses that p holds of, and what stands beside it is written. -/
structure StoresWithin (p : Nat → Prop) (s t : State) : Prop where
  cores : t.cores = s.cores
  regs : t.regs = s.regs
  hostMem : t.hostMem = s.hostMem
  nvw : t.nvw = s.nvw
  pegs : t.pegs = s.pegs
  tier1 : ∀ n, ¬ p n → mapGet 0 t.tier1 n = mapGet 0 s.tier1 n

namespace StoresWithin
variable {p : Nat → Prop} {s t u : State}

/-- An update that leaves tier 1 too. -/
theorem other (hc : t.cores = s.cores) (hr : t.regs = s.regs) (hh : t.hostMem = s.hostMem) (hn : t.nvw = s.nvw)
    (hp : t.pegs = s.pegs) (ht : t.tier1 = s.tier1) : StoresWithin p s t :=
  ⟨hc, hr, hh, hn, hp, fun n _ => by rw [ht]⟩
theorem refl (s : State) : StoresWithin p s s := other rfl rfl rfl rfl rfl rfl
theorem trans (h : StoresWithin p s t) (g : StoresWithin p t u) : StoresWithin p s u :=
  ⟨g.cores.trans h.cores, g.regs.trans h.regs, g.hostMem.trans h.hostMem, g.nvw.trans h.nvw, g.pegs.trans h.pegs,
    fun n hn => (g.tier1 n hn).trans (h.tier1 n hn)⟩
theorem mono {q : Nat → Prop} (h : StoresWithin p s t) (hq : ∀ n, p n → q n) : StoresWithin q s t :=
  { h with tier1 := fun n hn => h.tier1 n (mt (hq n) hn) }
theorem ite {c : Prop} [Decidable c] (ht : StoresWithin p s t) (hu : StoresWithin p s u) :
    StoresWithin p s (if c then t else u) := by split <;> assumption
end StoresWithin

section
variable {p : Nat → Prop}

theorem storesWithin_setCtx (s : State) (x : Nat) (k : Ctx) : StoresWithin p s (s.setCtx x k) := .other rfl rfl rfl rfl rfl rfl
theorem storesWithin_renewTag (s : State) (g : Nat) : StoresWithin p s (s.renewTag g) := by
  unfold State.renewTag
  exact .ite (.other rfl rfl rfl rfl rfl rfl) (.refl s)
theorem storesWithin_markGranules (f : Nat → Nat) (a n origin k : Nat) (s : State) :
    StoresWithin p s (s.markGranules f a n origin k) := by
  induction k generalizing s with
  | zero => exact .refl s
  | succ k ih =>
    unfold State.markGranules
    extract_lets g key whole s1 s2
    have h1 : StoresWithin p s s1 := .ite (.other rfl rfl rfl rfl rfl rfl) (.ite (.other rfl rfl rfl rfl rfl rfl) (.refl s))
    have h2 : StoresWithin p s s2 := .ite (h1.trans (.other rfl rfl rfl rfl rfl rfl)) h1
    exact (h2.trans (storesWithin_renewTag s2 key)).trans (ih _)

theorem storesWithin_setByte (s : State) (x a : Nat) (b : Byte) (h : p (s.regionAddr x a)) :
    StoresWithin p s (s.setByte (.tier1 x) a b) :=
  ⟨rfl, rfl, rfl, rfl, rfl, fun _ hn => mapGet_mapSet_ne _ _ _ fun e => hn (e ▸ h)⟩
theorem storesWithin_setBytes (x : Nat) (bs : List Byte) (a : Nat) (s : State)
    (h : ∀ i, i < bs.length → p (s.regionAddr x (a + i))) : StoresWithin p s (s.setBytes (.tier1 x) a bs) := by
  induction bs generalizing a s with
  | nil => exact .refl s
  | cons b bs ih =>
    refine (storesWithin_setByte s x a b (h 0 (Nat.succ_pos _))).trans (ih _ _ fun i hi => ?_)
    have := h (i + 1) (Nat.succ_lt_succ hi)
    rwa [← Nat.add_assoc, Nat.add_right_comm] at this
/-- A store to a context's region writes its bytes and no other. -/
theorem storesWithin_store (s : State) (x a origin : Nat) (bs : List Byte) (h : ∀ i, i < bs.length → p (s.regionAddr x (a + i))) :
    StoresWithin p s (s.store (.tier1 x) a origin bs) := by
  have hb : StoresWithin p s (s.backInvalidate (s.meetsRegion x a bs.length hostLine)) := .other rfl rfl rfl rfl rfl rfl
  exact (hb.trans (storesWithin_setBytes x bs a _ h)).trans (storesWithin_markGranules ..)
end

/-- Byte n of tier 1 lies in the trace area of context x. -/
def State.inTraceArea (s : State) (x n : Nat) : Prop :=
  ∃ o, o < s.rd (Reg.ctx x) Reg.CTX_TRACE_BYTES ∧ n = s.regionAddr x (s.rd (Reg.ctx x) Reg.CTX_TRACE_BASE + o)

theorem traceByte_of_inTraceArea {s : State} {c : CoreId} {x k n : Nat} (hp : s.place c.val = some (x, k)) (ht : s.tracing x = true)
    (h : s.inTraceArea x n) : s.traceByte c n := by
  obtain ⟨o, ho, hn⟩ := h
  exact ⟨x, k, o, hp, ht, ho, hn⟩

theorem storesWithin_traceStore (s : State) (x off : Nat) (bs : List Byte) :
    StoresWithin (s.inTraceArea x) s (s.traceStore x off bs) := by
  refine storesWithin_store s x _ 0 _ fun i hi => ⟨off + i, ?_, by rw [Nat.add_assoc]⟩
  rw [List.length_take] at hi
  omega
theorem storesWithin_traceAppend (s : State) (x : Nat) (bs : List Byte) (f : Ctx → Ctx) :
    StoresWithin (s.inTraceArea x) s (s.traceAppend x bs f) := by
  unfold State.traceAppend
  extract_lets k at'
  exact .ite (.refl s) (.ite (storesWithin_setCtx ..) ((storesWithin_traceStore ..).trans (storesWithin_setCtx ..)))
/-- The record of an effect lies in the trace area. -/
theorem storesWithin_traceEffect (s : State) (c : CoreId) (i : InFlight) (e : Effect) :
    StoresWithin (s.traceByte c) s (s.traceEffect c i e) := by
  unfold State.traceEffect
  split
  · next x k hp =>
    split
    · next ht =>
      simp only [Bool.and_eq_true] at ht
      exact (storesWithin_traceAppend ..).mono fun _ => traceByte_of_inTraceArea hp ht.1.1
    · exact .refl s
  · exact .refl s

/-! ## Effects on the core alone -/

/-- The effect changes its core's own data, posts nothing and steers nothing. -/
structure Effect.CoreOnly (e : Effect) : Prop where
  mem : e.mem = []
  nan : e.nan = none
  posts : e.posts = []
  ctl : e.ctl = .none

theorem withEffect_coreOnly (s : State) (c : CoreId) (v : View) {e : Effect} (he : e.CoreOnly) :
    s.withEffect c v e = s.setCore c.val (e.onCore { s.core c.val with
      regs := { (s.core c.val).regs with lanes := v.lanesAfter (drawsSlot v) } }) := by
  rw [State.withEffect, he.mem]; rfl

/-- Such an effect completes on its core, and where its step is recorded joins the record. -/
theorem completeTraced_coreOnly (s : State) (c : CoreId) (i : InFlight) {e : Effect} (he : e.CoreOnly) (h0 : i.cursor = 0)
    (hi : (viewOf s c.val i).imports = []) :
    s.completeTraced c i e = s.setCore c.val (e.onCore (s.core c.val)) ∨
    s.recording c = true ∧ s.completeTraced c i e = (s.setCore c.val (e.onCore (s.core c.val))).traceEffect c i e := by
  rw [← complete_core_none s c i e he.mem he.nan he.posts he.ctl]
  cases hr : s.recording c with
  | false => exact .inl (completeTraced_plain s c i e hr h0)
  | true =>
    refine .inr ⟨rfl, ?_⟩
    unfold State.recording at hr
    unfold State.completeTraced
    rw [h0, rest_zero]
    split
    · next hx => simp [hx] at hr
    · next x k hx =>
      simp only [hx] at hr
      simp only [hr, if_true, hi, List.isEmpty_nil]

/-- What a recording adds to the state an effect left is in the trace area. -/
theorem sameDataTraced_traceEffect (s : State) (c : CoreId) (k : Core) (i : InFlight) (e : Effect) (h : s.recording c = true) :
    SameDataTraced s c (s.setCore c.val k) ((s.setCore c.val k).traceEffect c i e) := by
  have hw := storesWithin_traceEffect (s.setCore c.val k) c i e
  exact ⟨fun d => by rw [State.core, hw.cores]; rfl, hw.hostMem, hw.nvw, hw.pegs, hw.tier1, fun hn => by simp [h] at hn⟩
theorem SameDataTraced.refl (s : State) (c : CoreId) (m : State) : SameDataTraced s c m m :=
  ⟨fun _ => rfl, rfl, rfl, rfl, fun _ _ => rfl, fun _ => ⟨rfl, rfl, rfl⟩⟩

/-- A clear slot row of such an effect, whose view reads no memory, leaves the effect's data and changes no register of the
device. -/
theorem runSlot_coreOnly (s : State) (c : CoreId) (sl : Slot) (op : Nat) (a : SlotArgs) (h : s.slotClear c sl op a = true)
    (hr : ∀ v : View, v.i = s.slotInst c sl op a → v.reads = []) (he : (effSlot (s.slotView c sl op a)).CoreOnly) :
    (s.runSlot c sl op a).regs = s.regs ∧
    SameDataTraced s c (s.withEffect c (s.slotView c sl op a) (effSlot (s.slotView c sl op a))) (s.runSlot c sl op a) := by
  simp only [State.slotClear, Bool.and_eq_true, decide_eq_true_eq] at h
  obtain ⟨⟨hd, hon⟩, hc⟩ := h
  rw [runSlot_on s c sl op a hd hon hc, instPoison_none _ _ _ _ (hr _ (slotView_i ..)) (by rw [he.mem]; rfl),
    withEffect_coreOnly s c _ he]
  have ht := completeTraced_coreOnly (s.setLanes c.val ((s.slotView c sl op a).lanesAfter (drawsSlot (s.slotView c sl op a)))) c
    (s.slotInst c sl op a) he rfl (by rw [View.imports, hr _ (viewOf_i ..)]; rfl)
  simp only [setLanes_core] at ht
  simp only [State.setLanes, State.setCore_setCore] at ht ⊢
  rcases ht with ht | ⟨hrec, ht⟩
  · rw [ht]
    exact ⟨rfl, .refl ..⟩
  · rw [ht]
    exact ⟨(storesWithin_traceEffect ..).regs, sameDataTraced_traceEffect s c _ _ _ hrec⟩

end Sys2Proof.Machine
end

section
/-! What the rows of the vector engine see of their word, and registers packed from their elements (06 Table 06-8; 04 R102). -/
namespace Sys2Proof.Machine

/-! ## Elements of a vector register (04 R102) -/

/-- A register as a number, from its elements of w bits. -/
def packNat (w : Nat) (es : List Nat) : Nat := es.foldr (fun e acc => e % 2 ^ w + acc * 2 ^ w) 0

theorem vpack_eq (w : Nat) (es : List Nat) : vpack w es = BitVec.ofNat 2048 (packNat w es) := rfl

theorem packNat_testBit {w i : Nat} (h : i < w) (es : List Nat) (j : Nat) :
    (packNat w es).testBit (w * j + i) = (es.getD j 0).testBit i := by
  induction es generalizing j with
  | nil => simp [packNat]
  | cons e es ih =>
    have hp : packNat w (e :: es) = 2 ^ w * packNat w es + e % 2 ^ w := by
      simp only [packNat, List.foldr_cons]; rw [Nat.mul_comm, Nat.add_comm]
    rw [hp, Nat.testBit_two_pow_mul_add _ (Nat.mod_lt _ (Nat.two_pow_pos w))]
    cases j with
    | zero => simp [h]
    | succ j =>
      have hlt : ¬ w * (j + 1) + i < w := by rw [Nat.mul_succ]; omega
      have hsub : w * (j + 1) + i - w = w * j + i := by rw [Nat.mul_succ]; omega
      rw [if_neg hlt, hsub, ih, List.getD_cons_succ]

/-- Element j of a packed register is the low bits of what was packed there. -/
theorem velem_vpack {w : Nat} (es : List Nat) {j : Nat} (h : w * (j + 1) ≤ 2048) :
    velem (vpack w es) w j = es.getD j 0 % 2 ^ w := by
  refine Nat.eq_of_testBit_eq fun i => ?_
  simp only [velem, bitsAt, vpack_eq, Nat.testBit_mod_two_pow, Nat.testBit_shiftRight, BitVec.toNat_ofNat]
  by_cases hi : i < w
  · have hj : w * j + i < 2048 := by rw [Nat.mul_succ] at h; omega
    simp only [hi, hj, decide_true, Bool.true_and]
    exact packNat_testBit hi es j
  · simp [hi]

theorem velem_lt (x : BitVec 2048) (w j : Nat) : velem x w j < 2 ^ w := Nat.mod_lt _ (Nat.two_pow_pos w)

theorem velem_vpack_upto {w n : Nat} (f : Nat → Nat) {j : Nat} (hj : j < n) (h : w * n ≤ 2048) :
    velem (vpack w ((upto n).map f)) w j = f j % 2 ^ w := by
  rw [velem_vpack _ ((Nat.mul_le_mul_left w hj).trans h)]
  simp [upto, hj]

/-! ## Fields of the vector engine's words (Table 06-8) -/

/-- Bits of an element in the view a word names. -/
def elemWidth (a : SlotArgs) : Nat := if fld a.operands 27 2 = 1 then 64 else 32
def elemFmt (a : SlotArgs) : Fmt := if fld a.operands 27 2 = 1 then .b64 else .b32

theorem elemWidth_cases (a : SlotArgs) : fld a.operands 27 2 = 1 ∧ elemWidth a = 64 ∨ fld a.operands 27 2 ≠ 1 ∧ elemWidth a = 32 := by
  unfold elemWidth; split <;> simp [*]

section
variable (s : State) (c : CoreId) (op : Nat) (a : SlotArgs)

theorem slotView_viewCode : (s.slotView c .V op a).viewCode = fld a.operands 27 2 := slotView_f s c .V op a 27 2
theorem slotView_viewW : (s.slotView c .V op a).viewW = elemWidth a := by rw [View.viewW, slotView_viewCode]; rfl
theorem slotView_viewFmt : (s.slotView c .V op a).viewFmt = elemFmt a := by rw [View.viewFmt, slotView_viewCode]; rfl
theorem slotView_viewN : (s.slotView c .V op a).viewN = 2048 / elemWidth a := by
  rw [View.viewN, slotView_viewCode, elemWidth]; split <;> rfl
theorem slotView_vr (n : Nat) : (s.slotView c .V op a).vr n = (s.core c.val).regs.vreg n := by rw [View.vr, slotView_regs]
theorem slotView_sr (n : Nat) : (s.slotView c .V op a).sr n = (s.core c.val).regs.sreg n := by rw [View.sr, slotView_regs]
theorem slotView_pr (n : Nat) : (s.slotView c .V op a).pr n = (s.core c.val).regs.preg n := by rw [View.pr, slotView_regs]

theorem slotView_vecA (j : Nat) : (s.slotView c .V op a).vecA j = vecSrc s c a 6 (elemWidth a) j := by
  rw [View.vecA, slotView_vr, slotView_viewW, slotView_f s c .V op a 6 6]; rfl
theorem slotView_vecB (j : Nat) : (s.slotView c .V op a).vecB j = vecSrcB s c a (elemWidth a) j := by
  rw [View.vecB, slotView_vr, slotView_sr, slotView_viewW, slotView_bit s c .V op a 39, slotView_f s c .V op a 33 6,
    slotView_f s c .V op a 12 6]; rfl
theorem slotView_lmask (j : Nat) : (s.slotView c .V op a).lmask j = vecMask s c a (elemWidth a) j := by
  rw [View.lmask, View.maskBit, slotView_pr, slotView_viewCode, slotView_f s c .V op a 29 4, vecMask]
  rcases elemWidth_cases a with ⟨hv, hw⟩ | ⟨hv, hw⟩ <;> simp [hv, hw, Nat.mul_comm]

end

end Sys2Proof.Machine
end

section
/-! VCMP, VMSEL, SEED and RWND as rows (06 R186, R188, R193). -/
namespace Sys2Proof.Machine

/-! ## Conditions (Table 06-5) -/

theorem cmpS_iff {cond : Nat} (h : cond < 8) (a b : Word) : cmpS cond a b = true ↔ integerCond (BitVec.ofNat 3 cond) a b := by
  interval_cases cond <;> simp [cmpS, integerCond]

theorem fcmpHolds_iff {cond : Nat} (h : cond < 7) (o : Option Ordering) :
    fcmpHolds cond o = true ↔ floatCond (BitVec.ofNat 3 cond) o := by
  interval_cases cond <;> rcases o with _ | _ | _ | _ <;> simp [fcmpHolds, floatCond]

/-! ## A mask of g bits an element -/

/-- The number whose bits g * j to g * j + g - 1 are ones for each j < n that h holds of. -/
def spreadBits (g : Nat) (h : Nat → Bool) : Nat → Nat
  | 0 => 0
  | n + 1 => spreadBits g h n + if h n then (2 ^ g - 1) * 2 ^ (g * n) else 0

theorem spreadBits_succ (g : Nat) (h : Nat → Bool) (n : Nat) :
    spreadBits g h (n + 1) = 2 ^ (g * n) * (if h n then 2 ^ g - 1 else 0) + spreadBits g h n := by
  rw [spreadBits, Nat.add_comm]
  split
  · rw [Nat.mul_comm]
  · rfl

theorem spreadBits_lt (g : Nat) (h : Nat → Bool) (n : Nat) : spreadBits g h n < 2 ^ (g * n) := by
  induction n with
  | zero => simp [spreadBits]
  | succ n ih =>
    have hp := Nat.two_pow_pos g
    have hc : (if h n then 2 ^ g - 1 else 0) + 1 ≤ 2 ^ g := by split <;> omega
    calc spreadBits g h (n + 1) < 2 ^ (g * n) * ((if h n then 2 ^ g - 1 else 0) + 1) := by rw [spreadBits_succ, Nat.mul_succ]; omega
      _ ≤ 2 ^ (g * n) * 2 ^ g := Nat.mul_le_mul_left _ hc
      _ = 2 ^ (g * (n + 1)) := by rw [Nat.mul_succ, Nat.pow_add]

theorem spreadBits_testBit {g b : Nat} (hb : b < g) (h : Nat → Bool) (n j : Nat) :
    (spreadBits g h n).testBit (g * j + b) = (decide (j < n) && h j) := by
  induction n with
  | zero => simp [spreadBits]
  | succ n ih =>
    rw [spreadBits_succ, Nat.testBit_two_pow_mul_add _ (spreadBits_lt g h n)]
    rcases Nat.lt_trichotomy j n with hj | rfl | hj
    · have hlt : g * j + b < g * n := by have := Nat.mul_le_mul_left g hj; rw [Nat.mul_succ] at this; omega
      rw [if_pos hlt, ih]
      simp [hj, Nat.lt_succ_of_lt hj]
    · rw [if_neg (by omega), Nat.add_sub_cancel_left]
      split <;> simp [*]
    · have hle : g * n + g ≤ g * j := by rw [← Nat.mul_succ]; exact Nat.mul_le_mul_left g hj
      rw [if_neg (by omega)]
      have hbit : (2 ^ g - 1).testBit (g * j + b - g * n) = false := by
        rw [Nat.testBit_two_pow_sub_one]; exact decide_eq_false (by omega)
      have hj' : ¬ j < n + 1 := by omega
      split <;> simp [hbit, hj']

/-! ## The effect of VCMP -/

/-- An unmasked element satisfies the condition. -/
def View.passes (v : View) (j : Nat) : Bool := v.lmask j && (vcmpElem v j).1
/-- An unmasked element signals. -/
def View.signals (v : View) (j : Nat) : Bool := v.lmask j && (vcmpElem v j).2

theorem vcmp_masked_elem (v : View) (j : Nat) :
    (if v.lmask j then vcmpElem v j else (false, false)) = (v.passes j, v.signals j) := by
  unfold View.passes View.signals
  cases v.lmask j <;> rfl

theorem vcmp_foldl (v : View) (n : Nat) :
    ((upto n).map fun j => (j, v.passes j, v.signals j)).foldl (fun a e =>
      a + (if e.2.1 then (if v.viewCode = 1 then 3 * 2 ^ (2 * e.1) else 2 ^ e.1) else 0)) 0 =
    spreadBits (v.viewW / 32) v.passes n := by
  induction n with
  | zero => rfl
  | succ n ih =>
    rw [upto] at ih ⊢
    rw [List.range_succ, List.map_append, List.foldl_append, ih, spreadBits, View.viewW]
    by_cases hv : v.viewCode = 1 <;> simp [hv]

theorem vecCmp_eq (v : View) : vecCmp v =
    { p := [(v.f 13 4, BitVec.ofNat 64 (spreadBits (v.viewW / 32) v.passes v.viewN))],
      flags := fIf ((upto v.viewN).any v.signals) fInvalid } := by
  unfold vecCmp
  simp only [vcmp_masked_elem, vcmp_foldl, List.any_map]
  rfl

/-! ## Rows of the vector engine that touch no memory -/

theorem reads_of_memoryless {v : View} (hs : v.i.slot = .V) (ho : v.op = 0x07 ∨ v.op = 0x24 ∨ v.op = 0xA8 ∨ v.op = 0xA9) :
    v.reads = [] := by
  rcases ho with ho | ho | ho | ho <;> simp [View.reads, hs, ho, isRowOp, gathOp]

theorem slotInst_reads (s : State) (c : CoreId) {op : Nat} (a : SlotArgs) (ho : op = 0x07 ∨ op = 0x24 ∨ op = 0xA8 ∨ op = 0xA9)
    (v : View) (hv : v.i = s.slotInst c .V op a) : v.reads = [] := by
  have hop : v.op = op := by rw [View.op, View.f, hv]; exact slotWord_op op a (by omega)
  exact reads_of_memoryless (by rw [hv]; rfl) (hop ▸ ho)

section
variable (s : State) (c : CoreId) (a : SlotArgs)

theorem effSlot_vcmp : effSlot (s.slotView c .V 0x07 a) = vecCmp (s.slotView c .V 0x07 a) := by
  simp [effSlot, effVec, slotView_op, slotView_legacyOnly, slotView_slot, rowOp, isRowOp, gathOp, optOp]
theorem effSlot_vmsel : effSlot (s.slotView c .V 0x24 a) = vecSel (s.slotView c .V 0x24 a) := by
  simp [effSlot, effVec, slotView_op, slotView_legacyOnly, slotView_slot, rowOp, isRowOp, gathOp, optOp]
theorem effSlot_lanes {op : Nat} (ho : op = 0xA8 ∨ op = 0xA9) : effSlot (s.slotView c .V op a) = {} := by
  rcases ho with rfl | rfl <;>
    simp [effSlot, effOpt, slotView_op, slotView_legacyOnly, slotView_slot, rowOp, isRowOp, gathOp, optOp]
/-- VCMP and VMSEL draw nothing (02 R67). -/
theorem lanesAfter_drawless {op : Nat} (ho : op = 0x07 ∨ op = 0x24) :
    (s.slotView c .V op a).lanesAfter (drawsSlot (s.slotView c .V op a)) = (s.core c.val).regs.lanes := by
  rcases ho with rfl | rfl <;>
    simp [View.lanesAfter, drawsSlot, drawsVec, vecRounds, slotView_op, slotView_legacyOnly, slotView_slot, slotView_regs, rowOp,
      isRowOp, gathOp, optOp, reserveAll]

end

/-! ## VCMP -/

/-- The condition COND names holds of element j, in the view the word names (06 R186). -/
def vcmpHolds (s : State) (c : CoreId) (a : SlotArgs) (j : Nat) : Prop :=
  if fld a.operands 27 2 = 2 then
    integerCond (BitVec.ofNat 3 (fld a.operands 40 4)) ((BitVec.ofNat 32 (vecSrc s c a 6 32 j)).signExtend 64)
      ((BitVec.ofNat 32 (vecSrcB s c a 32 j)).signExtend 64)
  else floatCond (if fld a.operands 40 4 = 8 then 6 else BitVec.ofNat 3 (fld a.operands 40 4))
    (numCmp (decodeFloat (elemFmt a) (vecSrc s c a 6 (elemWidth a) j)) (decodeFloat (elemFmt a) (vecSrcB s c a (elemWidth a) j)))

/-- A source of element j is a signalling NaN. -/
def vcmpSnan (s : State) (c : CoreId) (a : SlotArgs) (j : Nat) : Bool :=
  (decodeFloat (elemFmt a) (vecSrc s c a 6 (elemWidth a) j)).isSnan ||
    (decodeFloat (elemFmt a) (vecSrcB s c a (elemWidth a) j)).isSnan

theorem assignedBits_vcmp (a : SlotArgs) : assignedBits .V (slotWord 0x07 a) =
    if 9 ≤ fld a.operands 40 4 ∨ (fld a.operands 27 2 < 2 ∧ (fld a.operands 40 4 = 6 ∨ fld a.operands 40 4 = 7)) ∨
      (fld a.operands 27 2 = 2 ∧ fld a.operands 40 4 = 8) then none else some [(13, 44)] := by
  have hc : fld (slotWord 0x07 a) 53 4 = fld a.operands 40 4 := slotWord_operand 0x07 a 40 4
  have hv : fld (slotWord 0x07 a) 40 2 = fld a.operands 27 2 := slotWord_operand 0x07 a 27 2
  simp [assignedBits, slotWord_op, assignedVec, hc, hv, isRowOp, gathOp, optOp]

/-- A VCMP word that decodes names a condition its view takes. -/
theorem vcmp_cond_of_decode {a : SlotArgs} (h : decodeCause .V (slotWord 0x07 a) = []) :
    fld a.operands 40 4 ≤ 8 ∧ (fld a.operands 27 2 < 2 → fld a.operands 40 4 ≠ 6 ∧ fld a.operands 40 4 ≠ 7) ∧
      (fld a.operands 27 2 = 2 → fld a.operands 40 4 ≠ 8) := by
  rw [decodeCause, assignedBits_vcmp] at h
  split at h
  · simp at h
  · next hn =>
    split at hn
    · simp at hn
    · omega

theorem judgeSlot_vcmp (s : State) (c : CoreId) (a : SlotArgs) : judgeSlot (s.slotView c .V 0x07 a) =
    viewCause (s.slotView c .V 0x07 a) ++ (s.slotView c .V 0x07 a).rmCause ((s.slotView c .V 0x07 a).f 37 3) := by
  simp [judgeSlot, judgeVec, slotView_op, slotView_legacyOnly, slotView_slot, rowOp, isRowOp, gathOp, optOp]

/-- A clear VCMP names one of the three views. -/
theorem vcmp_view_of_causes {s : State} {c : CoreId} {a : SlotArgs} (h : slotCauses (s.slotView c .V 0x07 a) = []) :
    fld a.operands 27 2 < 3 := by
  simp only [slotCauses, judgeSlot_vcmp, List.append_eq_nil_iff] at h
  obtain ⟨⟨⟨hview, -⟩, -⟩, -⟩ := h
  simpa [viewCause, causeIf, viewSuits, slotView_op, slotView_viewCode] using hview

section
variable {s : State} {c : CoreId} {a : SlotArgs}

theorem vcmpElem_int (hv : fld a.operands 27 2 = 2) (hc : fld a.operands 40 4 < 8) (j : Nat) :
    ((vcmpElem (s.slotView c .V 0x07 a) j).1 = true ↔ vcmpHolds s c a j) ∧ (vcmpElem (s.slotView c .V 0x07 a) j).2 = false := by
  have hw : elemWidth a = 32 := by simp [elemWidth, hv]
  simp only [vcmpElem, slotView_viewCode, slotView_vecA, slotView_vecB, slotView_f s c .V 0x07 a 40 4, vcmpHolds, hv, hw, if_true]
  exact ⟨cmpS_iff hc _ _, trivial⟩

theorem vcmpElem_float (hv : fld a.operands 27 2 ≠ 2) (hc : fld a.operands 40 4 < 6 ∨ fld a.operands 40 4 = 8) (j : Nat) :
    ((vcmpElem (s.slotView c .V 0x07 a) j).1 = true ↔ vcmpHolds s c a j) ∧
      (vcmpElem (s.slotView c .V 0x07 a) j).2 = vcmpSnan s c a j := by
  simp only [vcmpElem, slotView_viewCode, slotView_vecA, slotView_vecB, slotView_viewFmt, slotView_f s c .V 0x07 a 40 4,
    vcmpHolds, hv, if_false]
  refine ⟨?_, rfl⟩
  split
  · exact fcmpHolds_iff (by decide) _
  · exact fcmpHolds_iff (by omega) _

end

/-- What a clear VCMP finds of an element: its condition, and a signal in the floating views only. -/
theorem vcmpElem_of_clear {s : State} {c : CoreId} {a : SlotArgs} (h : s.slotClear c .V 0x07 a = true) (j : Nat) :
    ((vcmpElem (s.slotView c .V 0x07 a) j).1 = true ↔ vcmpHolds s c a j) ∧
      ((vcmpElem (s.slotView c .V 0x07 a) j).2 = true ↔ fld a.operands 27 2 ≠ 2 ∧ vcmpSnan s c a j = true) := by
  simp only [State.slotClear, Bool.and_eq_true, decide_eq_true_eq] at h
  obtain ⟨⟨hd, -⟩, hc⟩ := h
  obtain ⟨h8, hfloat, hint⟩ := vcmp_cond_of_decode hd
  have hview := vcmp_view_of_causes hc
  by_cases hv : fld a.operands 27 2 = 2
  · obtain ⟨h1, h2⟩ := vcmpElem_int hv (Nat.lt_of_le_of_ne h8 (hint hv)) j
    exact ⟨h1, by simp [h2, hv]⟩
  · obtain ⟨h1, h2⟩ := vcmpElem_float (s := s) (c := c) hv (by have := hfloat (by omega); omega) j
    exact ⟨h1, by simp [h2, hv]⟩

/-- The mask VCMP writes, two bits an element in the binary64 view. -/
def vcmpMask (s : State) (c : CoreId) (a : SlotArgs) : Word :=
  BitVec.ofNat 64 (spreadBits (elemWidth a / 32) (s.slotView c .V 0x07 a).passes (2048 / elemWidth a))
/-- The flags VCMP makes sticky. -/
def vcmpFlags (s : State) (c : CoreId) (a : SlotArgs) : Flags :=
  fIf ((upto (2048 / elemWidth a)).any (s.slotView c .V 0x07 a).signals) fInvalid

theorem vcmpMask_bit {s : State} {c : CoreId} {a : SlotArgs} (h : s.slotClear c .V 0x07 a = true) {j b : Nat}
    (hj : j < 2048 / elemWidth a) (hb : b < elemWidth a / 32) :
    (vcmpMask s c a).getLsbD (j * (elemWidth a / 32) + b) = true ↔ vecMask s c a (elemWidth a) j = true ∧ vcmpHolds s c a j := by
  have hlt : j * (elemWidth a / 32) + b < 64 := by
    rcases elemWidth_cases a with ⟨-, hw⟩ | ⟨-, hw⟩ <;> rw [hw] at hj hb ⊢ <;> omega
  rw [vcmpMask, BitVec.getLsbD_ofNat, Nat.mul_comm, spreadBits_testBit hb, ← (vcmpElem_of_clear h j).1, ← slotView_lmask s c 0x07 a j]
  rw [Nat.mul_comm] at hlt
  simp [hlt, hj, View.passes]

theorem vcmpFlags_cases (s : State) (c : CoreId) (a : SlotArgs) :
    (vcmpFlags s c a).zeroExtend 64 = (0 : Word) ∨ (vcmpFlags s c a).zeroExtend 64 = fInvalid.zeroExtend 64 := by
  unfold vcmpFlags fIf
  split
  · exact .inr rfl
  · exact .inl rfl

theorem vcmpFlags_ne_zero {s : State} {c : CoreId} {a : SlotArgs} (h : s.slotClear c .V 0x07 a = true) :
    (vcmpFlags s c a).zeroExtend 64 ≠ (0 : Word) ↔ fld a.operands 27 2 ≠ 2 ∧
      ∃ j, j < 2048 / elemWidth a ∧ vecMask s c a (elemWidth a) j = true ∧ vcmpSnan s c a j = true := by
  have hflag (b : Bool) : (fIf b fInvalid).zeroExtend 64 ≠ (0 : Word) ↔ b = true := by cases b <;> decide
  have hsig (j : Nat) : (s.slotView c .V 0x07 a).signals j = true ↔
      vecMask s c a (elemWidth a) j = true ∧ fld a.operands 27 2 ≠ 2 ∧ vcmpSnan s c a j = true := by
    rw [View.signals, Bool.and_eq_true, slotView_lmask, (vcmpElem_of_clear h j).2]
  rw [vcmpFlags, hflag, List.any_eq_true]
  simp only [upto, List.mem_range, hsig]
  constructor
  · rintro ⟨j, hj, hm, hv, hn⟩
    exact ⟨hv, j, hj, hm, hn⟩
  · rintro ⟨hv, j, hj, hm, hn⟩
    exact ⟨j, hj, hm, hv, hn⟩

theorem vecCmp_slotView (s : State) (c : CoreId) (a : SlotArgs) : vecCmp (s.slotView c .V 0x07 a) =
    { p := [(fld a.operands 0 4, vcmpMask s c a)], flags := vcmpFlags s c a } := by
  rw [vecCmp_eq, slotView_viewW, slotView_viewN, slotView_f s c .V 0x07 a 0 4]; rfl

theorem runSlot_vcmp {s : State} {c : CoreId} {a : SlotArgs} (h : s.slotClear c .V 0x07 a = true) :
    (s.runSlot c .V 0x07 a).regs = s.regs ∧ SameDataTraced s c (s.setCore c.val { s.core c.val with
      regs := (s.core c.val).regs.setP (fld a.operands 0 4) (vcmpMask s c a)
      numStatus := (s.core c.val).numStatus ||| (vcmpFlags s c a).zeroExtend 64 }) (s.runSlot c .V 0x07 a) := by
  have he : (vecCmp (s.slotView c .V 0x07 a)).CoreOnly := by rw [vecCmp_slotView]; exact ⟨rfl, rfl, rfl, rfl⟩
  obtain ⟨hregs, hdata⟩ := runSlot_coreOnly s c .V 0x07 a h (slotInst_reads s c a (.inl rfl)) (effSlot_vcmp s c a ▸ he)
  rw [effSlot_vcmp, withEffect_coreOnly s c _ he, lanesAfter_drawless s c a (.inl rfl), vecCmp_slotView] at hdata
  exact ⟨hregs, hdata⟩

/-! ## VMSEL -/

theorem onCore_v (k : Core) (n : Nat) (w : BitVec 2048) : Effect.onCore { v := [(n, w)] } k = { k with regs := k.regs.setV n w } := by
  simp [Effect.onCore, numStatusSet, putS, putV, putP, putTd, putLanes, putAll, countAll]

/-- The register VMSEL writes (06 R188). -/
def vmselReg (s : State) (c : CoreId) (a : SlotArgs) : BitVec 2048 :=
  vpack (elemWidth a) ((upto (2048 / elemWidth a)).map fun j => if vecMask s c a (elemWidth a) j then vecSrc s c a 6 (elemWidth a) j else 0)

theorem velem_vmselReg (s : State) (c : CoreId) (a : SlotArgs) {j : Nat} (hj : j < 2048 / elemWidth a) :
    velem (vmselReg s c a) (elemWidth a) j = if vecMask s c a (elemWidth a) j then vecSrc s c a 6 (elemWidth a) j else 0 := by
  rw [vmselReg, velem_vpack_upto _ hj (Nat.mul_div_le _ _), Nat.mod_eq_of_lt]
  split
  · exact velem_lt ..
  · exact Nat.two_pow_pos _

theorem vecSel_slotView (s : State) (c : CoreId) (a : SlotArgs) :
    vecSel (s.slotView c .V 0x24 a) = { v := [(fld a.operands 0 6, vmselReg s c a)] } := by
  simp only [vecSel, slotView_f s c .V 0x24 a 0 6, slotView_viewW, slotView_viewN, slotView_lmask, slotView_vecA]; rfl

theorem runSlot_vmsel {s : State} {c : CoreId} {a : SlotArgs} (h : s.slotClear c .V 0x24 a = true) :
    (s.runSlot c .V 0x24 a).regs = s.regs ∧
      SameDataTraced s c (s.withRegs c (fun r => r.setV (fld a.operands 0 6) (vmselReg s c a))) (s.runSlot c .V 0x24 a) := by
  have he : (vecSel (s.slotView c .V 0x24 a)).CoreOnly := ⟨rfl, rfl, rfl, rfl⟩
  obtain ⟨hregs, hdata⟩ := runSlot_coreOnly s c .V 0x24 a h (slotInst_reads s c a (.inr (.inl rfl))) (effSlot_vmsel s c a ▸ he)
  rw [effSlot_vmsel, withEffect_coreOnly s c _ he, lanesAfter_drawless s c a (.inr rfl), vecSel_slotView, onCore_v] at hdata
  exact ⟨hregs, hdata⟩

/-! ## SEED and RWND -/

theorem onCore_empty (k : Core) : Effect.onCore {} k = k := by
  simp [Effect.onCore, numStatusSet, putS, putV, putP, putTd, putLanes, putAll, countAll]

theorem runSlot_lanes {s : State} {c : CoreId} {a : SlotArgs} {op : Nat} (ho : op = 0xA8 ∨ op = 0xA9)
    (h : s.slotClear c .V op a = true) :
    (s.runSlot c .V op a).regs = s.regs ∧ SameDataTraced s c (s.withRegs c (fun r => { r with
      lanes := (s.slotView c .V op a).lanesAfter (drawsSlot (s.slotView c .V op a)) })) (s.runSlot c .V op a) := by
  have he : ({} : Effect).CoreOnly := ⟨rfl, rfl, rfl, rfl⟩
  obtain ⟨hregs, hdata⟩ := runSlot_coreOnly s c .V op a h (slotInst_reads s c a (by omega)) (effSlot_lanes s c a ho ▸ he)
  rw [effSlot_lanes s c a ho, withEffect_coreOnly s c _ he, onCore_empty] at hdata
  exact ⟨hregs, hdata⟩

theorem slotView_k (s : State) (c : CoreId) (sl : Slot) (op : Nat) (a : SlotArgs) :
    (s.slotView c sl op a).k = match s.place c.val with | some (_, j) => j | none => 0 := by
  unfold State.slotView viewOf
  rcases s.place c.val with _ | ⟨x, j⟩
  · rfl
  · simp only; split <;> rfl
theorem slotView_ctxSeed (s : State) (c : CoreId) (sl : Slot) (op : Nat) (a : SlotArgs) :
    (s.slotView c sl op a).ctxSeed =
      match s.place c.val with | some (x, _) => BitVec.ofNat 64 (s.rd (Reg.ctx x) Reg.CTX_SEED) | none => 0 := by
  rw [View.ctxSeed, slotView_s]
  unfold State.slotView viewOf
  rcases s.place c.val with _ | ⟨x, j⟩
  · rfl
  · simp only; cases (s.ctx x).programOn (j / 4) <;> rfl

section
variable (s : State) (c : CoreId) (op : Nat) (a : SlotArgs)

theorem slotView_laneMask : (s.slotView c .V op a).laneMask = maskList 64 ((s.core c.val).regs.preg (fld a.operands 6 4)).toNat := by
  rw [View.laneMask, slotView_pr, slotView_f s c .V op a 6 4]
theorem slotView_rwndCount : rwndCount (s.slotView c .V op a) = (s.argS c a 0).toNat := by
  rw [rwndCount, slotView_sr, slotView_f s c .V op a 0 6]; rfl

end

/-- The lane SEED leaves at j where j is masked (02 R64). -/
def seedLane (s : State) (c : CoreId) (a : SlotArgs) (j : Nat) : Lane :=
  Lane.seeded (match s.place c.val with | some (x, _) => BitVec.ofNat 64 (s.rd (Reg.ctx x) Reg.CTX_SEED) | none => 0)
    (BitVec.ofNat 64 ((s.argS c a 0).toNat % 2 ^ 32)) (match s.place c.val with | some (_, j) => j | none => 0) j

theorem laneOf_seed (s : State) (c : CoreId) (a : SlotArgs) (ds : List Nat) {j : Nat} (hj : j < 64) :
    laneOf ((s.slotView c .V 0xA8 a).lanesAfter ds) j =
      if ((s.core c.val).regs.preg (fld a.operands 6 4)).getLsbD j then seedLane s c a j else laneOf (s.core c.val).regs.lanes j := by
  simp only [View.lanesAfter, slotView_slot, slotView_op s c .V 0xA8 a (by decide), slotView_regs, slotView_laneMask, slotView_ctxSeed,
    slotView_k, slotView_sr, slotView_f s c .V 0xA8 a 0 6, and_self, if_true]
  exact laneOf_putLanes_mask (seedLane s c a) _ _ hj

theorem laneOf_rwnd (s : State) (c : CoreId) (a : SlotArgs) (ds : List Nat) {j : Nat} (hj : j < 64) :
    laneOf ((s.slotView c .V 0xA9 a).lanesAfter ds) j =
      if ((s.core c.val).regs.preg (fld a.operands 6 4)).getLsbD j then (laneOf (s.core c.val).regs.lanes j).rewind (s.argS c a 0).toNat
      else laneOf (s.core c.val).regs.lanes j := by
  simp only [View.lanesAfter, slotView_slot, slotView_op s c .V 0xA9 a (by decide), slotView_regs, slotView_laneMask,
    slotView_rwndCount, show ¬ (0xA9 : Nat) = 0xA8 by decide, and_false, and_self, if_false, if_true]
  exact laneOf_putLanes_mask (fun i => (laneOf (s.core c.val).regs.lanes i).rewind (s.argS c a 0).toNat) _ _ hj

theorem lanes_of_sameDataTraced {s t : State} {c : CoreId} {l : Map Lane}
    (h : SameDataTraced s c (s.withRegs c (fun r => { r with lanes := l })) t) : (t.core c.val).regs.lanes = l := by
  have hd := congrArg Prod.fst (h.1 c.val)
  rw [State.withRegs, State.core_setCore] at hd
  exact congrArg RegFile.lanes hd

/-- The clauses of VCMP, VMSEL, SEED and RWND. -/
theorem vectorCompareSelectLanes : SaysVectorCompareSelectLanes := by
  intro c a s
  refine ⟨fun h => ?_, fun h => ?_, fun h => ?_, fun h => ?_⟩
  · exact ⟨vcmpMask s c a, (vcmpFlags s c a).zeroExtend 64, fun _ hj _ hb => vcmpMask_bit h hj hb, vcmpFlags_cases s c a,
      vcmpFlags_ne_zero h, _, rfl, runSlot_vcmp h⟩
  · exact ⟨vmselReg s c a, fun _ hj => velem_vmselReg s c a hj, _, rfl, runSlot_vmsel h⟩
  · obtain ⟨hregs, hdata⟩ := runSlot_lanes (.inl rfl) h
    exact ⟨_, rfl, hregs, ⟨_, hdata⟩, fun _ hj => by rw [lanes_of_sameDataTraced hdata]; exact laneOf_seed s c a _ hj⟩
  · obtain ⟨hregs, hdata⟩ := runSlot_lanes (.inr rfl) h
    exact ⟨_, rfl, hregs, ⟨_, hdata⟩, fun _ hj => by rw [lanes_of_sameDataTraced hdata]; exact laneOf_rwnd s c a _ hj⟩

/-- Settles O15: each row's result is its elements' or its lanes', and every step of a generator has an inverse. -/
theorem compareSelectAndLanes : Obligations.CompareSelectAndLanes := ⟨vectorCompareSelectLanes, rewind_reserve⟩

end Sys2Proof.Machine
end

section
/-! What a slot row leaves on the cores, whether its step is recorded or not; and arrays written key by key. -/
namespace Sys2Proof.Machine

/-! ## The cores' data after a slot row -/

theorem StoresWithin.core {p : Nat → Prop} {s t : State} (h : StoresWithin p s t) (d : Nat) : t.core d = s.core d := by
  rw [State.core, h.cores]; rfl

/-- Recording writes memory and contexts alone. -/
theorem completeTraced_data (s : State) (c : CoreId) (i : InFlight) (e : Effect) (h0 : i.cursor = 0) (d : Nat) :
    ((s.completeTraced c i e).core d).data = ((s.complete c i e).core d).data := by
  unfold State.completeTraced
  rw [h0, rest_zero]
  split
  · rfl
  · extract_lets v s1 bs
    split
    · rw [(storesWithin_traceEffect _ c i e).core d]
      split
      · rfl
      · split
        · exact (sameData_haltCtx s1 _ _).1 d
        · exact congrArg Core.data ((storesWithin_traceAppend s1 _ _ _).core d)
    · rfl

theorem slotCauses_of_clear {s : State} {c : CoreId} {sl : Slot} {op : Nat} {a : SlotArgs} (h : s.slotClear c sl op a = true) :
    slotCauses (s.slotView c sl op a) = [] := by
  simp only [State.slotClear, Bool.and_eq_true, decide_eq_true_eq] at h
  exact h.2

/-- A slot row that is clear to run leaves on every core the data its effect gives. -/
theorem runSlot_core_data {s : State} {c : CoreId} {sl : Slot} {op : Nat} {a : SlotArgs} (h : s.slotClear c sl op a = true) (d : Nat) :
    ((s.runSlot c sl op a).core d).data =
      ((s.withEffect c (s.slotView c sl op a) (effSlot (s.slotView c sl op a))).core d).data := by
  simp only [State.slotClear, Bool.and_eq_true, decide_eq_true_eq] at h
  obtain ⟨⟨hd, hon⟩, hc⟩ := h
  rw [runSlot_on s c sl op a hd hon hc, (sameData_instPoison ..).1 d, completeTraced_data _ _ _ _ rfl,
    (sameData_complete ..).1 d, State.setLanes, origin_setCore, State.core_setCore, State.setCore_setCore]
  rfl

/-- Without stores an effect is its core's share. -/
theorem withEffect_storeless (s : State) (c : CoreId) (v : View) {e : Effect} (hm : e.mem = []) :
    s.withEffect c v e = s.setCore c.val (e.onCore { s.core c.val with
      regs := { (s.core c.val).regs with lanes := v.lanesAfter (drawsSlot v) } }) := by
  rw [State.withEffect, hm]; rfl

section
variable {s : State} {c : CoreId} {sl : Slot} {op : Nat} {a : SlotArgs} {e : Effect}

/-- The accumulators, the tiles and the side memory that a clear slot row without stores leaves on its core. -/
theorem runSlot_arrays (h : s.slotClear c sl op a = true) (he : effSlot (s.slotView c sl op a) = e) (hm : e.mem = []) :
    ((s.runSlot c sl op a).core c.val).acc = putAll 0 (s.core c.val).acc e.acc ∧
    ((s.runSlot c sl op a).core c.val).tileStatus = putAll 0 (s.core c.val).tileStatus e.tile ∧
    ((s.runSlot c sl op a).core c.val).side = putAll 0 (s.core c.val).side e.side := by
  have hd := runSlot_core_data h c.val
  rw [he, withEffect_storeless s c _ hm, State.core_setCore] at hd
  simp only [Core.data, Prod.mk.injEq] at hd
  obtain ⟨-, hacc, htile, -, hside, -⟩ := hd
  exact ⟨hacc, htile, hside⟩
end

/-! ## Arrays written key by key -/

section
variable {α : Type} [DecidableEq α] {d : α} {k : Nat}

theorem mapGet_putAll_of_not_mem (l : List (Nat × α)) (m : Map α) (h : ∀ p ∈ l, p.1 ≠ k) :
    mapGet d (putAll d m l) k = mapGet d m k := by
  induction l generalizing m with
  | nil => rfl
  | cons p l ih =>
    rw [putAll, ih _ fun q hq => h q (List.mem_cons_of_mem _ hq), mapGet_mapSet_ne _ _ _ (h p List.mem_cons_self).symm]

/-- A key that is written, and with one value only, reads that value. -/
theorem mapGet_putAll_of_mem {w : α} (l : List (Nat × α)) (m : Map α) (hk : (k, w) ∈ l) (hw : ∀ p ∈ l, p.1 = k → p.2 = w) :
    mapGet d (putAll d m l) k = w := by
  induction l generalizing m with
  | nil => cases hk
  | cons p l ih =>
    have hw' : ∀ q ∈ l, q.1 = k → q.2 = w := fun q hq => hw q (List.mem_cons_of_mem _ hq)
    rw [putAll]
    by_cases hl : (k, w) ∈ l
    · exact ih _ hl hw'
    · have hp : (k, w) = p := (List.mem_cons.mp hk).resolve_right hl
      subst hp
      have hnot : ∀ q ∈ l, q.1 ≠ k := fun q hq he => hl (by rw [← he, ← hw' q hq he]; exact hq)
      rw [mapGet_putAll_of_not_mem _ _ hnot, mapGet_mapSet_self]

/-- Consecutive keys from b, each written once. -/
theorem mapGet_putAll_upto (f : Nat → α) (b n : Nat) (m : Map α) :
    mapGet d (putAll d m ((upto n).map fun i => (b + i, f i))) k = if b ≤ k ∧ k < b + n then f (k - b) else mapGet d m k := by
  split
  · next h =>
    refine mapGet_putAll_of_mem _ _ (List.mem_map.mpr ⟨k - b, List.mem_range.mpr (by omega), ?_⟩) ?_
    · rw [Nat.add_sub_cancel' h.1]
    · rintro _ hp rfl
      obtain ⟨i, -, rfl⟩ := List.mem_map.mp hp
      exact congrArg f (Nat.add_sub_cancel_left b i).symm
  · next h =>
    refine mapGet_putAll_of_not_mem _ _ fun p hp he => h ?_
    obtain ⟨i, hi, rfl⟩ := List.mem_map.mp hp
    have := List.mem_range.mp hi
    exact ⟨by omega, by omega⟩
end

end Sys2Proof.Machine
end

section
/-! The exact integer MMA (03 R90 to R92; 06 R184). -/
namespace Sys2Proof.Machine

/-! ## The pairs (Table 03-1) -/

theorem fmt_ofCode_of_isInt {d : Desc} (h : d.fmt.isInt = true) : (Fmt.ofCode d.fmtc).isSome = true := by
  cases hc : Fmt.ofCode d.fmtc with
  | none => rw [Desc.fmt, hc] at h; cases h
  | some f => rfl

theorem fmtc_ne_zero_of_isInt {d : Desc} (h : d.fmt.isInt = true) : d.fmtc ≠ 0 := by
  intro h0
  rw [Desc.fmt, h0] at h
  cases h

theorem Fmt.isInt_iff {f : Fmt} : f.isInt = true ↔ f = .i4 ∨ f = .i8 := by cases f <;> simp [Fmt.isInt]

/-- Two integer formats are no pair of the table, or an exact one. -/
theorem pairOf_isInt {x y : Fmt} (hx : x.isInt = true) (hy : y.isInt = true) :
    pairOf x y = none ∨ ∃ p, pairOf x y = some p ∧ p.group = 0 := by
  rcases Fmt.isInt_iff.mp hx with rfl | rfl <;> rcases Fmt.isInt_iff.mp hy with rfl | rfl
  · exact .inr ⟨_, rfl, rfl⟩
  · exact .inl rfl
  · exact .inl rfl
  · exact .inr ⟨_, rfl, rfl⟩

/-! ## Tile status (Table 03-4) -/

theorem tileKind_mkTile_fresh (sat : Bool) : tileKind (mkTile 1 0 sat 0) = 1 := by cases sat <;> rfl
theorem tileShift_mkTile_fresh (sat : Bool) : tileShift (mkTile 1 0 sat 0) = 0 := by cases sat <;> rfl

/-! ## One pass -/

/-- An exact dot product (R90). -/
def exactDot (xs ys : List Int) : Int := (xs.zip ys).foldl (fun n p => n + p.1 * p.2) 0

theorem foldl_dot (ps : List (Int × Int)) (n : Int) :
    ps.foldl (fun n p => n + p.1 * p.2) n = n + ps.foldl (fun n p => n + p.1 * p.2) 0 := by
  induction ps generalizing n with
  | nil => simp
  | cons p ps ih => rw [List.foldl_cons, List.foldl_cons, ih, ih (0 + p.1 * p.2)]; omega

theorem dotInt_zero (xs ys : List Int) : dotInt 0 xs ys = exactDot xs ys := by
  induction xs generalizing ys with
  | nil => simp [dotInt, exactDot]
  | cons x xs ih =>
    cases ys with
    | nil => simp [dotInt, exactDot]
    | cons y ys =>
      rw [dotInt, ih, exactDot, exactDot, List.zip_cons_cons, List.foldl_cons, foldl_dot _ (0 + x * y)]
      simp

theorem mem_grid {n m i j : Nat} : (i, j) ∈ grid n m ↔ i < n ∧ j < m := by simp [grid, upto]

/-- Elements of one tile lie at places of their own. -/
theorem accKey_inj {t i j i' j' : Nat} (hj : j < 128) (hj' : j' < 128) (h : accKey t i j = accKey t i' j') : i = i' ∧ j = j' := by
  unfold accKey at h
  omega

section
variable {v : View}

/-- Element (i, j) of the exact product. -/
def View.dot (v : View) (i j : Nat) : Int := exactDot ((v.ints v.tx).getD i []) ((v.ints v.ty).getD j [])
/-- Every exact dot product lies in the signed 32 bits. -/
def View.dotsFit (v : View) : Prop := ∀ i j, i < v.tx.rows → j < v.ty.rows → -(2 ^ 31 : Int) ≤ v.dot i j ∧ v.dot i j < 2 ^ 31

theorem ints_of_isIntMma (h : isIntMma v = true) : v.tx.fmt.isInt = true ∧ v.ty.fmt.isInt = true := by
  simp only [isIntMma, Bool.and_eq_true] at h
  exact ⟨h.1.2, h.2⟩

theorem View.tile_of_isIntMma (h : isIntMma v = true) : v.tile = v.f 23 4 :=
  if_neg fun hf => fmtc_ne_zero_of_isInt (ints_of_isIntMma h).1 hf.1

/-- A first pass that accumulates on nothing gives the exact dot products. -/
theorem intPass_fresh (h : v.bit 27 = false) :
    intPass v 0 = (grid v.tx.rows v.ty.rows).map fun ij => (ij, v.dot ij.1 ij.2) := by
  simp [intPass, intStart, h, dotInt_zero, View.dot]

theorem intFits_fresh (h : v.bit 27 = false) (hfit : v.dotsFit) : intFits (intPass v 0) = true := by
  simp only [intFits, intPass_fresh h, List.all_map, List.all_eq_true]
  rintro ⟨i, j⟩ hij
  obtain ⟨hi, hj⟩ := mem_grid.mp hij
  obtain ⟨hlo, hhi⟩ := hfit i j hi hj
  simpa [inInt32] using ⟨hlo, hhi⟩

/-- Where they fit there is no retry, and the tile is theirs (R92). -/
theorem effIntMma_fresh (h : v.bit 27 = false) (hfit : v.dotsFit) :
    (effIntMma v).mem = [] ∧
    (effIntMma v).tile = [(v.tile, mkTile 1 0 (tileSat (mapGet 0 v.core.tileStatus v.tile)) 0)] ∧
    (effIntMma v).acc = (grid v.tx.rows v.ty.rows).map fun ij => (accKey v.tile ij.1 ij.2, BitVec.ofInt 32 (v.dot ij.1 ij.2)) := by
  have hr : intRetries v 3 0 = (0, false) := by rw [intRetries, if_pos (intFits_fresh h hfit)]
  simp [effIntMma, hr, intPass_fresh h, intStart, h, Function.comp_def]

end

theorem effSlot_mma (s : State) (c : CoreId) (a : SlotArgs) :
    effSlot (s.slotView c .M 0x01 a) = effMma (s.slotView c .M 0x01 a) := by
  simp [effSlot, slotView_op, slotView_legacyOnly, slotView_slot]

section
variable {s : State} {c : CoreId} {a : SlotArgs}

/-- A clear MMA is judged clear (R184). -/
theorem judgeMma_of_clear (h : s.slotClear c .M 0x01 a = true) : judgeMma (s.slotView c .M 0x01 a) = [] := by
  have hcauses := slotCauses_of_clear h
  simp only [slotCauses, List.append_eq_nil_iff] at hcauses
  obtain ⟨⟨hjudge, -⟩, -⟩ := hcauses
  simpa [judgeSlot, slotView_op, slotView_legacyOnly, slotView_slot] using hjudge

/-- Y has no more rows than a tile has columns. -/
theorem mma_rows_le (h : s.slotClear c .M 0x01 a = true) : (s.slotView c .M 0x01 a).ty.rows ≤ 128 := by
  have hj := judgeMma_of_clear h
  simp only [judgeMma, mmaShape, List.append_eq_nil_iff] at hj
  obtain ⟨⟨⟨⟨-, -, hrows⟩, -⟩, -⟩, -⟩ := hj
  have hl : (s.slotView c .M 0x01 a).mmaLimit = 128 := by simp [View.mmaLimit, slotView_i, State.slotInst, instOf]
  simpa [causeIf, hl] using hrows

theorem effSlot_intMma (h : s.slotClear c .M 0x01 a = true) (hi : isIntMma (s.slotView c .M 0x01 a) = true) :
    effSlot (s.slotView c .M 0x01 a) = effIntMma (s.slotView c .M 0x01 a) := by
  have hop : (s.slotView c .M 0x01 a).op = 0x01 := slotView_op s c .M 0x01 a (by decide)
  obtain ⟨hx, hy⟩ := ints_of_isIntMma hi
  have hj := judgeMma_of_clear h
  simp only [judgeMma, hop, fmt_ofCode_of_isInt hx, fmt_ofCode_of_isInt hy, List.append_eq_nil_iff] at hj
  rw [effSlot_mma, effMma, hop, if_neg (by decide)]
  rcases pairOf_isInt hx hy with hp | ⟨p, hp, hg⟩
  · simp [hp] at hj
  · rw [hp]
    exact if_pos hg

/-- The clause of the integer MMA. -/
theorem integerMmaExact : SaysIntegerMmaExact := by
  intro c a s h v x y dot hi hacc hfit
  have hbit : v.bit 27 = false := (slotView_bit s c .M 0x01 a 14).trans hacc
  have htile : v.tile = fld a.operands 10 4 := (View.tile_of_isIntMma hi).trans (slotView_f s c .M 0x01 a 10 4)
  obtain ⟨hmem, htl, hac⟩ := effIntMma_fresh hbit hfit
  obtain ⟨hacc', htile', -⟩ := runSlot_arrays h (effSlot_intMma h hi) hmem
  refine ⟨_, rfl, ?_, ?_, fun i j hi' hj' => ?_⟩
  · rw [htile', htl, htile, putAll, putAll, mapGet_mapSet_self, tileKind_mkTile_fresh]
  · rw [htile', htl, htile, putAll, putAll, mapGet_mapSet_self, tileShift_mkTile_fresh]
  · have hrows := mma_rows_le h
    have hget : mapGet 0 ((s.runSlot c .M 0x01 a).core c.val).acc (accKey v.tile i j) = BitVec.ofInt 32 (v.dot i j) := by
      rw [hacc', hac]
      refine mapGet_putAll_of_mem _ _ (List.mem_map.mpr ⟨(i, j), mem_grid.mpr ⟨hi', hj'⟩, rfl⟩) fun p hp hk => ?_
      obtain ⟨⟨i', j'⟩, hij, rfl⟩ := List.mem_map.mp hp
      obtain ⟨rfl, rfl⟩ := accKey_inj ((mem_grid.mp hij).2.trans_le hrows) (hj'.trans_le hrows) hk
      rfl
    rw [htile] at hget
    obtain ⟨hlo, hhi⟩ := hfit i j hi' hj'
    exact (congrArg BitVec.toInt hget).trans (BitVec.toInt_ofInt_eq_self (by decide) hlo hhi)
end

end Sys2Proof.Machine
end

section
/-! CLEAR and STATLOAD move side records (04 R116, R117; 06 R190). -/
namespace Sys2Proof.Machine

section
variable (s : State) (c : CoreId) (op : Nat) (a : SlotArgs)

theorem slotView_rBase : (s.slotView c .V op a).rBase = fld a.operands 11 12 := slotView_f s c .V op a 11 12
theorem slotView_rM : (s.slotView c .V op a).rM = fld a.operands 38 7 + 1 := congrArg (· + 1) (slotView_f s c .V op a 38 7)

theorem effSlot_clear : effSlot (s.slotView c .V 0x79 a) = rowClear (s.slotView c .V 0x79 a) := by
  simp [effSlot, effRow, slotView_op, slotView_legacyOnly, slotView_slot, rowOp, isRowOp]
theorem effSlot_statload : effSlot (s.slotView c .V 0x7B a) = rowLoad (s.slotView c .V 0x7B a) := by
  simp [effSlot, effRow, slotView_op, slotView_legacyOnly, slotView_slot, rowOp, isRowOp]
end

/-- A clear STATLOAD finds no record it may not load (R117). -/
theorem loadFaults_of_clear {s : State} {c : CoreId} {a : SlotArgs} (h : s.slotClear c .V 0x7B a = true) :
    loadFaults (s.slotView c .V 0x7B a) = [] := by
  have hop : (s.slotView c .V 0x7B a).op = 0x7B := slotView_op s c .V 0x7B a (by decide)
  have hmem : memSlot (s.slotView c .V 0x7B a) = memRow (s.slotView c .V 0x7B a) := by
    simp [memSlot, hop, slotView_legacyOnly, slotView_slot, rowOp, isRowOp]
  have hcauses := slotCauses_of_clear h
  simp only [slotCauses, hmem, memRow, List.append_eq_nil_iff, List.map_eq_nil_iff] at hcauses
  obtain ⟨⟨-, -, hload⟩, -⟩ := hcauses
  rwa [if_pos hop] at hload

/-- The clauses of CLEAR and STATLOAD. -/
theorem sideRecordsMove : SaysSideRecordsMove := by
  intro c a s base m
  refine ⟨fun h => ⟨_, rfl, fun n => ?_⟩, fun h => ⟨_, rfl, fun n => ?_⟩⟩
  · obtain ⟨-, -, hside⟩ := runSlot_arrays h (effSlot_clear s c a) rfl
    rw [hside, rowClear, slotView_rBase, slotView_rM]
    exact mapGet_putAll_upto (fun _ => 0) base m _
  · obtain ⟨-, -, hside⟩ := runSlot_arrays h (effSlot_statload s c a) rfl
    rw [hside, rowLoad, loadFaults_of_clear h, slotView_rBase, slotView_rM]
    exact mapGet_putAll_upto _ base m _

/-- Settles O18: a first pass whose dot products fit is the MMA's last, and CLEAR and STATLOAD write consecutive records. -/
theorem mmaAndSideRecords : Obligations.MmaAndSideRecords := ⟨integerMmaExact, sideRecordsMove⟩

end Sys2Proof.Machine
end

section
/-! What a recording writes: the entry of an effect, in the trace area of the context that the core then serves (09 R268). -/
namespace Sys2Proof.Machine

/-! ## Reading a store back -/

/-- Bytes set at consecutive addresses from b are read there. -/
theorem tier1_setBytes (x : Nat) (bs : List Byte) (a b : Nat) (s : State) (h : ∀ i < bs.length, s.regionAddr x (a + i) = b + i)
    {n : Nat} (hn : n < bs.length) : mapGet 0 (s.setBytes (.tier1 x) a bs).tier1 (b + n) = bs.getD n 0 := by
  induction bs generalizing a b s n with
  | nil => cases hn
  | cons y bs ih =>
    have hnext : ∀ i < bs.length, s.regionAddr x (a + 1 + i) = b + 1 + i := fun i hi => by
      rw [Nat.add_right_comm, Nat.add_assoc, h (i + 1) (Nat.succ_lt_succ hi)]; omega
    rw [State.setBytes]
    cases n with
    | zero =>
      have hw := storesWithin_setBytes (p := (b < ·)) x bs (a + 1) (s.setByte (.tier1 x) a y) fun i hi => by
        show b < s.regionAddr x (a + 1 + i)
        rw [hnext i hi]; omega
      have ha : s.regionAddr x a = b := h 0 (Nat.succ_pos _)
      refine (hw.tier1 b (Nat.lt_irrefl b)).trans ?_
      rw [State.setByte, ha]
      exact mapGet_mapSet_self ..
    | succ n =>
      have := ih (a + 1) (b + 1) (s.setByte (.tier1 x) a y) hnext (Nat.lt_of_succ_lt_succ hn)
      rwa [Nat.add_assoc, Nat.add_comm 1] at this

theorem tier1_store (s : State) (x a b origin : Nat) (bs : List Byte) (h : ∀ i < bs.length, s.regionAddr x (a + i) = b + i)
    {n : Nat} (hn : n < bs.length) : mapGet 0 (s.store (.tier1 x) a origin bs).tier1 (b + n) = bs.getD n 0 :=
  ((storesWithin_markGranules (p := fun _ => False) _ _ _ _ _ _).tier1 _ not_false).trans
    (tier1_setBytes x bs a b (s.backInvalidate _) h hn)

/-! ## An entry of the trace -/

section
variable {s : State} {x k : Nat}

/-- Room is left for n more bytes of trace, at an offset of the area (log entry 109). -/
structure State.TraceRoom (s : State) (x off n : Nat) : Prop where
  tracing : s.tracing x = true
  whole : (s.ctx x).traceTruncated = false
  off_eq : s.traceHead x + (s.ctx x).traceUsed = off
  fits : off + n ≤ s.rd (Reg.ctx x) Reg.CTX_TRACE_BYTES

theorem traceAppend_of_room {off : Nat} {bs : List Byte} (f : Ctx → Ctx) (h : s.TraceRoom x off bs.length) :
    s.traceAppend x bs f = (s.store (.tier1 x) (s.rd (Reg.ctx x) Reg.CTX_TRACE_BASE + off) 0 bs).setCtx x (f (s.ctx x)) := by
  obtain ⟨ht, hw, hoff, hfit⟩ := h
  unfold State.traceAppend State.traceStore
  simp only [ht, hw, hoff]
  rw [if_neg (by decide), if_neg (Nat.not_lt.mpr hfit), List.take_of_length_le (by omega)]

theorem length_entryBytes (e : TraceEntry) : (entryBytes e).length = 16 := rfl
theorem slot_of_entryBytes (e : TraceEntry) : (entryBytes e).getD 8 0 = BitVec.ofNat 8 (slotCode e.slot) := rfl

/-- Byte 8 of an entry is its slot's code. -/
theorem tier1_traceInst {off b : Nat} (e : TraceEntry) (h : s.TraceRoom x off 16)
    (hb : ∀ i < 16, s.regionAddr x (s.rd (Reg.ctx x) Reg.CTX_TRACE_BASE + off + i) = b + i) :
    mapGet 0 (s.traceInst x e).tier1 (b + 8) = BitVec.ofNat 8 (slotCode e.slot) := by
  rw [State.traceInst, traceAppend_of_room (bs := entryBytes e) _ h]
  exact (tier1_store s x _ b 0 (entryBytes e) hb (by rw [length_entryBytes]; decide)).trans (slot_of_entryBytes e)

/-- The entry of an effect goes to the context that the core serves in the state it left. -/
theorem traceEffect_of_tracing (c : CoreId) (i : InFlight) (e : Effect) (hp : s.place c.val = some (x, k)) (ht : s.tracing x = true)
    (hi : i.slot ≠ .S) (he : e.writesData = true) :
    s.traceEffect c i e = s.traceInst x ⟨Fin.ofNat 256 k, i.seq, i.slot, s.digest c.val e⟩ := by
  simp [State.traceEffect, hp, ht, hi, he]

/-- Bytes from outside the replay's state join the record before the entry. -/
theorem completeTraced_of_imports (c : CoreId) (i : InFlight) (e : Effect) (hp : s.place c.val = some (x, k))
    (ht : s.tracing x = true) (h0 : i.cursor = 0) (hb : (viewOf s c.val i).imports.isEmpty = false)
    (hd : (viewOf s c.val i).importsDrone x = false) :
    s.completeTraced c i e = ((s.complete c i e).importBytes x (some (Fin.ofNat 256 k)) i.seq i.slot 0
      (viewOf s c.val i).imports).traceEffect c i e := by
  unfold State.completeTraced
  rw [h0, rest_zero]
  simp [hp, ht, hb, hd]

end

end Sys2Proof.Machine
end

section
/-! A recorded unit row whose entry lands outside its own context's trace area: two contexts hold the core's bay, out of the
canonical order of O4. -/
namespace Sys2Proof.Machine

/-- A context on bay 0 that records its open step. -/
def recordingCtx : Ctx := { Ctx.start with
  bayMap := [0], replayArm := some 1, step := some ⟨0, 0, false, false, 0, [], [], none, false⟩ }

/-- Descriptor 0: a mask of one row of 64 columns, at offset 0 of the region. -/
def maskDesc : BitVec 256 := BitVec.ofNat 256 (2 ^ 48 + 2 ^ 96 + 64 * 2 ^ 128 + 8 * 2 ^ 152)

/-- Contexts 1 and 0, in this order, both hold bay 0. Context 1 has one group of DRAM and no trace area, context 0 a trace
area. -/
def crossedState : State :=
  ((({ State.reset with ctxs := [(1, recordingCtx), (0, recordingCtx)] }.wr (Reg.ctx 1) Reg.CTX_DRAM_GROUPS 1).wr
    (Reg.ctx 1) Reg.CTX_GROUP_BYTES 4096).wr (Reg.ctx 0) Reg.CTX_TRACE_BYTES 4096).setCore 0 { Core.start with
      regs := { RegFile.zero with td := [(0, maskDesc)] } }

/-- VMLOAD of p0 from row 0 of descriptor 0. -/
def crossedArgs : SlotArgs := ⟨0, false, 0⟩
def crossedView : View := crossedState.slotView 0 .V 0x23 crossedArgs
def crossedInst : InFlight := crossedState.slotInst 0 .V 0x23 crossedArgs

def crossedDrawn : State := crossedState.setLanes 0 (crossedView.lanesAfter (drawsSlot crossedView))

/-- The state once the mask has joined context 1's record: written back in order, context 1 now stands behind context 0. -/
def crossedImported : State :=
  (crossedDrawn.complete 0 crossedInst (effSlot crossedView)).importBytes 1 (some 0) crossedInst.seq .V 0
    (viewOf crossedDrawn 0 crossedInst).imports

theorem crossed_clear : crossedState.slotClear 0 .V 0x23 crossedArgs = true := by decide +kernel
theorem crossed_place : crossedState.place 0 = some (1, 0) ∧ crossedImported.place 0 = some (0, 0) := by decide +kernel

/-- No byte lies in the trace area of context 1, which core 0 serves: it is empty. -/
theorem crossed_not_traceByte (n : Nat) : ¬ crossedState.traceByte 0 n := by
  rintro ⟨x, k, o, hp, -, ho, -⟩
  obtain rfl : x = 1 := (congrArg Prod.fst (Option.some.inj (crossed_place.1.symm.trans hp))).symm
  exact Nat.not_lt_zero o (lt_of_lt_of_eq ho (by decide +kernel))

theorem crossed_room : crossedImported.TraceRoom 0 80 16 := by
  constructor <;> decide +kernel

theorem crossed_completeTraced :
    crossedDrawn.completeTraced 0 crossedInst (effSlot crossedView) =
      crossedImported.traceInst 0 ⟨0, crossedInst.seq, .V, crossedImported.digest 0 (effSlot crossedView)⟩ := by
  rw [completeTraced_of_imports (x := 1) (k := 0) 0 crossedInst _ (by decide +kernel) (by decide +kernel) rfl (by decide +kernel)
    (by decide +kernel)]
  exact traceEffect_of_tracing (k := 0) 0 crossedInst _ crossed_place.2 crossed_room.tracing (by decide) (by decide +kernel)

/-- The V slot's code stands in context 0's trace area. -/
theorem crossed_entry : mapGet 0 (crossedState.runSlot 0 .V 0x23 crossedArgs).tier1 88 = 2 := by
  have h := crossed_clear
  simp only [State.slotClear, Bool.and_eq_true, decide_eq_true_eq] at h
  obtain ⟨⟨hd, hon⟩, hc⟩ := h
  rw [runSlot_on _ _ _ _ _ hd hon hc, (sameData_instPoison ..).2.1]
  exact (congrArg (fun t : State => mapGet 0 t.tier1 88) crossed_completeTraced).trans
    (tier1_traceInst (b := 80) _ crossed_room (by decide +kernel))

/-- VMLOAD itself stores nothing. -/
theorem crossed_effect : mapGet 0 (crossedState.withEffect 0 crossedView (effVmload crossedView)).tier1 88 = 0 := by decide +kernel

/-- Refutes O16: a recorded row imports bytes before its entry is written, which puts its context back into the table in
order; where an earlier context holds the same bay, the entry then goes to that one's trace area. O16 does not ask for the
canonical form of the table (O4), in which a context keeps its place. -/
theorem not_unitRowsComplete : ¬ Obligations.UnitRowsComplete := by
  intro h
  obtain ⟨t, ht, -, -, -, -, htier1, -⟩ :=
    h 0 crossedArgs crossedState (.vmload, .V, 0x23, effVmload) (by simp [unitRows]) crossed_clear
  obtain rfl : crossedState.runSlot 0 .V 0x23 crossedArgs = t := Host.Outcome.next.inj ht
  have htwo : (2 : Byte) = 0 := (crossed_entry.symm.trans (htier1 88 (crossed_not_traceByte 88))).trans crossed_effect
  exact absurd htwo (by decide)

end Sys2Proof.Machine
end

section
/-! The arithmetic rows of the vector engine on the unmasked elements, and their INT32 view (04 R102, R103; 06 R186). -/
namespace Sys2Proof.Machine

/-- No opcode up to 0x1B is the row engine's, the gather engine's or the optimiser's. -/
theorem families_of_arith {op : Nat} (h : op ≤ 0x1B) : isRowOp op = false ∧ gathOp op = false ∧ optOp op = false := by
  simp only [isRowOp, gathOp, optOp, Bool.or_eq_false_iff, Bool.and_eq_false_iff, decide_eq_false_iff_not, beq_eq_false_iff_ne]
  omega

/-! ## The effect of an arithmetic row -/

/-- The element j that a list over the elements of a mask holds. -/
theorem find?_masked {α : Type} (p : Nat → Bool) (f : Nat → α) {n j : Nat} (hj : j < n) :
    (((upto n).filter p).map fun i => (i, f i)).find? (fun e => decide (e.1 = j)) = if p j then some (j, f j) else none := by
  have hmem : j ∈ (upto n).filter p ↔ p j = true := by simp [upto, hj]
  rw [List.find?_map]
  split
  · next hp =>
    have hfind : ((upto n).filter p).find? (fun i => decide (i = j)) = some j := by
      cases h : ((upto n).filter p).find? fun i => decide (i = j) with
      | none => simpa using List.find?_eq_none.mp h j (hmem.mpr hp)
      | some i => exact congrArg some (of_decide_eq_true (List.find?_some (p := fun i => decide (i = j)) h))
    exact congrArg (Option.map fun i => (i, f i)) hfind
  · next hp =>
    have hfind : ((upto n).filter p).find? (fun i => decide (i = j)) = none :=
      List.find?_eq_none.mpr fun i hi hij => hp (hmem.mp (of_decide_eq_true hij ▸ hi))
    exact congrArg (Option.map fun i => (i, f i)) hfind

/-- The register an arithmetic row writes: the unmasked elements its results, the others VD's. -/
def View.arithReg (v : View) : BitVec 2048 :=
  vpack v.viewW ((upto v.viewN).map fun j => if v.lmask j then (vecElem v j).bits else velem (v.vr (v.f 13 6)) v.viewW j)

theorem vecArith_v (v : View) : (vecArith v).v = [(v.f 13 6, v.arithReg)] := by
  simp only [vecArith, View.vput, View.arithReg, List.map_map, Function.comp_def, List.cons.injEq, Prod.mk.injEq, true_and, and_true]
  congr 1
  refine List.map_congr_left fun j hj => ?_
  rw [find?_masked v.lmask (fun i => (vecElem v i).bits) (List.mem_range.mp hj)]
  cases v.lmask j <;> rfl

/-- Beside the register, an arithmetic row leaves flags and a first NaN. -/
theorem vecArith_eq (v : View) :
    vecArith v = { v := [(v.f 13 6, v.arithReg)], flags := (vecArith v).flags, nan := (vecArith v).nan } := by
  rw [← vecArith_v]; rfl

section
variable (s : State) (c : CoreId) (op : Nat) (a : SlotArgs)

theorem slotView_vecC (j : Nat) : (s.slotView c .V op a).vecC j = vecSrc s c a 18 (elemWidth a) j := by
  rw [View.vecC, slotView_vr, slotView_viewW, slotView_f s c .V op a 18 6]; rfl

theorem velem_arithReg {j : Nat} (hj : j < 2048 / elemWidth a) :
    velem (s.slotView c .V op a).arithReg (elemWidth a) j =
      if vecMask s c a (elemWidth a) j then (vecElem (s.slotView c .V op a) j).bits % 2 ^ elemWidth a
      else vecSrc s c a 0 (elemWidth a) j := by
  rw [View.arithReg, slotView_viewW, slotView_viewN, velem_vpack_upto _ hj (Nat.mul_div_le _ _), slotView_lmask]
  split
  · rfl
  · rw [slotView_vr, slotView_f s c .V op a 0 6]
    exact Nat.mod_eq_of_lt (velem_lt ..)

/-! ## An arithmetic row as a slot row -/

variable {op} (h0 : 0 < op) (h7 : op ≠ 0x07) (hop : op ≤ 0x1B)
include h0 h7 hop

theorem effSlot_vecArith : effSlot (s.slotView c .V op a) = vecArith (s.slotView c .V op a) := by
  obtain ⟨hrow, hgath, hopt⟩ := families_of_arith hop
  simp [effSlot, effVec, slotView_op s c .V op a (by omega), slotView_legacyOnly, slotView_slot, rowOp, hrow, hgath, hopt, h0.ne', h7, hop]

end

theorem arith_reads (s : State) (c : CoreId) {op : Nat} (a : SlotArgs) (hop : op ≤ 0x1B) (v : View)
    (hv : v.i = s.slotInst c .V op a) : v.reads = [] := by
  have hvop : v.op = op := by rw [View.op, View.f, hv]; exact slotWord_op op a (by omega)
  have hslot : v.i.slot = .V := by rw [hv]; rfl
  obtain ⟨hrow, hgath, -⟩ := families_of_arith hop
  have hne : op ≠ 0xA0 ∧ op ≠ 0x60 ∧ op ≠ 0x20 ∧ op ≠ 0x23 := by omega
  simp [View.reads, hslot, hvop, hrow, hgath, hne]

/-! ## The INT32 view (R103) -/

section
variable {s : State} {c : CoreId} {op : Nat} {a : SlotArgs}

theorem vecElem_int (hv : fld a.operands 27 2 = 2) (hop : op < 256) (j : Nat) : vecElem (s.slotView c .V op a) j =
    { bits := (vecInt op (BitVec.ofNat 32 (vecSrc s c a 6 32 j)) (BitVec.ofNat 32 (vecSrcB s c a 32 j))
        (BitVec.ofNat 32 (vecSrc s c a 18 32 j))).toNat } := by
  have hw : elemWidth a = 32 := by simp [elemWidth, hv]
  simp [vecElem, slotView_viewCode, slotView_vecA, slotView_vecB, slotView_vecC, slotView_op s c .V op a hop, hv, hw]

/-- No element of the INT32 view raises a flag or produces a NaN. -/
theorem vecArith_int (hv : fld a.operands 27 2 = 2) (hop : op < 256) : vecArith (s.slotView c .V op a) =
    { v := [(fld a.operands 0 6, (s.slotView c .V op a).arithReg)] } := by
  have hflags : (vecArith (s.slotView c .V op a)).flags = 0 := by
    simp [vecArith, elemFlags, vecElem_int hv hop, List.foldl_map]
  have hnan : (vecArith (s.slotView c .V op a)).nan = none := by
    simp [vecArith, firstNan, vecElem_int hv hop]
  rw [vecArith_eq, hflags, hnan, slotView_f s c .V op a 0 6]

/-- The INT32 view rounds nothing, so it draws nothing (02 R67). -/
theorem lanesAfter_int (hv : fld a.operands 27 2 = 2) (hop : op ≤ 0x1B) :
    (s.slotView c .V op a).lanesAfter (drawsSlot (s.slotView c .V op a)) = (s.core c.val).regs.lanes := by
  have hvop : (s.slotView c .V op a).op = op := slotView_op s c .V op a (by omega)
  obtain ⟨hrow, hgath, hopt⟩ := families_of_arith hop
  have hne : op ≠ 0xA0 ∧ op ≠ 0xA8 ∧ op ≠ 0xA9 := by omega
  simp [View.lanesAfter, drawsSlot, drawsVec, vecRounds, slotView_viewCode, slotView_legacyOnly, slotView_slot, slotView_regs, hvop, rowOp,
    hrow, hgath, hopt, hop, hne, hv, reserveAll]

theorem runSlot_int (h0 : 0 < op) (h7 : op ≠ 0x07) (hop : op ≤ 0x1B) (hv : fld a.operands 27 2 = 2)
    (h : s.slotClear c .V op a = true) : (s.runSlot c .V op a).regs = s.regs ∧ SameDataTraced s c
      (s.withRegs c (fun r => r.setV (fld a.operands 0 6) (s.slotView c .V op a).arithReg)) (s.runSlot c .V op a) := by
  have heff : effSlot (s.slotView c .V op a) = { v := [(fld a.operands 0 6, (s.slotView c .V op a).arithReg)] } :=
    (effSlot_vecArith s c a h0 h7 hop).trans (vecArith_int hv (by omega))
  have he : (effSlot (s.slotView c .V op a)).CoreOnly := by rw [heff]; exact ⟨rfl, rfl, rfl, rfl⟩
  obtain ⟨hregs, hdata⟩ := runSlot_coreOnly s c .V op a h (arith_reads s c a hop) he
  rw [withEffect_coreOnly s c _ he, lanesAfter_int hv hop, heff, onCore_v] at hdata
  exact ⟨hregs, hdata⟩

end

/-- Each INT32 row issues its opcode, which is no comparison, and its operation is the model's of that opcode. -/
theorem vecIntRows_row : ∀ p ∈ vecIntRows, (0 < p.2.1 ∧ p.2.1 ≠ 0x07 ∧ p.2.1 ≤ 0x1B) ∧
    (∀ c a s, exec (p.1 c a) s = .next (s.runSlot c .V p.2.1 a)) ∧ ∀ x y z, vecInt p.2.1 x y z = p.2.2 x y z := by
  intro p hp
  fin_cases hp <;> exact ⟨by decide, fun _ _ _ => rfl, fun _ _ _ => rfl⟩

/-- Settles O13: the row's one effect is its register, packed from the unmasked results and VD's other elements. -/
theorem vectorInteger : Obligations.VectorInteger := by
  intro c a s hv p hp hclear
  obtain ⟨⟨h0, h7, hop⟩, hexec, hint⟩ := vecIntRows_row p hp
  have hw : elemWidth a = 32 := by simp [elemWidth, hv]
  obtain ⟨hregs, hdata⟩ := runSlot_int h0 h7 hop hv hclear
  refine ⟨(s.slotView c .V p.2.1 a).arithReg, fun j hj => ?_, _, hexec c a s, hdata, hregs⟩
  have helem := velem_arithReg s c p.2.1 a (j := j) (by rw [hw]; exact hj)
  rw [hw, vecElem_int hv (by omega), hint, Nat.mod_eq_of_lt (BitVec.isLt _)] at helem
  exact helem

end Sys2Proof.Machine
end

section
/-! A recorded floating row whose NaN halts its context: two contexts hold the core's bay, out of the canonical order of O4. -/
namespace Sys2Proof.Machine

/-- A whole instruction that reads no memory joins the record of the step with its effect alone. -/
theorem completeTraced_of_readless {s : State} {x k : Nat} (c : CoreId) (i : InFlight) (e : Effect) (hp : s.place c.val = some (x, k))
    (ht : s.tracing x = true) (h0 : i.cursor = 0) (hr : (viewOf s c.val i).reads = []) :
    s.completeTraced c i e = (s.complete c i e).traceEffect c i e := by
  have hi : (viewOf s c.val i).imports = [] := by rw [View.imports, hr]; rfl
  unfold State.completeTraced
  rw [h0, rest_zero]
  simp [hp, ht, hi]

/-- The crossed contexts, the first of them running. Element 0 of v0 of core 0 is +∞, and a NaN of core 0 traps. -/
def nanState : State := (crossedState.setCtxState 1 stRunning).setCore 0 { Core.start with
  regs := { RegFile.zero with v := [(0, 0x7F800000)] }
  trapControl := 2 }

/-- VSUB of v0 and v0 to v0 in binary32, to nearest even: ∞ − ∞ in element 0. -/
def nanView : View := nanState.slotView 0 .V 0x02 crossedArgs
def nanInst : InFlight := nanState.slotInst 0 .V 0x02 crossedArgs
def nanDrawn : State := nanState.setLanes 0 (nanView.lanesAfter (drawsSlot nanView))

/-- The state once the trap is taken: the halt has written context 1 back, in order behind context 0. -/
def nanTrapped : State := nanDrawn.complete 0 nanInst (effSlot nanView)

theorem nan_clear : nanState.slotClear 0 .V 0x02 crossedArgs = true := by decide +kernel
theorem nan_place : nanState.place 0 = some (1, 0) ∧ nanTrapped.place 0 = some (0, 0) := by decide +kernel
theorem nan_room : nanTrapped.TraceRoom 0 80 16 := by constructor <;> decide +kernel

/-- No byte lies in the trace area of context 1, which core 0 serves: it is empty. -/
theorem nan_not_traceByte (n : Nat) : ¬ nanState.traceByte 0 n := by
  rintro ⟨x, k, o, hp, -, ho, -⟩
  obtain rfl : x = 1 := (congrArg Prod.fst (Option.some.inj (nan_place.1.symm.trans hp))).symm
  exact Nat.not_lt_zero o (lt_of_lt_of_eq ho (by decide +kernel))

theorem nan_completeTraced : nanDrawn.completeTraced 0 nanInst (effSlot nanView) =
    nanTrapped.traceInst 0 ⟨0, nanInst.seq, .V, nanTrapped.digest 0 (effSlot nanView)⟩ := by
  rw [completeTraced_of_readless (x := 1) (k := 0) 0 nanInst _ (by decide +kernel) (by decide +kernel) rfl (by decide +kernel)]
  exact traceEffect_of_tracing (k := 0) 0 nanInst _ nan_place.2 nan_room.tracing (by decide) (by decide +kernel)

/-- The V slot's code stands in context 0's trace area. -/
theorem nan_entry : mapGet 0 (nanState.runSlot 0 .V 0x02 crossedArgs).tier1 88 = 2 := by
  have h := nan_clear
  simp only [State.slotClear, Bool.and_eq_true, decide_eq_true_eq] at h
  obtain ⟨⟨hd, hon⟩, hc⟩ := h
  rw [runSlot_on _ _ _ _ _ hd hon hc, (sameData_instPoison ..).2.1]
  exact (congrArg (fun t : State => mapGet 0 t.tier1 88) nan_completeTraced).trans
    (tier1_traceInst (b := 80) _ nan_room (by decide +kernel))

/-- Refutes O14: a NaN that traps halts its context, which puts the context back into the table in order before the entry
of the recorded row is written; where an earlier context holds the same bay, the entry goes to that one's trace area. O14
does not ask for the canonical form of the table (O4), in which a context keeps its place. -/
theorem not_vectorFloat : ¬ Obligations.VectorFloat := by
  intro h
  obtain ⟨hround, -⟩ := h 0 crossedArgs nanState .rne (by decide +kernel)
  obtain ⟨t, ht, v, -, -, -, -, -, htier1, -⟩ := hround (by decide)
    (.vsub, 0x02, true, fun f m d x y _ => finish f m d (numAdd m x y.flip)) (by simp [vecFloatRows]) nan_clear
  obtain rfl : nanState.runSlot 0 .V 0x02 crossedArgs = t := Host.Outcome.next.inj ht
  have htwo : (2 : Byte) = 0 := nan_entry.symm.trans (htier1 88 (nan_not_traceByte 88))
  exact absurd htwo (by decide)

end Sys2Proof.Machine
end

section
/-! The frame of a slot row: the crossed contexts of O16 again, since VMLOAD stores nothing of its own (09 R268). -/
namespace Sys2Proof.Machine

theorem crossed_storeless : (effSlot crossedView).mem = [] := by decide +kernel

/-- Refutes O17: the entry of the recorded VMLOAD goes to the trace area of another context that holds the same bay, a byte
that neither the effect's stores nor the row's own trace area name. O17 does not ask for the canonical form of the table of
contexts (O4), in which a context keeps its place. -/
theorem not_slotRowFrame : ¬ Obligations.SlotRowFrame := by
  intro h
  obtain ⟨t, ht, -, -, -, -, -, -, -, -, -, htier1, -⟩ :=
    h 0 crossedArgs crossedState (.vmload, .V, 0x23) (by simp [slotRows]) crossed_clear
  obtain rfl : crossedState.runSlot 0 .V 0x23 crossedArgs = t := Host.Outcome.next.inj ht
  have hstore : ¬ storesTier1 crossedState (effSlot crossedView).mem 88 := by
    rw [crossed_storeless]
    rintro ⟨w, hw, -⟩
    cases hw
  have htwo : (2 : Byte) = 0 := crossed_entry.symm.trans (htier1 88 hstore (crossed_not_traceByte 88))
  exact absurd htwo (by decide)

end Sys2Proof.Machine
end

section
/-! A reserved operand bit on a core whose context's number is wider than its field of the trap record (05 Table 05-12). -/
namespace Sys2Proof.Machine

/-- The context that holds bay 0 has a number far beyond the 4,096 contexts of 14 R382. -/
def farState : State := { State.reset with ctxs := [(2 ^ 336, { Ctx.start with bayMap := [0] })] }

/-- HALT assigns no operand bit; bit 0 is set. -/
def reservedArgs : SlotArgs := ⟨0, false, 1⟩

/-- The number stands at bit 48 of the record and carries into DETAIL, which begins at bit 384 = 48 + 336: the opcode 0x7F
reads one higher. -/
theorem far_detail : fld ((farState.runSlot 0 .S 0x7F reservedArgs).core 0).trapRec 384 64 = 0x80 := by decide +kernel

/-- Refutes O7: the clause of the reserved bits fails where a context's number does not fit its 12 bits of the record. O7
does not ask that contexts are numbered 0 to 4,095 (14 R382). -/
theorem not_slotsOffOrReserved : ¬ Obligations.SlotsOffOrReserved := by
  rintro ⟨-, h⟩
  obtain ⟨t, ht, -, -, -, -, hdetail⟩ :=
    h 0 reservedArgs farState (.halt, .S, 0x7F) (by simp [slotRows]) [] (by decide +kernel) (by decide +kernel)
  obtain rfl : farState.runSlot 0 .S 0x7F reservedArgs = t := Host.Outcome.next.inj ht
  exact absurd (far_detail.symm.trans hdetail) (by decide)

end Sys2Proof.Machine
end

section
/-! What a trap and a halt leave of the cores: each keeps all but its trap, and one that runs drains (05 R156 to R158). -/
namespace Sys2Proof.Machine

/-! ## Halting a context -/

theorem ite_cores {s a b : State} {p : Prop} [Decidable p] (ha : a.cores = s.cores) (hb : b.cores = s.cores) :
    (if p then a else b).cores = s.cores := by split <;> assumption
theorem sendMsix_cores (s : State) (f : CxlId) (v : Nat) : (s.sendMsix f v).cores = s.cores := by
  unfold State.sendMsix
  exact ite_cores rfl rfl
theorem event_cores (s : State) (f : Field) : (s.event f).cores = s.cores := by
  unfold State.event
  exact ite_cores rfl (sendMsix_cores ..)
theorem settleRing_cores (s : State) (r : Nat) : (s.settleRing r).cores = s.cores := by
  unfold State.settleRing
  exact ite_cores rfl rfl
theorem post_cores (s : State) (t : Ticket) (fin : Bool) (a b d : Nat) : (s.post t fin a b d).cores = s.cores := by
  unfold State.post
  exact (settleRing_cores ..).trans (ite_cores rfl rfl)
theorem foldl_cores {α : Type} {f : State → α → State} (hf : ∀ s a, (f s a).cores = s.cores) (l : List α) (s : State) :
    (l.foldl f s).cores = s.cores := by
  induction l generalizing s with
  | nil => rfl
  | cons a l ih => exact (ih (f s a)).trans (hf s a)
theorem finishLoads_cores (s : State) (x code : Nat) : (s.finishLoads x code).1.cores = s.cores := by
  unfold State.finishLoads
  exact foldl_cores (fun _ _ => post_cores ..) _ _
theorem finishTickets_cores (s : State) (x op code : Nat) : (s.finishTickets x op code).cores = s.cores := by
  unfold State.finishTickets
  exact foldl_cores (fun _ _ => post_cores ..) _ _
theorem enterStopped_cores (s : State) (x code : Nat) : (s.enterStopped x code).cores = s.cores := by
  unfold State.enterStopped
  extract_lets k cd st torn s1 s2
  have h4 : ((s2.finishLoads x cd).1.finishTickets x 4 0).cores = s.cores :=
    (finishTickets_cores ..).trans (finishLoads_cores ..)
  exact ite_cores h4 ((event_cores ..).trans h4)

section
variable {s : State} {d : Nat}

/-- Draining concerns the cores that run. -/
theorem drainCores_core_of_not_running (l : List (Nat × Nat)) (h : (s.core d).run ≠ .running) :
    (s.drainCores l).core d = s.core d := by
  induction l generalizing s with
  | nil => rfl
  | cons a l ih =>
    have ha : (s.drainCore a.2).core d = s.core d := by
      unfold State.drainCore
      extract_lets k
      split
      · next hr => exact State.core_setCore_ne _ _ fun e => h (e ▸ hr)
      · rfl
    exact (ih (ha ▸ h)).trans ha

/-- A core that does not run stays as it is when a context halts. -/
theorem haltCtx_core_of_not_running (x code : Nat) (h : (s.core d).run ≠ .running) : (s.haltCtx x code).core d = s.core d := by
  unfold State.haltCtx
  extract_lets st torn k0 step' state s0 s1 s2 k
  have h2 : s2.cores = s.cores := ite_cores rfl rfl
  have hc {t : State} (ht : t.cores = s.cores) : t.core d = s.core d := by simp only [State.core, ht]
  split
  · rfl
  · split
    · exact (drainCores_core_of_not_running _ (by rw [hc]; exacts [h, h2])).trans (hc h2)
    · split
      · exact hc ((enterStopped_cores ..).trans h2)
      · split
        · exact hc ((event_cores ..).trans h2)
        · split <;> exact hc h2

/-- A core that takes a trap has its record and stops; the traps that were still to fall due go with it. -/
theorem takeTrap_core (s : State) (c : Nat) (r : BitVec 2048) :
    (s.takeTrap c r).core c = { s.core c with trapRec := r, run := .trapped, deferred := [] } := by
  unfold State.takeTrap
  extract_lets k s1
  have h1 : s1.core c = { s.core c with trapRec := r, run := .trapped, deferred := [] } := State.core_setCore ..
  split
  · exact h1
  · rw [haltCtx_core_of_not_running _ _ (by rw [h1]; simp), h1]

/-! ## Poison -/

theorem dataFault_core_of_not_running (x code : Nat) (f : FaultInfo) (h : (s.core d).run ≠ .running) :
    (s.dataFault x code f).core d = s.core d := by
  unfold State.dataFault State.logFault
  extract_lets head step r
  refine (haltCtx_core_of_not_running _ _ ?_).trans ?_ <;> simp only [State.core, event_cores]
  · exact h
  · rfl
theorem instPoison_core_of_not_running (m : State) (v : View) (e : Effect) (h : (s.core d).run ≠ .running) :
    (m.instPoison v e s).core d = s.core d := by
  have hafter (x : Nat) (r w : List (Nat × Nat)) : (m.afterPoison x r w s).core d = s.core d := by
    unfold State.afterPoison
    split
    · exact dataFault_core_of_not_running _ _ _ h
    · rfl
  have hhost {t : State} (ht : t.core d = s.core d) : (m.hostPoison v t).core d = s.core d := by
    unfold State.hostPoison
    split
    · split
      · exact (dataFault_core_of_not_running _ _ _ (by exact ht ▸ h)).trans ht
      · exact ht
    · exact ht
  unfold State.instPoison
  split
  · exact hhost (hafter ..)
  · rfl
end

end Sys2Proof.Machine
end

section
/-! Drains, halts and traps that fall due (05 R155, R156, R161; 06 R183; 03 R101). -/
namespace Sys2Proof.Machine

/-! ## Stores and a core's scratchpad -/

/-- A store changes nothing of a core but its scratchpad. -/
theorem store_core (s : State) (l : Loc) (a origin : Nat) (bs : List Byte) (d : Nat) :
    ∃ m, (s.store l a origin bs).core d = { s.core d with scratch := m } := by
  have hbytes (l : Loc) (bs : List Byte) (a : Nat) (s : State) :
      ∃ m, (s.setBytes l a bs).core d = { s.core d with scratch := m } := by
    induction bs generalizing a s with
    | nil => exact ⟨_, rfl⟩
    | cons b bs ih =>
      obtain ⟨m, hm⟩ := ih (a + 1) (s.setByte l a b)
      refine ⟨m, hm.trans ?_⟩
      cases l with
      | scratch c =>
        by_cases hd : d = c
        · subst hd
          rw [State.setByte, State.core_setCore]
        · rw [State.setByte, State.core_setCore_ne _ _ hd]
      | tier1 | host | teacher | absent => rfl
  cases l with
  | tier1 x =>
    obtain ⟨m, hm⟩ := hbytes (.tier1 x) bs a (s.backInvalidate (s.meetsRegion x a bs.length hostLine))
    exact ⟨m, ((storesWithin_markGranules (p := fun _ => False) ..).core d).trans hm⟩
  | scratch | host | teacher | absent => exact hbytes ..
theorem storeAll_core (s : State) (origin : Nat) (ws : List MemWrite) (d : Nat) :
    ∃ m, (storeAll s origin ws).core d = { s.core d with scratch := m } := by
  induction ws generalizing s with
  | nil => exact ⟨_, rfl⟩
  | cons w ws ih =>
    obtain ⟨m, hm⟩ := ih (s.store w.loc w.addr origin w.bytes)
    obtain ⟨n, hn⟩ := store_core s w.loc w.addr origin w.bytes d
    exact ⟨m, by rw [storeAll, hm, hn]⟩

/-! ## Moves that stop -/

theorem mem_byId {i j : InFlight} (l : List InFlight) : j ∈ byId i l ↔ j = i ∨ j ∈ l := by
  induction l with
  | nil => simp [byId]
  | cons k l ih =>
    unfold byId
    split
    · exact List.mem_cons
    · rw [List.mem_cons, ih, List.mem_cons]
      tauto

/-- What stopping moves leaves of a core that does not issue: they stand among the withdrawn instructions instead of those in
flight, and their bytes may lie in its scratchpad. -/
structure Stopped (l : List InFlight) (k k' : Core) : Prop where
  core : ∃ m, k' = { k with
    scratch := m, flight := k.flight.filter (fun j => !(l.any fun i => i.id = j.id)), withdrawn := k'.withdrawn }
  kept : ∀ j ∈ k.withdrawn, j ∈ k'.withdrawn
  moved : ∀ i ∈ l, ∃ j ∈ k'.withdrawn, j.id = i.id

theorem Stopped.mem_flight_iff {l : List InFlight} {k k' : Core} (h : Stopped l k k') {i : InFlight} (hi : i ∈ k.flight) :
    i ∈ k'.flight ↔ ∀ j ∈ l, j.id ≠ i.id := by
  obtain ⟨m, hm⟩ := h.core
  rw [hm]
  simp [hi]

section
variable {s : State} {c : Nat}

theorem stopMove_stopped (i : InFlight) (h : (s.core c).run ≠ .running) : Stopped [i] (s.core c) ((s.stopMove c i).core c) := by
  unfold State.stopMove
  extract_lets v e left cur ws s1 k
  obtain ⟨m, hm⟩ : ∃ m, k = { s.core c with scratch := m } := storeAll_core _ _ _ c
  rw [instPoison_core_of_not_running _ _ _ (by simpa [hm] using h), State.core_setCore]
  refine ⟨⟨m, ?_⟩, fun j hj => ?_, fun j hj => ?_⟩
  · simp [hm, eq_comm]
  · exact (mem_byId _).mpr (.inr (by simpa [hm] using hj))
  · obtain rfl := List.mem_singleton.mp hj
    exact ⟨_, (mem_byId _).mpr (.inl rfl), rfl⟩

theorem stopMoves_stopped (l : List InFlight) (h : (s.core c).run ≠ .running) :
    Stopped l (s.core c) ((s.stopMoves c l).core c) := by
  induction l generalizing s with
  | nil => exact ⟨⟨(s.core c).scratch, by simp [State.stopMoves]⟩, fun j hj => hj, by simp⟩
  | cons i l ih =>
    obtain ⟨⟨m, hm⟩, hk, hi⟩ := stopMove_stopped i h
    have hr : ((s.stopMove c i).core c).run ≠ .running := by rw [hm]; exact h
    obtain ⟨⟨n, hn⟩, gk, gi⟩ := ih hr
    refine ⟨⟨n, hn.trans ?_⟩, fun j hj => gk j (hk j hj), fun j hj => ?_⟩
    · rw [hm]
      simp [List.filter_filter, eq_comm, State.stopMoves, Bool.and_comm]
    · rcases List.mem_cons.mp hj with rfl | hj
      · obtain ⟨j', hj', e⟩ := hi j (List.mem_singleton.mpr rfl)
        exact ⟨j', gk j' hj', e⟩
      · exact gi j hj
end

/-! ## A drain request -/

theorem leaveQueues_cores (x c : Nat) (l : List InFlight) (s : State) :
    (s.leaveQueues x c l).cores = s.cores ∧ (s.leaveQueues x c l).tier1 = s.tier1 := by
  induction l generalizing s with
  | nil => exact ⟨rfl, rfl⟩
  | cons i l ih =>
    unfold State.leaveQueues
    extract_lets q k out s1
    have h1 : s1.cores = s.cores ∧ s1.tier1 = s.tier1 := by
      simp only [s1]
      split <;> exact ⟨rfl, rfl⟩
    exact ⟨(ih s1).1.trans h1.1, (ih s1).2.trans h1.2⟩

/-- Nothing is held where no trap is to fall due. -/
theorem settleHeld_of_not_deferred {s : State} {c : Nat} (h : (s.core c).deferred = []) : s.settleHeld c = s := by
  simp [State.settleHeld, h]

/-- The moves in flight that a drain stops at once: those that do not read tier 3. -/
def State.stoppedMoves (s : State) (c : Nat) : List InFlight := (s.core c).flight.filter (fun i => isMove i && !readsTier3 s c i)
/-- What a drain withdraws of a core's instructions in flight, but for the moves it stops. -/
def State.withdraws (s : State) (c : Nat) : List InFlight :=
  behind s c (s.core c).flight (behind s c (s.core c).flight
    ((s.core c).flight.filter (fun i => isWaiting (s.core c).flight i || isAbandoned s c i)))

/-- The state with another run state of core c: running, draining, drained, halted. -/
def State.setRun (s : State) (c : Nat) (r : RunState) : State := s.setCore c { s.core c with run := r }

section
variable {s : State} {c : Nat}

/-- A core that drains gives up its waits and what it withdraws, once its moves have stopped; nothing else changes on any
core, nor in tier 1. -/
theorem drainSlots_cores {s0 : State} (hs : s0.stopMoves c (s0.stoppedMoves c) = s) (hd : (s.core c).deferred = []) :
    (∃ wd ct, (s0.drainSlots c).core c = { s.core c with
      flight := (s.core c).flight.filter (fun i => !(s.withdraws c).contains i), withdrawn := wd, pegWait := none, fence := none,
      counters := ct }) ∧
    (∀ d, d ≠ c → (s0.drainSlots c).core d = s.core d) ∧ (s0.drainSlots c).tier1 = s.tier1 := by
  unfold State.drainSlots
  extract_lets s' k first gone ab waits s1 kept
  obtain rfl : s' = s := hs
  have h1 : s1.cores = s'.cores ∧ s1.tier1 = s'.tier1 := by
    simp only [s1]
    split
    · exact leaveQueues_cores ..
    · exact ⟨rfl, rfl⟩
  rw [settleHeld_of_not_deferred (by rw [State.core_setCore]; exact hd)]
  refine ⟨⟨_, _, State.core_setCore ..⟩, fun d h => ?_, h1.2⟩
  rw [State.core_setCore_ne _ _ h]
  simp only [State.core, h1.1]

/-- Nothing waits and nothing is abandoned: nothing is withdrawn. -/
theorem withdraws_nil (h : ∀ i ∈ (s.core c).flight, isWaiting (s.core c).flight i = false ∧ isAbandoned s c i = false) :
    s.withdraws c = [] := by
  have hfirst : (s.core c).flight.filter (fun i => isWaiting (s.core c).flight i || isAbandoned s c i) = [] := by
    refine List.filter_eq_nil_iff.mpr fun i hi => ?_
    simp [h i hi]
  have hbehind : behind s c (s.core c).flight [] = [] := by simp [behind, storesAfter]
  rw [State.withdraws, hfirst, hbehind, hbehind]
theorem stoppedMoves_nil (h : ∀ i ∈ (s.core c).flight, isMove i = false) : s.stoppedMoves c = [] := by
  refine List.filter_eq_nil_iff.mpr fun i hi => ?_
  simp [h i hi]

theorem isIntMma_congr {v w : View} (h : v.i = w.i) : isIntMma v = isIntMma w := by
  unfold isIntMma View.op View.tx View.ty View.desc View.f
  rw [h]
theorem isAbandoned_congr (t : State) (i : InFlight) : isAbandoned t c i = isAbandoned s c i := by
  simp only [isAbandoned, isIntMma_congr ((viewOf_i t c i).trans (viewOf_i s c i).symm)]

theorem setRun_core (r : RunState) : (s.setRun c r).core c = { s.core c with run := r } := State.core_setCore ..
theorem setRun_core_ne (r : RunState) {d : Nat} (h : d ≠ c) : (s.setRun c r).core d = s.core d := State.core_setCore_ne _ _ h

section
variable {t : State} (ht : (s.setRun c .draining).drainSlots c = t) (hd : (s.core c).deferred = [])
include ht hd

/-- What a drain request leaves of its core. -/
theorem drainSlots_draining_core : ∃ m fl wd ct, t.core c = { s.core c with
    run := .draining, scratch := m, flight := fl, withdrawn := wd, pegWait := none, fence := none, counters := ct } := by
  obtain ⟨⟨m, hm⟩, -, -⟩ := stopMoves_stopped (s := s.setRun c .draining) ((s.setRun c .draining).stoppedMoves c)
    (by rw [setRun_core]; simp)
  obtain ⟨⟨wd, ct, hc⟩, -⟩ := drainSlots_cores (s0 := s.setRun c .draining) rfl (by rw [hm, setRun_core]; exact hd)
  exact ⟨_, _, _, _, by rw [← ht, hc, hm, setRun_core]⟩

/-- Where nothing moves, a drain request stores nothing. -/
theorem drainSlots_draining_unmoving (hm : ∀ i ∈ (s.core c).flight, isMove i = false) :
    (t.core c).scratch = (s.core c).scratch ∧ t.tier1 = s.tier1 ∧
    (t.core c).flight = (s.core c).flight.filter (fun i => !((s.setRun c .draining).withdraws c).contains i) ∧
    ∀ d, d ≠ c → t.core d = s.core d := by
  have hs : (s.setRun c .draining).stopMoves c ((s.setRun c .draining).stoppedMoves c) = s.setRun c .draining := by
    rw [stoppedMoves_nil (by rw [setRun_core]; exact hm)]
    rfl
  obtain ⟨⟨wd, ct, hc⟩, ho, h1⟩ := drainSlots_cores hs (by rw [setRun_core]; exact hd)
  rw [ht] at hc ho h1
  exact ⟨by rw [hc, setRun_core], h1, by rw [hc, setRun_core], fun d h => (ho d h).trans (setRun_core_ne _ h)⟩

/-- Where nothing moves, waits or is abandoned either, all stays in flight. -/
theorem drainSlots_draining_flight
    (h : ∀ i ∈ (s.core c).flight, isMove i = false ∧ isWaiting (s.core c).flight i = false ∧ isAbandoned s c i = false) :
    (t.core c).flight = (s.core c).flight := by
  obtain ⟨-, -, hc, -⟩ := drainSlots_draining_unmoving ht hd fun i hi => (h i hi).1
  have hn : (s.setRun c .draining).withdraws c = [] := by
    refine withdraws_nil ?_
    rw [setRun_core]
    exact fun i hi => ⟨(h i hi).2.1, (isAbandoned_congr ..).trans (h i hi).2.2⟩
  rw [hc, hn]
  simp
end
end

/-! ## The rows -/

theorem drainRequest_runs (c : CoreId) (s : State) (hr : (s.core c.val).run = .running) :
    exec (.drainRequest c) s = .next ((s.setRun c.val .draining).drainSlots c.val) := by
  show Host.Outcome.next (s.drainRequest c) = _
  unfold State.drainRequest
  simp only [hr, if_true]
  rfl

theorem coreDrained_runs (c : CoreId) (s : State) (hr : (s.core c.val).run = .draining) (hd : (s.core c.val).deferred = [])
    (hq : s.quiet c.val = true) (hm : s.migrating = []) :
    exec (.coreDrained c) s = .next (s.setRun c.val .drained) := by
  show Host.Outcome.next (s.coreDrained c).goOn = _
  have h : s.coreDrained c = s.setRun c.val .drained := by simp [State.coreDrained, State.setRun, hr, hd, hq]
  have hn : (s.setRun c.val .drained).migrating = [] := hm
  simp [h, State.goOn, hn, State.tryMigrations, State.sequenced, State.movingEntries, dedup, State.bumpEntries]

/-- A core past HALT with nothing of its own outstanding halts, and its program ends if it was the last. -/
theorem coreHalted_runs (c : CoreId) (s : State) {x b : Nat} (hp : s.place c.val = some (x, b)) (hx : s.ctxState x = stRunning)
    (hh : (s.core c.val).halt = true) (hr : (s.core c.val).run = .running ∨ (s.core c.val).run = .drained)
    (hw : (s.core c.val).withdrawn = []) (hd : (s.core c.val).deferred = []) (hq : s.quiet c.val = true) :
    exec (.coreHalted c) s = .next (((s.ctx x).programOn (b / 4)).elim (s.setRun c.val .halted)
      ((s.setRun c.val .halted).programEnd x)) := by
  show Host.Outcome.next (s.coreHalted c) = _
  unfold State.coreHalted
  extract_lets k s1
  have h1 : (s1.ctx x).programOn (b / 4) = (s.ctx x).programOn (b / 4) := rfl
  simp only [hp, h1]
  rw [if_pos (by simp [k, hh, hr, hw, hd, hq, hx])]
  cases (s.ctx x).programOn (b / 4) <;> rfl
/-- A program with a core that has begun and not halted goes on. -/
theorem programEnd_of_running {s : State} {x d : Nat} {p : Program} (hd : d ∈ s.programCores x p)
    (hh : (s.core d).run ≠ .halted) (hi : (s.core d).run ≠ .idle) : s.programEnd x p = s := by
  unfold State.programEnd
  refine if_neg fun h => ?_
  have := List.all_eq_true.mp h d hd
  simp [hh, hi] at this

theorem tier3ReadAbandon_runs (c : CoreId) (s : State)
    (hr : (s.core c.val).run = .draining ∨ (s.core c.val).run = .trapped) :
    exec (.tier3ReadAbandon c) s = .next (s.stopMoves c.val ((s.core c.val).flight.filter (readsTier3 s c.val))) := by
  show Host.Outcome.next (s.abandonReads c) = _
  rw [State.abandonReads, if_pos hr]

theorem deferredTrapPost_runs (c : CoreId) (s : State) {d : Deferred} (hd : firstDue (s.core c.val).deferred = some d)
    (hr : (s.core c.val).run ≠ .trapped) (hh : (s.core c.val).flight.any holdsIssue = false) :
    exec (.deferredTrapPost c) s = .next (s.takeTrap c.val d.record) := by
  show Host.Outcome.next (s.postDeferred c.val) = _
  simp [State.postDeferred, hr, hh, hd]

/-- Settles O26: a drain stops moves, which touch only scratchpads, and withdraws what has not begun; a core that does not
run is not touched by a halt of its context. -/
theorem coresDrainAndHalt : Obligations.CoresDrainAndHalt := by
  intro c s k
  refine ⟨fun hr hd => ⟨_, drainRequest_runs c s hr, ?_⟩, coreDrained_runs c s, fun x b hp hx hn hh hr hw hd hq => ?_,
    fun x b p hp hx hn hh hr hw hd hq hrest => ?_, fun hr => ⟨_, tier3ReadAbandon_runs c s hr, fun i hi => ?_⟩,
    fun d hd hr hh => ⟨_, deferredTrapPost_runs c s hd hr hh, ?_⟩, fun x l v hl hm hv => ?_⟩
  case refine_1 =>
    obtain ⟨m, fl, wd, ct, hc⟩ := drainSlots_draining_core rfl hd
    refine ⟨?_, ?_, ?_, ?_, ?_, ?_, fun hm => ?_, drainSlots_draining_flight rfl hd⟩
    iterate 6 rw [hc]
    obtain ⟨hs, ht, -, ho⟩ := drainSlots_draining_unmoving rfl hd hm
    exact ⟨hs, ht, ho⟩
  case refine_2 =>
    rw [coreHalted_runs c s hp hx hh hr hw hd hq, hn]
    rfl
  case refine_3 =>
    obtain ⟨d, hmem, hne, hhalted, hidle⟩ := hrest
    have hsame : (s.setRun c.val .halted).core d = s.core d := setRun_core_ne _ hne
    rw [coreHalted_runs c s hp hx hh hr hw hd hq, hn, Option.elim_some,
      programEnd_of_running (s := s.setRun c.val .halted) hmem (hsame ▸ hhalted) (hsame ▸ hidle)]
    rfl
  case refine_4 =>
    have hrun : k.run ≠ .running := by rcases hr with hr | hr <;> simp [hr]
    have hs := stopMoves_stopped (k.flight.filter (readsTier3 s c.val)) hrun
    have hmem {j : InFlight} (hj : j ∈ k.flight) (ht : readsTier3 s c.val j = true) := List.mem_filter.mpr ⟨hj, ht⟩
    refine ⟨fun ht => ⟨hs.moved i (hmem hi ht), fun h => ?_⟩, fun hne => (hs.mem_flight_iff hi).mpr fun j hj => ?_⟩
    · exact (hs.mem_flight_iff hi).mp h i (hmem hi ht) rfl
    · obtain ⟨hj, ht⟩ := List.mem_filter.mp hj
      exact hne j hj ht
  case refine_5 =>
    have hc := takeTrap_core s c.val d.record
    exact ⟨by rw [hc], by rw [hc], by rw [hc], sameData_takeTrap ..⟩
  case refine_6 =>
    show Host.Outcome.next (if v.getLsbD 0 && s.memActive then s.counterClear x.val l.val else s) = _
    simp [hv, hm, State.counterClear, hl, k]

end Sys2Proof.Machine
end

section
/-! The issue of bundles and legacy words, and where it traps (05 R143, R146, R154; 06 R163; 07 R209, R210). -/
namespace Sys2Proof.Machine

/-! ## What sequences a core -/

/-- The opcodes of BRA, BRR and CALL. -/
def InFlight.branches (i : InFlight) : Bool := i.slot = .S && decide (0x40 ≤ fld i.word 5 8) && decide (fld i.word 5 8 ≤ 0x42)

/-- The effect steers issue elsewhere. -/
def Effect.Branches (e : Effect) : Prop := ∃ t, e.ctl = .branch t

theorem effFloat_ctl (v : View) : (effFloat v).ctl = .none := by
  unfold effFloat
  extract_lets f a b fin
  split
  iterate 6 rfl
  split <;> rfl
theorem effMma_ctl (v : View) : (effMma v).ctl = .none := by
  unfold effMma
  split
  · rfl
  · split
    · split <;> rfl
    · rfl
theorem effWriteOut_ctl (v : View) : (effWriteOut v).ctl = .none := by
  unfold effWriteOut
  extract_lets
  split <;> rfl
theorem effVec_ctl (v : View) : (effVec v).ctl = .none := by
  unfold effVec
  split_ifs <;> rfl
theorem effRow_ctl (v : View) : (effRow v).ctl = .none := by
  unfold effRow
  split <;> rfl
theorem effGather_ctl (v : View) : (effGather v).ctl = .none := by
  unfold effGather effScat
  extract_lets
  split_ifs <;> rfl
theorem effOpt_ctl (v : View) : (effOpt v).ctl = .none := by
  unfold effOpt
  split_ifs <;> rfl

theorem statusWrite_ctl (v : View) (id : Nat) (w : Word) : (statusWrite v id w).ctl = .none := by
  unfold statusWrite
  split_ifs <;> rfl
theorem effWw_ctl (v : View) (t : Word) : (effWw v).ctl ≠ .branch t := by
  unfold effWw
  split_ifs <;> simp

theorem branches_ite {p : Prop} [Decidable p] {a b : Effect} :
    (if p then a else b).Branches ↔ (p ∧ a.Branches) ∨ (¬ p ∧ b.Branches) := by
  split <;> simp [*]

/-- Of the S slot only BRA, BRR and CALL branch. -/
theorem effScalar_branches {v : View} : (effScalar v).Branches ↔ 0x40 ≤ v.op ∧ v.op ≤ 0x42 := by
  simp only [effScalar, branches_ite]
  simp only [Effect.Branches, effFloat_ctl, statusWrite_ctl, reduceCtorEq, exists_false, and_false, false_or, or_false]
  simp only [Ctl.branch.injEq, exists_eq', and_true]
  omega
theorem not_branches_of_ctl {e : Effect} (h : e.ctl = .none) : ¬ e.Branches := by simp [Effect.Branches, h]

/-- An instruction of a bundle branches if it is one of those three. -/
theorem effSlot_branches {v : View} (hl : v.i.legacy = none) : (effSlot v).Branches ↔ v.i.branches = true := by
  have hlo : v.legacyOnly = false := by simp [View.legacyOnly, hl]
  have hop : v.op = fld v.i.word 5 8 := rfl
  have hnone : ¬ ({} : Effect).Branches := not_branches_of_ctl rfl
  have hww : ¬ (effWw v).Branches := fun ⟨t, ht⟩ => effWw_ctl v t ht
  unfold effSlot InFlight.branches
  rw [hlo, ← hop]
  cases v.i.slot
  case S =>
    simp only [branches_ite, effScalar_branches, hnone]
    simp
    omega
  case M =>
    simp only [branches_ite, hnone, not_branches_of_ctl (effWriteOut_ctl v), not_branches_of_ctl (effMma_ctl v)]
    simp
  case V =>
    simp only [branches_ite, hnone, not_branches_of_ctl (effRow_ctl v), not_branches_of_ctl (effGather_ctl v),
      not_branches_of_ctl (effOpt_ctl v), not_branches_of_ctl (effVec_ctl v)]
    simp
  case D =>
    simp only [branches_ite, hnone, hww, not_branches_of_ctl (show (effXfert v).ctl = .none from rfl),
      not_branches_of_ctl (show (effXfer v).ctl = .none from rfl)]
    simp

/-! ## What acts at issue -/

/-- What the issue of a bundle leaves of a core: its place in program order and its run state, its accumulators, scratchpad and
side memory. -/
def Core.issued (k : Core) : Word × RunState × Map (BitVec 32) × Map Byte × Map (BitVec 256) :=
  (k.seq, k.run, k.acc, k.scratch, k.side)

/-- From s to t core c has gone on issuing: nothing of that changed, nor the pc unless something branched (p), nor another core,
tier 1, host memory or the pegs. -/
structure Issuing (c : Nat) (p : Prop) (s t : State) : Prop where
  issued : (t.core c).issued = (s.core c).issued
  pc : ¬ p → (t.core c).pc = (s.core c).pc
  others : ∀ d, d ≠ c → t.core d = s.core d
  tier1 : t.tier1 = s.tier1
  hostMem : t.hostMem = s.hostMem
  pegs : t.pegs = s.pegs

namespace Issuing
variable {c : Nat} {p q : Prop} {s t u : State}

/-- An update of anything but cores, memories and pegs. -/
theorem other (hc : t.cores = s.cores) (ht : t.tier1 = s.tier1) (hh : t.hostMem = s.hostMem) (hp : t.pegs = s.pegs) :
    Issuing c p s t := by
  have h (d : Nat) : t.core d = s.core d := by simp only [State.core, hc]
  exact ⟨by rw [h], fun _ => by rw [h], fun d _ => h d, ht, hh, hp⟩
theorem refl (s : State) : Issuing c p s s := other rfl rfl rfl rfl
theorem trans (h : Issuing c p s t) (g : Issuing c p t u) : Issuing c p s u :=
  ⟨g.issued.trans h.issued, fun hp => (g.pc hp).trans (h.pc hp), fun d hd => (g.others d hd).trans (h.others d hd),
    g.tier1.trans h.tier1, g.hostMem.trans h.hostMem, g.pegs.trans h.pegs⟩
theorem mono (h : Issuing c p s t) (hq : p → q) : Issuing c q s t := { h with pc := fun hn => h.pc (mt hq hn) }
theorem setCore (s : State) (k : Core) (hi : k.issued = (s.core c).issued) (hp : ¬ p → k.pc = (s.core c).pc) :
    Issuing c p s (s.setCore c k) :=
  ⟨by rwa [State.core_setCore], by rwa [State.core_setCore], fun d hd => State.core_setCore_ne _ _ hd, rfl, rfl, rfl⟩
end Issuing

/-- The sequencing of an instruction. -/
theorem issuing_control (s : State) (c : CoreId) (i : InFlight) (ctl : Ctl) :
    Issuing c.val (∃ t, ctl = .branch t) s (s.control c i ctl) := by
  unfold State.control
  extract_lets k
  cases ctl with
  | none => exact .refl s
  | branch t => exact .setCore s _ rfl fun h => absurd ⟨t, rfl⟩ h
  | halt => exact .setCore s _ rfl fun _ => rfl
  | fence m =>
    simp only
    split
    · exact .refl s
    · exact .setCore s _ rfl fun _ => rfl
  | signal n inc =>
    simp only
    split
    · exact .other rfl rfl rfl rfl
    · exact .refl s
  | pegw n th =>
    simp only
    split
    · exact .setCore s _ rfl fun _ => rfl
    · exact .refl s
  | wwput q | wwget q =>
    simp only
    split
    · refine Issuing.trans (.setCore s _ ?_ ?_) (.other rfl rfl rfl rfl)
      · rfl
      · exact fun _ => rfl
    · exact .refl s

/-- A status move writes status alone (06 R180). -/
theorem effSlot_actsAtIssue {v : View} (hl : v.i.legacy = none) (ha : actsAtIssue v.i = true) :
    (effSlot v).CoreOnly ∧ (effSlot v).acc = [] ∧ (effSlot v).side = [] := by
  simp only [actsAtIssue, Bool.and_eq_true, decide_eq_true_eq, Bool.or_eq_true, beq_iff_eq] at ha
  obtain ⟨hs, hop⟩ := ha
  have hlo : v.legacyOnly = false := by simp [View.legacyOnly, hl]
  have he : effSlot v = statusWrite v (v.f 32 12) v.sa ∨
      effSlot v = { trapControl := some (trapnanWrite v.core.trapControl (v.f 13 2) (v.bit 15) (v.bit 16)) } := by
    have hop' : v.op = 0x29 ∨ v.op = 0x60 := hop
    rcases hop' with hop | hop <;> simp [effSlot, hop, hlo, hs, effScalar]
  rcases he with he | he <;> rw [he]
  · unfold statusWrite
    split_ifs <;> exact ⟨⟨rfl, rfl, rfl, rfl⟩, rfl, rfl⟩
  · exact ⟨⟨rfl, rfl, rfl, rfl⟩, rfl, rfl⟩

/-- One slot of a bundle goes in flight, or acts as it issues. -/
theorem issuing_launch (s : State) (c : CoreId) (i : InFlight) (hl : i.legacy = none) (h0 : i.cursor = 0) :
    Issuing c.val (i.branches = true) s (s.launch c i) := by
  unfold State.launch
  extract_lets v e k i' s1
  have hv : v.i = i := viewOf_i ..
  have hvl : v.i.legacy = none := by rwa [hv]
  have hb : (∃ t, e.ctl = .branch t) → i.branches = true := hv ▸ (effSlot_branches hvl).mp
  have h1 : Issuing c.val (i.branches = true) s s1 := .setCore s _ rfl fun _ => rfl
  have hctl : Issuing c.val (i.branches = true) s (s1.control c i' e.ctl) := h1.trans ((issuing_control ..).mono hb)
  split
  · exact .refl s
  · split
    · next q hq => rwa [hq] at hctl
    · next q hq => rwa [hq] at hctl
    · split
      · next ha =>
        obtain ⟨he, hacc, hside⟩ := effSlot_actsAtIssue hvl (by rwa [hv])
        have hS : i'.slot = .S := by
          simp only [actsAtIssue, Bool.and_eq_true, decide_eq_true_eq] at ha
          exact ha.1
        rw [completeTraced_S _ _ _ _ hS h0, complete_core_none _ _ _ _ he.mem he.nan he.posts he.ctl]
        refine h1.trans (.setCore s1 _ ?_ fun _ => rfl)
        simp only [Core.issued, Effect.onCore, hacc, hside, putAll]
      · extract_lets s2
        split
        · exact hctl
        · exact hctl.trans (.setCore s2 _ rfl fun _ => rfl)
theorem issuing_launchAll (c : CoreId) (is : List InFlight) (h : ∀ i ∈ is, i.legacy = none ∧ i.cursor = 0) (s : State) :
    Issuing c.val (∃ i ∈ is, i.branches = true) s (s.launchAll c is) := by
  induction is generalizing s with
  | nil => exact .refl s
  | cons i is ih =>
    obtain ⟨hl, h0⟩ := h i List.mem_cons_self
    refine ((issuing_launch s c i hl h0).mono fun hb => ⟨i, List.mem_cons_self, hb⟩).trans ?_
    exact (ih (fun j hj => h j (List.mem_cons_of_mem _ hj)) _).mono fun ⟨j, hj, hb⟩ => ⟨j, List.mem_cons_of_mem _ hj, hb⟩

/-! ## The parts of a bundle or word -/

/-- What threading the lanes and keeping what others overwrite leaves of an instruction. -/
def InFlight.shape (i : InFlight) : Slot × Word × Option (Fin 3 × Word) × Nat := (i.slot, i.word, i.legacy, i.cursor)

/-- An instruction with the lanes that the earlier ones leave it, and with the status it reads. -/
def threaded (s : State) (c : Nat) (m : Map Lane) (i : InFlight) : InFlight :=
  let i0 := { i with regs := { i.regs with lanes := m } }
  { i0 with status := statusAtIssue (viewOf s c i0) }
theorem threadLanes_cons (s : State) (c : Nat) (i : InFlight) (is : List InFlight) (m : Map Lane) :
    threadLanes s c (i :: is) m = threaded s c m i :: threadLanes s c is
      (if (if i.legacy.isSome then [] else decodeCause i.slot i.word) = [] && (viewOf s c (threaded s c m i)).executes
        then (viewOf s c (threaded s c m i)).lanesAfter (drawsSlot (viewOf s c (threaded s c m i))) else m) := rfl
theorem threadLanes_shape (s : State) (c : Nat) (is : List InFlight) (m : Map Lane) :
    (threadLanes s c is m).map InFlight.shape = is.map InFlight.shape := by
  induction is generalizing m with
  | nil => rfl
  | cons i is ih => exact congrArg (List.cons i.shape) (ih _)
theorem keepBefore_shape (s : State) (c : Nat) (all : List InFlight) (i : InFlight) : (keepBefore s c all i).shape = i.shape := by
  unfold keepBefore
  extract_lets
  split <;> rfl

theorem branches_of_shape {i j : InFlight} (h : i.shape = j.shape) : i.branches = j.branches := by
  simp only [InFlight.shape, Prod.mk.injEq] at h
  obtain ⟨hs, hw, -⟩ := h
  simp only [InFlight.branches, hs, hw]

/-- The parts that execute, with the lanes as the earlier ones leave them; and as they are launched. -/
def State.running (s : State) (c : CoreId) (parts : List InFlight) : List InFlight :=
  (threadLanes s c.val parts (s.core c.val).regs.lanes).filter (fun i => (viewOf s c.val i).executes)
def State.launched (s : State) (c : CoreId) (parts : List InFlight) : List InFlight :=
  (s.running c parts).map (keepBefore s c.val (s.running c parts))

theorem shape_of_mem_launched {s : State} {c : CoreId} {parts : List InFlight} {i : InFlight} (h : i ∈ s.launched c parts) :
    ∃ j ∈ threadLanes s c.val parts (s.core c.val).regs.lanes, i.shape = j.shape := by
  obtain ⟨j, hj, rfl⟩ := List.mem_map.mp h
  exact ⟨j, (List.mem_filter.mp hj).1, keepBefore_shape ..⟩
theorem shape_of_mem_threadLanes {s : State} {c : Nat} {parts : List InFlight} {m : Map Lane} {i : InFlight}
    (h : i ∈ threadLanes s c parts m) : ∃ j ∈ parts, i.shape = j.shape := by
  have := List.mem_map_of_mem (f := InFlight.shape) h
  rw [threadLanes_shape] at this
  obtain ⟨j, hj, e⟩ := List.mem_map.mp this
  exact ⟨j, hj, e.symm⟩

/-! ## The fetch -/

/-- A fetch touches its core's cache and what that has asked for. -/
structure Fetching (c : Nat) (s t : State) : Prop where
  core : ∃ f m i, t.core c = { s.core c with fetchAsked := f, icacheMisses := m, icache := i }
  others : ∀ d, d ≠ c → t.core d = s.core d
  data : SameData s t

theorem Fetching.refl (c : Nat) (s : State) : Fetching c s s := ⟨⟨_, _, _, rfl⟩, fun _ _ => rfl, .refl s⟩
theorem Fetching.trans {c : Nat} {s t u : State} (h : Fetching c s t) (g : Fetching c t u) : Fetching c s u := by
  obtain ⟨_, _, _, hc⟩ := h.core
  obtain ⟨f, m, i, gc⟩ := g.core
  exact ⟨⟨f, m, i, by rw [gc, hc]⟩, fun d hd => (g.others d hd).trans (h.others d hd), h.data.trans g.data⟩

theorem takeWindow_cores (s : State) (c n : Nat) : (s.takeWindow c n).1.cores = s.cores := by
  unfold State.takeWindow
  split
  · rfl
  · split <;> rfl
theorem sameData_takeWindow (s : State) (c n : Nat) : SameData s (s.takeWindow c n).1 := by
  unfold State.takeWindow
  split
  · exact .refl s
  · split
    · exact .refl s
    · exact .setCtx ..
theorem fetching_regulateFetch (s : State) (c : Nat) : Fetching c s (s.regulateFetch c).1 := by
  unfold State.regulateFetch
  split
  · exact .refl c s
  · extract_lets k need r
    have hcore (d : Nat) : r.1.core d = s.core d := by simp only [State.core, r, takeWindow_cores]
    have hset (n : Nat) : Fetching c s (r.1.setCore c { k with fetchAsked := n }) :=
      ⟨⟨n, _, _, State.core_setCore ..⟩, fun d hd => (State.core_setCore_ne _ _ hd).trans (hcore d),
        (sameData_takeWindow ..).trans (.setCore _ _ _ (by rw [hcore]; rfl))⟩
    split <;> exact hset _
theorem fetching_countFetch (s : State) (c : Nat) : Fetching c s (s.countFetch c) := by
  unfold State.countFetch
  extract_lets k
  split
  · exact .refl c s
  · refine .trans (t := s.setCore c { k with icacheMisses := min (k.icacheMisses + 1) (2 ^ 48 - 1) })
      ⟨⟨_, _, _, State.core_setCore ..⟩, fun d hd => State.core_setCore_ne _ _ hd, .setCore _ _ _ rfl⟩ ?_
    exact ⟨⟨_, _, _, State.core_setCore ..⟩, fun d hd => State.core_setCore_ne _ _ hd,
      SameData.trans (.other rfl rfl rfl rfl rfl rfl rfl) (.setCore _ _ _ rfl)⟩

/-- The state once a bundle or word is fetched. -/
def State.fetched (s : State) (c : Nat) : State := (s.regulateFetch c).1.countFetch c

theorem fetching_fetched (s : State) (c : Nat) : Fetching c s (s.fetched c) :=
  (fetching_regulateFetch s c).trans (fetching_countFetch ..)

/-! ## Issuing a set of parts -/

/-- The lanes of a core once the parts that execute have reserved their draws. -/
def State.reserved (s : State) (c : CoreId) (parts : List InFlight) : Map Lane :=
  (s.running c parts).foldl (fun _ i => (viewOf s c.val i).lanesAfter (drawsSlot (viewOf s c.val i))) (s.core c.val).regs.lanes
/-- The state as the parts are launched: the draws are reserved, and the core stands behind the bundle or word. -/
def State.advanced (s : State) (c : CoreId) (parts : List InFlight) (bytes : Nat) : State :=
  let k := s.core c.val
  (s.fetched c.val).setCore c.val { (s.fetched c.val).core c.val with
    regs := { k.regs with lanes := s.reserved c parts }, pc := k.pc + BitVec.ofNat 64 bytes, seq := k.seq + 1, run := .running }

/-- Parts that may issue and whose fetch is served issue whole. -/
theorem issueParts_issues (s : State) (c : CoreId) (parts : List InFlight) (bytes : Nat) (hi : partsIssue s c parts = true)
    (hf : fetchServed s c) :
    s.issueParts c parts false [] bytes = (s.advanced c parts bytes).launchAll c (s.launched c parts) := by
  obtain ⟨hserved, hpoison⟩ := hf
  unfold partsIssue at hi
  extract_lets th run at hi
  simp only [Bool.and_eq_true, Bool.not_eq_true', Option.isNone_iff_eq_none, List.all_eq_true] at hi
  obtain ⟨⟨hwait, hcause⟩, hdouble⟩ := hi
  unfold State.issueParts
  extract_lets k th' run' r causes two lanes s0 s1
  have hc : causes = [] := List.filterMap_eq_nil_iff.mpr fun i hi => by rw [hcause i hi]; rfl
  have ht : two = [] := by simp only [two]; rw [show doubleWrite s c.val run' = none from hdouble]
  rw [if_neg (by simpa using hwait), if_neg (by simp [r, hserved]), hpoison, hc, ht]
  rfl

section
variable {s : State} {c : CoreId} {parts : List InFlight} {bytes : Nat}

theorem advanced_core : ∃ f m i, (s.advanced c parts bytes).core c.val = { s.core c.val with
    regs := { (s.core c.val).regs with lanes := s.reserved c parts }, pc := (s.core c.val).pc + BitVec.ofNat 64 bytes
    seq := (s.core c.val).seq + 1, run := .running, fetchAsked := f, icacheMisses := m, icache := i } := by
  obtain ⟨f, m, i, h⟩ := (fetching_fetched s c.val).core
  exact ⟨f, m, i, (State.core_setCore ..).trans (by rw [h])⟩
theorem advanced_others {d : Nat} (hd : d ≠ c.val) : (s.advanced c parts bytes).core d = s.core d :=
  (State.core_setCore_ne _ _ hd).trans ((fetching_fetched s c.val).others d hd)

/-! ## Bundles (06 R163) -/

theorem bundleIssue_runs {p : Program} (hp : mayIssue s c.val = some p) (hw : (s.core c.val).withdrawn = [])
    (hh : (s.core c.val).halt = false) (hl : (s.core c.val).legacyAt = none) :
    exec (.bundleIssue c) s = .next (if inBundleCode p (s.core c.val).pc.toNat then
      s.issueParts c (bundleSlots s c p) ((bundleSlots s c p).any (fun i => predWaits s c.val (s.core c.val).flight i.word)) [] 32
      else s.trapAtIssue c.val (instOf (s.core c.val) .S 0 none) (0x2108, (s.core c.val).pc.toNat)) := by
  show Host.Outcome.next (s.bundleIssue c) = _
  unfold State.bundleIssue
  simp only [hp, hw, hh, hl]
  cases inBundleCode p (s.core c.val).pc.toNat <;> rfl

/-- The slots of a bundle are whole instructions of no legacy word. -/
theorem bundleSlots_shape {p : Program} {i : InFlight} (h : i ∈ bundleSlots s c p) : i.legacy = none ∧ i.cursor = 0 := by
  simp only [bundleSlots, List.mem_cons, List.not_mem_nil, or_false] at h
  rcases h with rfl | rfl | rfl | rfl <;> exact ⟨rfl, rfl⟩

theorem bundle_launched_shape {p : Program} {i : InFlight} (h : i ∈ s.launched c (bundleSlots s c p)) :
    i.legacy = none ∧ i.cursor = 0 := by
  obtain ⟨j, hj, hij⟩ := shape_of_mem_launched h
  obtain ⟨b, hb, hjb⟩ := shape_of_mem_threadLanes hj
  have hib := hij.trans hjb
  simp only [InFlight.shape, Prod.mk.injEq] at hib
  obtain ⟨-, -, hl, h0⟩ := hib
  obtain ⟨bl, b0⟩ := bundleSlots_shape hb
  exact ⟨hl.trans bl, h0.trans b0⟩

/-- Where no part branches, none that is launched does. -/
theorem not_branches_of_partsBranch {p : Program} (h : partsBranch s c (bundleSlots s c p) = false) :
    ¬ ∃ i ∈ s.launched c (bundleSlots s c p), i.branches = true := by
  rintro ⟨i, hi, hb⟩
  obtain ⟨j, hj, hij⟩ := shape_of_mem_launched hi
  obtain ⟨b, hb', hjb⟩ := shape_of_mem_threadLanes hj
  have hl : j.legacy = none := (congrArg (fun x => x.2.2.1) hjb).trans (bundleSlots_shape hb').1
  obtain ⟨t, ht⟩ := (effSlot_branches (v := viewOf s c.val j) (by rw [viewOf_i]; exact hl)).mpr
    (by rw [viewOf_i, ← branches_of_shape hij]; exact hb)
  have := List.any_eq_false.mp h j hj
  simp [ht] at this

/-- A bundle whose slots do not wait and have no cause against them issues whole. -/
theorem bundle_issues {p : Program} (hp : mayIssue s c.val = some p) (hw : (s.core c.val).withdrawn = [])
    (hh : (s.core c.val).halt = false) (hl : (s.core c.val).legacyAt = none) (hc : inBundleCode p (s.core c.val).pc.toNat = true)
    (hn : (bundleSlots s c p).any (fun i => predWaits s c.val (s.core c.val).flight i.word) = false)
    (hi : partsIssue s c (bundleSlots s c p) = true) (hf : fetchServed s c) :
    Runs (.bundleIssue c) s
      (Issuing c.val (∃ i ∈ s.launched c (bundleSlots s c p), i.branches = true) (s.advanced c (bundleSlots s c p) 32)) := by
  refine ⟨_, ?_, issuing_launchAll c _ (fun i h => bundle_launched_shape h) _⟩
  rw [bundleIssue_runs hp hw hh hl, if_pos hc, hn, issueParts_issues _ _ _ _ hi hf]
end

/-! ## Outside the code (05 R143, 07 R210) -/

theorem fld_ofNat_zero {w len : Nat} (n : Nat) (h : len ≤ w) : fld (BitVec.ofNat w n) 0 len = n % 2 ^ len := by
  rw [fld, bitsAt, Nat.shiftRight_zero, BitVec.toNat_ofNat, Nat.mod_mod_of_dvd _ (Nat.pow_dvd_pow 2 h)]
/-- Everything but the reason lies above the low 16 bits of a record (Table 05-12). -/
theorem recordReason_trapRecord (core k x : Nat) (i : InFlight) (ops : List (BitVec 256)) (t : TrapInfo) :
    recordReason (trapRecord core k x i ops t) = t.reason % 2 ^ 16 := by
  unfold recordReason trapRecord
  extract_lets slotCode word w0 w4 w5
  have hw : w0 % 2 ^ 16 = t.reason % 2 ^ 16 := by
    simp only [w0]
    split_ifs <;> omega
  rw [fld_ofNat_zero _ (by decide)]
  omega

theorem recordReason_recordFor (s : State) (c : Nat) (i : InFlight) (t : TrapInfo) :
    recordReason (s.recordFor c i t) = t.reason % 2 ^ 16 := by
  unfold State.recordFor
  split <;> exact recordReason_trapRecord ..

/-- A trap at issue: no data changes, and the core stops at its pc with the cause in its record (R156). -/
theorem trapAtIssue_stops (s : State) (c : Nat) (i : InFlight) (x : Cause) :
    SameData s (s.trapAtIssue c i x) ∧ ((s.trapAtIssue c i x).core c).run = .trapped ∧
    recordReason ((s.trapAtIssue c i x).core c).trapRec = x.1 % 2 ^ 16 ∧ ((s.trapAtIssue c i x).core c).pc = (s.core c).pc := by
  unfold State.trapAtIssue
  refine ⟨sameData_takeTrap .., ?_, ?_, ?_⟩ <;> rw [takeTrap_core]
  exact recordReason_recordFor ..

/-! ## Words of LNOPs (07 R209) -/

/-- An operation that does nothing, its registers those of its core. -/
structure Idle (k : Core) (i : InFlight) : Prop where
  slot : i.slot = .S
  op : fld i.word 5 8 = 0
  regs : i.regs = k.regs
  status : i.status = none
  legacy : i.legacy.isSome = true

section
variable {s : State} {c : CoreId} {i : InFlight} {is : List InFlight}

theorem op_idle (t : State) (h : Idle (s.core c.val) i) : (viewOf t c.val i).op = 0 := by rw [View.op, View.f, viewOf_i, h.op]
theorem drawsSlot_idle (h : Idle (s.core c.val) i) : drawsSlot (viewOf s c.val i) = [] := by
  simp [drawsSlot, op_idle s h]
theorem lanesAfter_idle (h : Idle (s.core c.val) i) :
    (viewOf s c.val i).lanesAfter (drawsSlot (viewOf s c.val i)) = (s.core c.val).regs.lanes := by
  rw [drawsSlot_idle h]
  simp [View.lanesAfter, viewOf_i, h.slot, h.regs, reserveAll]
theorem issueCause_idle (h : Idle (s.core c.val) i) : issueCause (viewOf s c.val i) = none := by
  simp [issueCause, viewOf_i, h.legacy, slotCauses, judgeSlot, memSlot, drawCause, drawsSlot_idle h,
    op_idle s h, drawsOver, upto, lowest]
theorem footOf_idle (h : Idle (s.core c.val) i) : footOf (viewOf s c.val i) = {} := by
  simp [footOf, viewOf_i, h.slot, footS, op_idle s h]
theorem mustWait_empty (e : Foot) (b : Bool) : mustWait e {} b = false := by
  simp [mustWait, meets, rangesMeet]
theorem waitsFor_idle (fl : List InFlight) (h : Idle (s.core c.val) i) : waitsFor s c.val fl i = false := by
  have hs : statusWaits i = none := by simp [statusWaits, h.op]
  simp [waitsFor, footOf_idle h, mustWait_empty, hs, h.op]
theorem launch_idle (t : State) (h : Idle (s.core c.val) i) : t.launch c i = t := by
  simp [State.launch, op_idle t h]

theorem threaded_idle (h : Idle (s.core c.val) i) : threaded s c.val (s.core c.val).regs.lanes i = i := by
  have hstatus : { i with status := statusAtIssue (viewOf s c.val i) } = i := by
    rw [show statusAtIssue (viewOf s c.val i) = i.status by simp [statusAtIssue, op_idle s h, h.status]]
  have hregs (j : InFlight) (hj : j = i) : { j with status := statusAtIssue (viewOf s c.val j) } = i := hj ▸ hstatus
  exact hregs _ (by rw [← h.regs])
theorem threadLanes_idle (h : ∀ i ∈ is, Idle (s.core c.val) i) : threadLanes s c.val is (s.core c.val).regs.lanes = is := by
  induction is with
  | nil => rfl
  | cons i is ih =>
    have hi := h i List.mem_cons_self
    rw [threadLanes_cons, threaded_idle hi, lanesAfter_idle hi, ite_self, ih fun j hj => h j (List.mem_cons_of_mem _ hj)]
theorem doubleWrite_idle (h : ∀ i ∈ is, Idle (s.core c.val) i) : doubleWrite s c.val is = none := by
  induction is with
  | nil => rfl
  | cons i is ih =>
    simp [doubleWrite, footOf_idle (h i List.mem_cons_self), ih fun j hj => h j (List.mem_cons_of_mem _ hj)]

theorem partsIssue_idle (h : ∀ i ∈ is, Idle (s.core c.val) i) : partsIssue s c is = true := by
  have hrun : ∀ i ∈ is.filter (fun i => (viewOf s c.val i).executes), Idle (s.core c.val) i :=
    fun i hi => h i (List.mem_filter.mp hi).1
  unfold partsIssue
  rw [threadLanes_idle h]
  extract_lets th run
  simp only [Bool.and_eq_true, Bool.not_eq_true', List.any_eq_false, List.all_eq_true, run, th,
    doubleWrite_idle hrun, Option.isNone_none, and_true]
  exact ⟨fun i hi => by simp [waitsFor_idle _ (hrun i hi)], fun i hi => by rw [issueCause_idle (h i hi)]; rfl⟩

theorem running_idle (h : ∀ i ∈ is, Idle (s.core c.val) i) : ∀ i ∈ s.running c is, Idle (s.core c.val) i := by
  intro i hi
  rw [State.running, threadLanes_idle h] at hi
  exact h i (List.mem_filter.mp hi).1
theorem reserved_idle (h : ∀ i ∈ is, Idle (s.core c.val) i) : s.reserved c is = (s.core c.val).regs.lanes := by
  have hr := running_idle h
  unfold State.reserved
  generalize s.running c is = l at hr
  have hl (m : Map Lane) (hm : m = (s.core c.val).regs.lanes) :
      l.foldl (fun _ i => (viewOf s c.val i).lanesAfter (drawsSlot (viewOf s c.val i))) m = (s.core c.val).regs.lanes := by
    induction l generalizing m with
    | nil => exact hm
    | cons i l ih => exact ih (fun j hj => hr j (List.mem_cons_of_mem _ hj)) _ (lanesAfter_idle (hr i List.mem_cons_self))
  exact hl _ rfl
theorem keepBefore_idle (h : Idle (s.core c.val) i) (all : List InFlight) : keepBefore s c.val all i = i := by
  simp [keepBefore, footOf_idle h]
theorem launchAll_idle (h : ∀ i ∈ is, Idle (s.core c.val) i) (t : State) : t.launchAll c (s.launched c is) = t := by
  have hl : ∀ i ∈ s.launched c is, Idle (s.core c.val) i := by
    intro i hi
    obtain ⟨j, hj, rfl⟩ := List.mem_map.mp hi
    rw [keepBefore_idle (running_idle h j hj)]
    exact running_idle h j hj
  generalize s.launched c is = l at hl
  induction l generalizing t with
  | nil => rfl
  | cons i l ih =>
    rw [State.launchAll, launch_idle t (hl i List.mem_cons_self)]
    exact ih t fun j hj => hl j (List.mem_cons_of_mem _ hj)
end

/-- The three operations of a word of LNOPs. -/
def lnops (k : Core) : List InFlight := ([0, 1, 2] : List (Fin 3)).map (fun j => instOf k .S 0 (some (j, 0)))

theorem lnops_idle (k : Core) : ∀ i ∈ lnops k, Idle k i := by
  intro i hi
  obtain ⟨j, -, rfl⟩ := List.mem_map.mp hi
  exact ⟨rfl, by simp [instOf, fld, bitsAt], rfl, rfl, rfl⟩

section
variable {s : State} {c : CoreId} {p : Program} {off : Nat}

/-- A core in a legacy segment that holds a word of three LNOPs issues them; outside it the core traps. -/
theorem legacyWordIssue_runs (hp : mayIssue s c.val = some p) (hw : (s.core c.val).withdrawn = [])
    (hh : (s.core c.val).halt = false) (hl : (s.core c.val).legacyAt = some off)
    (h0 : inLegacySeg p off (s.core c.val).pc.toNat = true → s.fetch c.val p 8 % 2 ^ 64 = 0) :
    exec (.legacyWordIssue c) s = .next (if inLegacySeg p off (s.core c.val).pc.toNat then
      s.issueParts c (lnops (s.core c.val)) false [] 8
      else s.trapAtIssue c.val (instOf (s.core c.val) .S 0 (some (0, 0))) (0x2108, (s.core c.val).pc.toNat)) := by
  show Host.Outcome.next (s.legacyWordIssue c) = _
  unfold State.legacyWordIssue
  simp only [hp, hw, hh, hl]
  cases hseg : inLegacySeg p off (s.core c.val).pc.toNat
  · rfl
  · have hword : BitVec.ofNat 64 (s.fetch c.val p 8) = 0 := BitVec.eq_of_toNat_eq (h0 hseg)
    rw [hword]
    rfl
end

theorem bundlesIssueInOrder : SaysBundlesIssueInOrder := by
  intro c s p hp hw hh k parts waits
  refine ⟨fun hl hc => ⟨fun hn => ?_, fun hn hi hf => ?_⟩, fun off hl hseg h0 hf => ?_⟩
  · rw [bundleIssue_runs hp hw hh hl, if_pos hc, show parts.any _ = true from hn]
    simp [State.issueParts]
  · obtain ⟨t, ht, hissued, hpc, hothers, htier1, hhost, hpegs⟩ := bundle_issues hp hw hh hl hc hn hi hf
    obtain ⟨f, m, i, hcore⟩ := advanced_core (s := s) (c := c) (parts := parts) (bytes := 32)
    simp only [Core.issued, Prod.mk.injEq, parts, hcore] at hissued
    obtain ⟨hseq, hrun, hacc, hscratch, hside⟩ := hissued
    obtain ⟨-, gtier1, ghost, -, -, -, gpegs⟩ := (fetching_fetched s c.val).data
    refine ⟨t, ht, hseq, hrun, fun hb => ?_, hacc, hscratch, hside, htier1.trans gtier1, hhost.trans ghost, hpegs.trans gpegs,
      fun d hd => (hothers d hd).trans (advanced_others hd)⟩
    exact (hpc (not_branches_of_partsBranch hb)).trans (by rw [hcore]; rfl)
  · obtain ⟨f, m, i, hcore⟩ := advanced_core (s := s) (c := c) (parts := lnops k) (bytes := 8)
    refine ⟨s.advanced c (lnops k) 8, ?_, by rw [hcore], by rw [hcore]; rfl, by rw [hcore], ?_⟩
    · rw [legacyWordIssue_runs hp hw hh hl fun _ => h0, if_pos hseg,
        issueParts_issues _ _ _ _ (partsIssue_idle (lnops_idle k)) hf, launchAll_idle (lnops_idle k)]
    · refine (fetching_fetched s c.val).data.trans (.setCore _ _ _ ?_)
      obtain ⟨_, _, _, hfetched⟩ := (fetching_fetched s c.val).core
      rw [reserved_idle (lnops_idle k), hfetched]
      rfl

theorem issueOutsideCodeTraps : SaysIssueOutsideCodeTraps := by
  intro c s p hp hw hh k traps
  refine ⟨fun hl hc => ⟨_, bundleIssue_runs hp hw hh hl, ?_⟩,
    fun off hl hc => ⟨_, legacyWordIssue_runs hp hw hh hl ?_, ?_⟩⟩
  · rw [if_neg (by simpa using hc)]
    exact trapAtIssue_stops ..
  · simp [k, hc]
  · rw [if_neg (by simpa using hc)]
    exact trapAtIssue_stops ..

/-- Settles O23: what issue leaves of a core is kept by every part's launch, and an LNOP launches nothing. -/
theorem bundlesIssue : Obligations.BundlesIssue := ⟨bundlesIssueInOrder, issueOutsideCodeTraps⟩

end Sys2Proof.Machine
end

section
/-! The rows of the S slot as they run: what such a row sees, how it completes with its effect, and how it traps (06 R177 to R183). -/
namespace Sys2Proof.Machine

/-! ## The fields of the S slot's words (Table 06-4) -/

section
variable (s : State) (c : CoreId) (op : Nat) (a : SlotArgs)

@[simp] theorem slotView_imm : (s.slotView c .S op a).imm = SlotArgs.imm a := by
  rw [View.imm, slotView_f s c .S op a 19 32]; rfl
@[simp] theorem slotView_sa : (s.slotView c .S op a).sa = s.argS c a 6 := by
  rw [View.sa, View.sr, slotView_regs, slotView_f s c .S op a 6 6]; rfl
@[simp] theorem slotView_sbReg : (s.slotView c .S op a).sbReg = s.argS c a 12 := by
  rw [View.sbReg, View.sr, slotView_regs, slotView_f s c .S op a 12 6]; rfl
@[simp] theorem slotView_sb : (s.slotView c .S op a).sb = s.argSB c a := by
  rw [View.sb, slotView_bit s c .S op a 18, slotView_imm, slotView_sbReg]; rfl
@[simp] theorem slotView_sd : (s.slotView c .S op a).sd = fld a.operands 0 6 := slotView_f s c .S op a 0 6
@[simp] theorem slotView_offset : (s.slotView c .S op a).offset = scratchOffset s c a := by
  rw [View.offset, slotView_sa, slotView_imm]; rfl
@[simp] theorem slotView_wide : (s.slotView c .S op a).wide = floatFmt a := by
  rw [View.wide, slotView_bit s c .S op a 22]; rfl
@[simp] theorem slotView_fnum (w : Word) : (s.slotView c .S op a).fnum w = floatArg a w := by
  rw [View.fnum, slotView_wide]; rfl
theorem slotView_addr : (s.slotView c .S op a).i.addr = (s.core c.val).pc := by rw [slotView_i]; rfl
theorem slotView_td (n : Nat) : (s.slotView c .S op a).i.regs.tdreg n = (s.core c.val).regs.tdreg n := by rw [slotView_regs]
end

/-! ## A row that issues -/

/-- The row's word decodes, its operands lie in the fields fs, and its predicate lets it execute (05 R140, R141). -/
structure SRow (s : State) (c : CoreId) (op : Nat) (a : SlotArgs) (fs : List (Nat × Nat)) : Prop where
  lt : op < 256
  ne : op ≠ 0
  assigned : assignedS op (slotWord op a) = some (fs.map (fun f => (13 + f.1, f.2)))
  only : a.only fs = true
  on : s.slotOn c a = true

/-- To write a core back as it stands changes nothing of what completes on it. -/
theorem complete_setCore_self (s : State) (c : CoreId) (i : InFlight) (e : Effect) :
    (s.setCore c.val (s.core c.val)).complete c i e = s.complete c i e := by
  simp only [State.complete, origin_setCore, State.setCore_setCore, State.core_setCore]

namespace SRow
variable {s : State} {c : CoreId} {op : Nat} {a : SlotArgs} {fs : List (Nat × Nat)}

theorem decodes (h : SRow s c op a fs) : decodeCause .S (slotWord op a) = [] :=
  decode_only .S op a fs (by simpa [assignedBits, slotWord_op op a h.lt] using h.assigned) h.only

theorem drawCause_nil (h : SRow s c op a fs) (hd : drawsS (s.slotView c .S op a) = []) : drawCause (s.slotView c .S op a) = [] := by
  rw [drawCause, drawsSlot_S s c op a h.lt h.ne, hd]; rfl

/-- A row that draws nothing completes at once with its effect. -/
theorem completes (h : SRow s c op a fs) (hj : judgeS (s.slotView c .S op a) = []) (hd : drawsS (s.slotView c .S op a) = [])
    (hw : (joinWrites (effScalar (s.slotView c .S op a)).mem).flatMap MemWrite.regionPart = []) :
    s.runSlot c .S op a = s.complete c (s.slotInst c .S op a) (effScalar (s.slotView c .S op a)) := by
  rw [runSlot_S s c op a fs h.lt h.ne h.assigned h.only h.on hj (h.drawCause_nil hd) hw, hd]
  exact complete_setCore_self ..

/-- A row that draws and stores nothing, produces no NaN and posts no trap changes its core, then sequences it. -/
theorem sequences (h : SRow s c op a fs) {e : Effect} (he : effScalar (s.slotView c .S op a) = e)
    (hj : judgeS (s.slotView c .S op a) = []) (hd : drawsS (s.slotView c .S op a) = [])
    (hm : e.mem = []) (hn : e.nan = none) (hp : e.posts = []) :
    s.runSlot c .S op a = (s.setCore c.val (e.onCore (s.core c.val))).control c (s.slotInst c .S op a) e.ctl := by
  subst he
  rw [h.completes hj hd (by rw [hm]; rfl), complete_core _ _ _ _ hm hn hp]

/-- A row that one cause alone stands against traps with it, and changes no data (05 R154, R156). -/
theorem traps (h : SRow s c op a fs) {x : Cause} (hj : judgeS (s.slotView c .S op a) = [x])
    (hd : drawsS (s.slotView c .S op a) = []) :
    SameData s (s.runSlot c .S op a) ∧ ((s.runSlot c .S op a).core c.val).run = .trapped ∧
    recordReason ((s.runSlot c .S op a).core c.val).trapRec = x.1 % 2 ^ 16 ∧
    ((s.runSlot c .S op a).core c.val).pc = (s.core c.val).pc := by
  have hx : lowest (slotCauses (s.slotView c .S op a)) = some x := by
    rw [slotCauses_S s c op a h.lt h.ne, hj, h.drawCause_nil hd]; rfl
  rw [runSlot_trap s c .S op a x h.decodes h.on hx]
  exact trapAtIssue_stops ..

end SRow

/-! ## Effects on one register -/

theorem onCore_s (k : Core) (n : Nat) (w : Word) : Effect.onCore { s := [(n, w)] } k = { k with regs := k.regs.setS n w } := by
  simp [Effect.onCore, numStatusSet, putS, putV, putP, putTd, putLanes, putAll, countAll]
theorem onCore_p (k : Core) (n : Nat) (w : Word) (f : Flags) : Effect.onCore { p := [(n, w)], flags := f } k =
    { k with regs := k.regs.setP n w, numStatus := k.numStatus ||| f.zeroExtend 64 } := by
  simp [Effect.onCore, numStatusSet, putS, putV, putP, putTd, putLanes, putAll, countAll]
theorem onCore_td (k : Core) (n : Nat) (w : BitVec 256) : Effect.onCore { td := [(n, w)] } k = { k with regs := k.regs.setTd n w } := by
  simp [Effect.onCore, numStatusSet, putS, putV, putP, putTd, putLanes, putAll, countAll]

/-- Rows that do no more than write a scalar register. -/
theorem SRow.writes {s : State} {c : CoreId} {op : Nat} {a : SlotArgs} {fs : List (Nat × Nat)} (h : SRow s c op a fs) {n : Nat} {w : Word}
    (he : effScalar (s.slotView c .S op a) = { s := [(n, w)] })
    (hj : judgeS (s.slotView c .S op a) = []) (hd : drawsS (s.slotView c .S op a) = []) :
    s.runSlot c .S op a = s.withRegs c (fun r => r.setS n w) := by
  rw [h.sequences he hj hd rfl rfl rfl, onCore_s]; rfl

end Sys2Proof.Machine
end

section
/-! The integer rows, the loads of constants and the comparisons of the S slot (06 R177, R178). -/
namespace Sys2Proof.Machine

/-! ## Integer rows -/

/-- The integer rows stand in the order of their opcodes, from 0x01, and their operations are the model's of those. -/
theorem integerRows_row : ∀ p ∈ integerRows, ∃ op, op ≠ 0 ∧ op ≤ 0x0E ∧
    (∀ c a s, exec (p.1 c a) s = .next (s.runSlot c .S op a)) ∧ p.2 = aluS op := by
  intro p hp
  obtain ⟨j, hj, rfl⟩ := List.mem_iff_getElem.mp hp
  have h14 : j < 14 := hj
  refine ⟨j + 1, by omega, by omega, ?_⟩
  interval_cases j <;> exact ⟨fun _ _ _ => rfl, rfl⟩

/-- The fields of an integer row take up every operand bit. -/
theorem only_integer (a : SlotArgs) : a.only [(0, 6), (6, 6), (12, 6), (18, 1), (19, 32)] = true := by
  simp only [SlotArgs.only, List.all_eq_true, upto, List.mem_range]
  intro i hi
  simp only [List.any_cons, List.any_nil, Bool.or_eq_true, Bool.and_eq_true, decide_eq_true_eq]
  omega

/-- A number with a field replaced: what lies below it, the new field, and what lies above it. -/
theorem bitsPut_eq (n lo len v : Nat) : bitsPut n lo len v = n % 2 ^ lo + 2 ^ lo * (v % 2 ^ len + 2 ^ len * (n / 2 ^ (lo + len))) := by
  have hlow := Nat.div_add_mod n (2 ^ lo)
  have hmid := Nat.div_add_mod (n / 2 ^ lo) (2 ^ len)
  rw [Nat.div_div_eq_div_mul, ← Nat.pow_add] at hmid
  rw [bitsPut, bitsAt, Nat.shiftRight_eq_div_pow]
  generalize n / 2 ^ lo % 2 ^ len = m at *
  generalize n / 2 ^ (lo + len) = h at *
  have hn : n = n % 2 ^ lo + m * 2 ^ lo + 2 ^ lo * (2 ^ len * h) := by rw [← hmid] at hlow; linarith
  rw [Nat.mul_add, Nat.mul_comm (2 ^ lo) (v % 2 ^ len)]
  omega

/-- A field of 32 bits that replaces the high half of a word. -/
theorem bitsPut_high (w : Word) {v : Nat} (h : v < 2 ^ 32) : bitsPut w.toNat 32 32 v = w.toNat % 2 ^ 32 + 2 ^ 32 * v := by
  rw [bitsPut_eq, Nat.mod_eq_of_lt h, Nat.div_eq_of_lt w.isLt, Nat.mul_zero, Nat.add_zero]

/-- Below FADD nothing is judged but the word, and nothing is drawn. -/
theorem judgeS_of_lt {v : View} (h : v.op < 0x14) : judgeS v = [] := by
  unfold judgeS
  extract_lets op
  iterate 7 rw [if_neg (by omega)]
theorem drawsS_of_ne {v : View} (h : v.op < 0x14 ∨ 0x1B < v.op) : drawsS v = [] := if_neg (by omega)

section
variable {s : State} {c : CoreId} {a : SlotArgs} (hon : s.slotOn c a = true)
include hon

theorem runSlot_integer {op : Nat} (h0 : op ≠ 0) (h : op ≤ 0x0E) :
    s.runSlot c .S op a = s.withRegs c (fun r => r.setS (fld a.operands 0 6) (aluS op (s.argS c a 6) (s.argSB c a))) := by
  have hrow : SRow s c op a [(0, 6), (6, 6), (12, 6), (18, 1), (19, 32)] :=
    ⟨by omega, h0, by simp [assignedS, h0, h], only_integer a, hon⟩
  have hop := slotView_op s c .S op a hrow.lt
  exact hrow.writes (by simp [effScalar, hop, h0, h]) (judgeS_of_lt (by omega)) (drawsS_of_ne (by omega))

theorem runSlot_ldi (ho : a.only [(0, 6), (19, 32)] = true) :
    s.runSlot c .S 0x10 a = s.withRegs c (fun r => r.setS (fld a.operands 0 6) (SlotArgs.imm a)) := by
  have hrow : SRow s c 0x10 a [(0, 6), (19, 32)] := ⟨by decide, by decide, rfl, ho, hon⟩
  have hop := slotView_op s c .S 0x10 a (by decide)
  exact hrow.writes (by simp [effScalar, hop]) (judgeS_of_lt (by omega)) (drawsS_of_ne (by omega))

theorem runSlot_ldih (ho : a.only [(0, 6), (19, 32)] = true) :
    s.runSlot c .S 0x11 a = s.withRegs c (fun r => r.setS (fld a.operands 0 6)
      (BitVec.ofNat 64 ((s.argS c a 0).toNat % 2 ^ 32 + 2 ^ 32 * fld a.operands 19 32))) := by
  have hrow : SRow s c 0x11 a [(0, 6), (19, 32)] := ⟨by decide, by decide, rfl, ho, hon⟩
  have hop := slotView_op s c .S 0x11 a (by decide)
  have hsd : (s.slotView c .S 0x11 a).sr (fld a.operands 0 6) = s.argS c a 0 := by rw [View.sr, slotView_regs]; rfl
  have himm := bitsPut_high (s.argS c a 0) (v := fld a.operands 19 32) (Nat.mod_lt _ (Nat.two_pow_pos 32))
  refine hrow.writes ?_ (judgeS_of_lt (by omega)) (drawsS_of_ne (by omega))
  simpa [effScalar, hop, hsd, slotView_f s c .S 0x11 a 19 32] using congrArg (BitVec.ofNat 64) himm

end

theorem scalarInteger : SaysScalarInteger := by
  intro c a s hon
  refine ⟨fun p hp => ?_, fun ho => ⟨?_, ?_⟩⟩
  · obtain ⟨op, h0, h, hexec, halu⟩ := integerRows_row p hp
    rw [hexec, halu, runSlot_integer hon h0 h]
  · exact congrArg Host.Outcome.next (runSlot_ldi hon ho)
  · exact congrArg Host.Outcome.next (runSlot_ldih hon ho)

/-! ## Comparisons -/

theorem assignedS_cmp {op : Nat} (h : 0x30 ≤ op ∧ op ≤ 0x37) (w : Word) :
    assignedS op w = some [(13, 4), (19, 6), (25, 6), (31, 1), (32, 32)] := by
  obtain ⟨hlo, hhi⟩ := h
  interval_cases op <;> rfl
theorem assignedS_fcmp {op : Nat} (h : 0x38 ≤ op ∧ op ≤ 0x3E) (w : Word) :
    assignedS op w = some [(13, 4), (19, 6), (25, 6), (32, 3), (35, 1)] := by
  obtain ⟨hlo, hhi⟩ := h
  interval_cases op <;> rfl

theorem judgeS_cmp {v : View} (h : 0x30 ≤ v.op ∧ v.op ≤ 0x37) : judgeS v = [] := by
  unfold judgeS
  extract_lets op
  iterate 7 rw [if_neg (by omega)]
theorem effScalar_cmp {v : View} (h : 0x30 ≤ v.op ∧ v.op ≤ 0x37) :
    effScalar v = { p := [(v.f 13 4, splat (cmpS (v.op - 0x30) v.sa v.sb))] } := by
  unfold effScalar
  extract_lets op
  iterate 12 rw [if_neg (by omega)]
  rw [if_pos (by omega)]
theorem effScalar_fcmp {v : View} (h : 0x38 ≤ v.op ∧ v.op ≤ 0x3E) : effScalar v =
    { p := [(v.f 13 4, splat (fcmpHolds (v.op - 0x38) (numCmp (v.fnum v.sa) (v.fnum v.sbReg))))]
      flags := fIf ((v.fnum v.sa).isSnan || (v.fnum v.sbReg).isSnan) fInvalid } := by
  unfold effScalar
  extract_lets op a b
  iterate 13 rw [if_neg (by omega)]
  rw [if_pos (by omega)]

/-- A floating row is judged for its rounding mode alone (02 R60). -/
theorem judgeS_float {v : View} {m : RM} (h : (0x14 ≤ v.op ∧ v.op ≤ 0x1B) ∨ (0x38 ≤ v.op ∧ v.op ≤ 0x3E))
    (hm : v.rm (v.f 32 3) = some m) : judgeS v = [] := by
  unfold judgeS
  extract_lets op
  rw [if_pos (by omega), View.rmCause, hm]
  rfl
theorem slotView_rm (s : State) (c : CoreId) (op : Nat) (a : SlotArgs) :
    (s.slotView c .S op a).rm ((s.slotView c .S op a).f 32 3) = s.modeOf c (fld a.operands 19 3) := by
  rw [slotView_f s c .S op a 19 3, slotView_modeOf]

theorem splat_of_iff {b : Bool} {p : Prop} (h : b = true ↔ p) : (p → splat b = BitVec.allOnes 64) ∧ (¬ p → splat b = 0) := by
  cases b <;> simp_all [splat]

section
variable {s : State} {c : CoreId} {a : SlotArgs} (hon : s.slotOn c a = true)
include hon

theorem runSlot_cmp (cond : BitVec 3) (ho : a.only [(0, 4), (6, 6), (12, 6), (18, 1), (19, 32)] = true) :
    s.runSlot c .S (0x30 + cond.toNat) a = s.withRegs c (fun r =>
      r.setP (fld a.operands 0 4) (splat (cmpS cond.toNat (s.argS c a 6) (s.argSB c a)))) := by
  have hc : cond.toNat < 8 := cond.isLt
  have hrow : SRow s c (0x30 + cond.toNat) a [(0, 4), (6, 6), (12, 6), (18, 1), (19, 32)] :=
    ⟨by omega, by omega, assignedS_cmp (by omega) _, ho, hon⟩
  have hop := slotView_op s c .S _ a hrow.lt
  have he := effScalar_cmp (v := s.slotView c .S (0x30 + cond.toNat) a) (by omega)
  rw [hop, slotView_sa, slotView_sb, slotView_f s c .S _ a 0 4, Nat.add_sub_cancel_left] at he
  rw [hrow.sequences he (judgeS_cmp (by omega)) (drawsS_of_ne (by omega)) rfl rfl rfl, onCore_p]
  simp [State.control, State.withRegs]

theorem runSlot_fcmp {cond : BitVec 3} (h7 : cond ≠ 7) {m : RM} (ho : a.only [(0, 4), (6, 6), (12, 6), (19, 3), (22, 1)] = true)
    (hm : s.modeOf c (fld a.operands 19 3) = some m) :
    s.runSlot c .S (0x38 + cond.toNat) a = s.setCore c.val { s.core c.val with
      regs := (s.core c.val).regs.setP (fld a.operands 0 4)
        (splat (fcmpHolds cond.toNat (numCmp (floatArg a (s.argS c a 6)) (floatArg a (s.argS c a 12)))))
      numStatus := (s.core c.val).numStatus |||
        (fIf ((floatArg a (s.argS c a 6)).isSnan || (floatArg a (s.argS c a 12)).isSnan) fInvalid).zeroExtend 64 } := by
  have hc : cond.toNat < 7 := by bv_omega
  have hrow : SRow s c (0x38 + cond.toNat) a [(0, 4), (6, 6), (12, 6), (19, 3), (22, 1)] :=
    ⟨by omega, by omega, assignedS_fcmp (by omega) _, ho, hon⟩
  have hop := slotView_op s c .S _ a hrow.lt
  have he := effScalar_fcmp (v := s.slotView c .S (0x38 + cond.toNat) a) (by omega)
  rw [hop, slotView_fnum, slotView_fnum, slotView_sa, slotView_sbReg, slotView_f s c .S _ a 0 4, Nat.add_sub_cancel_left] at he
  rw [hrow.sequences he (judgeS_float (m := m) (by omega) (by rw [slotView_rm, hm])) (drawsS_of_ne (by omega)) rfl rfl rfl, onCore_p]
  rfl

end

theorem scalarCompare : SaysScalarCompare := by
  intro c a s hon
  constructor
  · intro cond ho
    have hiff := cmpS_iff cond.isLt (s.argS c a 6) (s.argSB c a)
    rw [BitVec.ofNat_toNat, BitVec.setWidth_eq] at hiff
    obtain ⟨hones, hzero⟩ := splat_of_iff hiff
    exact ⟨_, hones, hzero, congrArg Host.Outcome.next (runSlot_cmp hon cond ho)⟩
  · intro cond m h7 ho hm x y
    have hiff := fcmpHolds_iff (cond := cond.toNat) (by bv_omega) (numCmp x y)
    rw [BitVec.ofNat_toNat, BitVec.setWidth_eq] at hiff
    obtain ⟨hones, hzero⟩ := splat_of_iff hiff
    exact ⟨_, hones, hzero, congrArg Host.Outcome.next (runSlot_fcmp hon h7 ho hm)⟩

/-- Settles O9: each row's effect is one register, and a comparison's condition is the model's of its opcode. -/
theorem scalarIntegerAndCompare : Obligations.ScalarIntegerAndCompare := ⟨scalarInteger, scalarCompare⟩

end Sys2Proof.Machine
end

section
/-! Branches, calls and HALT (06 R180, R183; 05 R143). -/
namespace Sys2Proof.Machine

/-! ## Targets -/

theorem programOf_setCore (s : State) (c d : Nat) (k : Core) : (s.setCore d k).programOf c = s.programOf c := rfl
theorem slotView_program (s : State) (c : CoreId) (sl : Slot) (op : Nat) (a : SlotArgs) :
    (s.slotView c sl op a).program = s.programOf c.val := by
  unfold State.slotView viewOf View.program State.programOf
  cases s.place c.val with
  | none => rfl
  | some xk =>
    obtain ⟨x, k⟩ := xk
    cases h : (s.ctx x).programOn (k / 4) <;> (simp only [h]; exact h)
theorem slotView_branchOk (s : State) (c : CoreId) (sl : Slot) (op : Nat) (a : SlotArgs) (t : Word) :
    branchOk (s.slotView c sl op a) t = branchLegal s c t := by
  rw [branchOk, slotView_program]; rfl

/-- Where a branch row goes: from its bundle's address, or for BRR from SA. -/
def branchTo (s : State) (c : CoreId) (op : Nat) (a : SlotArgs) : Word :=
  if op = 0x41 then s.argS c a 6 + SlotArgs.imm a else (s.core c.val).pc + 32 * SlotArgs.imm a

theorem slotView_branchTarget (s : State) (c : CoreId) {op : Nat} (a : SlotArgs) (h : op < 256) :
    branchTarget (s.slotView c .S op a) = branchTo s c op a := by
  rw [branchTarget, slotView_op s c .S op a h, slotView_sa, slotView_imm, slotView_addr]; rfl

section
variable {s : State} {c : CoreId} {op : Nat} {a : SlotArgs} (h : 0x40 ≤ op ∧ op ≤ 0x42)
include h

theorem judgeS_branch : judgeS (s.slotView c .S op a) =
    causeIf (!branchLegal s c (branchTo s c op a)) (0x2108, (branchTo s c op a).toNat) := by
  have hop := slotView_op s c .S op a (by omega)
  rw [← slotView_branchOk s c .S op a, ← slotView_branchTarget s c a (by omega)]
  unfold judgeS
  extract_lets op
  iterate 4 rw [if_neg (by omega)]
  rw [if_pos (by omega)]

/-- A branch row whose target is not legal traps at issue. -/
theorem branch_traps {fs : List (Nat × Nat)} (hrow : SRow s c op a fs) (ht : branchLegal s c (branchTo s c op a) = false) :
    SameData s (s.runSlot c .S op a) ∧ ((s.runSlot c .S op a).core c.val).run = .trapped ∧
    ((s.runSlot c .S op a).core c.val).pc = (s.core c.val).pc ∧
    recordReason ((s.runSlot c .S op a).core c.val).trapRec = 0x2108 := by
  have hop := slotView_op s c .S op a hrow.lt
  have hj := judgeS_branch (s := s) (c := c) (a := a) h
  rw [ht] at hj
  obtain ⟨hdata, hrun, hreason, hpc⟩ := hrow.traps hj (drawsS_of_ne (by omega))
  exact ⟨hdata, hrun, hpc, hreason⟩

/-- A branch row with a legal target changes its core as its effect says and goes on there. -/
theorem branch_runs {fs : List (Nat × Nat)} (hrow : SRow s c op a fs) {l : List (Nat × Word)}
    (he : effScalar (s.slotView c .S op a) = { s := l, ctl := .branch (branchTo s c op a) })
    (ht : branchLegal s c (branchTo s c op a) = true) :
    s.runSlot c .S op a = s.setCore c.val { s.core c.val with
      regs := putS (s.core c.val).regs l, pc := branchTo s c op a, legacyAt := legacyOf s c (branchTo s c op a) } := by
  have hop := slotView_op s c .S op a hrow.lt
  have hj := judgeS_branch (s := s) (c := c) (a := a) h
  rw [ht] at hj
  rw [hrow.sequences he hj (drawsS_of_ne (by omega)) rfl rfl rfl]
  simp [State.control, State.goTo, legacyOf, programOf_setCore, State.setCore_setCore, Effect.onCore, numStatusSet, putV, putP, putTd,
    putLanes, putAll, countAll]
end

theorem runSlot_halt {s : State} {c : CoreId} {a : SlotArgs} (hon : s.slotOn c a = true) (ho : a.only [] = true) :
    s.runSlot c .S 0x7F a = s.setCore c.val { s.core c.val with halt := true } := by
  have hrow : SRow s c 0x7F a [] := ⟨by decide, by decide, rfl, ho, hon⟩
  have hop := slotView_op s c .S 0x7F a (by decide)
  have he : effScalar (s.slotView c .S 0x7F a) = { ctl := .halt } := by simp [effScalar, hop]
  rw [hrow.sequences he (by simp [judgeS, hop]) (drawsS_of_ne (by omega)) rfl rfl rfl]
  simp [State.control, State.setCore_setCore, Effect.onCore, numStatusSet, putS, putV, putP, putTd, putLanes, putAll, countAll]

/-- Settles O11: the three branch rows are one row with its own target and, for CALL, the register it saves. -/
theorem scalarBranch : Obligations.ScalarBranch := by
  intro c a s hon k near far traps
  refine ⟨fun ho => ?_, fun ho => ?_, fun ho => ?_, fun ho => congrArg Host.Outcome.next (runSlot_halt hon ho)⟩
  · have hrow : SRow s c 0x40 a [(19, 32)] := ⟨by decide, by decide, rfl, ho, hon⟩
    have hop := slotView_op s c .S 0x40 a hrow.lt
    have hnear : branchTarget (s.slotView c .S 0x40 a) = near := slotView_branchTarget s c a hrow.lt
    have he : effScalar (s.slotView c .S 0x40 a) = { ctl := .branch near } := by
      simp [effScalar, hop, hnear]
    exact ⟨fun ht => congrArg Host.Outcome.next (branch_runs (by decide) hrow he ht),
      fun ht => ⟨_, rfl, branch_traps (by decide) hrow ht⟩⟩
  · have hrow : SRow s c 0x41 a [(6, 6), (19, 32)] := ⟨by decide, by decide, rfl, ho, hon⟩
    have hop := slotView_op s c .S 0x41 a hrow.lt
    have hfar : branchTarget (s.slotView c .S 0x41 a) = far := slotView_branchTarget s c a hrow.lt
    have he : effScalar (s.slotView c .S 0x41 a) = { ctl := .branch far } := by
      simp [effScalar, hop, hfar]
    exact ⟨fun ht => congrArg Host.Outcome.next (branch_runs (by decide) hrow he ht),
      fun ht => ⟨_, rfl, branch_traps (by decide) hrow ht⟩⟩
  · have hrow : SRow s c 0x42 a [(0, 6), (19, 32)] := ⟨by decide, by decide, rfl, ho, hon⟩
    have hop := slotView_op s c .S 0x42 a hrow.lt
    have hnear : branchTarget (s.slotView c .S 0x42 a) = near := slotView_branchTarget s c a hrow.lt
    have he : effScalar (s.slotView c .S 0x42 a) = { s := [(fld a.operands 0 6, k.pc + 32)], ctl := .branch near } := by
      simp [effScalar, hop, hnear, slotView_addr, k]
    exact ⟨fun ht => congrArg Host.Outcome.next (branch_runs (by decide) hrow he ht),
      fun ht => ⟨_, rfl, branch_traps (by decide) hrow ht⟩⟩

end Sys2Proof.Machine
end

section
/-! The scratchpad rows of the S slot (06 R177, R179; 05 R148). -/
namespace Sys2Proof.Machine

/-! ## Bytes written one after another -/

@[simp] theorem length_leBytes (n v : Nat) : (leBytes n v).length = n := by
  induction n generalizing v with
  | zero => rfl
  | succ n ih => rw [leBytes, List.length_cons, ih]
theorem getD_leBytes {n j : Nat} (v : Nat) (h : j < n) : (leBytes n v).getD j 0 = BitVec.ofNat 8 (v >>> (8 * j)) := by
  induction n generalizing v j with
  | zero => omega
  | succ n ih =>
    cases j with
    | zero => rfl
    | succ j =>
      rw [leBytes, List.getD_cons_succ, ih _ (by omega), show 8 * (j + 1) = 8 + 8 * j by omega, Nat.shiftRight_add, Nat.shiftRight_eq_div_pow v 8]

theorem mapGet_mapWrite {α : Type} [DecidableEq α] (d : α) (vs : List α) (m : Map α) (k a : Nat) :
    mapGet d (mapWrite d m k vs) a = if k ≤ a ∧ a < k + vs.length then vs.getD (a - k) d else mapGet d m a := by
  induction vs generalizing m k with
  | nil => rw [if_neg (by simp)]; rfl
  | cons v vs ih =>
    rw [mapWrite, ih, mapGet_mapSet, List.length_cons]
    rcases Nat.lt_trichotomy a k with hlt | rfl | hgt
    · rw [if_neg (by omega), if_neg (by omega), if_neg (by omega)]
    · rw [if_neg (by omega), if_pos rfl, if_pos (by omega), Nat.sub_self]; rfl
    · obtain ⟨j, rfl⟩ := Nat.exists_eq_add_of_lt hgt
      rw [show k + j + 1 - (k + 1) = j by omega, show k + j + 1 - k = j + 1 by omega, List.getD_cons_succ, if_neg hgt.ne']
      by_cases hj : j < vs.length
      · rw [if_pos (by omega), if_pos (by omega)]
      · rw [if_neg (by omega), if_neg (by omega)]

theorem setBytes_scratch (s : State) (c : Nat) (k : Core) (a : Nat) (bs : List Byte) :
    (s.setCore c k).setBytes (.scratch c) a bs = s.setCore c { k with scratch := mapWrite 0 k.scratch a bs } := by
  induction bs generalizing a k with
  | nil => rfl
  | cons b bs ih =>
    rw [State.setBytes, State.setByte, State.core_setCore, State.setCore_setCore, ih]
    rfl

/-! ## Loads and stores -/

section
variable {s : State} {c : CoreId} {op : Nat} {a : SlotArgs}

theorem natAt_slotView (n : Nat) : (s.slotView c .S op a).s.natAt (.scratch (s.slotView c .S op a).c) (scratchOffset s c a) n =
    leNat ((upto n).map (fun j => mapGet 0 (s.core c.val).scratch (scratchOffset s c a + j))) := by
  rw [slotView_s, slotView_c]; rfl

/-- The bytes that a scratchpad row accesses: 8 of a scalar register, 32 of a descriptor. -/
def scratchWidth (op : Nat) : Nat := if op ≤ 0x21 then 8 else 32

theorem judgeS_scratch (h : 0x20 ≤ op ∧ op ≤ 0x23) :
    judgeS (s.slotView c .S op a) = scratchCause (s.slotView c .S op a) (scratchWidth op) := by
  have hop := slotView_op s c .S op a (by omega)
  obtain ⟨hlo, hhi⟩ := h
  interval_cases op <;> simp [judgeS, scratchWidth, hop]

/-- What an access is judged for: nothing where it fits, else the one cause 0x2107. -/
theorem scratchCause_of_fits {n : Nat} (h : scratchFits s c a n) : scratchCause (s.slotView c .S op a) n = [] := by
  obtain ⟨halign, hend⟩ := h
  simp [scratchCause, slotView_decl, halign, causeIf, hend]
theorem scratchCause_of_not_fits {n : Nat} (h : ¬ scratchFits s c a n) :
    ∃ x, scratchCause (s.slotView c .S op a) n = [(0x2107, x)] := by
  unfold scratchCause
  rw [slotView_offset, slotView_decl]
  split
  · exact ⟨_, rfl⟩
  · next halign =>
    have hend : (s.declOf c).scratch < scratchOffset s c a + n := by
      rw [scratchFits, not_and] at h
      exact not_le.mp (h (not_not.mp halign))
    exact ⟨_, by rw [decide_eq_true hend]; rfl⟩

/-- A scratchpad row outside its bounds traps at issue. -/
theorem scratch_traps {fs : List (Nat × Nat)} (hrow : SRow s c op a fs) (h : 0x20 ≤ op ∧ op ≤ 0x23)
    (hf : ¬ scratchFits s c a (scratchWidth op)) :
    SameData s (s.runSlot c .S op a) ∧ ((s.runSlot c .S op a).core c.val).run = .trapped ∧
    recordReason ((s.runSlot c .S op a).core c.val).trapRec = 0x2107 := by
  have hop := slotView_op s c .S op a hrow.lt
  obtain ⟨x, hx⟩ := scratchCause_of_not_fits (op := op) hf
  obtain ⟨hdata, hrun, hreason, -⟩ := hrow.traps ((judgeS_scratch h).trans hx) (drawsS_of_ne (by omega))
  exact ⟨hdata, hrun, hreason⟩

/-- A store row within its bounds writes its bytes to its own scratchpad. -/
theorem scratch_stores {fs : List (Nat × Nat)} (hrow : SRow s c op a fs) (h : 0x20 ≤ op ∧ op ≤ 0x23)
    (hf : scratchFits s c a (scratchWidth op)) {bs : List Byte}
    (he : effScalar (s.slotView c .S op a) = { mem := [⟨.scratch c.val, scratchOffset s c a, bs⟩] }) :
    s.runSlot c .S op a = s.setCore c.val { s.core c.val with
      scratch := mapWrite 0 (s.core c.val).scratch (scratchOffset s c a) bs } := by
  have hop := slotView_op s c .S op a hrow.lt
  have hmem : Effect.onCore { mem := [⟨.scratch c.val, scratchOffset s c a, bs⟩] } (s.core c.val) = s.core c.val := onCore_empty _
  rw [hrow.completes ((judgeS_scratch h).trans (scratchCause_of_fits hf)) (drawsS_of_ne (by omega)) (by rw [he]; rfl), he]
  simp only [State.complete, hmem, joinWrites, storeAll, State.store, State.put, setBytes_scratch, State.deferAll, State.control,
    State.core_setCore, if_true]

/-- The bytes of the scratchpad after such a store. -/
theorem scratch_runs {i : Instr} {n v : Nat}
    (hi : exec i s = .next (s.setCore c.val { s.core c.val with
      scratch := mapWrite 0 (s.core c.val).scratch (scratchOffset s c a) (leBytes n v) })) :
    Runs i s (fun t => t = s.setCore c.val { s.core c.val with scratch := (t.core c.val).scratch } ∧
      ∀ x, mapGet 0 (t.core c.val).scratch x = if scratchOffset s c a ≤ x ∧ x < scratchOffset s c a + n then
        BitVec.ofNat 8 (v >>> (8 * (x - scratchOffset s c a))) else mapGet 0 (s.core c.val).scratch x) := by
  refine ⟨_, hi, by rw [State.core_setCore], fun x => ?_⟩
  rw [State.core_setCore, mapGet_mapWrite, length_leBytes]
  split
  · exact getD_leBytes _ (by omega)
  · rfl
end


section
variable {s : State} {c : CoreId} {a : SlotArgs} (hon : s.slotOn c a = true)
include hon

theorem runSlot_sld (ho : a.only [(0, 6), (6, 6), (19, 32)] = true) (hf : scratchFits s c a 8) :
    s.runSlot c .S 0x20 a = s.withRegs c (fun r => r.setS (fld a.operands 0 6) (BitVec.ofNat 64
      (leNat ((upto 8).map (fun j => mapGet 0 (s.core c.val).scratch (scratchOffset s c a + j)))))) := by
  have hrow : SRow s c 0x20 a [(0, 6), (6, 6), (19, 32)] := ⟨by decide, by decide, rfl, ho, hon⟩
  have hop := slotView_op s c .S 0x20 a hrow.lt
  exact hrow.writes (by simp [effScalar, hop, natAt_slotView]) ((judgeS_scratch (by decide)).trans (scratchCause_of_fits hf))
    (drawsS_of_ne (by omega))

theorem runSlot_tdld (ho : a.only [(0, 5), (6, 6), (19, 32)] = true) (hf : scratchFits s c a 32) :
    s.runSlot c .S 0x22 a = s.withRegs c (fun r => r.setTd (fld a.operands 0 5) (BitVec.ofNat 256
      (leNat ((upto 32).map (fun j => mapGet 0 (s.core c.val).scratch (scratchOffset s c a + j)))))) := by
  have hrow : SRow s c 0x22 a [(0, 5), (6, 6), (19, 32)] := ⟨by decide, by decide, rfl, ho, hon⟩
  have hop := slotView_op s c .S 0x22 a hrow.lt
  have he : effScalar (s.slotView c .S 0x22 a) = { td := [(fld a.operands 0 5, BitVec.ofNat 256
      (leNat ((upto 32).map (fun j => mapGet 0 (s.core c.val).scratch (scratchOffset s c a + j)))))] } := by
    simp [effScalar, hop, natAt_slotView, slotView_f s c .S 0x22 a 0 5]
  rw [hrow.sequences he ((judgeS_scratch (by decide)).trans (scratchCause_of_fits hf)) (drawsS_of_ne (by omega)) rfl rfl rfl, onCore_td]
  rfl

theorem runSlot_sst (ho : a.only [(6, 6), (12, 6), (19, 32)] = true) (hf : scratchFits s c a 8) :
    s.runSlot c .S 0x21 a = s.setCore c.val { s.core c.val with
      scratch := mapWrite 0 (s.core c.val).scratch (scratchOffset s c a) (leBytes 8 (s.argS c a 12).toNat) } := by
  have hrow : SRow s c 0x21 a [(6, 6), (12, 6), (19, 32)] := ⟨by decide, by decide, rfl, ho, hon⟩
  have hop := slotView_op s c .S 0x21 a hrow.lt
  exact scratch_stores hrow (by decide) hf (by simp [effScalar, hop, slotView_c])

theorem runSlot_tdst (ho : a.only [(0, 5), (6, 6), (19, 32)] = true) (hf : scratchFits s c a 32) :
    s.runSlot c .S 0x23 a = s.setCore c.val { s.core c.val with
      scratch := mapWrite 0 (s.core c.val).scratch (scratchOffset s c a)
        (leBytes 32 ((s.core c.val).regs.tdreg (fld a.operands 0 5)).toNat) } := by
  have hrow : SRow s c 0x23 a [(0, 5), (6, 6), (19, 32)] := ⟨by decide, by decide, rfl, ho, hon⟩
  have hop := slotView_op s c .S 0x23 a hrow.lt
  exact scratch_stores hrow (by decide) hf (by simp [effScalar, hop, slotView_c, slotView_td, slotView_f s c .S 0x23 a 0 5])
end

/-! ## Fields of a descriptor (Table 05-4) -/

theorem testBit_bitsPut (n lo len v i : Nat) :
    (bitsPut n lo len v).testBit i = if lo ≤ i ∧ i < lo + len then v.testBit (i - lo) else n.testBit i := by
  rw [bitsPut_eq, Nat.add_comm, Nat.testBit_two_pow_mul_add _ (Nat.mod_lt _ (Nat.two_pow_pos lo)), Nat.testBit_mod_two_pow]
  by_cases hlo : i < lo
  · rw [if_pos hlo, if_neg (by omega), decide_eq_true hlo, Bool.true_and]
  · rw [if_neg hlo, Nat.add_comm, Nat.testBit_two_pow_mul_add _ (Nat.mod_lt _ (Nat.two_pow_pos len)), Nat.testBit_mod_two_pow]
    by_cases hlen : i - lo < len
    · rw [if_pos hlen, if_pos (by omega), decide_eq_true hlen, Bool.true_and]
    · rw [if_neg hlen, if_neg (by omega), Nat.testBit_div_two_pow, show i - lo - len + (lo + len) = i by omega]

/-- The fields TDFLD names, in the order of their codes. -/
theorem tdField_getD {code : Nat} (h : code < 6) :
    [(0, 48), (96, 32), (128, 24), (152, 40), (192, 48), (64, 32)].getD code (0, 0) = tdField code := by
  interval_cases code <;> rfl

theorem tdPut_bit (t : BitVec 256) (code v : Nat) {i : Nat} (hi : i < 256) : (tdPut t code v).getLsbD i =
    if (tdField code).1 ≤ i ∧ i < (tdField code).1 + (tdField code).2 then v.testBit (i - (tdField code).1) else t.getLsbD i := by
  rw [tdPut, BitVec.getLsbD_ofNat, decide_eq_true hi, Bool.true_and, testBit_bitsPut]
  rfl

/-- The descriptor that TDFLD leaves: the field takes SA + IMM, with what it held added where ADD is 1 (06 R177). -/
def tdfldWord (s : State) (c : CoreId) (a : SlotArgs) : BitVec 256 :=
  let td := (s.core c.val).regs.tdreg (fld a.operands 0 5)
  let code := fld a.operands 12 3
  tdPut td code (scratchOffset s c a + if a.operands.getLsbD 15 then fld td (tdField code).1 (tdField code).2 else 0)

theorem runSlot_tdfld {s : State} {c : CoreId} {a : SlotArgs} (hon : s.slotOn c a = true)
    (ho : a.only [(0, 5), (6, 6), (12, 4), (19, 32)] = true) (hf : fld a.operands 12 3 < 6) :
    s.runSlot c .S 0x24 a = s.withRegs c (fun r => r.setTd (fld a.operands 0 5) (tdfldWord s c a)) := by
  have hcode : fld (slotWord 0x24 a) 25 3 = fld a.operands 12 3 := slotWord_operand 0x24 a 12 3
  have hrow : SRow s c 0x24 a [(0, 5), (6, 6), (12, 4), (19, 32)] :=
    ⟨by decide, by decide, by simp [assignedS, hcode, hf], ho, hon⟩
  have hop := slotView_op s c .S 0x24 a hrow.lt
  have he : effScalar (s.slotView c .S 0x24 a) = { td := [(fld a.operands 0 5, tdfldWord s c a)] } := by
    simp [effScalar, tdfldWord, hop, slotView_td, slotView_f s c .S 0x24 a 0 5, slotView_f s c .S 0x24 a 12 3,
      slotView_bit s c .S 0x24 a 15]
  rw [hrow.sequences he (by simp [judgeS, hop]) (drawsS_of_ne (by omega)) rfl rfl rfl, onCore_td]
  rfl

theorem tdreg_withRegs_setTd (s : State) (c : CoreId) (n : Nat) (w : BitVec 256) :
    ((s.withRegs c (fun r => r.setTd n w)).core c.val).regs.tdreg n = w := by
  rw [State.withRegs, State.core_setCore]
  exact mapGet_mapSet_self ..

theorem scalarScratchpad : SaysScalarScratchpad := by
  intro c a s hon at_ old
  refine ⟨fun ho hf => congrArg Host.Outcome.next (runSlot_sld hon ho hf),
    fun ho hf => congrArg Host.Outcome.next (runSlot_tdld hon ho hf),
    fun ho hf => scratch_runs (congrArg Host.Outcome.next (runSlot_sst hon ho hf)),
    fun ho hf => scratch_runs (congrArg Host.Outcome.next (runSlot_tdst hon ho hf)), ?_⟩
  intro ho hf td place v
  have htd := tdreg_withRegs_setTd s c (fld a.operands 0 5) (tdfldWord s c a)
  refine ⟨_, congrArg Host.Outcome.next (runSlot_tdfld hon ho hf), by rw [htd], fun i hi => ?_⟩
  rw [htd, tdfldWord, tdPut_bit _ _ _ hi, ← tdField_getD hf]

theorem scratchpadBoundsTrap : SaysScratchpadBoundsTrap := by
  intro c a s hon traps
  refine ⟨fun ho hf => ⟨_, rfl, ?_⟩, fun ho hf => ⟨_, rfl, ?_⟩, fun ho hf => ⟨⟨_, rfl, ?_⟩, ⟨_, rfl, ?_⟩⟩⟩
  · exact scratch_traps (op := 0x20) ⟨by decide, by decide, rfl, ho, hon⟩ (by decide) hf
  · exact scratch_traps (op := 0x21) ⟨by decide, by decide, rfl, ho, hon⟩ (by decide) hf
  · exact scratch_traps (op := 0x22) ⟨by decide, by decide, rfl, ho, hon⟩ (by decide) hf
  · exact scratch_traps (op := 0x23) ⟨by decide, by decide, rfl, ho, hon⟩ (by decide) hf

/-- Settles O10: a load reads its bytes, a store writes them one after another, and TDFLD puts a field into a number. -/
theorem scalarScratchpadAccess : Obligations.ScalarScratchpadAccess := ⟨scalarScratchpad, scratchpadBoundsTrap⟩

end Sys2Proof.Machine
end

section
/-! The floating rows of the S slot and FCVT (06 R178; 02 R67, R80, R82). -/
namespace Sys2Proof.Machine

/-! ## The rounding mode and the draw of a floating row -/

section
variable {s : State} {c : CoreId} {op : Nat} {a : SlotArgs} {m : RM}

theorem slotView_rmS (hm : s.modeOf c (fld a.operands 19 3) = some m) : (s.slotView c .S op a).rmS = m := by
  rw [View.rmS, View.rmD, slotView_rm, hm]; rfl
theorem slotView_rndS (hm : s.modeOf c (fld a.operands 19 3) = some m) : (s.slotView c .S op a).rndS = scalarDraw s c m := by
  rw [View.rndS, slotView_rmS hm, View.rnd, slotView_regs]; rfl

/-- The rows that round reserve one draw of lane 0 in SR mode. -/
def scalarDraws (draws : Bool) (m : RM) : List Nat := if draws && decide (m = .sr) then [1] else []

theorem drawsS_float (hop : op < 256) (hm : s.modeOf c (fld a.operands 19 3) = some m) :
    drawsS (s.slotView c .S op a) = scalarDraws (decide ((0x14 ≤ op ∧ op ≤ 0x17) ∨ op = 0x1B)) m := by
  rw [drawsS, slotView_op s c .S op a hop, slotView_rmS hm, drawsIf, scalarDraws]
  by_cases h : (0x14 ≤ op ∧ op ≤ 0x17) ∨ op = 0x1B <;> simp [h]

theorem reserveAll_scalarDraws (l : Map Lane) (draws : Bool) (m : RM) : reserveAll l 0 (scalarDraws draws m) =
    if draws && decide (m = .sr) then setLane l 0 ((laneOf l 0).reserve 1) else l := by
  unfold scalarDraws
  split <;> rfl

theorem drawsOver_scalarDraws {draws : Bool} (hl : drawLeft s c m) :
    drawsOver (s.core c.val).regs.lanes (scalarDraws draws m) = none := by
  unfold scalarDraws
  split
  · next hm =>
    have hleft := hl (of_decide_eq_true (Bool.and_eq_true_iff.mp hm).2)
    simpa [drawsOver, upto] using hleft
  · rfl
end

/-! ## A rounded result -/

section
variable (s : State) (c : CoreId) (a : SlotArgs) (draws : Bool) (m : RM) (r : Rounded)

/-- The rounded result as an effect on SD. -/
def roundedEffect (a : SlotArgs) (r : Rounded) : Effect :=
  { s := [(fld a.operands 0 6, BitVec.ofNat 64 r.bits)], flags := r.flags, nan := if r.produced then some ⟨0, 0, 0, 0⟩ else none }

theorem floatEffect_slotView (op : Nat) : floatEffect (s.slotView c .S op a) r = roundedEffect a r := by
  rw [floatEffect, slotView_sd]; rfl

theorem setS_lanes (r : RegFile) (n : Nat) (w : Word) (l : Map Lane) :
    ({ r with lanes := l } : RegFile).setS n w = { r.setS n w with lanes := l } := by
  unfold RegFile.setS; split <;> rfl

theorem roundedEffect_onCore : (s.setCore c.val ((roundedEffect a r).onCore { s.core c.val with
      regs := { (s.core c.val).regs with lanes := reserveAll (s.core c.val).regs.lanes 0 (scalarDraws draws m) } })) =
    floatResult s c a draws m r := by
  simp [roundedEffect, floatResult, Effect.onCore, numStatusSet, putS, putV, putP, putTd, putLanes, putAll, countAll, setS_lanes,
    reserveAll_scalarDraws]

end

/-- A floating row that may round in its mode completes with its rounded result. -/
theorem SRow.rounds {s : State} {c : CoreId} {op : Nat} {a : SlotArgs} {fs : List (Nat × Nat)} {m : RM} {draws : Bool} {r : Rounded}
    (hrow : SRow s c op a fs) (hj : judgeS (s.slotView c .S op a) = []) (hl : drawLeft s c m)
    (hd : drawsS (s.slotView c .S op a) = scalarDraws draws m) (he : effScalar (s.slotView c .S op a) = roundedEffect a r) :
    s.runSlot c .S op a = (s.setLanes c.val (reserveAll (s.core c.val).regs.lanes 0 (scalarDraws draws m))).complete c
      (s.slotInst c .S op a) (roundedEffect a r) := by
  have hc : drawCause (s.slotView c .S op a) = [] := by
    rw [drawCause, drawsSlot_S s c op a hrow.lt hrow.ne, hd, slotView_regs, drawsOver_scalarDraws hl]
  rw [runSlot_S s c op a fs hrow.lt hrow.ne hrow.assigned hrow.only hrow.on hj hc (by rw [he]; rfl), hd, he]

/-! ## A produced NaN (02 R80, R82; 05 R155, R160) -/

/-- An effect that stays on its core but for a NaN latches it, and takes a trap that it held. -/
theorem complete_nan (s : State) (c : CoreId) (i : InFlight) (e : Effect) (n : NanPos) (hm : e.mem = []) (hn : e.nan = some n)
    (hp : e.posts = []) (hc : e.ctl = .none) {u : State} (hu : (s.setCore c.val (e.onCore (s.core c.val))).latchNan c.val i n = u) :
    s.complete c i e = if (u.core c.val).deferred = (s.core c.val).deferred then u else u.settleHeld c.val := by
  simp [State.complete, hm, hn, hp, hc, hu, joinWrites, storeAll, State.deferAll, State.control]

section
variable {s : State} {c : Nat} {i : InFlight} {n : NanPos}

theorem latchNan_seen (h : nanSeen (s.core c).trapControl = true) : s.latchNan c i n = s := if_pos h
theorem latchNan_quiet (h : nanSeen (s.core c).trapControl = false) (hm : i.nanMode = 0) :
    s.latchNan c i n = s.setCore c { s.core c with
      trapControl := (s.core c).trapControl ||| 4, nanRec := s.recordFor c i (n.info i.nanMode) } := by
  simp [State.latchNan, h, hm]
theorem latchNan_held (h : nanSeen (s.core c).trapControl = false) (hm : i.nanMode = 2) (hr : (s.core c).run ≠ .trapped) :
    s.latchNan c i n = s.setCore c { s.core c with
      trapControl := (s.core c).trapControl ||| 4, nanRec := s.recordFor c i (n.info i.nanMode)
      deferred := (s.core c).deferred ++ [⟨i.id, s.recordFor c i (n.info i.nanMode), true, true⟩] } := by
  simp [State.latchNan, State.addDue, h, hm, hr, State.setCore_setCore]

/-- A held trap that alone is due is taken where nothing in flight holds issue. -/
theorem settleHeld_takes {d : Deferred} (hd : (s.core c).deferred = [d]) (hh : d.held = true) (hr : (s.core c).run ≠ .trapped)
    (hf : (s.core c).flight.any holdsIssue = false) : s.settleHeld c = s.takeTrap c d.record := by
  simp [State.settleHeld, State.postDeferred, hd, hh, hr, hf, firstDue]

theorem recordReason_nan (mode : Nat) : recordReason (s.recordFor c i (n.info mode)) = 0x7008 := recordReason_recordFor ..

/-- A NaN latched under NAN_MODE 0b10 traps its core, where no trap has stopped it or is due and nothing in flight holds
issue. -/
theorem latchNan_traps (h : nanSeen (s.core c).trapControl = false) (hm : i.nanMode = 2) (hr : (s.core c).run ≠ .trapped)
    (hd : (s.core c).deferred = []) (hf : (s.core c).flight.any holdsIssue = false) :
    ((s.latchNan c i n).core c).deferred ≠ [] ∧ (((s.latchNan c i n).settleHeld c).core c).run = .trapped ∧
    recordReason (((s.latchNan c i n).settleHeld c).core c).trapRec = 0x7008 := by
  have hcore : (s.latchNan c i n).core c = { s.core c with
      trapControl := (s.core c).trapControl ||| 4, nanRec := s.recordFor c i (n.info i.nanMode)
      deferred := [⟨i.id, s.recordFor c i (n.info i.nanMode), true, true⟩] } := by
    rw [latchNan_held h hm hr, State.core_setCore, hd, List.nil_append]
  rw [settleHeld_takes (congrArg Core.deferred hcore) rfl (by rw [hcore]; exact hr) (by rw [hcore]; exact hf), takeTrap_core, hcore]
  exact ⟨List.cons_ne_nil _ _, rfl, recordReason_nan _⟩
end

section
variable {s : State} {c : CoreId} {a : SlotArgs} {draws : Bool} {m : RM} {r : Rounded} {i : InFlight}

/-- The core as its draws are reserved and the result is written differs from it in registers and flags alone. -/
theorem floatResult_core : ∃ g w, (floatResult s c a draws m r).core c.val = { s.core c.val with regs := g, numStatus := w } := by
  rw [floatResult, State.core_setCore]
  exact ⟨_, _, rfl⟩

variable (s c a draws m r i) in
/-- The state once a rounded result is complete. -/
def roundedState : State :=
  (s.setLanes c.val (reserveAll (s.core c.val).regs.lanes 0 (scalarDraws draws m))).complete c i (roundedEffect a r)

theorem setLanes_roundedEffect : (s.setLanes c.val (reserveAll (s.core c.val).regs.lanes 0 (scalarDraws draws m))).setCore c.val
    ((roundedEffect a r).onCore ((s.setLanes c.val (reserveAll (s.core c.val).regs.lanes 0 (scalarDraws draws m))).core c.val)) =
    floatResult s c a draws m r := by
  rw [setLanes_core, State.setLanes, State.setCore_setCore, roundedEffect_onCore]

theorem rounded_quiet (h : r.produced = false) : roundedState s c a draws m r i = floatResult s c a draws m r := by
  rw [roundedState, complete_core_none _ _ _ _ rfl (by simp [roundedEffect, h]) rfl rfl, setLanes_roundedEffect]

theorem rounded_nan (h : r.produced = true) {u : State} (hu : (floatResult s c a draws m r).latchNan c.val i ⟨0, 0, 0, 0⟩ = u) :
    roundedState s c a draws m r i = if (u.core c.val).deferred = (s.core c.val).deferred then u else u.settleHeld c.val := by
  rw [roundedState, complete_nan _ _ _ _ ⟨0, 0, 0, 0⟩ rfl (by simp [roundedEffect, h]) rfl rfl (setLanes_roundedEffect ▸ hu),
    setLanes_core]

theorem rounded_seen (h : nanSeen (s.core c.val).trapControl = true) : roundedState s c a draws m r i = floatResult s c a draws m r := by
  obtain ⟨g, w, hk⟩ := floatResult_core (s := s) (c := c) (a := a) (draws := draws) (m := m) (r := r)
  cases hr : r.produced
  · exact rounded_quiet hr
  · rw [rounded_nan hr (latchNan_seen (by rw [hk]; exact h)), hk, if_pos rfl]

/-- Under NAN_MODE 0b00 a produced NaN leaves its record and no more. -/
theorem rounded_recorded (hr : r.produced = true) (h : nanSeen (s.core c.val).trapControl = false) (hm : i.nanMode = 0) :
    ∃ rec, recordReason rec = 0x7008 ∧ roundedState s c a draws m r i = (floatResult s c a draws m r).setCore c.val
      { (floatResult s c a draws m r).core c.val with trapControl := (s.core c.val).trapControl ||| 4, nanRec := rec } := by
  obtain ⟨g, w, hk⟩ := floatResult_core (s := s) (c := c) (a := a) (draws := draws) (m := m) (r := r)
  refine ⟨(floatResult s c a draws m r).recordFor c.val i (NanPos.info ⟨0, 0, 0, 0⟩ i.nanMode), recordReason_nan _, ?_⟩
  rw [rounded_nan hr (latchNan_quiet (by rw [hk]; exact h) hm), State.core_setCore, hk, if_pos rfl]

/-- Under NAN_MODE 0b10 it traps the core. -/
theorem rounded_trapped (hr : r.produced = true) (h : nanSeen (s.core c.val).trapControl = false) (hm : i.nanMode = 2)
    (hrun : (s.core c.val).run ≠ .trapped) (hdue : (s.core c.val).deferred = []) (hf : (s.core c.val).flight.any holdsIssue = false) :
    SameData (floatResult s c a draws m r) (roundedState s c a draws m r i) ∧
    ((roundedState s c a draws m r i).core c.val).run = .trapped ∧
    recordReason ((roundedState s c a draws m r i).core c.val).trapRec = 0x7008 := by
  obtain ⟨g, w, hk⟩ := floatResult_core (s := s) (c := c) (a := a) (draws := draws) (m := m) (r := r)
  have htraps := latchNan_traps (s := floatResult s c a draws m r) (c := c.val) (i := i) (n := ⟨0, 0, 0, 0⟩)
  rw [hk] at htraps
  obtain ⟨hlate, hstop, hreason⟩ := htraps h hm hrun hdue hf
  rw [rounded_nan hr rfl, if_neg (by rwa [hdue])]
  exact ⟨(sameData_latchNan ..).trans (sameData_settleHeld ..), hstop, hreason⟩

end

/-! ## FADD to FMIN -/

/-- The rounded rows stand in the order of their opcodes, from 0x14: those before FMAX draw, and each rounds its exact result. -/
theorem floatRows_row : ∀ p ∈ floatRows, ∃ op, 0x14 ≤ op ∧ op ≤ 0x19 ∧ (∀ c a s, exec (p.1 c a) s = .next (s.runSlot c .S op a)) ∧
    p.2.1 = decide ((0x14 ≤ op ∧ op ≤ 0x17) ∨ op = 0x1B) ∧ ∀ v : View, v.op = op → effScalar v =
      floatEffect v (finish v.wide v.rmS v.rndS (p.2.2 v.rmS (v.fnum v.sa) (v.fnum v.sbReg))) := by
  intro p hp
  obtain ⟨j, hj, rfl⟩ := List.mem_iff_getElem.mp hp
  have h6 : j < 6 := hj
  refine ⟨0x14 + j, by omega, by omega, ?_⟩
  interval_cases j <;> refine ⟨fun _ _ _ => rfl, rfl, fun v hv => ?_⟩ <;> simp only [effScalar, effFloat, hv] <;> rfl

theorem assignedS_float {op : Nat} (h : 0x14 ≤ op ∧ op ≤ 0x19) (w : Word) :
    assignedS op w = some [(13, 6), (19, 6), (25, 6), (32, 3), (35, 1)] := by
  obtain ⟨hlo, hhi⟩ := h
  interval_cases op <;> rfl

theorem scalarFloat : SaysScalarFloat := by
  intro c a s m hon hm ho hl p hp r t
  obtain ⟨op, hlo, hhi, hexec, hdraws, heff⟩ := floatRows_row p hp
  have hrow : SRow s c op a [(0, 6), (6, 6), (12, 6), (19, 3), (22, 1)] :=
    ⟨by omega, by omega, assignedS_float ⟨hlo, hhi⟩ _, ho, hon⟩
  have hop := slotView_op s c .S op a hrow.lt
  have he : effScalar (s.slotView c .S op a) = roundedEffect a r := by
    rw [heff _ hop, floatEffect_slotView, slotView_wide, slotView_rmS hm, slotView_rndS hm, slotView_fnum, slotView_fnum, slotView_sa,
      slotView_sbReg]
  have hd := drawsS_float (a := a) hrow.lt hm
  rw [← hdraws] at hd
  have hrun : exec (p.1 c a) s = .next (roundedState s c a p.2.1 m r (s.slotInst c .S op a)) := by
    rw [hexec, hrow.rounds (judgeS_float (m := m) (by omega) (by rw [slotView_rm, hm])) hl hd he]; rfl
  refine ⟨fun h => hrun.trans (congrArg _ ?_), fun hr hs hn => ?_,
    fun hr hs hn htrap hdue hf => ⟨_, hrun, rounded_trapped hr hs hn htrap hdue hf⟩⟩
  · rcases h with h | h
    · exact rounded_quiet h
    · exact rounded_seen h
  · obtain ⟨rec, hrec, hstate⟩ := rounded_recorded (a := a) (draws := p.2.1) (m := m) (i := s.slotInst c .S op a) hr hs hn
    obtain ⟨g, w, hk⟩ := floatResult_core (s := s) (c := c) (a := a) (draws := p.2.1) (m := m) (r := r)
    refine ⟨_, hrun.trans (congrArg _ hstate), .setCore _ _ _ rfl, rfl, rfl, ?_⟩
    rw [State.core_setCore]
    exact ⟨rfl, by rw [hk], hrec⟩

/-! ## FCVT -/

/-- The four values of CONV. -/
theorem conv_lt (a : SlotArgs) : fld a.operands 23 2 < 4 := Nat.mod_lt _ (by decide)

theorem fcvt_effect {s : State} {c : CoreId} {a : SlotArgs} {m : RM} (hm : s.modeOf c (fld a.operands 19 3) = some m) :
    effScalar (s.slotView c .S 0x1B a) = roundedEffect a (fcvtResult s c a m) := by
  have hop := slotView_op s c .S 0x1B a (by decide)
  have hconv : (s.slotView c .S 0x1B a).f 36 2 = fld a.operands 23 2 := slotView_f s c .S 0x1B a 23 2
  have he : effScalar (s.slotView c .S 0x1B a) = effFloat (s.slotView c .S 0x1B a) := by simp [effScalar, hop]
  have hlt := conv_lt a
  rw [he]
  unfold effFloat fcvtResult
  simp only [hop, hconv, convF, floatEffect_slotView, slotView_sa, slotView_wide, slotView_fnum, slotView_rmS hm, slotView_rndS hm]
  generalize fld a.operands 23 2 = conv at hlt
  interval_cases conv <;> rfl

theorem scalarConvert : SaysScalarConvert := by
  intro c a s m hon hm ho hl hq
  have hconv : fld (slotWord 0x1B a) 36 2 = fld a.operands 23 2 := slotWord_operand 0x1B a 23 2
  have hrow : SRow s c 0x1B a ([(0, 6), (6, 6), (19, 3), (23, 2)] ++ if fld a.operands 23 2 < 2 then [(22, 1)] else []) := by
    have hfields : assignedS 0x1B (slotWord 0x1B a) = some ([(13, 6), (19, 6), (32, 3), (36, 2)] ++
      if fld (slotWord 0x1B a) 36 2 < 2 then [(35, 1)] else []) := rfl
    refine ⟨by decide, by decide, ?_, ho, hon⟩
    rw [hfields, hconv]
    split <;> rfl
  have hop := slotView_op s c .S 0x1B a hrow.lt
  have hj := judgeS_float (v := s.slotView c .S 0x1B a) (m := m) (by omega) (by rw [slotView_rm, hm])
  have hd : drawsS (s.slotView c .S 0x1B a) = scalarDraws true m := drawsS_float hrow.lt hm
  exact congrArg Host.Outcome.next ((hrow.rounds hj hl hd (fcvt_effect hm)).trans (rounded_quiet hq))

/-- Settles O8: every row completes with one rounded result; what its NaN does rests on NAN_SEEN and NAN_MODE alone. -/
theorem scalarFloatAndConvert : Obligations.ScalarFloatAndConvert := ⟨scalarFloat, scalarConvert⟩

end Sys2Proof.Machine
end

section
/-! A load in flight whose bandwidth is counted: two contexts hold the core's bay, out of the canonical order of O4. -/
namespace Sys2Proof.Machine

/-- A context on bay 0. -/
def bayCtx : Ctx := { Ctx.start with bayMap := [0] }

/-- Contexts 1 and 0, in this order, both hold bay 0. Context 1 has one bay, a bandwidth of 1 GB/s and channel group 0,
context 0 has group 1. The first byte of group 0 is 1. -/
def regulatedState : State :=
  ((((({ State.reset with ctxs := [(1, bayCtx), (0, bayCtx)], tier1 := [(0, 1)] }.wr (Reg.ctx 1) Reg.CTX_BAYS 1).wr
    (Reg.ctx 1) Reg.CTX_BW_GBPS 1).wr (Reg.ctx 1) Reg.CTX_DRAM_GROUPS 1).wr (Reg.ctx 1) Reg.CTX_GROUP_BYTES 4096).wr
    (Reg.ctx 0) Reg.CTX_DRAM_GROUPS 2).wr (Reg.ctx 0) Reg.CTX_GROUP_BYTES 4096

/-- VMLOAD to p1 of the 8 bytes at offset 0 of the region, which descriptor 0 names. -/
def loadInst : InFlight :=
  { instOf Core.start .V (slotWord 0x23 ⟨0, false, 1⟩) none with regs := { RegFile.zero with td := [(0, maskDesc)] } }

/-- The load is in flight on core 0. -/
def loadState : State := regulatedState.setCore 0 { Core.start with flight := [loadInst] }

theorem load_oldest : onUnit (loadState.core 0).flight .vector 0 = some loadInst := by decide +kernel
theorem load_completes : isWw loadInst = false ∧ passDone loadState 0 loadInst = true ∧
    storesAfter loadState 0 (loadState.core 0).flight loadInst = false ∧ (loadState.regulate 0 loadInst).2 = true := by decide +kernel

/-- Core 0 serves context 1, and once the load's bytes are counted context 0. -/
theorem load_place : loadState.place 0 = some (1, 0) ∧ (loadState.regulate 0 loadInst).1.place 0 = some (0, 0) := by decide +kernel

/-- The load that the statement means reads context 1's region. -/
theorem load_meant : ((storeAll (loadState.setCore 0 ((effSlot (viewOf loadState 0 loadInst)).onCore (loadState.core 0)))
    (viewOf loadState 0 loadInst).origin (joinWrites ((effSlot (viewOf loadState 0 loadInst)).rest 0).mem)).core 0).data.1.preg 1 = 1 := by
  decide +kernel
/-- The load that completes reads context 0's. -/
theorem load_completed : ((loadState.unitComplete 0 .vector 0).core 0).data.1.preg 1 = 0 := by decide +kernel

/-- Refutes O24: counting an instruction's bytes against its bandwidth puts its context back into the table in order, before
the effect is worked out; where an earlier context holds the same bay, the instruction then reads that one's memory. O24 does
not ask for the canonical form of the table (O4), in which a context keeps its place. -/
theorem not_unitsComplete : ¬ Obligations.UnitsComplete := by
  intro h
  obtain ⟨-, hcompletes, -⟩ := h 0 .vector 0 loadInst loadState (fun _ => rfl) load_oldest
  obtain ⟨hww, hpass, hstores, hregulate⟩ := load_completes
  obtain ⟨t, ht, ⟨hdata, -⟩, -⟩ := hcompletes hww hpass hstores hregulate
  obtain rfl : loadState.unitComplete 0 .vector 0 = t := Host.Outcome.next.inj ht
  have hone : (0 : Word) = 1 := load_completed.symm.trans ((congrArg (fun d => d.1.preg 1) (hdata 0)).trans load_meant)
  exact absurd hone (by decide)

end Sys2Proof.Machine
end

section
/-! A peg's signals: what applying one leaves of the core that waits (07 R198, R199). -/
namespace Sys2Proof.Machine

/-! ## The waiters of a peg -/

/-- A core whose PEGW waits for peg p is released where the count passes its test. -/
def Core.release (k : Core) (p : Nat) (count : BitVec 32) : Core :=
  match k.pegWait with
  | some w => if w.peg = p ∧ pegHolds count w.threshold then { k with pegWait := some { w with released := true } } else k
  | none => k

section
variable {k : Core} {p : Nat} {count : BitVec 32} {w w0 : PegWait}

theorem release_none (h : k.pegWait = none) : k.release p count = k := by rw [Core.release, h]
theorem release_holds (h : k.pegWait = some w) (hw : w.peg = p ∧ pegHolds count w.threshold) :
    k.release p count = { k with pegWait := some { w with released := true } } := by rw [Core.release, h]; exact if_pos hw
theorem release_fails (h : k.pegWait = some w) (hw : ¬ (w.peg = p ∧ pegHolds count w.threshold)) : k.release p count = k := by
  rw [Core.release, h]; exact if_neg hw

/-- Released, waiting still, or never waiting: the three cases of a release. -/
theorem release_cases (k : Core) (p : Nat) (count : BitVec 32) : k.release p count = k ∨
    ∃ w, k.pegWait = some w ∧ (w.peg = p ∧ pegHolds count w.threshold) ∧
      k.release p count = { k with pegWait := some { w with released := true } } := by
  cases h : k.pegWait with
  | none => exact .inl (release_none h)
  | some w =>
    by_cases hw : w.peg = p ∧ pegHolds count w.threshold
    · exact .inr ⟨w, rfl, hw, release_holds h hw⟩
    · exact .inl (release_fails h hw)

theorem release_release (k : Core) (p : Nat) (count : BitVec 32) : (k.release p count).release p count = k.release p count := by
  rcases release_cases k p count with hk | ⟨w, -, hw, hk⟩
  · rw [hk, hk]
  · rw [hk]; exact release_holds (w := { w with released := true }) rfl hw

theorem release_data (k : Core) (p : Nat) (count : BitVec 32) : (k.release p count).data = k.data := by
  rcases release_cases k p count with hk | ⟨w, -, -, hk⟩ <;> rw [hk]
  rfl

/-- A wait after the release is one from before it, released where its test holds (R199). -/
theorem release_pegWait (h : (k.release p count).pegWait = some w) :
    ∃ w0, k.pegWait = some w0 ∧ w.peg = w0.peg ∧ w.threshold = w0.threshold ∧
      (w.released = true → w0.released = true ∨ (w.peg = p ∧ (count - w.threshold).toNat < 2 ^ 31)) := by
  rcases release_cases k p count with hk | ⟨w0, h0, ⟨hpeg, hholds⟩, hk⟩
  · exact ⟨w, hk ▸ h, rfl, rfl, .inl⟩
  · obtain rfl : { w0 with released := true } = w := Option.some.inj (by rw [← h, hk])
    exact ⟨w0, h0, rfl, rfl, fun _ => .inr ⟨hpeg, of_decide_eq_true hholds⟩⟩

theorem release_passed (h : k.pegWait = some w0) (hpeg : w0.peg = p) (hc : (count - w0.threshold).toNat < 2 ^ 31) :
    ∃ w, (k.release p count).pegWait = some w ∧ w.released = true :=
  ⟨{ w0 with released := true }, by rw [release_holds h ⟨hpeg, decide_eq_true hc⟩], rfl⟩
end

/-! ## Applying a signal -/

theorem mapGet_of_not_mem_keys {α : Type} (d : α) {m : Map α} {a : Nat} (h : a ∉ m.map (fun kv => kv.1)) : mapGet d m a = d := by
  induction m with
  | nil => rfl
  | cons e m ih =>
    obtain ⟨hne, hm⟩ := not_or.mp (mt List.mem_cons.mpr h)
    rw [mapGet, if_neg (Ne.symm hne), ih hm]

theorem releaseWaiters_cons (s : State) (p c : Nat) (cs : List Nat) :
    releaseWaiters s p (c :: cs) = releaseWaiters (s.setCore c ((s.core c).release p (mapGet 0 s.pegs p))) p cs ∨
    releaseWaiters s p (c :: cs) = releaseWaiters s p cs ∧ (s.core c).release p (mapGet 0 s.pegs p) = s.core c := by
  rw [releaseWaiters]
  cases h : (s.core c).pegWait with
  | none => exact .inr ⟨rfl, release_none h⟩
  | some w =>
    by_cases hw : w.peg = p ∧ pegHolds (mapGet 0 s.pegs p) w.threshold
    · exact .inl (by rw [release_holds h hw]; simp only [if_pos hw])
    · exact .inr ⟨by simp only [if_neg hw], release_fails h hw⟩

/-- Each listed core is released, however often it is listed; pegs and signals stay. -/
theorem releaseWaiters_core (p : Nat) (cs : List Nat) (s : State) :
    (releaseWaiters s p cs).pegs = s.pegs ∧ (releaseWaiters s p cs).pegSignals = s.pegSignals ∧
    ∀ d, (releaseWaiters s p cs).core d = if d ∈ cs then (s.core d).release p (mapGet 0 s.pegs p) else s.core d := by
  induction cs generalizing s with
  | nil => exact ⟨rfl, rfl, fun _ => rfl⟩
  | cons c cs ih =>
    rcases releaseWaiters_cons s p c cs with h | ⟨h, hsame⟩ <;> rw [h]
    · obtain ⟨hpegs, hsignals, hcore⟩ := ih (s.setCore c ((s.core c).release p (mapGet 0 s.pegs p)))
      refine ⟨hpegs, hsignals, fun d => ?_⟩
      rw [hcore, State.setCore_pegs]
      by_cases hd : d = c
      · subst hd; simp [release_release]
      · simp [State.core_setCore_ne _ _ hd, hd]
    · obtain ⟨hpegs, hsignals, hcore⟩ := ih s
      refine ⟨hpegs, hsignals, fun d => ?_⟩
      rw [hcore]
      by_cases hd : d = c
      · rw [hd, hsame, ite_self, ite_self]
      · simp [hd]

/-- The engines' counts stand in the contexts. -/
theorem countPeg_ctxs (p inc : Nat) (xs : List Nat) (s : State) :
    (countPeg s p inc xs).cores = s.cores ∧ (countPeg s p inc xs).pegs = s.pegs ∧
    (countPeg s p inc xs).pegSignals = s.pegSignals := by
  induction xs generalizing s with
  | nil => exact ⟨rfl, rfl, rfl⟩
  | cons x xs ih =>
    have hstep : ∃ t, countPeg s p inc (x :: xs) = countPeg t p inc xs ∧
        t.cores = s.cores ∧ t.pegs = s.pegs ∧ t.pegSignals = s.pegSignals := by
      refine ⟨_, rfl, ?_⟩
      split_ifs <;> exact ⟨rfl, rfl, rfl⟩
    obtain ⟨t, ht, tcores, tpegs, tsignals⟩ := hstep
    obtain ⟨hcores, hpegs, hsignals⟩ := ih t
    rw [ht]
    exact ⟨hcores.trans tcores, hpegs.trans tpegs, hsignals.trans tsignals⟩

/-- The increment of a signal taken is in its peg. -/
def State.incremented (s : State) (p : Nat) (g : PegSignal) (rest : List PegSignal) : State :=
  { s with pegSignals := rest, pegs := mapSet 0 s.pegs p (mapGet 0 s.pegs p + g.inc) }

section
variable {s : State} {p : Nat} {g : PegSignal} {rest : List PegSignal} (h : takeSignal p s.pegSignals = some (g, rest))
include h

theorem pegApply_eq : s.pegApply p =
    releaseWaiters (countPeg (s.incremented p g rest) p g.inc.toNat s.ctxKeys) p (s.cores.map (fun kv => kv.1)) := by
  rw [State.pegApply, h]; rfl

/-- Applying a peg's oldest signal adds its increment to the peg and releases every core that waits for it and passes. -/
theorem pegApply_of_signal : (s.pegApply p).pegSignals = rest ∧
    (s.pegApply p).pegs = mapSet 0 s.pegs p (mapGet 0 s.pegs p + g.inc) ∧
    ∀ d, (s.pegApply p).core d = (s.core d).release p (mapGet 0 s.pegs p + g.inc) := by
  obtain ⟨ccores, cpegs, csignals⟩ := countPeg_ctxs p g.inc.toNat s.ctxKeys (s.incremented p g rest)
  obtain ⟨hpegs, hsignals, hcore⟩ := releaseWaiters_core p (s.cores.map (fun kv => kv.1))
    (countPeg (s.incremented p g rest) p g.inc.toNat s.ctxKeys)
  have hcount : mapGet 0 (s.incremented p g rest).pegs p = mapGet 0 s.pegs p + g.inc := mapGet_mapSet_self ..
  have hsame (d : Nat) : (countPeg (s.incremented p g rest) p g.inc.toNat s.ctxKeys).core d = s.core d := by
    rw [State.core, ccores]; rfl
  rw [pegApply_eq h]
  refine ⟨hsignals.trans csignals, hpegs.trans cpegs, fun d => ?_⟩
  rw [hcore, cpegs, hcount, hsame]
  split
  · rfl
  · next hd =>
    have hstart : s.core d = Core.start := mapGet_of_not_mem_keys _ hd
    rw [hstart, release_none rfl]
end

/-! ## The barrier of a FENCE -/

/-- An instruction in flight that a barrier waits for: issued before it, in a scope of its mask (R201). -/
def State.barred (s : State) (c : Nat) (b : FenceBar) : Bool :=
  (s.core c).flight.any (fun e => decide (e.seq.toNat < b.seq.toNat) && decide (scopesOf (viewOf s c e) &&& b.mask.toNat ≠ 0))

theorem fenceClear_of_fence {s : State} {c : CoreId} {b : FenceBar} (h : (s.core c.val).fence = some b) :
    s.fenceClear c = if s.barred c.val b then s else s.setCore c.val { s.core c.val with fence := none } := by
  rw [State.fenceClear, h]; rfl

/-- The barrier stands while it bars, and then goes. -/
theorem fenceClear_runs {s : State} {c : CoreId} {b : FenceBar} (h : (s.core c.val).fence = some b) :
    (s.barred c.val b = true → exec (.fenceClear c) s = .next s) ∧
    (s.barred c.val b = false → exec (.fenceClear c) s = .next (s.setCore c.val { s.core c.val with fence := none })) := by
  have hexec : exec (.fenceClear c) s = .next (s.fenceClear c) := rfl
  rw [hexec, fenceClear_of_fence h]
  exact ⟨fun hb => by rw [if_pos hb], fun hb => by rw [if_neg (by simp [hb])]⟩

theorem pegwRelease_of_wait {s : State} {c : CoreId} {w : PegWait} (h : (s.core c.val).pegWait = some w) :
    exec (.pegwRelease c) s = .next (if w.released then s.setCore c.val { s.core c.val with pegWait := none } else s) := by
  show Host.Outcome.next (s.pegwRelease c) = _
  rw [State.pegwRelease, h]

/-- Settles O25: applying a signal is one release of every core, those that wait being among the listed ones. -/
theorem pegsApplyAndRelease : Obligations.PegsApplyAndRelease := by
  intro s
  refine ⟨fun p g rest h => ⟨s.pegApply p.val, rfl, ?_⟩, fun c w h => ?_, fun c b h => (fenceClear_runs h).symm⟩
  · obtain ⟨hsignals, hpegs, hcore⟩ := pegApply_of_signal h
    have hcount : mapGet 0 (s.pegApply p.val).pegs p.val = mapGet 0 s.pegs p.val + g.inc := by rw [hpegs, mapGet_mapSet_self]
    simp only [hcount, hcore]
    refine ⟨hsignals, fun q => ?_, fun d w hw => release_pegWait hw, fun d w0 hw hpeg hc => release_passed hw hpeg hc,
      fun d => release_data ..⟩
    rw [hpegs, mapGet_mapSet]
    by_cases hq : q = p.val
    · rw [if_pos hq, if_pos hq, hq]
    · rw [if_neg hq, if_neg hq]
  · rw [pegwRelease_of_wait h]
    exact ⟨fun hr => by rw [if_pos hr], fun hr => by rw [if_neg (by simp [hr])]⟩

end Sys2Proof.Machine
end

section
/-! The status moves of the S slot: the status space (05 R133, Tables 05-2 and 05-3; 03 Table 03-4; 06 R170, R182). -/
namespace Sys2Proof.Machine

/-! ## NUMERIC_STATUS, TRAP_CONTROL and TILE_STATUS as a status move writes them -/

/-- The seven flags are RW1C, and the rounding mode follows from bit 8. -/
theorem numStatusWrite_bit (old v : Word) (i : Nat) : (numStatusWrite old v).getLsbD i =
    if i < 7 then old.getLsbD i && !v.getLsbD i
    else decide (8 ≤ i ∧ i < 64) && (if fld v 8 3 < 6 then fld v 8 3 else fld old 8 3).testBit (i - 8) := by
  have hmask : (0x7F : Word).getLsbD i = decide (i < 7) := by
    have h64 : i < 7 → i < 64 := by omega
    rw [show (0x7F : Word) = BitVec.ofNat 64 (2 ^ 7 - 1) from rfl, BitVec.getLsbD_ofNat, Nat.testBit_two_pow_sub_one]
    simpa using h64
  rw [numStatusWrite, BitVec.getLsbD_or, BitVec.getLsbD_and, BitVec.getLsbD_and, BitVec.getLsbD_not, BitVec.getLsbD_and, hmask,
    BitVec.getLsbD_shiftLeft, BitVec.getLsbD_ofNat]
  by_cases h : i < 7
  · have h8 : i < 8 := by omega
    have h64 : i < 64 := by omega
    simp [h, h8, h64]
  · by_cases h8 : i < 8
    · simp [h, h8]
    · have hsub : i < 64 → i - 8 < 64 := by omega
      by_cases h64 : i < 64
      · simp [h, h8, h64, hsub h64]; omega
      · simp [h, h8, h64]

theorem fld_lt {w : Nat} (x : BitVec w) (lo len : Nat) : fld x lo len < 2 ^ len := Nat.mod_lt _ (Nat.two_pow_pos len)

theorem numStatusWrite_dyn (old v : Word) :
    fld (numStatusWrite old v) 8 3 = if fld v 8 3 < 6 then fld v 8 3 else fld old 8 3 := by
  have hlt : (if fld v 8 3 < 6 then fld v 8 3 else fld old 8 3) < 2 ^ 3 := by split <;> exact fld_lt ..
  apply Nat.eq_of_testBit_eq
  intro i
  rw [fld_extract, ← BitVec.getLsbD, BitVec.getLsbD_extractLsb', numStatusWrite_bit, if_neg (by omega), Nat.add_sub_cancel_left]
  by_cases hi : i < 3
  · rw [decide_eq_true hi, decide_eq_true (by omega), Bool.true_and, Bool.true_and]
  · rw [decide_eq_false hi, Bool.false_and,
      Nat.testBit_lt_two_pow (lt_of_lt_of_le hlt (Nat.pow_le_pow_right (by decide) (by omega)))]

theorem numStatusWrite_high (old v : Word) {i : Nat} (h : 11 ≤ i) : (numStatusWrite old v).getLsbD i = false := by
  have hlt : (if fld v 8 3 < 6 then fld v 8 3 else fld old 8 3) < 2 ^ 3 := by split <;> exact fld_lt ..
  rw [numStatusWrite_bit, if_neg (by omega),
    Nat.testBit_lt_two_pow (lt_of_lt_of_le hlt (Nat.pow_le_pow_right (by decide) (by omega))), Bool.and_false]

/-- A TRAP_CONTROL of a mode and NAN_SEEN reads them back. -/
theorem trapControl_fields {m : Nat} (h : m < 4) (b : Bool) :
    nanMode (BitVec.ofNat 64 (m + if b then 4 else 0)) = m ∧ nanSeen (BitVec.ofNat 64 (m + if b then 4 else 0)) = b := by
  interval_cases m <;> cases b <;> decide
theorem trapControlWrite_fields (old v : Word) :
    nanMode (trapControlWrite old v) = (if fld v 0 2 = 3 then nanMode old else fld v 0 2) ∧
    nanSeen (trapControlWrite old v) = (nanSeen old && !v.getLsbD 2) :=
  trapControl_fields (by split <;> exact fld_lt ..) _
theorem trapnanWrite_fields (old : Word) {mode : Nat} (h : mode < 4) (keep clear : Bool) :
    nanMode (trapnanWrite old mode keep clear) = (if keep || decide (mode = 3) then nanMode old else mode) ∧
    nanSeen (trapnanWrite old mode keep clear) = (nanSeen old && !clear) :=
  trapControl_fields (by split; exacts [fld_lt .., h]) _

theorem tileWrite_eq (old : BitVec 16) (v : Word) : tileWrite old v = if v.getLsbD 4 then old &&& 0xFFEF#16 else old := rfl

theorem statusWrite_coreOnly (v : View) (id : Nat) (w : Word) : (statusWrite v id w).CoreOnly := by
  unfold statusWrite
  split_ifs <;> exact ⟨rfl, rfl, rfl, rfl⟩

/-! ## The rows -/

/-- A row that changes its core alone leaves the core its effect gives. -/
theorem SRow.settles {s : State} {c : CoreId} {op : Nat} {a : SlotArgs} {fs : List (Nat × Nat)} (h : SRow s c op a fs) {e : Effect}
    (he : effScalar (s.slotView c .S op a) = e) (hj : judgeS (s.slotView c .S op a) = [])
    (hd : drawsS (s.slotView c .S op a) = []) (hc : e.CoreOnly) :
    s.runSlot c .S op a = s.setCore c.val (e.onCore (s.core c.val)) := by
  rw [h.sequences he hj hd hc.mem hc.nan hc.posts, hc.ctl]; rfl

theorem onCore_numStatus (k : Core) (w : Word) : Effect.onCore { numStatus := some w } k = { k with numStatus := w } := by
  simp [Effect.onCore, numStatusSet, putS, putV, putP, putTd, putLanes, putAll, countAll]
theorem onCore_trapControl (k : Core) (w : Word) : Effect.onCore { trapControl := some w } k = { k with trapControl := w } := by
  simp [Effect.onCore, numStatusSet, putS, putV, putP, putTd, putLanes, putAll, countAll]
theorem onCore_tile (k : Core) (n : Nat) (w : BitVec 16) :
    Effect.onCore { tile := [(n, w)] } k = { k with tileStatus := mapSet 0 k.tileStatus n w } := by
  simp [Effect.onCore, numStatusSet, putS, putV, putP, putTd, putLanes, putAll, countAll]

theorem slotView_place {s : State} {c : CoreId} {x j : Nat} (h : s.place c.val = some (x, j)) (sl : Slot) (op : Nat) (a : SlotArgs) :
    (s.slotView c sl op a).x = some x ∧ (s.slotView c sl op a).k = j := by
  unfold State.slotView viewOf
  rw [h]
  cases hp : (s.ctx x).programOn (j / 4) <;> simp [hp]

section
variable {s : State} {c : CoreId} {a : SlotArgs}

theorem slotView_coreIdent {x j : Nat} {p : Program} {b : BayId} (hp : s.place c.val = some (x, j))
    (hprog : (s.ctx x).programOn (j / 4) = some p) (hbay : (s.ctx x).bayMap[j / 4]? = some b) (op : Nat) :
    coreIdent (s.slotView c .S op a) = j + popCount 64 p.bays.toNat * 2 ^ 8 + s.activeCores b.val * 2 ^ 15 := by
  obtain ⟨hx, hk⟩ := slotView_place hp .S op a
  rw [coreIdent, hx]
  simp only [hk, slotView_s, hprog, hbay]

variable (hon : s.slotOn c a = true)
include hon

theorem runSlot_smovs (ho : a.only [(0, 6), (19, 12)] = true) (hid : statusAssigned (fld a.operands 19 12) = true) :
    s.runSlot c .S 0x28 a = s.withRegs c (fun r =>
      r.setS (fld a.operands 0 6) (statusRead (s.slotView c .S 0x28 a) (fld a.operands 19 12))) := by
  have hrow : SRow s c 0x28 a [(0, 6), (19, 12)] := ⟨by decide, by decide, rfl, ho, hon⟩
  have hop := slotView_op s c .S 0x28 a hrow.lt
  have hf := slotView_f s c .S 0x28 a 19 12
  have hstatus : (s.slotView c .S 0x28 a).i.status = none := by rw [slotView_i]; rfl
  exact hrow.writes (by simp [effScalar, hop, hf, hstatus]) (by simp [judgeS, hop, hf, hid, causeIf]) (drawsS_of_ne (by omega))

theorem runSlot_smovt (ho : a.only [(6, 6), (19, 12)] = true) (hid : statusAssigned (fld a.operands 19 12) = true) :
    s.runSlot c .S 0x29 a = s.setCore c.val
      ((statusWrite (s.slotView c .S 0x29 a) (fld a.operands 19 12) (s.argS c a 6)).onCore (s.core c.val)) := by
  have hrow : SRow s c 0x29 a [(6, 6), (19, 12)] := ⟨by decide, by decide, rfl, ho, hon⟩
  have hop := slotView_op s c .S 0x29 a hrow.lt
  have hf := slotView_f s c .S 0x29 a 19 12
  exact hrow.settles (by simp [effScalar, hop, hf]) (by simp [judgeS, hop, hf, hid, causeIf]) (drawsS_of_ne (by omega))
    (statusWrite_coreOnly ..)

theorem runSlot_trapnan (ho : a.only [(0, 4)] = true) :
    s.runSlot c .S 0x60 a = s.setCore c.val { s.core c.val with
      trapControl := trapnanWrite (s.core c.val).trapControl (fld a.operands 0 2) (a.operands.getLsbD 2) (a.operands.getLsbD 3) } := by
  have hrow : SRow s c 0x60 a [(0, 4)] := ⟨by decide, by decide, rfl, ho, hon⟩
  have hop := slotView_op s c .S 0x60 a hrow.lt
  rw [← onCore_trapControl]
  exact hrow.settles (by simp [effScalar, hop, slotView_core, slotView_f s c .S 0x60 a 0 2, slotView_bit s c .S 0x60 a 2,
    slotView_bit s c .S 0x60 a 3]) (by simp [judgeS, hop]) (drawsS_of_ne (by omega)) ⟨rfl, rfl, rfl, rfl⟩
end

theorem exec_smovs {s : State} {c : CoreId} {a : SlotArgs} (hon : s.slotOn c a = true) (ho : a.only [(0, 6), (19, 12)] = true)
    {id : Nat} (hf : fld a.operands 19 12 = id) (hid : statusAssigned id = true) {v : Word}
    (hv : statusRead (s.slotView c .S 0x28 a) id = v) :
    exec (.smovs c a) s = .next (s.withRegs c (fun r => r.setS (fld a.operands 0 6) v)) := by
  subst hf hv
  exact congrArg Host.Outcome.next (runSlot_smovs hon ho hid)

theorem exec_smovt {s : State} {c : CoreId} {a : SlotArgs} (hon : s.slotOn c a = true) (ho : a.only [(6, 6), (19, 12)] = true)
    {id : Nat} (hf : fld a.operands 19 12 = id) (hid : statusAssigned id = true) {e : Effect}
    (he : statusWrite (s.slotView c .S 0x29 a) id (s.argS c a 6) = e) :
    exec (.smovt c a) s = .next (s.setCore c.val (e.onCore (s.core c.val))) := by
  subst hf he
  exact congrArg Host.Outcome.next (runSlot_smovt hon ho hid)

/-- The tiles' registers stand at 0x10, the lanes' counters at 0x100 (Table 05-2). -/
theorem statusAssigned_tile {id : Nat} (h : 0x10 ≤ id ∧ id ≤ 0x1F) : statusAssigned id = true := by simp [statusAssigned, h]
theorem statusAssigned_lane {id : Nat} (h : 0x100 ≤ id ∧ id ≤ 0x13F) : statusAssigned id = true := by simp [statusAssigned, h]

theorem scalarStatus : SaysScalarStatus := by
  intro c a s hon k id w reads
  have hcore (op : Nat) : (s.slotView c .S op a).core = k := slotView_core ..
  refine ⟨fun ho => ⟨fun h => ?_, fun h => ?_, fun h => ?_, fun h => ?_, fun hlo hhi => ?_, fun hlo hhi => ?_⟩,
    fun ho => ⟨fun h => ?_, fun h => ?_, fun hlo hhi => ?_, fun h => ?_⟩, fun ho => ?_⟩
  · exact exec_smovs hon ho h rfl (by rw [← hcore 0x28]; rfl)
  · exact exec_smovs hon ho h rfl (by rw [← hcore 0x28]; rfl)
  · exact exec_smovs hon ho h rfl (congrArg InFlight.seq (slotView_i s c .S 0x28 a))
  · refine ⟨_, exec_smovs hon ho h rfl rfl, fun x j p b hp hprog hbay => ?_⟩
    exact congrArg (BitVec.ofNat 64) (slotView_coreIdent hp hprog hbay 0x28)
  · refine exec_smovs hon ho rfl (statusAssigned_tile ⟨hlo, hhi⟩) ?_
    unfold statusRead
    extract_lets k'
    iterate 4 rw [if_neg (by omega)]
    rw [if_pos hhi, show k' = k from hcore 0x28]
  · refine exec_smovs hon ho rfl (statusAssigned_lane ⟨hlo, hhi⟩) ?_
    unfold statusRead
    extract_lets k'
    iterate 5 rw [if_neg (by omega)]
    rw [slotView_regs]
  · refine ⟨numStatusWrite k.numStatus w, ?_, fun i hi => ?_, ?_, numStatusWrite_dyn .., fun i hi => numStatusWrite_high _ _ hi⟩
    · rw [← onCore_numStatus]
      exact exec_smovt hon ho h rfl (by rw [← hcore 0x29]; rfl)
    · rw [numStatusWrite_bit, if_pos hi]
    · rw [numStatusWrite_bit]; rfl
  · refine ⟨trapControlWrite k.trapControl w, ?_, trapControlWrite_fields ..⟩
    rw [← onCore_trapControl]
    exact exec_smovt hon ho h rfl (by rw [← hcore 0x29]; rfl)
  · have he : statusWrite (s.slotView c .S 0x29 a) id w =
        { tile := [(id - 0x10, tileWrite (mapGet 0 k.tileStatus (id - 0x10)) w)] } := by
      rw [statusWrite, if_neg (by omega), if_neg (by omega), if_pos ⟨hlo, hhi⟩, hcore]
    refine ⟨_, exec_smovt hon ho rfl (statusAssigned_tile ⟨hlo, hhi⟩) he, ?_, fun n => ?_⟩
    · rw [State.core_setCore, onCore_tile]
    · rw [State.core_setCore, onCore_tile]
      show mapGet 0 (mapSet 0 k.tileStatus _ _) n = _
      rw [mapGet_mapSet, tileWrite_eq]
      by_cases hn : n = id - 0x10
      · subst hn
        cases hw : w.getLsbD 4 <;> simp
      · rw [if_neg hn, if_neg (by simp [hn])]
  · have hid : statusAssigned id = true := by rcases h with h | h | h; exacts [by rw [h]; rfl, by rw [h]; rfl, statusAssigned_lane h]
    have he : statusWrite (s.slotView c .S 0x29 a) id w = {} := by
      rw [statusWrite, if_neg (by omega), if_neg (by omega), if_neg (by omega)]
    have hexec := exec_smovt hon ho rfl hid he
    rwa [onCore_empty] at hexec
  · exact ⟨_, congrArg Host.Outcome.next (runSlot_trapnan hon ho), trapnanWrite_fields _ (fld_lt a.operands 0 2) _ _⟩

end Sys2Proof.Machine
end

section
/-! Signals, waits and barriers as a core's instruction leaves them, and PEGS, PEGW and FENCE (07 R198, R199, R201). -/
namespace Sys2Proof.Machine

/-! ## The sequencing of one instruction -/

/-- A core stays as it stands and sequences instruction i. -/
def State.steered (s : State) (c : CoreId) (i : InFlight) (ctl : Ctl) : State := (s.setCore c.val (s.core c.val)).control c i ctl

section
variable (s : State) (c : CoreId) (i : InFlight)

theorem sameData_steered (ctl : Ctl) : SameData s (s.steered c i ctl) :=
  (SameData.setCore s c.val _ rfl).trans (sameData_control ..)

theorem steered_none : s.steered c i .none = s.setCore c.val (s.core c.val) := rfl
theorem steered_halt : s.steered c i .halt = s.setCore c.val { s.core c.val with halt := true } := by
  simp only [State.steered, State.control, State.core_setCore, State.setCore_setCore]
theorem steered_branch (t : Word) :
    s.steered c i (.branch t) = s.setCore c.val { s.core c.val with pc := t, legacyAt := legacyOf s c t } := by
  simp only [State.steered, State.control, State.goTo, State.core_setCore, State.setCore_setCore, programOf_setCore, legacyOf]

section
variable {s} {x j : Nat} (hp : s.place c.val = some (x, j))
include hp

/-- A signal leaves for the peg of the core's context (R198). -/
theorem steered_signal (n inc : Nat) : (s.steered c i (.signal n inc)).pegSignals =
    s.pegSignals ++ [⟨s.rd (Reg.ctx x) Reg.CTX_PEG_BASE + n, BitVec.ofNat 32 inc, some c⟩] := by
  have hp' : (s.setCore c.val (s.core c.val)).place c.val = some (x, j) := hp
  simp only [State.steered, State.control, hp']; rfl

/-- A PEGW waits for the peg of its context, released at once where its test holds (R199). -/
theorem steered_pegw (n : Nat) (th : BitVec 32) :
    s.steered c i (.pegw n th) = s.setCore c.val { s.core c.val with
      pegWait := some ⟨s.pegOf x n, th, pegHolds (mapGet 0 s.pegs (s.pegOf x n)) th, i⟩ } := by
  have hp' : (s.setCore c.val (s.core c.val)).place c.val = some (x, j) := hp
  simp only [State.steered, State.control, hp', State.core_setCore, State.setCore_setCore]; rfl
end

/-- A FENCE leaves its barrier, unless its mask is zero (R201). -/
theorem steered_fence (m : BitVec 5) : s.steered c i (.fence m) = s.setCore c.val
    (if m = 0 then s.core c.val else { s.core c.val with fence := some ⟨m, i.seq, i⟩ }) := by
  simp only [State.steered, State.control, State.core_setCore, State.setCore_setCore]
  split <;> rfl
end

/-- A row whose effect is its sequencing. -/
theorem SRow.steers {s : State} {c : CoreId} {op : Nat} {a : SlotArgs} {fs : List (Nat × Nat)} (h : SRow s c op a fs) {ctl : Ctl}
    (he : effScalar (s.slotView c .S op a) = { ctl := ctl }) (hj : judgeS (s.slotView c .S op a) = [])
    (hd : drawsS (s.slotView c .S op a) = []) :
    s.runSlot c .S op a = s.steered c (s.slotInst c .S op a) ctl := by
  rw [h.sequences he hj hd rfl rfl rfl]
  exact congrArg (fun k => (s.setCore c.val k).control c _ ctl) (onCore_empty _)

/-! ## The rows -/

section
variable {s : State} {c : CoreId} {a : SlotArgs} (hon : s.slotOn c a = true)
include hon

theorem runSlot_pegs (ho : a.only [(0, 16), (16, 8)] = true) (hn : fld a.operands 0 16 < (s.declOf c).pegs)
    (h0 : fld a.operands 16 8 ≠ 0) : s.runSlot c .S 0x50 a =
      s.steered c (s.slotInst c .S 0x50 a) (.signal (fld a.operands 0 16) (fld a.operands 16 8)) := by
  have hrow : SRow s c 0x50 a [(0, 16), (16, 8)] := ⟨by decide, by decide, rfl, ho, hon⟩
  have hop := slotView_op s c .S 0x50 a hrow.lt
  have hpeg := slotView_f s c .S 0x50 a 0 16
  have hinc := slotView_f s c .S 0x50 a 16 8
  exact hrow.steers (by simp [effScalar, hop, hpeg, hinc])
    (by simp [judgeS, hop, hpeg, hinc, slotView_decl, causeIf, h0, hn]) (drawsS_of_ne (by omega))

theorem runSlot_pegw (ho : a.only [(0, 16), (19, 32)] = true) (hn : fld a.operands 0 16 < (s.declOf c).pegs) :
    s.runSlot c .S 0x51 a = s.steered c (s.slotInst c .S 0x51 a)
      (.pegw (fld a.operands 0 16) (BitVec.ofNat 32 (fld a.operands 19 32))) := by
  have hrow : SRow s c 0x51 a [(0, 16), (19, 32)] := ⟨by decide, by decide, rfl, ho, hon⟩
  have hop := slotView_op s c .S 0x51 a hrow.lt
  have hpeg := slotView_f s c .S 0x51 a 0 16
  exact hrow.steers (by simp [effScalar, hop, hpeg, slotView_f s c .S 0x51 a 19 32])
    (by simp [judgeS, hop, hpeg, slotView_decl, causeIf, hn]) (drawsS_of_ne (by omega))

theorem runSlot_fence (ho : a.only [(0, 5)] = true) : s.runSlot c .S 0x52 a =
    s.steered c (s.slotInst c .S 0x52 a) (.fence (BitVec.ofNat 5 (fld a.operands 0 5))) := by
  have hrow : SRow s c 0x52 a [(0, 5)] := ⟨by decide, by decide, rfl, ho, hon⟩
  have hop := slotView_op s c .S 0x52 a hrow.lt
  exact hrow.steers (by simp [effScalar, hop, slotView_f s c .S 0x52 a 0 5]) (by simp [judgeS, hop])
    (drawsS_of_ne (by omega))
end

/-- Behind a barrier nothing issues (R201). -/
theorem mayIssue_of_fence {s : State} {c : CoreId} {b : FenceBar} (h : (s.core c.val).fence = some b) : mayIssue s c.val = none := by
  unfold mayIssue
  split
  · rfl
  · simp [h]
theorem issue_of_fence {s : State} {c : CoreId} {b : FenceBar} (h : (s.core c.val).fence = some b) :
    exec (.bundleIssue c) s = .next s ∧ exec (.legacyWordIssue c) s = .next s := by
  constructor
  · show Host.Outcome.next (s.bundleIssue c) = _
    rw [State.bundleIssue, mayIssue_of_fence h]
  · show Host.Outcome.next (s.legacyWordIssue c) = _
    rw [State.legacyWordIssue, mayIssue_of_fence h]

theorem pegsAndFences : SaysPegsAndFences := by
  intro c a s hon k n
  refine ⟨fun x j hp hn => ⟨fun ho h0 => ?_, fun ho => ?_⟩, fun ho => ⟨fun h0 => ?_, fun h0 => ?_⟩, fun b hb => ?_⟩
  · refine ⟨_, congrArg Host.Outcome.next (runSlot_pegs hon ho hn h0), sameData_steered .., ?_⟩
    exact steered_signal c _ hp ..
  · refine ⟨_, congrArg Host.Outcome.next (runSlot_pegw hon ho hn), sameData_steered .., ?_⟩
    rw [steered_pegw c _ hp, State.core_setCore]
    exact ⟨rfl, _, rfl, rfl, rfl, decide_eq_true_iff⟩
  · refine ⟨_, congrArg Host.Outcome.next (runSlot_fence hon ho), sameData_steered .., ?_⟩
    have hmask : BitVec.ofNat 5 (fld a.operands 0 5) = 0 := by rw [h0]; rfl
    rw [steered_fence, State.core_setCore, if_pos hmask]
  · refine ⟨_, congrArg Host.Outcome.next (runSlot_fence hon ho), sameData_steered .., ?_⟩
    have hlt := fld_lt a.operands 0 5
    have hmask : BitVec.ofNat 5 (fld a.operands 0 5) ≠ 0 := by bv_omega
    rw [steered_fence, State.core_setCore, if_neg hmask]
    exact ⟨_, rfl, rfl, rfl⟩
  · obtain ⟨hbundle, hword⟩ := issue_of_fence hb
    exact ⟨hbundle, hword, fenceClear_runs hb⟩

/-- Settles O12: a status move writes one register, and a peg's or fence's row is its own sequencing. -/
theorem scalarStatusAndPegs : Obligations.ScalarStatusAndPegs := ⟨scalarStatus, pegsAndFences⟩

end Sys2Proof.Machine
end

section
/-! The W1 operations as they run: the slot word each is translated to, what it sees, and how it completes (07 R208, R209). -/
namespace Sys2Proof.Machine

/-! ## The fields of a legacy operation (Table 07-4) -/

section
variable {op : Nat} (a : LegacyArgs) (h : op < 64)
include h

theorem operation_lt : LegacyArgs.operation op a < 2 ^ 21 := by
  have := a.operands.isLt
  unfold LegacyArgs.operation; omega
theorem operation_op : bitsAt (LegacyArgs.operation op a) 0 6 = op := by
  simp only [bitsAt, LegacyArgs.operation, Nat.shiftRight_zero]; omega
/-- The operand fields lie at bit 6 and up. -/
theorem operation_field (lo len : Nat) : bitsAt (LegacyArgs.operation op a) (6 + lo) len = fld a.operands lo len := by
  have hdiv : (op + a.operands.toNat * 64) / 2 ^ 6 = a.operands.toNat := by omega
  rw [bitsAt, LegacyArgs.operation, Nat.shiftRight_add, Nat.shiftRight_eq_div_pow _ 6, hdiv]; rfl

/-- The operation stands in its word at its position. -/
theorem legacyOp_legacyWord (k : Core) (sl : Slot) (w : Word) :
    legacyOp (instOf k sl w (some (a.pos, legacyWord op a))) = LegacyArgs.operation op a := by
  have hlt := operation_lt a h
  unfold LegacyArgs.operation at hlt
  obtain ⟨operands, pos, wait⟩ := a
  show fld (BitVec.ofNat 64 _) (21 * pos.val) 21 = _
  simp only [fld, bitsAt, BitVec.toNat_ofNat, Nat.shiftRight_eq_div_pow, LegacyArgs.operation]
  fin_cases pos <;> cases wait <;> simp <;> omega
end

/-! ## Translated words -/

theorem fld_of_toNat {w : Nat} {x : BitVec w} {n : Nat} (h : x.toNat = n) (lo len : Nat) : fld x lo len = n / 2 ^ lo % 2 ^ len := by
  rw [fld, h, bitsAt, Nat.shiftRight_eq_div_pow]

/-- A word of the S slot by its fields: SD, SA, SB, USE_IMM and IMM (06 Table 06-4). -/
def scalarWord (op d a b u i : Nat) : Word :=
  BitVec.ofNat 64 (op * 32 + d * 2 ^ 13 + a * 2 ^ 19 + b * 2 ^ 25 + u * 2 ^ 31 + i * 2 ^ 32)

/-! The translations of Table 07-5 name some of the fields. The sum is rewritten field by field: by reduction the kernel would
unfold the products. -/
section
variable (op d a b i : Nat)

theorem slotOf_nil : slotOf op [] = scalarWord op 0 0 0 0 0 := by
  rw [slotOf, List.foldl_nil, scalarWord]
  exact congrArg (BitVec.ofNat 64) (by omega)
theorem slotOf_a : slotOf op [(19, a)] = scalarWord op 0 a 0 0 0 := by
  rw [slotOf, List.foldl_cons, List.foldl_nil, scalarWord]
  exact congrArg (BitVec.ofNat 64) (by dsimp only; omega)
theorem slotOf_di : slotOf op [(13, d), (32, i)] = scalarWord op d 0 0 0 i := by
  rw [slotOf, List.foldl_cons, List.foldl_cons, List.foldl_nil, scalarWord]
  exact congrArg (BitVec.ofNat 64) (by dsimp only; omega)
theorem slotOf_dab : slotOf op [(13, d), (19, a), (25, b)] = scalarWord op d a b 0 0 := by
  rw [slotOf, List.foldl_cons, List.foldl_cons, List.foldl_cons, List.foldl_nil, scalarWord]
  exact congrArg (BitVec.ofNat 64) (by dsimp only; omega)
theorem slotOf_dai : slotOf op [(13, d), (19, a), (32, i)] = scalarWord op d a 0 0 i := by
  rw [slotOf, List.foldl_cons, List.foldl_cons, List.foldl_cons, List.foldl_nil, scalarWord]
  exact congrArg (BitVec.ofNat 64) (by dsimp only; omega)
theorem slotOf_abi : slotOf op [(19, a), (25, b), (32, i)] = scalarWord op 0 a b 0 i := by
  rw [slotOf, List.foldl_cons, List.foldl_cons, List.foldl_cons, List.foldl_nil, scalarWord]
  exact congrArg (BitVec.ofNat 64) (by dsimp only; omega)
theorem slotOf_daui : slotOf op [(13, d), (19, a), (31, 1), (32, i)] = scalarWord op d a 0 1 i := by
  rw [slotOf, List.foldl_cons, List.foldl_cons, List.foldl_cons, List.foldl_cons, List.foldl_nil, scalarWord]
  exact congrArg (BitVec.ofNat 64) (by dsimp only; omega)
end

/-- The fields of a word fit their widths. -/
structure ScalarFields (op d a b u i : Nat) : Prop where
  op : op < 256
  d : d < 64
  a : a < 64
  b : b < 64
  u : u < 2
  i : i < 2 ^ 32

section
variable {op d a b u i : Nat} (h : ScalarFields op d a b u i)
include h

theorem scalarWord_toNat :
    (scalarWord op d a b u i).toNat = op * 32 + d * 2 ^ 13 + a * 2 ^ 19 + b * 2 ^ 25 + u * 2 ^ 31 + i * 2 ^ 32 := by
  obtain ⟨hop, hd, ha, hb, hu, hi⟩ := h
  rw [scalarWord, BitVec.toNat_ofNat, Nat.mod_eq_of_lt (by omega)]
theorem scalarWord_pred : fld (scalarWord op d a b u i) 0 5 = 0 := by
  rw [fld_of_toNat (scalarWord_toNat h)]; omega
theorem scalarWord_op : fld (scalarWord op d a b u i) 5 8 = op := by
  have ⟨hop, hd, ha, hb, hu, hi⟩ := h
  rw [fld_of_toNat (scalarWord_toNat h)]; omega
theorem scalarWord_d : fld (scalarWord op d a b u i) 13 6 = d := by
  have ⟨hop, hd, ha, hb, hu, hi⟩ := h
  rw [fld_of_toNat (scalarWord_toNat h)]; omega
theorem scalarWord_a : fld (scalarWord op d a b u i) 19 6 = a := by
  have ⟨hop, hd, ha, hb, hu, hi⟩ := h
  rw [fld_of_toNat (scalarWord_toNat h)]; omega
theorem scalarWord_b : fld (scalarWord op d a b u i) 25 6 = b := by
  have ⟨hop, hd, ha, hb, hu, hi⟩ := h
  rw [fld_of_toNat (scalarWord_toNat h)]; omega
theorem scalarWord_u : (scalarWord op d a b u i).getLsbD 31 = decide (u = 1) := by
  have ⟨hop, hd, ha, hb, hu, hi⟩ := h
  rw [BitVec.getLsbD, scalarWord_toNat h, Nat.testBit_eq_decide_div_mod_eq]
  apply decide_eq_decide.mpr; omega
theorem scalarWord_i : fld (scalarWord op d a b u i) 32 32 = i := by
  have ⟨hop, hd, ha, hb, hu, hi⟩ := h
  rw [fld_of_toNat (scalarWord_toNat h)]; omega
end

end Sys2Proof.Machine
end

section
/-! A legacy operation of the S slot as it runs: its view, and how it completes with its effect (07 R209; 06 R177). -/
namespace Sys2Proof.Machine

/-- The instruction that a legacy operation is translated to. -/
def State.legacyInst (s : State) (c : CoreId) (op : Nat) (a : LegacyArgs) (sl : Slot) (w : Word) : InFlight :=
  instOf (s.core c.val) sl w (some (a.pos, legacyWord op a))
/-- What an operation of the S slot sees. -/
def State.legacyScalar (s : State) (c : CoreId) (op : Nat) (a : LegacyArgs) (w : Word) : View :=
  viewOf s c.val (s.legacyInst c op a .S w)

theorem viewOf_decl (s : State) (c : CoreId) (i : InFlight) : (viewOf s c.val i).decl = s.declOf c := by
  unfold viewOf State.declOf State.programOf
  cases s.place c.val with
  | none => rfl
  | some xk => cases h : (s.ctx xk.1).programOn (xk.2 / 4) <;> simp [h]

/-- An instruction that executes, with no cause against it, completes at once. -/
theorem runInst_executes {s : State} {c : CoreId} {i : InFlight} {v : View} (hv : viewOf s c.val i = v) (hi : issueCause v = none)
    (he : v.executes = true) : s.runInst c i =
      s.instPoison v (effSlot v) ((s.setLanes c.val (v.lanesAfter (drawsSlot v))).completeTraced c i (effSlot v)) := by
  subst hv
  simp only [State.runInst, hi, he, if_true]

/-! ## The view -/

section
variable (s : State) (c : CoreId) (op : Nat) (a : LegacyArgs) (w : Word)

theorem legacyScalar_i : (s.legacyScalar c op a w).i = s.legacyInst c op a .S w := viewOf_i ..
theorem legacyScalar_s : (s.legacyScalar c op a w).s = s := viewOf_s ..
theorem legacyScalar_c : (s.legacyScalar c op a w).c = c.val := viewOf_c ..
theorem legacyScalar_decl : (s.legacyScalar c op a w).decl = s.declOf c := viewOf_decl ..
theorem legacyScalar_f (lo len : Nat) : (s.legacyScalar c op a w).f lo len = fld w lo len := by rw [View.f, legacyScalar_i]; rfl
theorem legacyScalar_bit (n : Nat) : (s.legacyScalar c op a w).bit n = w.getLsbD n := by rw [View.bit, legacyScalar_i]; rfl
theorem legacyScalar_op : (s.legacyScalar c op a w).op = fld w 5 8 := legacyScalar_f ..
theorem legacyScalar_sr (n : Nat) : (s.legacyScalar c op a w).sr n = (s.core c.val).regs.sreg n := by
  rw [View.sr, legacyScalar_i]; rfl
theorem legacyScalar_slot : (s.legacyScalar c op a w).i.slot = .S := by rw [legacyScalar_i]; rfl
theorem legacyScalar_legacy : (s.legacyScalar c op a w).i.legacy.isSome = true := by rw [legacyScalar_i]; rfl
theorem legacyScalar_legacyOnly :
    (s.legacyScalar c op a w).legacyOnly = decide (fld w 5 8 = opLorsh ∨ fld w 5 8 = opLegacyBranch) := by
  rw [View.legacyOnly, legacyScalar_legacy, legacyScalar_slot, legacyScalar_op, Bool.decide_or]
  rfl
theorem legacyScalar_executes (h : fld w 0 5 = 0) : (s.legacyScalar c op a w).executes = true := by
  have hpred : fld w 0 4 = 0 := by simp only [fld, bitsAt, Nat.shiftRight_zero] at h ⊢; omega
  have hneg : w.getLsbD 4 = false := by
    rw [BitVec.getLsbD, Nat.testBit_eq_decide_div_mod_eq]
    simp only [fld, bitsAt, Nat.shiftRight_zero] at h
    simp only [decide_eq_false_iff_not]; omega
  rw [View.executes, View.pr, legacyScalar_f, hpred, legacyScalar_bit, hneg]
  rfl
end

/-! ## Completion -/

/-- The operation is listed and translated to a word of the S slot on p0 (R208). -/
structure LegacyRow (s : State) (c : CoreId) (op : Nat) (a : LegacyArgs) (w : Word) : Prop where
  slot : legacySlot (LegacyArgs.operation op a) (s.core c.val).regs = some (.S, w)
  pred : fld w 0 5 = 0

/-- Of a translated operation that is not of the legacy set alone, nothing is drawn, and it is judged and acts as its bundle
instruction does. -/
structure Translated (w : Word) : Prop where
  ne : fld w 5 8 ≠ 0
  quiet : fld w 5 8 < 0x14 ∨ 0x1B < fld w 5 8
  listed : fld w 5 8 ≠ opLorsh ∧ fld w 5 8 ≠ opLegacyBranch

namespace Translated
variable {s : State} {c : CoreId} {op : Nat} {a : LegacyArgs} {w : Word} (h : Translated w)
include h

theorem legacyOnly : (s.legacyScalar c op a w).legacyOnly = false := by
  rw [legacyScalar_legacyOnly, decide_eq_false (not_or.mpr h.listed)]
theorem eff : effSlot (s.legacyScalar c op a w) = effScalar (s.legacyScalar c op a w) := by
  simp [effSlot, h.legacyOnly, legacyScalar_op, h.ne, legacyScalar_slot]
theorem judge : judgeSlot (s.legacyScalar c op a w) = judgeS (s.legacyScalar c op a w) := by
  simp [judgeSlot, h.legacyOnly, legacyScalar_op, h.ne, legacyScalar_slot]
theorem draws : drawsSlot (s.legacyScalar c op a w) = [] := by
  simp [drawsSlot, h.legacyOnly, legacyScalar_op, h.ne, legacyScalar_slot, drawsS_of_ne, h.quiet]
end Translated

/-! LORSH and the branches: no bundle instruction gives them. -/
section
variable {s : State} {c : CoreId} {op : Nat} {a : LegacyArgs} {w : Word} (h : fld w 5 8 = opLorsh ∨ fld w 5 8 = opLegacyBranch)
include h

theorem op_ne_of_legacyOnly : fld w 5 8 ≠ 0 := by rcases h with h | h <;> rw [h] <;> decide
theorem effSlot_legacyOnly : effSlot (s.legacyScalar c op a w) = effLegacy (s.legacyScalar c op a w) := by
  simp [effSlot, legacyScalar_legacyOnly, legacyScalar_op, op_ne_of_legacyOnly h, h]
theorem judgeSlot_legacyOnly : judgeSlot (s.legacyScalar c op a w) = judgeLegacy (s.legacyScalar c op a w) := by
  simp [judgeSlot, legacyScalar_legacyOnly, legacyScalar_op, op_ne_of_legacyOnly h, h]
theorem drawsSlot_legacyOnly : drawsSlot (s.legacyScalar c op a w) = [] := by
  simp [drawsSlot, legacyScalar_legacyOnly, h]
end

namespace LegacyRow
variable {s : State} {c : CoreId} {op : Nat} {a : LegacyArgs} {w : Word} (h : LegacyRow s c op a w)
include h

/-- Nothing judged and nothing drawn, the operation completes with its effect. -/
theorem completes (hj : judgeSlot (s.legacyScalar c op a w) = []) (hd : drawsSlot (s.legacyScalar c op a w) = [])
    (hw : (joinWrites (effSlot (s.legacyScalar c op a w)).mem).flatMap MemWrite.regionPart = []) :
    s.runLegacy c op a = s.complete c (s.legacyInst c op a .S w) (effSlot (s.legacyScalar c op a w)) := by
  have hslot := legacyScalar_slot s c op a w
  have hmem : memSlot (s.legacyScalar c op a w) = [] := by rw [memSlot, hslot, ite_self]
  have hcauses : slotCauses (s.legacyScalar c op a w) = [] := by rw [slotCauses, hj, hmem, drawCause, hd]; rfl
  have hissue : issueCause (s.legacyScalar c op a w) = none := by
    rw [issueCause, legacyScalar_legacy, legacyScalar_executes _ _ _ _ _ h.pred, hcauses]; rfl
  have hlanes : (s.legacyScalar c op a w).lanesAfter [] = (s.core c.val).regs.lanes := by
    rw [View.lanesAfter, hslot, legacyScalar_i]; rfl
  have hrun : s.runLegacy c op a = s.runInst c (s.legacyInst c op a .S w) := by
    rw [State.runLegacy]; simp only [show legacySlot (op + a.operands.toNat * 64) _ = _ from h.slot]; rfl
  rw [hrun, runInst_executes (v := s.legacyScalar c op a w) rfl hissue (legacyScalar_executes _ _ _ _ _ h.pred), hd, hlanes,
    instPoison_none _ _ _ _ (by rw [View.reads, hslot]) hw, completeTraced_S _ _ _ _ rfl rfl]
  exact complete_setCore_self ..

/-- An operation that stores nothing, produces no NaN and posts no trap changes its core, then sequences it. -/
theorem sequences (hj : judgeSlot (s.legacyScalar c op a w) = []) (hd : drawsSlot (s.legacyScalar c op a w) = []) {e : Effect}
    (he : effSlot (s.legacyScalar c op a w) = e) (hm : e.mem = []) (hn : e.nan = none) (hp : e.posts = []) :
    s.runLegacy c op a = (s.setCore c.val (e.onCore (s.core c.val))).control c (s.legacyInst c op a .S w) e.ctl := by
  subst he
  rw [h.completes hj hd (by rw [hm]; rfl), complete_core _ _ _ _ hm hn hp]

theorem writes (hj : judgeSlot (s.legacyScalar c op a w) = []) (hd : drawsSlot (s.legacyScalar c op a w) = []) {n : Nat} {x : Word}
    (he : effSlot (s.legacyScalar c op a w) = { s := [(n, x)] }) : s.runLegacy c op a = s.withRegs c (fun r => r.setS n x) := by
  rw [h.sequences hj hd he rfl rfl rfl, onCore_s]; rfl

theorem steers (hj : judgeSlot (s.legacyScalar c op a w) = []) (hd : drawsSlot (s.legacyScalar c op a w) = []) {ctl : Ctl}
    (he : effSlot (s.legacyScalar c op a w) = { ctl := ctl }) :
    s.runLegacy c op a = s.steered c (s.legacyInst c op a .S w) ctl := by
  rw [h.sequences hj hd he rfl rfl rfl]
  exact congrArg (fun k => (s.setCore c.val k).control c _ ctl) (onCore_empty _)

end LegacyRow

end Sys2Proof.Machine
end

section
/-! The legacy integer rows and scratchpad rows (07 R208 to R211, Table 07-5). -/
namespace Sys2Proof.Machine

/-! ## Immediates -/

theorem signed_bounds (n : Nat) : -512 ≤ signed 10 n ∧ signed 10 n < 512 := by
  unfold signed
  split <;> constructor <;> push_cast <;> omega
/-- An immediate of ten bits, sign-extended to 32 bits by the translation and to 64 by the row. -/
theorem signExtend_imm10 (n : Nat) : (BitVec.ofNat 32 (imm10 n)).signExtend 64 = BitVec.ofInt 64 (signed 10 n) := by
  obtain ⟨hlo, hhi⟩ := signed_bounds n
  have hword : BitVec.ofNat 32 (imm10 n) = BitVec.ofInt 32 (signed 10 n) := by
    apply BitVec.eq_of_toNat_eq
    rw [BitVec.toNat_ofNat, BitVec.toNat_ofInt, imm10, unsignedOf, Nat.mod_eq_of_lt (by push_cast; omega)]
  rw [hword, BitVec.signExtend, BitVec.toInt_ofInt, Int.bmod_eq_of_le (by push_cast; omega) (by push_cast; omega)]
theorem signExtend_small {n : Nat} (h : n < 2 ^ 31) : (BitVec.ofNat 32 n).signExtend 64 = BitVec.ofNat 64 n := by
  have hint : (BitVec.ofNat 32 n).toInt = n := by
    rw [BitVec.toInt_ofNat', Int.bmod_eq_of_le (by push_cast; omega) (by push_cast; omega)]
  rw [BitVec.signExtend, hint]; rfl

/-- A field's low bits. -/
theorem fld_narrow {w : Nat} (x : BitVec w) (lo : Nat) {m n : Nat} (h : m ≤ n) : fld x lo m = fld x lo n % 2 ^ m :=
  (Nat.mod_mod_of_dvd _ (Nat.pow_dvd_pow 2 h)).symm

/-! ## What a scalar word's operation sees -/

section
variable {s : State} {c : CoreId} {op : Nat} {g : LegacyArgs} {o d a b u i : Nat} (h : ScalarFields o d a b u i)
include h

theorem scalar_op : (s.legacyScalar c op g (scalarWord o d a b u i)).op = o := by rw [legacyScalar_op, scalarWord_op h]
theorem scalar_sd : (s.legacyScalar c op g (scalarWord o d a b u i)).sd = d := by rw [View.sd, legacyScalar_f, scalarWord_d h]
theorem scalar_sa : (s.legacyScalar c op g (scalarWord o d a b u i)).sa = (s.core c.val).regs.sreg a := by
  rw [View.sa, legacyScalar_f, scalarWord_a h, legacyScalar_sr]
theorem scalar_sbReg : (s.legacyScalar c op g (scalarWord o d a b u i)).sbReg = (s.core c.val).regs.sreg b := by
  rw [View.sbReg, legacyScalar_f, scalarWord_b h, legacyScalar_sr]
theorem scalar_imm : (s.legacyScalar c op g (scalarWord o d a b u i)).imm = (BitVec.ofNat 32 i).signExtend 64 := by
  rw [View.imm, legacyScalar_f, scalarWord_i h]
theorem scalar_sb : (s.legacyScalar c op g (scalarWord o d a b u i)).sb =
    if u = 1 then (BitVec.ofNat 32 i).signExtend 64 else (s.core c.val).regs.sreg b := by
  rw [View.sb, legacyScalar_bit, scalarWord_u h, scalar_imm h, scalar_sbReg h]
  simp only [decide_eq_true_eq]
theorem scalar_offset (hi : i < 2 ^ 31) : (s.legacyScalar c op g (scalarWord o d a b u i)).offset =
    ((s.core c.val).regs.sreg a + BitVec.ofNat 64 i).toNat := by
  rw [View.offset, scalar_sa h, scalar_imm h, signExtend_small hi]
end

/-! ## The translations -/

section
variable (a : LegacyArgs) (r : RegFile)

/-- The rows on three registers, each with the opcode it behaves as. -/
def registerOps : List (Nat × Nat) := [(0x01, 0x01), (0x02, 0x02), (0x03, 0x03), (0x04, 0x05), (0x05, 0x06), (0x06, 0x07), (0x07, 0x08)]

theorem legacySlot_register {op o : Nat} (h : (op, o) ∈ registerOps) : legacySlot (LegacyArgs.operation op a) r =
    some (.S, scalarWord o (fld a.operands 0 5) (fld a.operands 5 5) (fld a.operands 10 5) 0 0) := by
  have hop : op < 64 := by revert h; simp [registerOps]; omega
  simp only [registerOps, List.mem_cons, Prod.mk.injEq, List.not_mem_nil, or_false] at h
  rw [← slotOf_dab]
  unfold legacySlot
  rw [operation_op a hop, operation_field a hop 0 5, operation_field a hop 5 5, operation_field a hop 10 5]
  rcases h with ⟨rfl, rfl⟩ | ⟨rfl, rfl⟩ | ⟨rfl, rfl⟩ | ⟨rfl, rfl⟩ | ⟨rfl, rfl⟩ | ⟨rfl, rfl⟩ | ⟨rfl, rfl⟩ <;> rfl

theorem legacySlot_lnop (h : a.operands = 0) : legacySlot (LegacyArgs.operation 0x00 a) r = some (.S, scalarWord 0 0 0 0 0 0) := by
  rw [LegacyArgs.operation, h]; rfl
theorem legacySlot_laddi : legacySlot (LegacyArgs.operation 0x08 a) r =
    some (.S, scalarWord 0x01 (fld a.operands 0 5) (fld a.operands 0 5) 0 1 (imm10 (fld a.operands 5 10))) := by
  rw [← slotOf_daui]
  unfold legacySlot
  rw [operation_op a (by decide), operation_field a (by decide) 0 5, operation_field a (by decide) 5 10]; rfl
theorem legacySlot_lldi : legacySlot (LegacyArgs.operation 0x09 a) r =
    some (.S, scalarWord 0x10 (fld a.operands 0 5) 0 0 0 (imm10 (fld a.operands 5 10))) := by
  rw [← slotOf_di]
  unfold legacySlot
  rw [operation_op a (by decide), operation_field a (by decide) 0 5, operation_field a (by decide) 5 10]; rfl
theorem legacySlot_lorsh : legacySlot (LegacyArgs.operation 0x0A a) r =
    some (.S, scalarWord opLorsh (fld a.operands 0 5) 0 0 0 (fld a.operands 5 10)) := by
  rw [← slotOf_di]
  unfold legacySlot
  rw [operation_op a (by decide), operation_field a (by decide) 0 5, operation_field a (by decide) 5 10]; rfl
theorem legacySlot_lld : legacySlot (LegacyArgs.operation 0x10 a) r =
    some (.S, scalarWord 0x20 (fld a.operands 0 5) (fld a.operands 5 5) 0 0 (8 * fld a.operands 10 5)) := by
  rw [← slotOf_dai]
  unfold legacySlot
  rw [operation_op a (by decide), operation_field a (by decide) 0 5, operation_field a (by decide) 5 5,
    operation_field a (by decide) 10 5]; rfl
theorem legacySlot_lst : legacySlot (LegacyArgs.operation 0x11 a) r =
    some (.S, scalarWord 0x21 0 (fld a.operands 5 5) (fld a.operands 0 5) 0 (8 * fld a.operands 10 5)) := by
  rw [← slotOf_abi]
  unfold legacySlot
  rw [operation_op a (by decide), operation_field a (by decide) 0 5, operation_field a (by decide) 5 5,
    operation_field a (by decide) 10 5]; rfl
theorem legacySlot_ltdld : legacySlot (LegacyArgs.operation 0x12 a) r =
    some (.S, scalarWord 0x22 (fld a.operands 0 5) (fld a.operands 5 5) 0 0 (32 * fld a.operands 10 5)) := by
  rw [← slotOf_dai]
  unfold legacySlot
  rw [operation_op a (by decide), operation_field a (by decide) 0 5, operation_field a (by decide) 5 5,
    operation_field a (by decide) 10 5]; rfl
end

theorem imm10_lt (n : Nat) : imm10 n < 2 ^ 32 := by
  unfold imm10 unsignedOf
  push_cast
  omega

/-- A legacy operation that behaves as the bundle instruction of opcode o with these fields. -/
structure BundleRow (s : State) (c : CoreId) (op : Nat) (g : LegacyArgs) (o d a b u i : Nat) : Prop where
  fields : ScalarFields o d a b u i
  slot : legacySlot (LegacyArgs.operation op g) (s.core c.val).regs = some (.S, scalarWord o d a b u i)
  ne : o ≠ 0
  quiet : o < 0x14 ∨ 0x1B < o
  listed : o ≠ opLorsh ∧ o ≠ opLegacyBranch

namespace BundleRow
variable {s : State} {c : CoreId} {op : Nat} {g : LegacyArgs} {o d a b u i : Nat} (h : BundleRow s c op g o d a b u i)
include h

theorem row : LegacyRow s c op g (scalarWord o d a b u i) := ⟨h.slot, scalarWord_pred h.fields⟩
theorem translated : Translated (scalarWord o d a b u i) := by
  constructor <;> rw [scalarWord_op h.fields]
  exacts [h.ne, h.quiet, h.listed]
theorem view_op : (s.legacyScalar c op g (scalarWord o d a b u i)).op = o := scalar_op h.fields

theorem completes (hj : judgeS (s.legacyScalar c op g (scalarWord o d a b u i)) = []) {e : Effect}
    (he : effScalar (s.legacyScalar c op g (scalarWord o d a b u i)) = e)
    (hw : (joinWrites e.mem).flatMap MemWrite.regionPart = []) :
    s.runLegacy c op g = s.complete c (s.legacyInst c op g .S (scalarWord o d a b u i)) e := by
  have heff := h.translated.eff.trans he
  rw [h.row.completes (h.translated.judge.trans hj) h.translated.draws (by rw [heff]; exact hw), heff]
theorem writes (hj : judgeS (s.legacyScalar c op g (scalarWord o d a b u i)) = []) {n : Nat} {x : Word}
    (he : effScalar (s.legacyScalar c op g (scalarWord o d a b u i)) = { s := [(n, x)] }) :
    s.runLegacy c op g = s.withRegs c (fun r => r.setS n x) :=
  h.row.writes (h.translated.judge.trans hj) h.translated.draws (h.translated.eff.trans he)
end BundleRow

/-! ## The integer rows -/

section
variable {s : State} {c : CoreId} {a : LegacyArgs}

theorem runLegacy_register {op o : Nat} (h : (op, o) ∈ registerOps) :
    s.runLegacy c op a = s.withRegs c (fun r => r.setS (fld a.operands 0 5) (aluS o (s.legS c a 5) (s.legS c a 10))) := by
  have ho : o ≠ 0 ∧ o ≤ 0x08 := by revert h; simp [registerOps]; omega
  have hd := fld_lt a.operands 0 5
  have ha := fld_lt a.operands 5 5
  have hb := fld_lt a.operands 10 5
  have hrow : BundleRow s c op a o (fld a.operands 0 5) (fld a.operands 5 5) (fld a.operands 10 5) 0 0 :=
    ⟨by constructor <;> omega, legacySlot_register a _ h, ho.1, by omega, by unfold opLorsh opLegacyBranch; omega⟩
  refine hrow.writes (judgeS_of_lt (by rw [hrow.view_op]; omega)) ?_
  rw [effScalar, hrow.view_op]
  simp only [ho.1, show o ≤ 0x0E by omega, if_true, if_false, scalar_sd hrow.fields, scalar_sa hrow.fields, scalar_sb hrow.fields]
  rfl

theorem runLegacy_laddi : s.runLegacy c 0x08 a = s.withRegs c (fun r => r.setS (fld a.operands 0 5)
    (s.legS c a 0 + BitVec.ofInt 64 (signed 10 (fld a.operands 5 10)))) := by
  have hd := fld_lt a.operands 0 5
  have hrow : BundleRow s c 0x08 a 0x01 (fld a.operands 0 5) (fld a.operands 0 5) 0 1 (imm10 (fld a.operands 5 10)) :=
    ⟨⟨by decide, by omega, by omega, by decide, by decide, imm10_lt _⟩, legacySlot_laddi a _, by decide, by decide, by decide⟩
  refine hrow.writes (judgeS_of_lt (by rw [hrow.view_op]; decide)) ?_
  simp only [effScalar, hrow.view_op, scalar_sd hrow.fields, scalar_sa hrow.fields, scalar_sb hrow.fields, signExtend_imm10]
  rfl

theorem runLegacy_lldi : s.runLegacy c 0x09 a = s.withRegs c (fun r => r.setS (fld a.operands 0 5)
    (BitVec.ofInt 64 (signed 10 (fld a.operands 5 10)))) := by
  have hd := fld_lt a.operands 0 5
  have hrow : BundleRow s c 0x09 a 0x10 (fld a.operands 0 5) 0 0 0 (imm10 (fld a.operands 5 10)) :=
    ⟨⟨by decide, by omega, by decide, by decide, by decide, imm10_lt _⟩, legacySlot_lldi a _, by decide, by decide, by decide⟩
  refine hrow.writes (judgeS_of_lt (by rw [hrow.view_op]; decide)) ?_
  simp only [effScalar, hrow.view_op, scalar_sd hrow.fields, scalar_imm hrow.fields, signExtend_imm10]
  rfl

/-- LORSH is of the legacy set alone: no bundle instruction gives it. -/
theorem runLegacy_lorsh : s.runLegacy c 0x0A a = s.withRegs c (fun r => r.setS (fld a.operands 0 5)
    ((s.legS c a 0 <<< 10) ||| BitVec.ofNat 64 (fld a.operands 5 10))) := by
  have hd := fld_lt a.operands 0 5
  have hi := fld_lt a.operands 5 10
  have hf : ScalarFields opLorsh (fld a.operands 0 5) 0 0 0 (fld a.operands 5 10) :=
    ⟨by decide, by omega, by decide, by decide, by decide, by omega⟩
  have hrow : LegacyRow s c 0x0A a _ := ⟨legacySlot_lorsh a _, scalarWord_pred hf⟩
  have hown := Or.inl (b := fld (scalarWord opLorsh (fld a.operands 0 5) 0 0 0 (fld a.operands 5 10)) 5 8 = opLegacyBranch)
    (scalarWord_op hf)
  have hop := scalar_op (s := s) (c := c) (op := 0x0A) (g := a) hf
  have himm : (s.legacyScalar c 0x0A a (scalarWord opLorsh (fld a.operands 0 5) 0 0 0 (fld a.operands 5 10))).f 32 10 =
      fld a.operands 5 10 := by
    rw [legacyScalar_f, fld_narrow _ _ (show 10 ≤ 32 by decide), scalarWord_i hf, Nat.mod_eq_of_lt hi]
  refine hrow.writes ((judgeSlot_legacyOnly hown).trans ?_) (drawsSlot_legacyOnly hown) ((effSlot_legacyOnly hown).trans ?_)
  · rw [judgeLegacy, legacyScalar_slot, hop]; rfl
  · rw [effLegacy, legacyScalar_slot, hop, if_neg (by decide), if_neg (by decide), scalar_sd hf, legacyScalar_sr, himm]; rfl

theorem runLegacy_lnop (h : a.operands = 0) : s.runLegacy c 0x00 a = s.setCore c.val (s.core c.val) := by
  have hf : ScalarFields 0 0 0 0 0 0 := by constructor <;> decide
  have hrow : LegacyRow s c 0x00 a _ := ⟨legacySlot_lnop a _ h, scalarWord_pred hf⟩
  have hop := scalar_op (s := s) (c := c) (op := 0x00) (g := a) hf
  rw [hrow.steers (ctl := .none) (by simp [judgeSlot, hop]) (by simp [drawsSlot, hop]) (by simp [effSlot, hop])]
  exact steered_none ..
end

/-- The rows on three registers stand in the order of their opcodes, and their operations are those of the bundle's. -/
theorem legacyRows_row : ∀ p ∈ legacyRows, ∃ op o, (op, o) ∈ registerOps ∧
    (∀ c a s, exec (p.1 c a) s = .next (s.runLegacy c op a)) ∧ p.2 = aluS o := by
  intro p hp
  obtain ⟨j, hj, rfl⟩ := List.mem_iff_getElem.mp hp
  have h7 : j < 7 := hj
  refine ⟨registerOps[j].1, registerOps[j].2, List.getElem_mem (l := registerOps) h7, ?_⟩
  interval_cases j <;> exact ⟨fun _ _ _ => rfl, rfl⟩

theorem legacyInteger : SaysLegacyInteger := by
  intro c a s d i10 sx
  refine ⟨fun p hp => ?_, congrArg Host.Outcome.next runLegacy_laddi, congrArg Host.Outcome.next runLegacy_lldi,
    congrArg Host.Outcome.next runLegacy_lorsh, fun h => congrArg Host.Outcome.next (runLegacy_lnop h)⟩
  obtain ⟨op, o, ho, hexec, halu⟩ := legacyRows_row p hp
  rw [hexec, halu, runLegacy_register ho]

/-! ## The scratchpad rows -/

/-- A store to the core's own scratchpad, alone. -/
theorem complete_scratch (s : State) (c : CoreId) (i : InFlight) (o : Nat) (bs : List Byte) :
    s.complete c i { mem := [⟨.scratch c.val, o, bs⟩] } =
      s.setCore c.val { s.core c.val with scratch := mapWrite 0 (s.core c.val).scratch o bs } := by
  have hcore : Effect.onCore { mem := [⟨.scratch c.val, o, bs⟩] } (s.core c.val) = s.core c.val := onCore_empty _
  simp only [State.complete, hcore, joinWrites, storeAll, State.store, State.put, setBytes_scratch, State.deferAll, State.control,
    State.core_setCore, if_true]

/-- The bytes of the scratchpad after such a store. -/
theorem runs_scratch {s : State} {c : CoreId} {i : Instr} {o n v : Nat}
    (hi : exec i s = .next (s.setCore c.val { s.core c.val with scratch := mapWrite 0 (s.core c.val).scratch o (leBytes n v) })) :
    Runs i s (fun t => t = s.setCore c.val { s.core c.val with scratch := (t.core c.val).scratch } ∧
      ∀ x, mapGet 0 (t.core c.val).scratch x =
        if o ≤ x ∧ x < o + n then BitVec.ofNat 8 (v >>> (8 * (x - o))) else mapGet 0 (s.core c.val).scratch x) := by
  refine ⟨_, hi, by rw [State.core_setCore], fun x => ?_⟩
  rw [State.core_setCore, mapGet_mapWrite, length_leBytes]
  split
  · exact getD_leBytes _ (by omega)
  · rfl

theorem scratchCause_nil {v : View} {o n : Nat} (ho : v.offset = o) (h : o % n = 0) (hl : o + n ≤ v.decl.scratch) :
    scratchCause v n = [] := by
  simp [scratchCause, ho, h, causeIf, hl]

section
variable {s : State} {c : CoreId} {op : Nat} {g : LegacyArgs} {o d a b u i : Nat} (h : BundleRow s c op g o d a b u i)
include h

theorem BundleRow.judge_scratch {n at_ : Nat} (hi : i < 2 ^ 31) (hw : (o = 0x20 ∨ o = 0x21) ∧ n = 8 ∨ o = 0x22 ∧ n = 32)
    (hat : ((s.core c.val).regs.sreg a + BitVec.ofNat 64 i).toNat = at_) (halign : at_ % n = 0) (hl : at_ + n ≤ (s.declOf c).scratch) :
    judgeS (s.legacyScalar c op g (scalarWord o d a b u i)) = [] := by
  have hcause : scratchCause (s.legacyScalar c op g (scalarWord o d a b u i)) n = [] :=
    scratchCause_nil ((scalar_offset h.fields hi).trans hat) halign (by rw [legacyScalar_decl]; exact hl)
  rcases hw with ⟨rfl | rfl, rfl⟩ | ⟨rfl, rfl⟩ <;> simpa [judgeS, h.view_op] using hcause

theorem BundleRow.natAt_scratch {at_ : Nat} (hi : i < 2 ^ 31)
    (hat : ((s.core c.val).regs.sreg a + BitVec.ofNat 64 i).toNat = at_) (n : Nat) :
    (s.legacyScalar c op g (scalarWord o d a b u i)).s.natAt (.scratch (s.legacyScalar c op g (scalarWord o d a b u i)).c)
      (s.legacyScalar c op g (scalarWord o d a b u i)).offset n =
    leNat ((upto n).map (fun j => mapGet 0 (s.core c.val).scratch (at_ + j))) := by
  rw [scalar_offset h.fields hi, hat, legacyScalar_s, legacyScalar_c]; rfl
end

section
variable {s : State} {c : CoreId} {a : LegacyArgs} {at_ : Nat}

theorem runLegacy_lld (hat : (s.legS c a 5 + BitVec.ofNat 64 (8 * fld a.operands 10 5)).toNat = at_) (h8 : at_ % 8 = 0)
    (hl : at_ + 8 ≤ (s.declOf c).scratch) : s.runLegacy c 0x10 a = s.withRegs c (fun r => r.setS (fld a.operands 0 5)
      (BitVec.ofNat 64 (leNat ((upto 8).map (fun j => mapGet 0 (s.core c.val).scratch (at_ + j)))))) := by
  have hd := fld_lt a.operands 0 5
  have ha := fld_lt a.operands 5 5
  have hb := fld_lt a.operands 10 5
  have hrow : BundleRow s c 0x10 a 0x20 (fld a.operands 0 5) (fld a.operands 5 5) 0 0 (8 * fld a.operands 10 5) :=
    ⟨by constructor <;> omega, legacySlot_lld a _, by decide, by decide, by decide⟩
  refine hrow.writes (hrow.judge_scratch (by omega) (by decide) hat h8 hl) ?_
  simp [effScalar, hrow.view_op, scalar_sd hrow.fields, hrow.natAt_scratch (by omega) hat]

theorem runLegacy_lst (hat : (s.legS c a 5 + BitVec.ofNat 64 (8 * fld a.operands 10 5)).toNat = at_) (h8 : at_ % 8 = 0)
    (hl : at_ + 8 ≤ (s.declOf c).scratch) : s.runLegacy c 0x11 a = s.setCore c.val { s.core c.val with
      scratch := mapWrite 0 (s.core c.val).scratch at_ (leBytes 8 (s.legS c a 0).toNat) } := by
  have hd := fld_lt a.operands 0 5
  have ha := fld_lt a.operands 5 5
  have hb := fld_lt a.operands 10 5
  have hrow : BundleRow s c 0x11 a 0x21 0 (fld a.operands 5 5) (fld a.operands 0 5) 0 (8 * fld a.operands 10 5) :=
    ⟨by constructor <;> omega, legacySlot_lst a _, by decide, by decide, by decide⟩
  have hoff := (scalar_offset (op := 0x11) (g := a) hrow.fields (by omega)).trans hat
  refine (hrow.completes (hrow.judge_scratch (by omega) (by decide) hat h8 hl)
    (e := { mem := [⟨.scratch c.val, at_, leBytes 8 (s.legS c a 0).toNat⟩] }) ?_ rfl).trans (complete_scratch ..)
  simp [effScalar, hrow.view_op, scalar_sbReg hrow.fields, hoff, legacyScalar_c, State.legS]

theorem runLegacy_ltdld (hat : (s.legS c a 5 + BitVec.ofNat 64 (32 * fld a.operands 10 5)).toNat = at_) (h32 : at_ % 32 = 0)
    (hl : at_ + 32 ≤ (s.declOf c).scratch) : s.runLegacy c 0x12 a = s.withRegs c (fun r => r.setTd (fld a.operands 0 5)
      (BitVec.ofNat 256 (leNat ((upto 32).map (fun j => mapGet 0 (s.core c.val).scratch (at_ + j)))))) := by
  have hd := fld_lt a.operands 0 5
  have ha := fld_lt a.operands 5 5
  have hb := fld_lt a.operands 10 5
  have hrow : BundleRow s c 0x12 a 0x22 (fld a.operands 0 5) (fld a.operands 5 5) 0 0 (32 * fld a.operands 10 5) :=
    ⟨by constructor <;> omega, legacySlot_ltdld a _, by decide, by decide, by decide⟩
  have htd : (s.legacyScalar c 0x12 a (scalarWord 0x22 (fld a.operands 0 5) (fld a.operands 5 5) 0 0
      (32 * fld a.operands 10 5))).f 13 5 = fld a.operands 0 5 := by
    rw [legacyScalar_f, fld_narrow _ _ (show 5 ≤ 6 by decide), scalarWord_d hrow.fields, Nat.mod_eq_of_lt hd]
  rw [hrow.completes (hrow.judge_scratch (by omega) (by decide) hat h32 hl) (e := { td := [(fld a.operands 0 5,
      BitVec.ofNat 256 (leNat ((upto 32).map (fun j => mapGet 0 (s.core c.val).scratch (at_ + j)))))] }) ?_ rfl,
    complete_core_none _ _ _ _ rfl rfl rfl rfl, onCore_td]
  · rfl
  · simp [effScalar, hrow.view_op, htd, hrow.natAt_scratch (by omega) hat]
end

theorem legacyScratchpad : SaysLegacyScratchpad := by
  intro c a s d b old at8 at32 lim
  exact ⟨fun h8 hl => congrArg Host.Outcome.next (runLegacy_lld rfl h8 hl),
    fun h8 hl => runs_scratch (congrArg Host.Outcome.next (runLegacy_lst rfl h8 hl)),
    fun h32 hl => congrArg Host.Outcome.next (runLegacy_ltdld rfl h32 hl)⟩

/-- Settles O20: each row is translated to the word of a bundle instruction and completes with that instruction's effect. -/
theorem legacyData : Obligations.LegacyData := ⟨legacyInteger, legacyScratchpad⟩

end Sys2Proof.Machine
end

section
/-! The legacy branches, pegs, fence and halt (07 R210, Table 07-5; 07 R198, R199, R201). -/
namespace Sys2Proof.Machine

/-! ## A row that is clear -/

/-- A legacy row that is clear is listed, and nothing stands against its instruction. -/
theorem legacyClear_slot {s : State} {c : CoreId} {op : Nat} {a : LegacyArgs} (h : s.legacyClear c op a = true) :
    ∃ p, legacySlot (LegacyArgs.operation op a) (s.core c.val).regs = some p ∧
      slotCauses (viewOf s c.val (s.legacyInst c op a p.1 p.2)) = [] := by
  unfold State.legacyClear State.legacyView at h
  cases hp : legacySlot (LegacyArgs.operation op a) (s.core c.val).regs with
  | none => simp [hp] at h
  | some p =>
    rw [hp] at h
    exact ⟨p, rfl, of_decide_eq_true h⟩

/-- A clear row whose translation is a word of the S slot is judged clear. -/
theorem legacyClear_row {s : State} {c : CoreId} {op : Nat} {a : LegacyArgs} {w : Word} (h : s.legacyClear c op a = true)
    (hw : ∀ p, legacySlot (LegacyArgs.operation op a) (s.core c.val).regs = some p → p = (.S, w)) (hpred : fld w 0 5 = 0) :
    LegacyRow s c op a w ∧ judgeSlot (s.legacyScalar c op a w) = [] := by
  obtain ⟨p, hp, hcauses⟩ := legacyClear_slot h
  obtain rfl := hw p hp
  exact ⟨⟨hp, hpred⟩, (List.append_eq_nil_iff.mp (List.append_eq_nil_iff.mp hcauses).1).1⟩

/-! ## The translations -/

/-- The word of a branch, which names the register it tests or goes to. -/
def branchWord (n : Nat) : Word := scalarWord opLegacyBranch 0 n 0 0 0

/-- The word of a signal or a wait: its peg, and what stands from bit 29 up. -/
def pegWord (op peg m : Nat) : Word := BitVec.ofNat 64 (op * 32 + peg * 2 ^ 13 + m * 2 ^ 29)

section
variable {op peg m : Nat} (hop : op < 256) (hp : peg < 2 ^ 16) (hm : m < 2 ^ 35)
include hop hp hm

theorem pegWord_toNat : (pegWord op peg m).toNat = op * 32 + peg * 2 ^ 13 + m * 2 ^ 29 := by
  rw [pegWord, BitVec.toNat_ofNat, Nat.mod_eq_of_lt (by omega)]
theorem pegWord_pred : fld (pegWord op peg m) 0 5 = 0 := by
  rw [fld_of_toNat (pegWord_toNat hop hp hm)]; omega
theorem pegWord_op : fld (pegWord op peg m) 5 8 = op := by
  rw [fld_of_toNat (pegWord_toNat hop hp hm)]; omega
theorem pegWord_peg : fld (pegWord op peg m) 13 16 = peg := by
  rw [fld_of_toNat (pegWord_toNat hop hp hm)]; omega
theorem pegWord_inc : fld (pegWord op peg m) 29 8 = m % 256 := by
  rw [fld_of_toNat (pegWord_toNat hop hp hm)]; omega
theorem pegWord_threshold : fld (pegWord op peg m) 32 32 = m / 8 := by
  rw [fld_of_toNat (pegWord_toNat hop hp hm)]; omega
end

theorem slotOf_signal (op peg : Nat) : slotOf op [(13, peg), (29, 1)] = pegWord op peg 1 := by
  rw [slotOf, List.foldl_cons, List.foldl_cons, List.foldl_nil, pegWord]
theorem slotOf_wait (op peg th : Nat) : slotOf op [(13, peg), (32, th)] = pegWord op peg (8 * th) := by
  rw [slotOf, List.foldl_cons, List.foldl_cons, List.foldl_nil, pegWord]; exact congrArg (BitVec.ofNat 64) (by dsimp only; omega)

theorem eq_of_ite_some {α : Type} {b : Prop} [Decidable b] {x p : α} (h : (if b then some x else none) = some p) : p = x := by
  split at h
  · exact (Option.some.inj h).symm
  · cases h

section
variable {a : LegacyArgs} {r : RegFile} {p : Slot × Word}

theorem legacySlot_lbr (h : legacySlot (LegacyArgs.operation 0x18 a) r = some p) : p = (.S, branchWord 0) := by
  unfold legacySlot at h
  rw [operation_op a (by decide)] at h
  rw [branchWord, ← slotOf_nil]
  exact eq_of_ite_some h
theorem legacySlot_lbnz (h : legacySlot (LegacyArgs.operation 0x19 a) r = some p) : p = (.S, branchWord (fld a.operands 0 5)) := by
  unfold legacySlot at h
  rw [operation_op a (by decide), operation_field a (by decide) 0 5] at h
  rw [branchWord, ← slotOf_a]
  exact (Option.some.inj h).symm
theorem legacySlot_lbz (h : legacySlot (LegacyArgs.operation 0x1A a) r = some p) : p = (.S, branchWord (fld a.operands 0 5)) := by
  unfold legacySlot at h
  rw [operation_op a (by decide), operation_field a (by decide) 0 5] at h
  rw [branchWord, ← slotOf_a]
  exact (Option.some.inj h).symm
theorem legacySlot_lbx (h : legacySlot (LegacyArgs.operation 0x1B a) r = some p) : p = (.S, branchWord (fld a.operands 5 5)) := by
  unfold legacySlot at h
  rw [operation_op a (by decide), operation_field a (by decide) 5 5] at h
  rw [branchWord, ← slotOf_a]
  exact eq_of_ite_some h
theorem legacySlot_lpegs (h : legacySlot (LegacyArgs.operation 0x38 a) r = some p) :
    p = (.S, pegWord 0x50 (fld (r.sreg (fld a.operands 5 5)) 0 16) 1) := by
  unfold legacySlot at h
  rw [operation_op a (by decide), operation_field a (by decide) 5 5] at h
  rw [← slotOf_signal]
  exact eq_of_ite_some h
theorem legacySlot_lpegw (h : legacySlot (LegacyArgs.operation 0x39 a) r = some p) :
    p = (.S, pegWord 0x51 (fld (r.sreg (fld a.operands 5 5)) 0 16) (8 * fld (r.sreg (fld a.operands 10 5)) 0 32)) := by
  unfold legacySlot at h
  rw [operation_op a (by decide), operation_field a (by decide) 5 5, operation_field a (by decide) 10 5] at h
  rw [← slotOf_wait]
  exact eq_of_ite_some h
end

/-! ## Branches -/

/-- The target that counts 64-byte groups from the word's own. -/
def groupTarget (s : State) (c : CoreId) (a : LegacyArgs) : Word :=
  BitVec.ofNat 64 ((s.core c.val).pc.toNat / 64 * 64) + BitVec.ofInt 64 (64 * signed 10 (fld a.operands 5 10))

section
variable {s : State} {c : CoreId} {op : Nat} {a : LegacyArgs} {n : Nat}

theorem legacyScalar_lop (w : Word) (h : op < 64) : (s.legacyScalar c op a w).lop = LegacyArgs.operation op a := by
  rw [View.lop, legacyScalar_i]; exact legacyOp_legacyWord a h ..

theorem branchWord_fields (h : n < 32) : ScalarFields opLegacyBranch 0 n 0 0 0 :=
  ⟨by decide, by decide, by omega, by decide, by decide, by decide⟩

/-- A branch goes where it is taken, and stays else. -/
theorem runLegacy_branch (hop : op < 64) (hn : n < 32)
    (hw : ∀ p, legacySlot (LegacyArgs.operation op a) (s.core c.val).regs = some p → p = (.S, branchWord n))
    (h : s.legacyClear c op a = true) {t : Word}
    (ht : (if op = 0x1B then (s.core c.val).regs.sreg n else groupTarget s c a) = t) :
    s.runLegacy c op a = s.setCore c.val
      (if legacyTaken (s.legacyScalar c op a (branchWord n)) then { s.core c.val with pc := t, legacyAt := legacyOf s c t }
        else s.core c.val) := by
  have hf := branchWord_fields hn
  obtain ⟨hrow, hj⟩ := legacyClear_row h hw (scalarWord_pred hf)
  have hown := Or.inr (a := fld (branchWord n) 5 8 = opLorsh) (scalarWord_op hf)
  have hlop := legacyScalar_lop (s := s) (c := c) (a := a) (branchWord n) hop
  have htarget : legacyTarget (s.legacyScalar c op a (branchWord n)) = t := by
    rw [legacyTarget, hlop, operation_op a hop, operation_field a hop 5 10, branchWord, scalar_sa hf, legacyScalar_i]
    exact ht
  have hopv : (s.legacyScalar c op a (branchWord n)).op = opLegacyBranch := scalar_op hf
  have heff := effSlot_legacyOnly (s := s) (c := c) (op := op) (a := a) hown
  rw [effLegacy, legacyScalar_slot, hopv, if_neg (by decide), if_pos rfl, htarget] at heff
  split at heff
  · next htaken => rw [hrow.steers hj (drawsSlot_legacyOnly hown) heff, steered_branch, if_pos htaken]
  · next htaken => rw [hrow.steers (ctl := .none) hj (drawsSlot_legacyOnly hown) heff, steered_none, if_neg htaken]

theorem taken_lbnz (hn : n < 32) :
    legacyTaken (s.legacyScalar c 0x19 a (branchWord n)) = true ↔ (s.core c.val).regs.sreg n ≠ 0 := by
  rw [legacyTaken, legacyScalar_lop _ (by decide), operation_op a (by decide), ← scalar_sa (branchWord_fields hn)]
  exact bne_iff_ne
theorem taken_lbz (hn : n < 32) :
    legacyTaken (s.legacyScalar c 0x1A a (branchWord n)) = true ↔ (s.core c.val).regs.sreg n = 0 := by
  rw [legacyTaken, legacyScalar_lop _ (by decide), operation_op a (by decide), ← scalar_sa (branchWord_fields hn)]
  exact beq_iff_eq
theorem taken_always (h : op = 0x18 ∨ op = 0x1B) : legacyTaken (s.legacyScalar c op a (branchWord n)) = true := by
  rcases h with rfl | rfl <;> rw [legacyTaken, legacyScalar_lop _ (by decide), operation_op a (by decide)] <;> rfl
end

/-! ## Pegs, fence and halt -/

section
variable {s : State} {c : CoreId} {op : Nat} {a : LegacyArgs} {peg m : Nat} (hp : peg < 2 ^ 16) (hm : m < 2 ^ 35)
include hp hm

theorem translated_pegWord {o : Nat} (ho : o = 0x50 ∨ o = 0x51) : Translated (pegWord o peg m) := by
  rcases ho with rfl | rfl <;> constructor <;> rw [pegWord_op (by decide) hp hm] <;> decide
theorem effScalar_signal : effScalar (s.legacyScalar c op a (pegWord 0x50 peg m)) = { ctl := .signal peg (m % 256) } := by
  simp [effScalar, legacyScalar_op, legacyScalar_f, pegWord_op (op := 0x50) (by decide) hp hm,
    pegWord_peg (op := 0x50) (by decide) hp hm, pegWord_inc (op := 0x50) (by decide) hp hm]
theorem effScalar_wait : effScalar (s.legacyScalar c op a (pegWord 0x51 peg m)) = { ctl := .pegw peg (BitVec.ofNat 32 (m / 8)) } := by
  simp [effScalar, legacyScalar_op, legacyScalar_f, pegWord_op (op := 0x51) (by decide) hp hm,
    pegWord_peg (op := 0x51) (by decide) hp hm, pegWord_threshold (op := 0x51) (by decide) hp hm]
end

section
variable {s : State} {c : CoreId} {a : LegacyArgs}

theorem runLegacy_lpegs (h : s.legacyClear c 0x38 a = true) :
    ∃ i, s.runLegacy c 0x38 a = s.steered c i (.signal (fld (s.legS c a 5) 0 16) 1) := by
  have hp := fld_lt (s.legS c a 5) 0 16
  have ht := translated_pegWord (m := 1) hp (by decide) (.inl rfl)
  obtain ⟨hrow, hj⟩ := legacyClear_row h (fun _ => legacySlot_lpegs) (pegWord_pred (by decide) hp (by decide))
  exact ⟨_, hrow.steers hj ht.draws (ht.eff.trans (effScalar_signal hp (by decide)))⟩

theorem runLegacy_lpegw (h : s.legacyClear c 0x39 a = true) : ∃ i, s.runLegacy c 0x39 a =
    s.steered c i (.pegw (fld (s.legS c a 5) 0 16) (BitVec.ofNat 32 (fld (s.legS c a 10) 0 32))) := by
  have hp := fld_lt (s.legS c a 5) 0 16
  have hth := fld_lt (s.legS c a 10) 0 32
  have hm : 8 * fld (s.legS c a 10) 0 32 < 2 ^ 35 := by omega
  have ht := translated_pegWord hp hm (.inr rfl)
  obtain ⟨hrow, hj⟩ := legacyClear_row h (fun _ => legacySlot_lpegw) (pegWord_pred (by decide) hp hm)
  have he := effScalar_wait (s := s) (c := c) (op := 0x39) (a := a) hp hm
  rw [Nat.mul_div_cancel_left _ (by decide)] at he
  exact ⟨_, hrow.steers hj ht.draws (ht.eff.trans he)⟩

theorem runLegacy_lfence (h : a.operands = 0) : ∃ i, i.seq = (s.core c.val).seq ∧ s.runLegacy c 0x3A a = s.steered c i (.fence 31) := by
  have hop : fld (slotOf 0x52 [(13, 31)]) 5 8 = 0x52 := by decide
  have hmask : fld (slotOf 0x52 [(13, 31)]) 13 5 = 31 := by decide
  have hrow : LegacyRow s c 0x3A a (slotOf 0x52 [(13, 31)]) := ⟨by rw [LegacyArgs.operation, h]; rfl, by decide⟩
  have ht : Translated (slotOf 0x52 [(13, 31)]) := by constructor <;> rw [hop] <;> decide
  refine ⟨_, rfl, hrow.steers (ht.judge.trans ?_) ht.draws (ht.eff.trans ?_)⟩
  · simp [judgeS, legacyScalar_op, hop]
  · simp [effScalar, legacyScalar_op, legacyScalar_f, hop, hmask]

theorem runLegacy_lhalt (h : a.operands = 0) : s.runLegacy c 0x3F a = s.setCore c.val { s.core c.val with halt := true } := by
  have hop : fld (slotOf 0x7F []) 5 8 = 0x7F := by decide
  have hrow : LegacyRow s c 0x3F a (slotOf 0x7F []) := ⟨by rw [LegacyArgs.operation, h]; rfl, by decide⟩
  have ht : Translated (slotOf 0x7F []) := by constructor <;> rw [hop] <;> decide
  rw [hrow.steers (ctl := .halt) (ht.judge.trans ?_) ht.draws (ht.eff.trans ?_), steered_halt]
  · simp [judgeS, legacyScalar_op, hop]
  · simp [effScalar, legacyScalar_op, hop]
end

/-- Settles O21: a branch goes to its target where it is taken, and each other row is the sequencing of its translation. -/
theorem legacyControl : Obligations.LegacyControl := by
  intro c a s k near far goes stays
  have hd := fld_lt a.operands 0 5
  have ha := fld_lt a.operands 5 5
  refine ⟨fun h => ?_, fun h => ?_, fun h => ?_, fun h => ?_, fun x j hp => ⟨fun h => ?_, fun h => ?_⟩, fun h => ⟨?_, ?_⟩⟩
  · have hrun := runLegacy_branch (by decide) (by decide) (fun _ => legacySlot_lbr) h (t := near) rfl
    rw [taken_always (.inl rfl), if_pos rfl] at hrun
    exact congrArg Host.Outcome.next hrun
  · have hrun := runLegacy_branch (by decide) hd (fun _ => legacySlot_lbnz) h (t := near) rfl
    split
    · next hz => exact congrArg Host.Outcome.next (hrun.trans (by rw [if_neg (mt (taken_lbnz hd).mp (not_not.mpr hz))]))
    · next hz => exact congrArg Host.Outcome.next (hrun.trans (by rw [if_pos ((taken_lbnz hd).mpr hz)]))
  · have hrun := runLegacy_branch (by decide) hd (fun _ => legacySlot_lbz) h (t := near) rfl
    split
    · next hz => exact congrArg Host.Outcome.next (hrun.trans (by rw [if_pos ((taken_lbz hd).mpr hz)]))
    · next hz => exact congrArg Host.Outcome.next (hrun.trans (by rw [if_neg (mt (taken_lbz hd).mp hz)]))
  · have hrun := runLegacy_branch (by decide) ha (fun _ => legacySlot_lbx) h (t := far) rfl
    rw [taken_always (.inr rfl), if_pos rfl] at hrun
    exact congrArg Host.Outcome.next hrun
  · obtain ⟨i, hrun⟩ := runLegacy_lpegs h
    refine ⟨_, congrArg Host.Outcome.next hrun, sameData_steered .., ?_⟩
    exact steered_signal c i hp ..
  · obtain ⟨i, hrun⟩ := runLegacy_lpegw h
    refine ⟨_, congrArg Host.Outcome.next hrun, sameData_steered .., ?_⟩
    rw [steered_pegw c i hp, State.core_setCore]
    exact ⟨_, rfl, rfl, rfl⟩
  · obtain ⟨i, hseq, hrun⟩ := runLegacy_lfence (s := s) (c := c) h
    refine ⟨_, congrArg Host.Outcome.next hrun, sameData_steered .., ?_⟩
    rw [steered_fence, State.core_setCore, if_neg (by decide)]
    exact ⟨_, rfl, rfl, hseq⟩
  · exact congrArg Host.Outcome.next (runLegacy_lhalt h)

end Sys2Proof.Machine
end

section
/-! A recorded legacy load whose entry lands outside its own context's trace area: the crossed contexts of O16 again (09 R268). -/
namespace Sys2Proof.Machine

/-- LVLD of v0 from row s0 of descriptor 0, the mask of the crossed contexts. -/
def crossedLegacy : LegacyArgs := ⟨0, 0, false⟩
def crossedLoad : InFlight := crossedState.legacyInst 0 0x2D crossedLegacy .V (slotOf 0x20 [(13, 0), (19, 0), (24, 0)])
def crossedLoadView : View := viewOf crossedState 0 crossedLoad
def crossedLoadDrawn : State := crossedState.setLanes 0 (crossedLoadView.lanesAfter (drawsSlot crossedLoadView))

/-- The state once the bytes read have joined context 1's record, which puts context 1 back behind context 0. -/
def crossedLoadImported : State :=
  (crossedLoadDrawn.complete 0 crossedLoad (effSlot crossedLoadView)).importBytes 1 (some 0) crossedLoad.seq .V 0
    (viewOf crossedLoadDrawn 0 crossedLoad).imports

theorem crossedLoad_view : crossedState.legacyView 0 0x2D crossedLegacy = some crossedLoadView := rfl
theorem crossedLoad_clear : crossedState.legacyClear 0 0x2D crossedLegacy = true := by decide +kernel
theorem crossedLoad_run : crossedState.runLegacy 0 0x2D crossedLegacy = crossedState.runInst 0 crossedLoad := rfl
theorem crossedLoad_issues : issueCause crossedLoadView = none ∧ crossedLoadView.executes = true := by decide +kernel
theorem crossedLoad_place : crossedLoadImported.place 0 = some (0, 0) := by decide +kernel
theorem crossedLoad_room : crossedLoadImported.TraceRoom 0 80 16 := by
  constructor <;> decide +kernel

theorem crossedLoad_completeTraced :
    crossedLoadDrawn.completeTraced 0 crossedLoad (effSlot crossedLoadView) =
      crossedLoadImported.traceInst 0 ⟨0, crossedLoad.seq, .V, crossedLoadImported.digest 0 (effSlot crossedLoadView)⟩ := by
  rw [completeTraced_of_imports (x := 1) (k := 0) 0 crossedLoad _ (by decide +kernel) (by decide +kernel) rfl (by decide +kernel)
    (by decide +kernel)]
  exact traceEffect_of_tracing (k := 0) 0 crossedLoad _ crossedLoad_place crossedLoad_room.tracing (by decide) (by decide +kernel)

/-- The V slot's code stands in context 0's trace area. -/
theorem crossedLoad_entry : mapGet 0 (crossedState.runLegacy 0 0x2D crossedLegacy).tier1 88 = 2 := by
  obtain ⟨hissue, hexec⟩ := crossedLoad_issues
  rw [crossedLoad_run, runInst_executes (c := 0) (i := crossedLoad) (v := crossedLoadView) rfl hissue hexec, (sameData_instPoison ..).2.1]
  exact (congrArg (fun t : State => mapGet 0 t.tier1 88) crossedLoad_completeTraced).trans
    (tier1_traceInst (b := 80) _ crossedLoad_room (by decide +kernel))

/-- LVLD itself stores nothing. -/
theorem crossedLoad_effect : mapGet 0 (crossedState.withEffect 0 crossedLoadView (effVld crossedLoadView)).tier1 88 = 0 := by
  decide +kernel

/-- Refutes O22: the entry of a recorded LVLD goes to the trace area of an earlier context that holds the same bay, once the
bytes it imported have put its own context back into the table in order. O22 does not ask for the canonical form of the table
of contexts (O4), in which a context keeps its place. -/
theorem not_legacyUnitsComplete : ¬ Obligations.LegacyUnitsComplete := by
  intro h
  obtain ⟨v, hv, -, t, ht, -, -, -, -, htier1, -⟩ :=
    h 0 crossedLegacy crossedState (.lvld, 0x2D, effVld) (by simp [legacyUnitRows]) crossedLoad_clear
  obtain rfl : crossedLoadView = v := Option.some.inj (crossedLoad_view.symm.trans hv)
  obtain rfl : crossedState.runLegacy 0 0x2D crossedLegacy = t := Host.Outcome.next.inj ht
  have htwo : (2 : Byte) = 0 := (crossedLoad_entry.symm.trans (htier1 88 (crossed_not_traceByte 88))).trans crossedLoad_effect
  exact absurd htwo (by decide)

end Sys2Proof.Machine
end

section
/-! What leaves the Windway queues, their descriptors and the cores' data as they are: halts, faults, stores to tier 1
and the record of a step (08 Table 08-1; 13 R358; 14 R398; 09 R268). -/
namespace Sys2Proof.Machine

/-- Every queue, every field of a queue's descriptor and every core's data stay. -/
structure WindwayFrame (s t : State) : Prop where
  queues : t.queues = s.queues
  rd : ∀ (x q : Nat) (f : Field), t.rd (Reg.wwy x q) f = s.rd (Reg.wwy x q) f
  data : ∀ d, (t.core d).data = (s.core d).data

/-- The field of another object lies below the queues' descriptors in BAR0 (18 Table 18-2). -/
abbrev Field.BelowWwy (f : Field) (base : Nat) : Prop := f.key base < Reg.wwy 0 0 * 8

theorem belowWwy_ctx (x : CtxId) {f : Field} (hf : f.key 0 < 8192) : f.BelowWwy (Reg.ctx x.val) := by
  have hx := x.isLt
  simp only [Field.BelowWwy, Field.key, Reg.ctx, Reg.wwy] at hf ⊢
  omega
theorem belowWwy_ring (r : RingId) {f : Field} (hf : f.key 0 < 1024) : f.BelowWwy (Reg.ring r.val) := by
  have hr := r.isLt
  simp only [Field.BelowWwy, Field.key, Reg.ring, Reg.wwy] at hf ⊢
  omega

namespace WindwayFrame
variable {s t u : State}

theorem other (hq : t.queues = s.queues) (hr : t.regs = s.regs) (hc : t.cores = s.cores) : WindwayFrame s t :=
  ⟨hq, fun x q f => by rw [State.rd, hr]; rfl, fun d => by rw [State.core, hc]; rfl⟩
theorem refl (s : State) : WindwayFrame s s := other rfl rfl rfl
theorem trans (h : WindwayFrame s t) (g : WindwayFrame t u) : WindwayFrame s u :=
  ⟨g.queues.trans h.queues, fun x q f => (g.rd x q f).trans (h.rd x q f), fun d => (g.data d).trans (h.data d)⟩
theorem ite {p : Prop} [Decidable p] (ht : WindwayFrame s t) (hu : WindwayFrame s u) :
    WindwayFrame s (if p then t else u) := by split <;> assumption
theorem wr (s : State) {b : Nat} {f : Field} (v : Nat) (h : f.BelowWwy b) : WindwayFrame s (s.wr b f v) := by
  refine ⟨rfl, fun x q g => State.rd_wr_ne s v ?_, fun _ => rfl⟩
  simp only [Field.BelowWwy, Field.key, Reg.wwy] at h ⊢
  omega
theorem setCore (s : State) (c : Nat) (k : Core) (h : k.data = (s.core c).data) : WindwayFrame s (s.setCore c k) := by
  refine ⟨rfl, fun _ _ _ => rfl, fun d => ?_⟩
  by_cases hd : d = c
  · subst hd; rw [State.core_setCore, h]
  · rw [State.core_setCore_ne s k hd]
theorem setCtx (s : State) (x : Nat) (k : Ctx) : WindwayFrame s (s.setCtx x k) := other rfl rfl rfl
theorem setRing (s : State) (r : Nat) (k : Ring) : WindwayFrame s (s.setRing r k) := other rfl rfl rfl
theorem foldl {α : Type} {f : State → α → State} (hf : ∀ s a, WindwayFrame s (f s a)) (l : List α) (s : State) :
    WindwayFrame s (l.foldl f s) := by
  induction l generalizing s with
  | nil => exact .refl s
  | cons a l ih => exact (hf s a).trans (ih (f s a))

theorem regs (h : WindwayFrame s t) (d : Nat) : (t.core d).regs = (s.core d).regs := congrArg Prod.fst (h.data d)
theorem scratch (h : WindwayFrame s t) (d : Nat) : (t.core d).scratch = (s.core d).scratch :=
  congrArg (fun p => p.2.2.2.1) (h.data d)
theorem queue (h : WindwayFrame s t) (x q : Nat) : t.queue x q = s.queue x q := by rw [State.queue, h.queues]; rfl
theorem flag (h : WindwayFrame s t) (x q : Nat) (f : Field) : t.flag (Reg.wwy x q) f = s.flag (Reg.wwy x q) f := by
  rw [State.flag, h.rd]; rfl
end WindwayFrame

/-! ## Messages, records and halts -/

theorem windwayFrame_sendMsix (s : State) (f : CxlId) (v : Nat) : WindwayFrame s (s.sendMsix f v) := by
  unfold State.sendMsix
  exact .ite (.other rfl rfl rfl) (.other rfl rfl rfl)
theorem windwayFrame_event (s : State) {f : Field} (h : f.BelowWwy Reg.hif) : WindwayFrame s (s.event f) := by
  unfold State.event
  exact .ite (.wr s 1 h) ((WindwayFrame.wr s 1 h).trans (windwayFrame_sendMsix ..))
theorem windwayFrame_settleRing (s : State) (r : RingId) : WindwayFrame s (s.settleRing r.val) := by
  unfold State.settleRing
  exact .ite (((WindwayFrame.setRing ..).trans (.wr _ _ (belowWwy_ring r (by decide)))).trans (.wr _ _ (belowWwy_ring r (by decide))))
    (.refl s)
theorem windwayFrame_post (s : State) (t : Ticket) (fin : Bool) (a b d : Nat) : WindwayFrame s (s.post t fin a b d) := by
  unfold State.post State.bump
  exact ((WindwayFrame.setRing ..).trans (.ite (.wr _ _ (belowWwy_ring t.ring (by decide))) (.refl _))).trans
    (windwayFrame_settleRing ..)
theorem windwayFrame_finishLoads (s : State) (x code : Nat) : WindwayFrame s (s.finishLoads x code).1 := by
  unfold State.finishLoads
  exact (WindwayFrame.setCtx ..).trans (.foldl (fun _ _ => windwayFrame_post ..) _ _)
theorem windwayFrame_finishTickets (s : State) (x op code : Nat) : WindwayFrame s (s.finishTickets x op code) := by
  unfold State.finishTickets
  exact (WindwayFrame.setCtx ..).trans (.foldl (fun _ _ => windwayFrame_post ..) _ _)
theorem windwayFrame_enterStopped (s : State) (x : CtxId) (code : Nat) : WindwayFrame s (s.enterStopped x.val code) := by
  unfold State.enterStopped
  extract_lets k cd st torn s1 s2
  have h1 : WindwayFrame s s1 := (WindwayFrame.setCtx ..).trans (.wr _ _ (belowWwy_ctx x (by decide)))
  have h2 : WindwayFrame s s2 := h1.trans (.wr _ _ (belowWwy_ctx x (by decide)))
  have h4 := (h2.trans (windwayFrame_finishLoads s2 x.val cd)).trans (windwayFrame_finishTickets _ x.val 4 0)
  exact .ite h4 (h4.trans (windwayFrame_event _ (by decide)))
theorem windwayFrame_drainCores (l : List (Nat × Nat)) (s : State) : WindwayFrame s (s.drainCores l) := by
  induction l generalizing s with
  | nil => exact .refl s
  | cons a l ih =>
    have ha : WindwayFrame s (s.drainCore a.2) := by
      unfold State.drainCore
      extract_lets k
      split
      · exact .setCore _ _ _ rfl
      · exact .refl s
    exact ha.trans (ih _)
theorem windwayFrame_haltCtx (s : State) (x : CtxId) (code : Nat) : WindwayFrame s (s.haltCtx x.val code) := by
  unfold State.haltCtx
  extract_lets st torn k0 step' state s0 s1 s2 k
  have h1 : WindwayFrame s s1 := (WindwayFrame.setCtx ..).trans (.wr _ _ (belowWwy_ctx x (by decide)))
  have h2 : WindwayFrame s s2 := .ite (h1.trans (.wr _ _ (belowWwy_ctx x (by decide)))) h1
  refine .ite (.refl s) (.ite ?_ (.ite ?_ (.ite ?_ ?_)))
  · exact ((h2.trans (.setCtx ..)).trans (.wr _ _ (belowWwy_ctx x (by decide)))).trans (windwayFrame_drainCores _ _)
  · exact h2.trans (windwayFrame_enterStopped ..)
  · exact h2.trans (windwayFrame_event _ (by decide))
  · split
    · exact h2
    · exact h2.trans (.setCtx ..)

/-! ## Faults -/

theorem windwayFrame_logFault (s : State) (f : FaultInfo) : WindwayFrame s (s.logFault f) := by
  unfold State.logFault
  extract_lets head step r
  have h1 : WindwayFrame s ({ s with free := s.free + 1, faultLog := mapSet faultRecordReset s.faultLog (head % 256) r } : State) :=
    .other rfl rfl rfl
  exact (h1.trans (.wr _ _ (by decide))).trans (windwayFrame_event _ (by decide))
theorem windwayFrame_dataFault (s : State) (x : CtxId) (code : Nat) (f : FaultInfo) : WindwayFrame s (s.dataFault x.val code f) := by
  unfold State.dataFault State.bump
  exact ((WindwayFrame.wr _ _ (by decide)).trans (windwayFrame_logFault ..)).trans (windwayFrame_haltCtx ..)
theorem windwayFrame_afterPoison (s : State) (x : CtxId) (r w : List (Nat × Nat)) (t : State) :
    WindwayFrame t (s.afterPoison x.val r w t) := by
  unfold State.afterPoison State.poisonFault
  split
  · exact windwayFrame_dataFault ..
  · exact .refl t

/-! ## Stores and the record of a step -/

theorem windwayFrame_renewTag (s : State) (g : Nat) : WindwayFrame s (s.renewTag g) := by
  unfold State.renewTag
  exact .ite (.other rfl rfl rfl) (.refl s)
theorem windwayFrame_markGranules (f : Nat → Nat) (a n origin k : Nat) (s : State) :
    WindwayFrame s (s.markGranules f a n origin k) := by
  induction k generalizing s with
  | zero => exact .refl s
  | succ k ih =>
    unfold State.markGranules
    extract_lets g key whole s1 s2
    have h1 : WindwayFrame s s1 := .ite (.other rfl rfl rfl) (.ite (.other rfl rfl rfl) (.refl s))
    have h2 : WindwayFrame s s2 := .ite (h1.trans (.other rfl rfl rfl)) h1
    exact (h2.trans (windwayFrame_renewTag s2 key)).trans (ih _)
theorem windwayFrame_store (s : State) (x a origin : Nat) (bs : List Byte) : WindwayFrame s (s.store (.tier1 x) a origin bs) := by
  have hb : WindwayFrame s (s.backInvalidate (s.meetsRegion x a bs.length hostLine)) := .other rfl rfl rfl
  have hs (bs : List Byte) (a : Nat) (s : State) : WindwayFrame s (s.setBytes (.tier1 x) a bs) := by
    induction bs generalizing a s with
    | nil => exact .refl s
    | cons b bs ih =>
      have hb : WindwayFrame s (s.setByte (.tier1 x) a b) := .other rfl rfl rfl
      exact hb.trans (ih (a + 1) _)
  exact (hb.trans (hs ..)).trans (windwayFrame_markGranules ..)
theorem windwayFrame_traceAppend (s : State) (x : Nat) (bs : List Byte) (f : Ctx → Ctx) : WindwayFrame s (s.traceAppend x bs f) := by
  unfold State.traceAppend
  extract_lets k at'
  exact .ite (.refl s) (.ite (.setCtx ..) ((windwayFrame_store ..).trans (.setCtx ..)))
theorem windwayFrame_traceEffect (s : State) (c : CoreId) (i : InFlight) (e : Effect) : WindwayFrame s (s.traceEffect c i e) := by
  unfold State.traceEffect
  split
  · exact .ite (windwayFrame_traceAppend ..) (.refl s)
  · exact .refl s
theorem windwayFrame_importWw (s : State) (r : WRef) (i : InFlight) (n : Nat) (bs : List Byte) :
    WindwayFrame s (s.importWw r i n bs) := by
  unfold State.importWw
  split
  · exact windwayFrame_traceAppend ..
  · exact .refl s
theorem windwayFrame_dropFlight (s : State) (c id : Nat) : WindwayFrame s (s.dropFlight c id) := .setCore _ _ _ rfl
theorem windwayFrame_markTaken (s : State) (r : WRef) : WindwayFrame s (s.markTaken r) := .setCore _ _ _ rfl
end Sys2Proof.Machine
end

section
/-! WWPUT and WWGET join their queue's order (08 R228; 06 R195). -/
namespace Sys2Proof.Machine

/-- An instruction that reads no memory and writes no data leaves nothing in the record of a step. -/
theorem completeTraced_of_dataless (s : State) (c : CoreId) (i : InFlight) (e : Effect) (h0 : i.cursor = 0)
    (hr : (viewOf s c.val i).reads = []) (hw : e.writesData = false) : s.completeTraced c i e = s.complete c i e := by
  have hi : (viewOf s c.val i).imports = [] := by rw [View.imports, hr]; rfl
  unfold State.completeTraced
  rw [h0, rest_zero]
  split
  · rfl
  · simp only [hi, List.isEmpty_nil, if_true]
    split
    · unfold State.traceEffect
      simp only [hw, Bool.and_false, Bool.false_eq_true, if_false]
      split <;> rfl
    · rfl

section
variable {s : State} {c : CoreId} {a : SlotArgs}

/-- The row reads no memory, draws nothing and has no effect but its place in the order. -/
theorem runSlot_ww {op : Nat} (ho : op = 0x20 ∨ op = 0x28) (h : s.slotClear c .D op a = true) : s.runSlot c .D op a =
    s.steered c (s.slotInst c .D op a) (if op = 0x20 then .wwput (fld a.operands 5 8) else .wwget (fld a.operands 5 8)) := by
  have hop : (s.slotView c .D op a).op = op := slotView_op s c .D op a (by omega)
  have h0 : op ≠ 0 := by omega
  have hx : op ≠ 0x01 ∧ op ≠ 0x10 := by omega
  have hread (v : View) (hv : v.i = s.slotInst c .D op a) : v.reads = [] := by
    have hvop : v.op = op := by rw [View.op, View.f, hv]; exact slotWord_op op a (by omega)
    simp [View.reads, hv, State.slotInst, instOf, hvop, hx]
  have heff : effSlot (s.slotView c .D op a) =
      { ctl := if op = 0x20 then .wwput (fld a.operands 5 8) else .wwget (fld a.operands 5 8) } := by
    simp only [effSlot, hop, if_neg h0, slotView_legacyOnly, slotView_slot, if_pos ho, effWw, View.wwQueue]
    rw [slotView_f s c .D op a 5 8]
    rfl
  have hdraw : (s.slotView c .D op a).lanesAfter (drawsSlot (s.slotView c .D op a)) = (s.core c.val).regs.lanes := by
    simp [View.lanesAfter, drawsSlot, slotView_slot, slotView_regs, reserveAll]
  simp only [State.slotClear, Bool.and_eq_true, decide_eq_true_eq] at h
  obtain ⟨⟨hd, hon⟩, hc⟩ := h
  rw [runSlot_on s c .D op a hd hon hc, heff, hdraw, instPoison_none _ _ _ _ (hread _ (slotView_i ..)) rfl]
  rw [completeTraced_of_dataless _ _ _ _ rfl (hread _ (viewOf_i ..)) rfl, complete_core _ _ _ _ rfl rfl rfl]
  simp only [State.setLanes, State.core_setCore, State.setCore_setCore]
  exact congrArg (fun k => (s.setCore c.val k).control c _ _) (onCore_empty _)
end

section
variable {s : State} {c : CoreId} {x j : Nat} (hp : s.place c.val = some (x, j))
include hp

theorem steered_wwput (i : InFlight) (q : Nat) : s.steered c i (.wwput q) =
    (s.setCore c.val { s.core c.val with flight := (s.core c.val).flight ++ [i], nextId := max (s.core c.val).nextId (i.id + 1) }).setQueue
      x q { s.queue x q with puts := (s.queue x q).puts ++ [⟨c, i.id⟩] } := by
  have hp' : (s.setCore c.val (s.core c.val)).place c.val = some (x, j) := hp
  simp only [State.steered, State.control, hp', State.core_setCore, State.setCore_setCore]; rfl
theorem steered_wwget (i : InFlight) (q : Nat) : s.steered c i (.wwget q) =
    (s.setCore c.val { s.core c.val with flight := (s.core c.val).flight ++ [i], nextId := max (s.core c.val).nextId (i.id + 1) }).setQueue
      x q { s.queue x q with gets := (s.queue x q).gets ++ [⟨c, i.id⟩] } := by
  have hp' : (s.setCore c.val (s.core c.val)).place c.val = some (x, j) := hp
  simp only [State.steered, State.control, hp', State.core_setCore, State.setCore_setCore]; rfl
end

/-- Settles O19: each row is the steering of its core alone, into its queue's put order or get order. -/
theorem windwayRowsJoinOrder : Obligations.WindwayRowsJoinOrder := by
  intro c a s x j hp
  refine ⟨fun h => ⟨_, rfl, ?_⟩, fun h => ⟨_, rfl, ?_⟩⟩
  · rw [runSlot_ww (.inl rfl) h]
    refine ⟨sameData_steered .., ?_⟩
    rw [if_pos rfl, steered_wwput hp]
    simp only [State.queue_setQueue, State.setQueue_coreAt, State.core_setCore]
    exact ⟨rfl, trivial, trivial, _, rfl, rfl⟩
  · rw [runSlot_ww (.inr rfl) h]
    refine ⟨sameData_steered .., ?_⟩
    rw [if_neg (by decide), steered_wwget hp]
    simp only [State.queue_setQueue, State.setQueue_coreAt, State.core_setCore]
    exact ⟨rfl, trivial, trivial, _, rfl, rfl⟩

end Sys2Proof.Machine
end

section
/-! Credits, numbers and records are taken at the head of a queue's two orders (08 R228, R229, Table 08-5; 06 R195). -/
namespace Sys2Proof.Machine

/-! ## The number of the first record -/

theorem sreg_setS {n : Nat} (g : RegFile) (w : Word) (h : n ≠ 0) : (g.setS n w).sreg n = w := by
  simp [RegFile.sreg, RegFile.setS, h]

/-- A WWPUT or WWGET that takes its credits or records changes of the queues, their descriptors and the cores' data its SQ
register alone. -/
theorem windwayFrame_takeSeq (s : State) (r : WRef) (i : InFlight) (n : Nat) :
    WindwayFrame (s.withRegs r.core (fun g => g.setS (fld i.word 26 6) (BitVec.ofNat 64 n))) ((s.markTaken r).giveSeq r i n) := by
  have hc : (s.markTaken r).complete r.core i (seqEffect i n) = s.setCore r.core.val { (s.markTaken r).core r.core.val with
      regs := (s.core r.core.val).regs.setS (fld i.word 26 6) (BitVec.ofNat 64 n) } := by
    rw [complete_core_none _ _ _ _ rfl rfl rfl rfl, seqEffect, onCore_s, State.markTaken, State.setCore_setCore, State.core_setCore]
  rw [State.giveSeq, hc, ← State.setCore_setCore s r.core.val _ _]
  refine WindwayFrame.trans (.setCore _ _ _ ?_) (windwayFrame_importWw ..)
  simp only [Core.data, State.withRegs, State.markTaken, State.core_setCore]

/-! ## Records placed in a queue -/

theorem flag_wr_ne (s : State) {b b' : Nat} {f f' : Field} (v : Nat) (h : f'.key b' ≠ f.key b) :
    (s.wr b f v).flag b' f' = s.flag b' f' := by
  rw [State.flag, State.rd_wr_ne s v h]; rfl
theorem spill_key_ne (b : Nat) : Reg.WWY_SPILL.key b ≠ Reg.WWY_PUT_SEQ.key b := by
  simp only [Field.key, Reg.WWY_SPILL, Reg.WWY_PUT_SEQ]
  omega

/-- Records bss joined the queue, numbered from seq up; those in the ring hold their bytes. -/
structure Placed (x q seq : Nat) (bss : List (List Byte)) (s t : State) : Prop where
  queue : ∃ ws, t.queue x q = { s.queue x q with recs := (s.queue x q).recs ++ ws } ∧
    ws.map (fun w => w.seq) = List.range' seq bss.length ∧
    (s.flag (Reg.wwy x q) Reg.WWY_SPILL = false → ws.map (fun w => w.bytes) = bss)
  rd : ∀ f, t.rd (Reg.wwy x q) f = s.rd (Reg.wwy x q) f
  regs : ∀ d, (t.core d).regs = (s.core d).regs

namespace Placed
variable {x q seq : Nat} {s t u : State}

theorem refl (x q seq : Nat) (s : State) : Placed x q seq [] s s :=
  ⟨⟨[], by rw [List.append_nil], rfl, fun _ => rfl⟩, fun _ => rfl, fun _ => rfl⟩
theorem of_frame {w : WRecord} {bs : List Byte} (hseq : w.seq = seq)
    (hb : s.flag (Reg.wwy x q) Reg.WWY_SPILL = false → w.bytes = bs)
    (h : WindwayFrame (s.setQueue x q { s.queue x q with recs := (s.queue x q).recs ++ [w] }) t) : Placed x q seq [bs] s t :=
  ⟨⟨[w], by rw [h.queue, State.queue_setQueue], by rw [List.map_singleton, hseq]; rfl,
    fun hs => by rw [List.map_singleton, hb hs]⟩, h.rd x q, h.regs⟩
theorem cons {b : List Byte} {bs : List (List Byte)} (h : Placed x q seq [b] s t) (g : Placed x q (seq + 1) bs t u) :
    Placed x q seq (b :: bs) s u := by
  obtain ⟨v, hv, hvseq, hvbytes⟩ := h.queue
  obtain ⟨w, hw, hwseq, hwbytes⟩ := g.queue
  refine ⟨⟨v ++ w, ?_, ?_, fun hs => ?_⟩, fun f => (g.rd f).trans (h.rd f), fun d => (g.regs d).trans (h.regs d)⟩
  · rw [hw, hv, List.append_assoc]
  · rw [List.map_append, hvseq, hwseq]; rfl
  · rw [List.map_append, hvbytes hs, hwbytes (by rw [State.flag, h.rd]; exact hs)]; rfl
end Placed

/-- A record joins its queue in the ring or in the spill area, whatever poison its place there meets. -/
theorem placed_enqueue (s : State) (x : CtxId) (q seq : Nat) (bs : List Byte) :
    Placed x.val q seq [bs] s (s.enqueue x.val q seq bs) := by
  unfold State.enqueue
  extract_lets k i a
  split
  · next h =>
    simp only [Bool.and_eq_true] at h
    exact .of_frame (w := ⟨seq, [], some i⟩) rfl (fun hs => by simp [hs] at h)
      ((windwayFrame_store ..).trans (windwayFrame_afterPoison ..))
  · exact .of_frame (w := ⟨seq, bs, none⟩) rfl (fun _ => rfl) (.refl _)
theorem placed_enqueueAll (x : CtxId) (q : Nat) (bss : List (List Byte)) (seq : Nat) (s : State) :
    Placed x.val q seq bss s (s.enqueueAll x.val q seq bss) := by
  induction bss generalizing seq s with
  | nil => exact .refl ..
  | cons b bs ih => exact (placed_enqueue s x q seq b).cons (ih (seq + 1) _)

/-- Where no row fails its check, each of them is placed. -/
theorem length_putRows {s : State} {x q seq size : Nat} {v : View} {l : List Nat} (h : (s.putRows x q seq size v l).2 = none) :
    (s.putRows x q seq size v l).1.length = l.length := by
  induction l with
  | nil => rfl
  | cons r rs ih =>
    unfold State.putRows at h ⊢
    split
    · next hr => simp [hr] at h
    · next bs hr =>
      simp only [hr] at h
      exact congrArg (· + 1) (ih h)

/-- A WWPUT that is done leaves its queue's put order. -/
theorem windwayFrame_putDone (s : State) (x q : Nat) (r : WRef) (i : InFlight) :
    WindwayFrame (s.setQueue x q { s.queue x q with puts := (s.queue x q).puts.filter (fun p => decide (p ≠ r)) })
      (s.putDone x q r i none) :=
  (windwayFrame_dropFlight ..).trans (windwayFrame_traceEffect ..)

/-! ## The two orders -/

/-- The head WWPUT has n credits, and the numbers from PUT_SEQ up. -/
def State.credited (s : State) (x q : Nat) (r : WRef) (i : InFlight) (n : Nat) : State :=
  let seq := s.rd (Reg.wwy x q) Reg.WWY_PUT_SEQ
  (((s.setQueue x q { s.queue x q with outstanding := (s.queue x q).outstanding + n }).wr
    (Reg.wwy x q) Reg.WWY_PUT_SEQ (seq + n)).markTaken r).giveSeq r i seq
/-- The head WWGET has the first n records of its queue, and the numbers from GET_SEQ up. -/
def State.supplied (s : State) (x q : Nat) (r : WRef) (rest : List WRef) (i : InFlight) (n : Nat) : State :=
  let k := s.queue x q
  let seq := s.rd (Reg.wwy x q) Reg.WWY_GET_SEQ
  (((s.setQueue x q { k with
    recs := k.recs.drop n, gets := rest,
    delivering := k.delivering ++ (upto n).filterMap (fun j => (k.recs[j]?).map (fun w => (⟨r, j, w⟩ : WDelivery))) }).wr
    (Reg.wwy x q) Reg.WWY_GET_SEQ (seq + n)).markTaken r).giveSeq r i seq

section
variable {s : State} {x q : Nat} {r : WRef} {rest : List WRef} {i : InFlight}

theorem credited_queue (n : Nat) : (s.credited x q r i n).queue x q =
    { s.queue x q with outstanding := (s.queue x q).outstanding + n } :=
  ((windwayFrame_takeSeq ..).queue x q).trans (State.queue_setQueue ..)
theorem credited_putSeq (n : Nat) : (s.credited x q r i n).rd (Reg.wwy x q) Reg.WWY_PUT_SEQ =
    (s.rd (Reg.wwy x q) Reg.WWY_PUT_SEQ + n) % 2 ^ Reg.WWY_PUT_SEQ.width :=
  ((windwayFrame_takeSeq ..).rd x q _).trans (State.rd_wr ..)
theorem credited_spill (n : Nat) : (s.credited x q r i n).flag (Reg.wwy x q) Reg.WWY_SPILL = s.flag (Reg.wwy x q) Reg.WWY_SPILL := by
  rw [State.credited, (windwayFrame_takeSeq ..).flag]
  exact flag_wr_ne _ _ (spill_key_ne _)
theorem credited_sreg (n : Nat) (h : fld i.word 26 6 ≠ 0) : ((s.credited x q r i n).core r.core.val).regs.sreg (fld i.word 26 6) =
    BitVec.ofNat 64 (s.rd (Reg.wwy x q) Reg.WWY_PUT_SEQ) := by
  rw [State.credited, (windwayFrame_takeSeq ..).regs, State.withRegs, State.core_setCore]
  exact sreg_setS _ _ h

theorem supplied_queue (n : Nat) : (s.supplied x q r rest i n).queue x q = { s.queue x q with
    recs := (s.queue x q).recs.drop n, gets := rest,
    delivering := (s.queue x q).delivering ++
      (upto n).filterMap (fun j => ((s.queue x q).recs[j]?).map (fun w => (⟨r, j, w⟩ : WDelivery))) } :=
  ((windwayFrame_takeSeq ..).queue x q).trans (State.queue_setQueue ..)
theorem supplied_getSeq (n : Nat) : (s.supplied x q r rest i n).rd (Reg.wwy x q) Reg.WWY_GET_SEQ =
    (s.rd (Reg.wwy x q) Reg.WWY_GET_SEQ + n) % 2 ^ Reg.WWY_GET_SEQ.width :=
  ((windwayFrame_takeSeq ..).rd x q _).trans (State.rd_wr ..)
theorem supplied_sreg (n : Nat) (h : fld i.word 26 6 ≠ 0) :
    ((s.supplied x q r rest i n).core r.core.val).regs.sreg (fld i.word 26 6) =
      BitVec.ofNat 64 (s.rd (Reg.wwy x q) Reg.WWY_GET_SEQ) := by
  rw [State.supplied, (windwayFrame_takeSeq ..).regs, State.withRegs, State.core_setCore]
  exact sreg_setS _ _ h

section
variable (hi : s.refInst r = some i)
include hi

theorem putTake_waits (hk : (s.queue x q).puts = r :: rest) (hn : s.freeCredits x q < (viewOf s r.core.val i).wwDesc.rows) :
    s.putTake x q = s := by
  simp [State.putTake, hk, hi, hn]
theorem putTake_local {n : Nat} (hk : (s.queue x q).puts = r :: rest) (hs : s.isSender x q = false) (ht : i.taken = false)
    (hv : (viewOf s r.core.val i).wwDesc.rows = n) (hn : n ≤ s.freeCredits x q) {bss : List (List Byte)}
    (hb : s.putRows x q (s.rd (Reg.wwy x q) Reg.WWY_PUT_SEQ) (s.recordSize x q) (viewOf s r.core.val i) (upto n) = (bss, none)) :
    s.putTake x q =
      ((s.credited x q r i bss.length).enqueueAll x q (s.rd (Reg.wwy x q) Reg.WWY_PUT_SEQ) bss).putDone x q r i none := by
  simp [State.putTake, hk, hi, ht, hv, Nat.not_lt.mpr hn, hb, hs, State.credited]

theorem getTake_waits (hk : (s.queue x q).gets = r :: rest)
    (hn : (s.queue x q).recs.length < (viewOf s r.core.val i).wwDesc.rows) : s.getTake x q = s := by
  simp [State.getTake, hk, hi, hn]
theorem getTake_takes (hk : (s.queue x q).gets = r :: rest)
    (hn : (viewOf s r.core.val i).wwDesc.rows ≤ (s.queue x q).recs.length) :
    s.getTake x q = s.supplied x q r rest i (viewOf s r.core.val i).wwDesc.rows := by
  simp [State.getTake, hk, hi, Nat.not_lt.mpr hn, State.supplied]
end
end

theorem map_rcd_taken (r : WRef) (l : List WRecord) (n : Nat) :
    ((upto n).filterMap (fun j => (l[j]?).map (fun w => (⟨r, j, w⟩ : WDelivery)))).map (fun d => d.rcd) = l.take n := by
  induction n with
  | zero => rfl
  | succ n ih =>
    rw [upto, List.range_succ, List.filterMap_append, List.map_append, List.take_add_one, ← ih]
    congr 1
    cases h : l[n]? <;> simp [h]

/-- Settles O27: the head WWPUT's records join the queue behind its credits, and what a spill or a recording adds touches no
queue; the head WWGET takes the front of the queue. -/
theorem windwayTakesInOrder : Obligations.WindwayTakesInOrder := by
  intro x q r rest i s k b hi
  refine ⟨fun hk hs ht => ?_, fun hk => ?_⟩
  · intro v n seq out
    refine ⟨fun hn => congrArg Host.Outcome.next (putTake_waits hi hk hn), fun hn hb => ⟨_, rfl, ?_⟩⟩
    have hlen : out.1.length = n := (length_putRows hb).trans List.length_range
    have hput := putTake_local hi hk hs ht rfl hn (bss := out.1) (Prod.ext rfl hb)
    rw [hlen] at hput
    rw [hput]
    have hplaced := placed_enqueueAll x q.val out.1 seq (s.credited x.val q.val r i n)
    have hdone := windwayFrame_putDone ((s.credited x.val q.val r i n).enqueueAll x.val q.val seq out.1) x.val q.val r i
    obtain ⟨ws, hq, hseq, hbytes⟩ := hplaced.queue
    beta_reduce
    rw [hdone.queue, State.queue_setQueue, hq, credited_queue]
    refine ⟨fun hspill => ?_, ?_, ?_, rfl, ?_, fun hsq => ?_⟩
    · rw [List.map_append, hbytes ((credited_spill n).trans hspill)]
    · rw [List.map_append, hseq, hlen, List.range'_eq_map_range]; rfl
    · exact congrArg _ hk
    · rw [hdone.rd, State.setQueue_rd, hplaced.rd, credited_putSeq]
    · rw [hdone.regs, State.setQueue_coreAt, hplaced.regs, credited_sreg n hsq]
  · intro n seq
    refine ⟨fun hn => congrArg Host.Outcome.next (getTake_waits hi hk hn), fun hn => ⟨_, rfl, ?_⟩⟩
    rw [getTake_takes hi hk hn]
    beta_reduce
    rw [supplied_queue]
    exact ⟨rfl, rfl, by rw [List.map_append, map_rcd_taken], supplied_getSeq n, supplied_sreg n⟩

end Sys2Proof.Machine
end

section
/-! Delivered and remote records, returned credits, and the clearing of a queue (08 R220, R228, R230, R233). -/
namespace Sys2Proof.Machine

/-! ## A record into a scratchpad -/

theorem setBytes_scratch_frame (c : Nat) (bs : List Byte) (a : Nat) (s : State) :
    (s.setBytes (.scratch c) a bs).queues = s.queues ∧
    ((s.setBytes (.scratch c) a bs).core c).scratch = mapWrite 0 (s.core c).scratch a bs := by
  induction bs generalizing a s with
  | nil => exact ⟨rfl, rfl⟩
  | cons b bs ih =>
    obtain ⟨hq, hm⟩ := ih (a + 1) (s.setByte (.scratch c) a b)
    refine ⟨hq, hm.trans ?_⟩
    rw [State.setByte, State.core_setCore]
    rfl

section
variable {s : State} {x q : Nat} {d : WDelivery} {rest : List WDelivery} {i : InFlight}

/-- Beyond its store, a delivery that returns no credit to a remote putter changes the record of the step and, with the last row
of its WWGET, what its core has in flight. -/
theorem deliverGood_local (hk : (s.queue x q).delivering = d :: rest) (hi : s.refInst d.ref = some i) (hr : s.isReceiver x q = false) :
    WindwayFrame ((s.setQueue x q { s.queue x q with delivering := rest, outstanding := (s.queue x q).outstanding - 1 }).store
      ((viewOf s d.ref.core.val i).wwRow d.row).1 ((viewOf s d.ref.core.val i).wwRow d.row).2 0 (s.recordBytes x q d.rcd))
      (s.deliverGood x q) := by
  simp only [State.deliverGood, hk, hi, hr, Bool.false_eq_true, if_false]
  split
  · exact windwayFrame_importWw ..
  · exact ((windwayFrame_importWw ..).trans (windwayFrame_dropFlight ..)).trans (windwayFrame_traceEffect ..)

/-- A record for a row of the getter's scratchpad is written there, and its credit is free. -/
theorem deliverGood_scratch (hk : (s.queue x q).delivering = d :: rest) (hi : s.refInst d.ref = some i)
    (hr : s.isReceiver x q = false) (hl : ((viewOf s d.ref.core.val i).wwRow d.row).1 = .scratch d.ref.core.val) :
    (s.deliverGood x q).queue x q = { s.queue x q with delivering := rest, outstanding := (s.queue x q).outstanding - 1 } ∧
    ((s.deliverGood x q).core d.ref.core.val).scratch = mapWrite 0 (s.core d.ref.core.val).scratch
      ((viewOf s d.ref.core.val i).wwRow d.row).2 (s.recordBytes x q d.rcd) := by
  have hframe := deliverGood_local hk hi hr
  rw [hl] at hframe
  rw [hframe.queue, hframe.scratch]
  obtain ⟨hqueues, hbytes⟩ := setBytes_scratch_frame d.ref.core.val (s.recordBytes x q d.rcd)
    ((viewOf s d.ref.core.val i).wwRow d.row).2
    (s.setQueue x q { s.queue x q with delivering := rest, outstanding := (s.queue x q).outstanding - 1 })
  exact ⟨(congrArg (fun m => mapGet Queue.start m (queueKey x q)) hqueues).trans (State.queue_setQueue ..), hbytes⟩

theorem deliverRecord_good (hk : (s.queue x q).delivering = d :: rest) (hp : s.poisonMet x (s.recordReads x q d.rcd) [] = none) :
    s.deliverRecord x q true = s.deliverGood x q := by
  simp [State.deliverRecord, hk, hp]
theorem deliverRecord_bad (hk : (s.queue x q).delivering = d :: rest) : s.deliverRecord x q false =
    s.dataFault x 0x3002 { detect := 0x3002, island := 0x2000 + s.wq x q Reg.WWY_SEGMENT } := by
  simp [State.deliverRecord, hk]
end

/-! ## Remote pairs -/

/-- A record of the remote putter that passes and finds a credit takes the next number and joins the ring. -/
theorem placed_remoteRecord {s : State} {x : CtxId} {q : Nat} {bs out : List Byte} (hon : s.queueOn x.val q = true)
    (hr : s.isReceiver x.val q = true) (hl : bs.length = s.recordSize x.val q) (hf : 0 < s.freeCredits x.val q)
    (hp : s.placeRecord x.val q (s.rd (Reg.wwy x.val q) Reg.WWY_PUT_SEQ) bs = some out) :
    ∃ t, t.queue x.val q = { s.queue x.val q with outstanding := (s.queue x.val q).outstanding + 1 } ∧
      t.flag (Reg.wwy x.val q) Reg.WWY_SPILL = s.flag (Reg.wwy x.val q) Reg.WWY_SPILL ∧
      Placed x.val q (s.rd (Reg.wwy x.val q) Reg.WWY_PUT_SEQ) [out] t (s.remoteRecord x.val q bs) := by
  simp only [State.remoteRecord, hon, hr, hl, hf, hp, Bool.and_self, decide_true, if_true]
  refine ⟨_, ?_, ?_, placed_enqueue ..⟩
  · exact State.queue_setQueue ..
  · exact flag_wr_ne _ _ (spill_key_ne _)

theorem remoteCredit_returns {s : State} {x q : Nat} (hon : s.queueOn x q = true) (hs : s.isSender x q = true)
    (ho : 0 < (s.queue x q).outstanding) :
    (s.remoteCredit x q).queue x q = { s.queue x q with outstanding := (s.queue x q).outstanding - 1 } := by
  simp only [State.remoteCredit, hon, hs, ho, Bool.and_self, decide_true, if_true]
  exact State.queue_setQueue ..

/-! ## Clearing -/

theorem windwayFrame_queuePacket (s : State) (k : ChannelKey) (ordered : Bool) (type : Nat) (body : List Byte) :
    WindwayFrame s (s.queuePacket k ordered type body) := by
  unfold State.queuePacket State.setChannel
  extract_lets c pk s1
  have h1 : WindwayFrame s s1 := .ite (.other rfl rfl rfl) (.other rfl rfl rfl)
  exact h1.trans (.other rfl rfl rfl)

/-- A queue that is cleared without a code holds nothing, and clears its ring and spill area last. -/
theorem clearPair_clears {s : State} {x q : Nat} (hon : s.queueOn x q = true) :
    (s.clearPair x q none).queue x q = { s.queue x q with
      recs := [], puts := [], gets := [], delivering := [], outstanding := 0,
      clearing := (s.queue x q).clearing ++ [s.clearingOf x q] } ∧
    (s.clearPair x q none).queueOn x q = false := by
  have hf : WindwayFrame (s.clearQueue x q none) (s.clearPair x q none) := by
    unfold State.clearPair
    exact .ite (windwayFrame_queuePacket ..) (.refl _)
  rw [State.queueOn, hf.queue, hf.flag]
  simp only [State.clearQueue, hon, if_true]
  refine ⟨State.queue_setQueue .., ?_⟩
  rw [State.flag, State.rd_wr]; rfl

theorem tier1_zeroRegion (s : State) (x lo n a : Nat) : mapGet 0 (s.zeroRegion x lo n).tier1 a =
    match s.regionOff x a with
    | some o => if lo ≤ o ∧ o < lo + n then 0 else mapGet 0 s.tier1 a
    | none => mapGet 0 s.tier1 a := by
  have h := mapGet_mapClear (0 : Byte)
    (fun a => match s.regionOff x a with | some o => decide (lo ≤ o) && decide (o < lo + n) | none => false) s.tier1 a
  refine Eq.trans h ?_
  cases s.regionOff x a with
  | none => rfl
  | some o => simp only [Bool.and_eq_true, decide_eq_true_eq]
theorem clearDone_ends {s : State} {x q : Nat} {z : Clearing} {zs : List Clearing} (hk : (s.queue x q).clearing = z :: zs) :
    s.clearDone x q = (s.setQueue x q { s.queue x q with clearing := zs }).zeroRegion x z.spill.1 z.spill.2 := by
  simp only [State.clearDone, hk]

/-! ## The rows -/

/-- Settles O28: each row by what it changes of its queue, and of the getter's scratchpad or of tier 1. -/
theorem windwayDelivers : Obligations.WindwayDelivers := by
  intro x q s k b
  refine ⟨fun d rest hk => ⟨fun i hi hr hp => ?_, _, rfl, ?_⟩, fun bs out hon hr hl hf hp => ⟨_, rfl, ?_⟩,
    fun hon hs ho => ⟨_, rfl, ?_⟩, fun hm hd hc hon => ⟨_, rfl, ?_⟩, fun z zs hk => ⟨_, rfl, ?_⟩⟩
  · intro bs at_ hat
    refine ⟨_, rfl, ?_⟩
    obtain ⟨hq, hm⟩ := deliverGood_scratch hk hi hr hat
    rw [deliverRecord_good hk hp]
    rw [hq, hm]
    exact ⟨rfl, rfl, mapGet_mapWrite 0 bs _ at_.2⟩
  · rw [deliverRecord_bad hk]
    exact ⟨sameData_dataFault .., (windwayFrame_dataFault ..).queue x.val q.val⟩
  · obtain ⟨t, ht, hspill, hplaced⟩ := placed_remoteRecord hon hr hl hf hp
    obtain ⟨ws, hq, hseq, hbytes⟩ := hplaced.queue
    rw [hq, ht]
    exact ⟨by rw [List.map_append, hseq]; rfl, fun hs => by rw [List.map_append, hbytes (hspill.trans hs)], rfl⟩
  · beta_reduce
    rw [remoteCredit_returns hon hs ho]
    exact ⟨rfl, rfl⟩
  · obtain ⟨hq, hoff⟩ := clearPair_clears hon
    rw [bar_of_open _ (by simp [State.barOpen, hm, hd]), if_neg (by simp [hc]), hq]
    exact ⟨rfl, rfl, rfl, rfl, rfl, hoff⟩
  · rw [clearDone_ends hk]
    exact ⟨congrArg Queue.clearing (State.queue_setQueue ..), tier1_zeroRegion _ x.val z.spill.1 z.spill.2⟩

end Sys2Proof.Machine
end

section
/-! What leaves the contexts, their registers, the cores and the rings as they are: stores to memory, packets that join a channel
and the words of a step's record (09 R259, R268; 10 R288). -/
namespace Sys2Proof.Machine

/-- Contexts, every register of a context, cores and rings stay. -/
structure StepFrame (s t : State) : Prop where
  ctxs : t.ctxs = s.ctxs
  cf : ∀ (x : Nat) (f : Field), t.cf x f = s.cf x f
  cores : t.cores = s.cores
  rings : t.rings = s.rings

namespace StepFrame
variable {s t u : State}

theorem other (hx : t.ctxs = s.ctxs) (hr : t.regs = s.regs) (hc : t.cores = s.cores) (hg : t.rings = s.rings) : StepFrame s t :=
  ⟨hx, fun x f => by rw [State.cf, State.rd, hr]; rfl, hc, hg⟩
theorem refl (s : State) : StepFrame s s := other rfl rfl rfl rfl
theorem trans (h : StepFrame s t) (g : StepFrame t u) : StepFrame s u :=
  ⟨g.ctxs.trans h.ctxs, fun x f => (g.cf x f).trans (h.cf x f), g.cores.trans h.cores, g.rings.trans h.rings⟩
theorem ite {p : Prop} [Decidable p] (ht : StepFrame s t) (hu : StepFrame s u) : StepFrame s (if p then t else u) := by
  split <;> assumption
theorem foldl {α : Type} {f : State → α → State} (hf : ∀ s a, StepFrame s (f s a)) (l : List α) (s : State) :
    StepFrame s (l.foldl f s) := by
  induction l generalizing s with
  | nil => exact .refl s
  | cons a l ih => exact (hf s a).trans (ih (f s a))

theorem ctx (h : StepFrame s t) (x : Nat) : t.ctx x = s.ctx x := by rw [State.ctx, h.ctxs]; rfl
end StepFrame

/-! ## Stores -/

theorem stepFrame_setBytes {l : Loc} (hl : ∀ (s : State) (a : Nat) (b : Byte), StepFrame s (s.setByte l a b)) (bs : List Byte)
    (a : Nat) (s : State) : StepFrame s (s.setBytes l a bs) := by
  induction bs generalizing a s with
  | nil => exact .refl s
  | cons b bs ih => exact (hl s a b).trans (ih (a + 1) _)
theorem stepFrame_renewTag (s : State) (g : Nat) : StepFrame s (s.renewTag g) := by
  unfold State.renewTag
  exact .ite (.other rfl rfl rfl rfl) (.refl s)
theorem stepFrame_markGranules (f : Nat → Nat) (a n origin k : Nat) (s : State) : StepFrame s (s.markGranules f a n origin k) := by
  induction k generalizing s with
  | zero => exact .refl s
  | succ k ih =>
    unfold State.markGranules
    extract_lets g key whole s1 s2
    have h1 : StepFrame s s1 := .ite (.other rfl rfl rfl rfl) (.ite (.other rfl rfl rfl rfl) (.refl s))
    have h2 : StepFrame s s2 := .ite (h1.trans (.other rfl rfl rfl rfl)) h1
    exact (h2.trans (stepFrame_renewTag s2 key)).trans (ih _)
theorem stepFrame_store (s : State) (x a origin : Nat) (bs : List Byte) : StepFrame s (s.store (.tier1 x) a origin bs) := by
  have hb : StepFrame s (s.backInvalidate (s.meetsRegion x a bs.length hostLine)) := .other rfl rfl rfl rfl
  exact (hb.trans (stepFrame_setBytes (fun _ _ _ => .other rfl rfl rfl rfl) bs a _)).trans (stepFrame_markGranules ..)
theorem stepFrame_storeHost (s : State) (b a origin : Nat) (bs : List Byte) : StepFrame s (s.store (.host b) a origin bs) :=
  stepFrame_setBytes (fun _ _ _ => .other rfl rfl rfl rfl) bs a s
theorem stepFrame_recWrite (s : State) (x off n v : Nat) : StepFrame s (s.recWrite x off n v) := stepFrame_store ..
theorem stepFrame_zeroRegion (s : State) (x lo n : Nat) : StepFrame s (s.zeroRegion x lo n) := .other rfl rfl rfl rfl

/-! ## The record of a step -/

theorem stepFrame_traceOpen (s : State) (x : Nat) (o : OpenStep) : StepFrame s (s.traceOpen x o) := stepFrame_store ..
theorem stepFrame_traceClose (s : State) (x : Nat) (o : OpenStep) : StepFrame s (s.traceClose x o) :=
  (stepFrame_store ..).trans (stepFrame_store ..)
theorem stepFrame_writeGate (s : State) (x : Nat) (o : OpenStep) (gate reason : Nat) (r : Option Summary) :
    StepFrame s (s.writeGate x o gate reason r) := by
  unfold State.writeGate
  extract_lets e bad q risk c g decided s1 s2 s3
  have h1 : StepFrame s s1 := stepFrame_recWrite ..
  have h2 : StepFrame s s2 := .ite ((h1.trans (stepFrame_recWrite ..)).trans (stepFrame_recWrite ..)) h1
  have h3 : StepFrame s s3 := h2.trans (stepFrame_recWrite ..)
  exact h3.trans (stepFrame_store ..)

/-! ## Packets -/

theorem setChannel_eq (s : State) (c : Channel) : ∃ cs, s.setChannel c = { s with channels := cs } := by
  unfold State.setChannel
  split <;> exact ⟨_, rfl⟩
/-- A packet that joins a channel changes its channel's record and the outbox. -/
theorem queuePacket_eq (s : State) (k : ChannelKey) (ordered : Bool) (type : Nat) (body : List Byte) :
    ∃ cs ps, s.queuePacket k ordered type body = { s with channels := cs, outbox := ps } := by
  obtain ⟨cs, h⟩ := setChannel_eq s
    { s.channelOr k ordered with next := ((s.channelOr k ordered).next + 1) % 2 ^ 32 }
  simp only [State.queuePacket, h]
  exact ⟨_, _, rfl⟩
theorem queueBodies_eq (k : ChannelKey) (ordered : Bool) (type : Nat) (bodies : List (List Byte)) (s : State) :
    ∃ cs ps, s.queueBodies k ordered type bodies = { s with channels := cs, outbox := ps } := by
  induction bodies generalizing s with
  | nil => exact ⟨s.channels, s.outbox, rfl⟩
  | cons b bs ih =>
    obtain ⟨cs, ps, h⟩ := queuePacket_eq s k ordered type b
    rw [State.queueBodies, h]
    exact ih _
theorem stepFrame_queuePacket (s : State) (k : ChannelKey) (ordered : Bool) (type : Nat) (body : List Byte) :
    StepFrame s (s.queuePacket k ordered type body) := by
  obtain ⟨cs, ps, h⟩ := queuePacket_eq s k ordered type body
  exact h ▸ .other rfl rfl rfl rfl
theorem stepFrame_sendAborts (x code : Nat) (rs : List Nat) (s : State) : StepFrame s (s.sendAborts x code rs) := by
  induction rs generalizing s with
  | nil => exact .refl s
  | cons r rs ih => exact (stepFrame_queuePacket ..).trans (ih _)

end Sys2Proof.Machine
end

section
/-! Registers of a context beside others, and completion records: what posting leaves of contexts, cores and tier 1 (18 R495,
Table 18-2). -/
namespace Sys2Proof.Machine

/-! ## A context's registers after a write -/

theorem cf_wr_same (s : State) (x : Nat) (f : Field) (v : Nat) : (s.wr (Reg.ctx x) f v).cf x f = v % 2 ^ f.width :=
  State.rd_wr ..
theorem cf_wr_ne (s : State) (x v : Nat) {f g : Field} (h : f.key 0 ≠ g.key 0) : (s.wr (Reg.ctx x) g v).cf x f = s.cf x f :=
  State.rd_wr_ne s v fun e => h (by rw [key_eq_add f, key_eq_add g] at e; exact Nat.add_left_cancel e)
/-- A register below the contexts in BAR0. -/
abbrev Field.BelowCtx (f : Field) (base : Nat) : Prop := f.key base < Reg.ctx 0 * 8
theorem belowCtx_ring (r : RingId) {f : Field} (hf : f.key 0 < 1024) : f.BelowCtx (Reg.ring r.val) := by
  have hr := r.isLt
  simp only [Field.BelowCtx, Field.key, Reg.ring, Reg.ctx] at hf ⊢
  omega
theorem belowCtx_streamTable (x : CtxId) {f : Field} (hf : f.key 0 < 1024) : f.BelowCtx (Reg.streamTable x.val) := by
  have hx := x.isLt
  simp only [Field.BelowCtx, Field.key, Reg.streamTable, Reg.ctx] at hf ⊢
  omega
theorem cf_wr_below (s : State) {b : Nat} {g : Field} (v : Nat) (h : g.BelowCtx b) (x : Nat) (f : Field) :
    (s.wr b g v).cf x f = s.cf x f := by
  refine State.rd_wr_ne s v ?_
  simp only [Field.BelowCtx, Field.key, Reg.ctx] at h ⊢
  omega

/-! ## Records -/

theorem post_ctxs (s : State) (t : Ticket) (fin : Bool) (a b d : Nat) : (s.post t fin a b d).ctxs = s.ctxs := by
  unfold State.post State.settleRing
  extract_lets r rec' s1 s2 k
  have h2 : s2.ctxs = s.ctxs := by simp only [s2]; split <;> rfl
  split <;> exact h2
theorem cf_settleRing (s : State) (r : RingId) (x : Nat) (f : Field) : (s.settleRing r.val).cf x f = s.cf x f := by
  unfold State.settleRing
  extract_lets k
  split
  · rw [cf_wr_below _ _ (belowCtx_ring r (by decide)), cf_wr_below _ _ (belowCtx_ring r (by decide))]
    rfl
  · rfl
theorem cf_post (s : State) (t : Ticket) (fin : Bool) (a b d x : Nat) (f : Field) : (s.post t fin a b d).cf x f = s.cf x f := by
  unfold State.post
  extract_lets r rec' s1 s2
  rw [cf_settleRing]
  simp only [s2]
  split
  · exact cf_wr_below _ _ (belowCtx_ring t.ring (by decide)) _ _
  · rfl
/-- A ring that is not closing takes the record. -/
theorem post_records (s : State) (t : Ticket) (a b d : Nat) (h : (s.ring t.ring.val).closing = false) :
    ((s.post t true a b d).ring t.ring.val).records = (s.ring t.ring.val).records ++
      [⟨t.cmdId, t.ctx, true, t.op, BitVec.ofNat 16 a, BitVec.ofNat 64 b, BitVec.ofNat 64 d, t.noSignal⟩] := by
  unfold State.post State.settleRing
  extract_lets r rec' s1 s2 k
  have h2 : s2.ring t.ring.val = s1.ring t.ring.val := by simp only [s2]; split <;> rfl
  have h1 : s1.ring t.ring.val = { r with records := if r.closing then r.records else r.records ++ [rec'], running := r.running - 1 } :=
    State.ring_setRing ..
  rw [if_neg (by simp [k, h2, h1, r, h]), h2, h1]
  simp only [r, h, Bool.false_eq_true, if_false]
  rfl

theorem foldl_ctxs {α : Type} {f : State → α → State} (hf : ∀ s a, (f s a).ctxs = s.ctxs) (l : List α) (s : State) :
    (l.foldl f s).ctxs = s.ctxs := by
  induction l generalizing s with
  | nil => rfl
  | cons a l ih => exact (ih (f s a)).trans (hf s a)
theorem cf_foldl {α : Type} {f : State → α → State} {x : Nat} {g : Field} (hf : ∀ s a, (f s a).cf x g = s.cf x g) (l : List α)
    (s : State) : (l.foldl f s).cf x g = s.cf x g := by
  induction l generalizing s with
  | nil => rfl
  | cons a l ih => exact (ih (f s a)).trans (hf s a)
theorem finishTickets_ctx (s : State) (x op code : Nat) :
    ∃ ts, (s.finishTickets x op code).ctx x = { s.ctx x with tickets := ts } := by
  unfold State.finishTickets
  extract_lets k mine s1
  rw [State.ctx, foldl_ctxs fun _ _ => post_ctxs ..]
  exact ⟨_, State.ctx_setCtx ..⟩
theorem cf_finishTickets (s : State) (x op code y : Nat) (f : Field) : (s.finishTickets x op code).cf y f = s.cf y f :=
  cf_foldl (fun _ _ => cf_post ..) _ _

/-! ## Commands -/

theorem post_completes (s : State) (e : Entry) (op status b d : Nat) (h : (s.ring e.ring.val).closing = false) :
    Completes (s.post (entryTicket e op) true status b d) e op status := by
  refine ⟨⟨e.cmdId, e.ctx, true, BitVec.ofNat 8 op, BitVec.ofNat 16 status, BitVec.ofNat 64 b, BitVec.ofNat 64 d, e.noSignal⟩, ?_,
    rfl, rfl, rfl, rfl, rfl⟩
  have hr := post_records s (entryTicket e op) status b d h
  exact (congrArg (_ ∈ ·) hr).mpr (List.mem_append_right _ List.mem_cons_self)
theorem done_completes (s : State) (e : Entry) (op status : Nat) (h : (s.ring e.ring.val).closing = false) :
    Completes (s.done e op status) e op status := post_completes s e op status 0 0 h
/-- An admitted command acts on the state in which its ring counts it as running; what holds after that holds of its row. -/
theorem runs_of_admits {s : State} {op : Nat} {e : Entry} {i : Instr} {act : State → State} {P : State → Prop}
    (ha : s.admits op e = true) (hi : exec i s = .next (s.command op e act))
    (h : ∀ k : Ring, k.closing = false → s.started op e = s.setRing e.ring.val k → P (act (s.setRing e.ring.val k))) :
    Runs i s P := by
  refine ⟨_, hi, ?_⟩
  unfold State.started State.startEntry at h
  unfold State.command State.startEntry
  unfold State.admits State.startEntry at ha
  extract_lets at h ha ⊢
  split at ha
  · next hs =>
    simp only [Bool.and_eq_true, Bool.not_eq_true', decide_eq_true_eq] at ha
    obtain ⟨hno, hclosing⟩ := ha
    split at hs
    · cases hs
    · next hturn =>
      cases hs
      rw [if_neg hturn] at h ⊢
      simp only [hno]
      exact h _ hclosing rfl
  · cases ha
theorem ring_started_closing {k : Ring} (s : State) (r : Nat) (hk : k.closing = false) : ((s.setRing r k).ring r).closing = false := by
  rw [State.ring_setRing, hk]
theorem Runs.imp {i : Instr} {s : State} {P Q : State → Prop} (h : Runs i s P) (hpq : ∀ t, P t → Q t) : Runs i s Q := by
  obtain ⟨t, ht, hp⟩ := h
  exact ⟨t, ht, hpq t hp⟩
/-- A command that only posts its record completes, and changes nothing else that it could act on. -/
theorem runs_answered {s : State} {op code : Nat} {e : Entry} {i : Instr} {act : State → State} (ha : s.admits op e = true)
    (hi : exec i s = .next (s.command op e act))
    (h : ∀ k, act (s.setRing e.ring.val k) = (s.setRing e.ring.val k).done e op code) :
    Runs i s (fun t => Completes t e op code ∧ t.ctxs = s.ctxs ∧ t.tier1 = s.tier1) :=
  runs_of_admits ha hi fun k hk _ => (h k).symm ▸
    ⟨done_completes _ e op code (ring_started_closing s _ hk), post_ctxs .., (sameData_post ..).2.1⟩
theorem runs_refused {s : State} {op code : Nat} {e : Entry} {i : Instr} {act : State → State} (ha : s.admits op e = true)
    (hi : exec i s = .next (s.command op e act))
    (h : ∀ k, act (s.setRing e.ring.val k) = (s.setRing e.ring.val k).done e op code) :
    Runs i s (fun t => Completes t e op code ∧ t.ctxs = s.ctxs) :=
  (runs_answered ha hi h).imp fun _ ⟨hdone, hctxs, _⟩ => ⟨hdone, hctxs⟩

end Sys2Proof.Machine
end

section
/-! What the exchange and stream engines change of their context: their own state and some registers, nothing else of it (11
R302, R316 to R318; 12 R335). -/
namespace Sys2Proof.Machine

/-- A register of a context is none of those listed. -/
abbrev Field.Apart (f : Field) (fs : List Field) : Prop := ∀ g ∈ fs, f.key 0 ≠ g.key 0
theorem Field.apart_nil (f : Field) : f.Apart [] := fun _ h => absurd h List.not_mem_nil

/-- Of context x only its engines' state and the listed registers may have changed; cores and rings stay. -/
structure EngineFrame (x : Nat) (fs : List Field) (s t : State) : Prop where
  ctx : ∃ e m, t.ctx x = { s.ctx x with exch := e, streams := m }
  cf : ∀ f : Field, f.Apart fs → t.cf x f = s.cf x f
  cores : t.cores = s.cores
  rings : t.rings = s.rings

namespace EngineFrame
variable {s t u : State} {x : Nat} {fs gs : List Field}

theorem of (h : StepFrame s t) : EngineFrame x fs s t := ⟨⟨_, _, h.ctx x⟩, fun f _ => h.cf x f, h.cores, h.rings⟩
theorem refl (s : State) : EngineFrame x fs s s := .of (.refl s)
theorem trans (h : EngineFrame x fs s t) (g : EngineFrame x fs t u) : EngineFrame x fs s u := by
  obtain ⟨e, m, hc⟩ := h.ctx
  obtain ⟨e', m', gc⟩ := g.ctx
  exact ⟨⟨e', m', by rw [gc, hc]⟩, fun f hf => (g.cf f hf).trans (h.cf f hf), g.cores.trans h.cores, g.rings.trans h.rings⟩
theorem mono (h : EngineFrame x fs s t) (hs : fs ⊆ gs) : EngineFrame x gs s t :=
  { h with cf := fun f hf => h.cf f fun g hg => hf g (hs hg) }
theorem ite {p : Prop} [Decidable p] (ht : EngineFrame x fs s t) (hu : EngineFrame x fs s u) :
    EngineFrame x fs s (if p then t else u) := by split <;> assumption
theorem wr (s : State) (v : Nat) {g : Field} (h : g ∈ fs) : EngineFrame x fs s (s.wr (Reg.ctx x) g v) :=
  ⟨⟨_, _, rfl⟩, fun _ hf => cf_wr_ne s x v (hf g h), rfl, rfl⟩
theorem setExch (s : State) (e : Exchange) : EngineFrame x fs s (s.setExch x e) :=
  ⟨⟨e, _, State.ctx_setCtx ..⟩, fun _ _ => rfl, rfl, rfl⟩
theorem setEng (s : State) (m : Streams) : EngineFrame x fs s (s.setEng x m) :=
  ⟨⟨_, m, State.ctx_setCtx ..⟩, fun _ _ => rfl, rfl, rfl⟩

theorem step (h : EngineFrame x fs s t) : (t.ctx x).step = (s.ctx x).step := by obtain ⟨e, m, hc⟩ := h.ctx; rw [hc]
theorem tickets (h : EngineFrame x fs s t) : (t.ctx x).tickets = (s.ctx x).tickets := by obtain ⟨e, m, hc⟩ := h.ctx; rw [hc]
theorem gateReason (h : EngineFrame x fs s t) : (t.ctx x).gateReason = (s.ctx x).gateReason := by
  obtain ⟨e, m, hc⟩ := h.ctx; rw [hc]
end EngineFrame

theorem stepFrame_wr_below (s : State) {b : Nat} {g : Field} (v : Nat) (h : g.BelowCtx b) : StepFrame s (s.wr b g v) :=
  ⟨rfl, cf_wr_below s v h, rfl, rfl⟩
theorem stepFrame_showFreeBlocks (s : State) (x : CtxId) : StepFrame s (s.showFreeBlocks x.val) :=
  (stepFrame_wr_below _ _ (belowCtx_streamTable x (by decide))).trans (stepFrame_wr_below _ _ (belowCtx_streamTable x (by decide)))
theorem engineFrame_dropChanter (s : State) (x : CtxId) : EngineFrame x.val [] s (s.dropChanter x.val) :=
  .ite ((EngineFrame.setEng ..).trans (.of (stepFrame_showFreeBlocks _ x))) (.refl s)
theorem engineFrame_exchCommit (s : State) (x : Nat) : EngineFrame x [Reg.CTX_ATTEMPT] s (s.exchCommit x) := by
  unfold State.exchCommit
  extract_lets e size done s1 s2
  have h1 : StepFrame s s1 := .foldl (fun _ _ => stepFrame_zeroRegion ..) _ _
  exact ((EngineFrame.of h1).trans (.setExch ..)).trans (.wr _ 0 List.mem_cons_self)
theorem attempt_exchCommit (s : State) (x : Nat) : (s.exchCommit x).cf x Reg.CTX_ATTEMPT = 0 := cf_wr_same ..
theorem engineFrame_dropFormed (s : State) (x : Nat) :
    EngineFrame x [Reg.CTX_DROPPED, Reg.CTX_DROPPED_NONFINITE] s (s.dropFormed x) :=
  ((EngineFrame.setExch ..).trans (.wr _ _ (by simp))).trans (.wr _ _ (by simp))
theorem engineFrame_exchRepeat (s : State) (x : Nat) :
    EngineFrame x [Reg.CTX_DROPPED, Reg.CTX_DROPPED_NONFINITE, Reg.CTX_ATTEMPT, Reg.CTX_REPEATS] s (s.exchRepeat x) :=
  (((engineFrame_dropFormed s x).mono (by simp)).trans (.setExch ..)).trans ((EngineFrame.wr _ _ (by simp)).trans (.wr _ _ (by simp)))
theorem attempt_exchRepeat (s : State) (x : Nat) :
    (s.exchRepeat x).cf x Reg.CTX_ATTEMPT = (s.cf x Reg.CTX_ATTEMPT + 1) % 2 ^ 8 := by
  have h := (engineFrame_dropFormed s x).cf Reg.CTX_ATTEMPT (by decide)
  rw [State.exchRepeat, State.inc, State.bump, cf_wr_ne _ _ _ (by decide), cf_wr_same]
  exact congrArg (fun n => (n + 1) % 2 ^ 8) h
theorem engineFrame_signalDone (s : State) (x : Nat) : EngineFrame x [] s (s.signalDone x) :=
  (EngineFrame.setExch ..).trans (.of (.other rfl rfl rfl rfl))
theorem engineFrame_abortAttempt (s : State) (x code : Nat) : EngineFrame x [] s (s.abortAttempt x code) :=
  .ite (.refl s) ((EngineFrame.setExch ..).trans (.of (stepFrame_sendAborts ..)))

end Sys2Proof.Machine
end

section
/-! STEP_OPEN and STEP_COMMIT (09 R249 to R251, R256, R262, R267). -/
namespace Sys2Proof.Machine

/-! ## Opening -/

/-- The record of the step that opens now (R249). -/
def State.openedAs (s : State) (x : Nat) (pos next : Word) (flags : BitVec 5) : OpenStep :=
  { dataPos := pos, dataNext := next, evalReq := flags.getLsbD 0, ckptForce := flags.getLsbD 1,
    lsExp := BitVec.ofNat 8 (s.cf x Reg.CTX_LS_EXP), countersAtOpen := s.counterSums x, drawsAtOpen := s.drawCounts x,
    stopEvent := none, floorHalt := false }

section
variable {s : State} {x : Nat}

theorem takeEarly_of_none (he : (s.exch x).early = []) (hs : (s.exch x).earlySummaries = []) :
    s.takeEarly x = s.setExch x { s.exch x with early := [], earlySummaries := [] } := by
  simp only [State.takeEarly, he, hs, List.foldl_nil]

/-- With no packet of it waiting, a step that opens is only recorded. -/
theorem openStep_opens (pos next : Word) (flags : BitVec 5) (he : (s.exch x).early = []) (hs : (s.exch x).earlySummaries = []) :
    (s.openStep x pos next flags).stepState x = 1 ∧
    ((s.openStep x pos next flags).ctx x).step = some (s.openedAs x pos next flags) ∧
    (s.openStep x pos next flags).cores = s.cores ∧ (s.openStep x pos next flags).rings = s.rings := by
  unfold State.openStep
  extract_lets e k armed o s1 s2 s3
  have h3 : StepFrame s2 s3 := stepFrame_store ..
  have h4 : StepFrame s2 (if armed then s3.traceOpen x o else s3) := .ite (h3.trans (stepFrame_traceOpen ..)) h3
  generalize hs4 : (if armed = true then s3.traceOpen x o else s3) = s4 at h4 ⊢
  have h1 : s1.ctx x = _ := State.ctx_setCtx s x _
  have hc : s4.ctx x = s1.ctx x := h4.ctx x
  have hx : s4.exch x = (s.exch x).fresh := by rw [State.exch, hc, h1]; rfl
  have ht := takeEarly_of_none (s := s4) (x := x) (by rw [hx]; exact he) (by rw [hx]; exact hs)
  have hf : EngineFrame x [] s4 (s4.takeEarly x) := ht ▸ .setExch ..
  refine ⟨?_, ?_, hf.cores.trans h4.cores, hf.rings.trans h4.rings⟩
  · exact ((hf.cf _ (Field.apart_nil _)).trans (h4.cf x _)).trans (cf_wr_same s1 x Reg.CTX_STEP_STATE 1)
  · rw [hf.step, hc, h1]
    rfl
end

section
variable {s : State} {e : Entry}

theorem stepOpen_opens (ht : s.trains e.ctx.val = true) (hst : s.stepState e.ctx.val = 0 ∨ s.stepState e.ctx.val = 4)
    (hd : ∀ d, (s.ctx e.ctx.val).dataNextDue = some d → d = e.args.getD 0 0) :
    s.stepOpen e = (s.openStep e.ctx.val (e.args.getD 0 0) (e.args.getD 1 0) e.flags).done e 2 0 := by
  have hn : ¬((s.ctx e.ctx.val).dataNextDue.any (fun d => decide (d ≠ e.args.getD 0 0)) = true) := by
    simp only [Option.any_eq_true, decide_eq_true_eq, not_exists, not_and, not_not]
    exact hd
  simp only [State.stepOpen]
  rw [if_neg (by simp [ht]), if_neg (by omega), if_neg (by omega), if_neg hn]
theorem stepOpen_elsewhere {d : Word} (ht : s.trains e.ctx.val = true) (hst : s.stepState e.ctx.val = 0 ∨ s.stepState e.ctx.val = 4)
    (hd : (s.ctx e.ctx.val).dataNextDue = some d) (hne : d ≠ e.args.getD 0 0) : s.stepOpen e = s.done e 2 0x9008 := by
  simp only [State.stepOpen]
  rw [if_neg (by simp [ht]), if_neg (by omega), if_neg (by omega), if_pos (by rw [hd]; simpa using hne)]
theorem stepOpen_torn (ht : s.trains e.ctx.val = true) (hst : s.stepState e.ctx.val = 6) : s.stepOpen e = s.done e 2 0x9201 := by
  simp only [State.stepOpen]
  rw [if_neg (by simp [ht]), if_pos hst]
theorem stepOpen_refused (ht : s.trains e.ctx.val = true) (h0 : s.stepState e.ctx.val ≠ 0) (h4 : s.stepState e.ctx.val ≠ 4)
    (h6 : s.stepState e.ctx.val ≠ 6) : s.stepOpen e = s.done e 2 0x5004 := by
  simp only [State.stepOpen]
  rw [if_neg (by simp [ht]), if_neg h6, if_pos ⟨h0, h4⟩]
end

/-! ## The loss scale after COMMIT (Table 09-5) -/

section
variable (s : State) (x : Nat)

theorem engineFrame_scaleCommit :
    EngineFrame x [Reg.CTX_LS_FLOOR_RUN, Reg.CTX_LS_CLEAN, Reg.CTX_LS_EXP] s (s.scaleCommit x) := by
  unfold State.scaleCommit
  extract_lets b clean e s1
  have h1 : EngineFrame x [Reg.CTX_LS_FLOOR_RUN, Reg.CTX_LS_CLEAN, Reg.CTX_LS_EXP] s s1 := .wr _ _ (by simp)
  exact .ite (h1.trans (.wr _ _ (by simp))) (.ite ((h1.trans (.wr _ _ (by simp))).trans (.wr _ _ (by simp))) (h1.trans (.wr _ _ (by simp))))
theorem scaleCommit_floorRun : (s.scaleCommit x).cf x Reg.CTX_LS_FLOOR_RUN = 0 := by
  unfold State.scaleCommit
  extract_lets b clean e s1
  split
  · rw [cf_wr_ne _ _ _ (by decide), cf_wr_same]; rfl
  · split
    · rw [cf_wr_ne _ _ _ (by decide), cf_wr_ne _ _ _ (by decide), cf_wr_same]; rfl
    · rw [cf_wr_ne _ _ _ (by decide), cf_wr_same]; rfl
theorem scaleCommit_clean : (s.scaleCommit x).cf x Reg.CTX_LS_CLEAN =
    if s.cf x Reg.CTX_LS_CLEAN + 1 < s.cf x Reg.CTX_LS_INTERVAL then (s.cf x Reg.CTX_LS_CLEAN + 1) % 2 ^ 16 else 0 := by
  unfold State.scaleCommit
  extract_lets b clean e s1
  split
  · exact cf_wr_same ..
  · split
    · rw [cf_wr_ne _ _ _ (by decide), cf_wr_same]; rfl
    · rw [cf_wr_same]; rfl
theorem scaleCommit_exp : (s.scaleCommit x).cf x Reg.CTX_LS_EXP =
    if ¬ s.cf x Reg.CTX_LS_CLEAN + 1 < s.cf x Reg.CTX_LS_INTERVAL ∧ signed 8 (s.cf x Reg.CTX_LS_EXP) < signed 8 (s.cf x Reg.CTX_LS_MAX)
    then unsignedOf 8 (signed 8 (s.cf x Reg.CTX_LS_EXP) + 1) % 2 ^ 8 else s.cf x Reg.CTX_LS_EXP := by
  unfold State.scaleCommit
  extract_lets b clean e s1
  have h1 : s1.cf x Reg.CTX_LS_EXP = s.cf x Reg.CTX_LS_EXP := cf_wr_ne _ _ _ (by decide)
  split
  · next hw => rw [if_neg fun h => h.1 hw, cf_wr_ne _ _ _ (by decide), h1]
  · next hw =>
    split
    · next hu => rw [if_pos ⟨hw, hu⟩]; exact cf_wr_same ..
    · next hu => rw [if_neg fun h => hu h.2, cf_wr_ne _ _ _ (by decide), h1]
end

/-! ## Closing -/

/-- The checkpoint interval that the step's risk sets (R262). -/
def State.intervalNow (s : State) (x : Nat) : Nat :=
  ckptInterval (s.cf x Reg.CTX_LOSS_BOUND) (s.cf x Reg.CTX_RISK_THRESHOLD) (s.cf x Reg.CTX_JOB_RISK)
/-- The step-commit of the open step makes a checkpoint due (R262, R267, R268). -/
def State.ckptFallsDue (s : State) (x : Nat) (o : OpenStep) : Prop :=
  s.intervalNow x ≤ s.stepNo x - s.cf x Reg.CTX_LAST_CKPT_STEP ∨ o.ckptForce = true ∨
    (s.ctx x).replayArm = some (BitVec.ofNat 64 (s.stepNo x + 1))
/-- What closing the open step leaves (R251): t is s with its open step closed. The
loss scale is the one of s, moved after COMMIT; u is s with the record of the step complete. -/
structure Closes (s : State) (x : Nat) (o : OpenStep) (t : State) : Prop where
  ctx : ∃ e m arm n caps, t.ctx x = { s.ctx x with
    exch := e, streams := m, step := none, lastDataNext := o.dataNext, replayArm := arm, ckptCount := n, captures := caps } ∧
    (s.ckptFallsDue x o → ∃ drain, caps = (s.ctx x).captures ++ [⟨BitVec.ofNat 64 (s.stepNo x), o.dataNext, drain, none, 0, 0⟩]) ∧
    (¬ s.ckptFallsDue x o → caps = (s.ctx x).captures)
  stepState : t.stepState x = 0
  step : t.cf x Reg.CTX_STEP = s.stepNo x % 2 ^ 64
  attempt : t.cf x Reg.CTX_ATTEMPT = 0
  interval : t.cf x Reg.CTX_CKPT_INTERVAL = s.intervalNow x % 2 ^ 16
  scale : ∃ u, StepFrame s u ∧ ∀ f ∈ [Reg.CTX_LS_FLOOR_RUN, Reg.CTX_LS_CLEAN, Reg.CTX_LS_EXP],
    t.cf x f = (if s.stepState x = 2 then u.scaleCommit x else u).cf x f

theorem commitStep_closes (s : State) (x : CtxId) (o : OpenStep) (hf : o.floorHalt = false) :
    Closes s x.val o (s.commitStep x.val o) ∧ (s.commitStep x.val o).rings = s.rings := by
  unfold State.commitStep
  extract_lets b s0 n s1 s2 iv s3 snap s4 arm take k drain s5 bits s6
  have h0 : StepFrame s s0 := .ite (stepFrame_traceClose ..) (.refl s)
  have h1 : EngineFrame x.val [] (if s.stepState x.val = 2 then s0.scaleCommit x.val else s0) s1 := by
    simp only [s1]
    split
    · exact engineFrame_dropChanter ..
    · exact .refl s0
  have hscale : EngineFrame x.val [Reg.CTX_LS_FLOOR_RUN, Reg.CTX_LS_CLEAN, Reg.CTX_LS_EXP] s
      (if s.stepState x.val = 2 then s0.scaleCommit x.val else s0) :=
    .ite ((EngineFrame.of h0).trans (engineFrame_scaleCommit ..)) (.of h0)
  have h2 : EngineFrame x.val [Reg.CTX_ATTEMPT] s1 (s1.exchCommit x.val) := engineFrame_exchCommit ..
  have h3 (f : Field) (hf : f.Apart [Reg.CTX_STEP, Reg.CTX_CKPT_INTERVAL, Reg.CTX_STEP_STATE]) :
      s3.cf x.val f = (s1.exchCommit x.val).cf x.val f := by
    simp only [s3, s2, b]
    rw [cf_wr_ne _ _ _ (hf _ (by simp)), cf_wr_ne _ _ _ (hf _ (by simp)), cf_wr_ne _ _ _ (hf _ (by simp))]
  have h4 : StepFrame s3 s4 := .ite (stepFrame_store ..) (.refl s3)
  have h6 : StepFrame s5 s6 := stepFrame_recWrite ..
  have hcf (f : Field) : s6.cf x.val f = s3.cf x.val f := (h6.cf x.val f).trans (h4.cf x.val f)
  have hk : ∃ e m, k = { s.ctx x.val with exch := e, streams := m } := by
    obtain ⟨e, m, hc⟩ := (((hscale.mono (List.subset_append_left _ [Reg.CTX_ATTEMPT])).trans (h1.mono (List.nil_subset _))).trans
      (h2.mono (List.subset_append_right ..))).ctx
    exact ⟨e, m, (h4.ctx x.val).trans hc⟩
  have htake : take = true ↔ s.ckptFallsDue x.val o := by
    simp only [take, State.ckptFallsDue, Bool.or_eq_true, decide_eq_true_eq, or_assoc]
    rfl
  rw [if_neg (by simp [hf])]
  obtain ⟨e, m, hk⟩ := hk
  have hctx := (h6.ctx x.val).trans (State.ctx_setCtx ..)
  rw [hk] at hctx
  refine ⟨⟨⟨e, m, _, _, _, hctx, fun hd => ⟨drain, ?_⟩, fun hd => ?_⟩,
    ?_, ?_, ?_, ?_, ⟨s0, h0, fun f hm => ?_⟩⟩, ?_⟩
  · rw [if_pos (htake.mpr hd)]
  · rw [if_neg (mt htake.mp hd)]
  · exact (hcf _).trans (cf_wr_same ..)
  · rw [hcf, cf_wr_ne _ _ _ (by decide), cf_wr_ne _ _ _ (by decide)]
    exact cf_wr_same ..
  · rw [hcf, h3 _ (by decide), attempt_exchCommit]
  · rw [hcf, cf_wr_ne _ _ _ (by decide)]
    exact cf_wr_same ..
  · have hapart : f.Apart [Reg.CTX_STEP, Reg.CTX_CKPT_INTERVAL, Reg.CTX_STEP_STATE] ∧ f.Apart [Reg.CTX_ATTEMPT] := by
      revert f; decide
    rw [hcf, h3 f hapart.1, h2.cf f hapart.2, h1.cf f f.apart_nil]
  · exact h6.rings.trans (h4.rings.trans (h2.rings.trans (h1.rings.trans hscale.rings)))

section
variable {s : State} {e : Entry}

theorem stepCommit_waits (ht : s.trains e.ctx.val = true) (hst : s.stepState e.ctx.val = 1) : s.stepCommit e = s.hold 3 e := by
  simp only [State.stepCommit]
  rw [if_neg (by simp [ht]), if_pos hst]
theorem stepCommit_gaveUp (ht : s.trains e.ctx.val = true) (hst : s.stepState e.ctx.val = 4 ∨ s.stepState e.ctx.val = 5) :
    s.stepCommit e = s.done e 3 (s.ctx e.ctx.val).gateReason.toNat := by
  simp only [State.stepCommit]
  rw [if_neg (by simp [ht]), if_neg (by omega), if_pos hst]
theorem stepCommit_closes {o : OpenStep} (ht : s.trains e.ctx.val = true)
    (hst : s.stepState e.ctx.val = 2 ∨ s.stepState e.ctx.val = 3) (ho : (s.ctx e.ctx.val).step = some o) :
    s.stepCommit e = (s.commitStep e.ctx.val o).done e 3 0 := by
  simp only [State.stepCommit]
  rw [if_neg (by simp [ht]), if_neg (by omega), if_neg (by omega), if_pos hst, ho]
end

end Sys2Proof.Machine
end

section
/-! The rows STEP_OPEN and STEP_COMMIT. -/
namespace Sys2Proof.Machine

/-- A step that is closed after COMMIT has its loss scale moved (Table 09-5). -/
theorem Closes.scaled {s t : State} {x : Nat} {o : OpenStep} (h : Closes s x o t) (hst : s.stepState x = 2) :
    t.cf x Reg.CTX_LS_FLOOR_RUN = 0 ∧
    t.cf x Reg.CTX_LS_CLEAN =
      (if s.cf x Reg.CTX_LS_CLEAN + 1 < s.cf x Reg.CTX_LS_INTERVAL then (s.cf x Reg.CTX_LS_CLEAN + 1) % 2 ^ 16 else 0) ∧
    t.cf x Reg.CTX_LS_EXP = if ¬ s.cf x Reg.CTX_LS_CLEAN + 1 < s.cf x Reg.CTX_LS_INTERVAL ∧
        signed 8 (s.cf x Reg.CTX_LS_EXP) < signed 8 (s.cf x Reg.CTX_LS_MAX)
      then unsignedOf 8 (signed 8 (s.cf x Reg.CTX_LS_EXP) + 1) % 2 ^ 8 else s.cf x Reg.CTX_LS_EXP := by
  obtain ⟨u, hu, hscale⟩ := h.scale
  simp only [hst, if_true] at hscale
  rw [hscale _ (by simp), hscale _ (by simp), hscale _ (by simp), scaleCommit_floorRun, scaleCommit_clean, scaleCommit_exp]
  simp only [hu.cf]
  exact ⟨trivial, trivial, trivial⟩
/-- What a step's close leaves is left by the record that answers it. -/
theorem Closes.posted {s t : State} {x : Nat} {o : OpenStep} (h : Closes s x o t) (k : Ticket) (fin : Bool) (a b d : Nat) :
    Closes s x o (t.post k fin a b d) := by
  obtain ⟨u, hu, hscale⟩ := h.scale
  refine ⟨?_, (cf_post ..).trans h.stepState, (cf_post ..).trans h.step, (cf_post ..).trans h.attempt, (cf_post ..).trans h.interval,
    u, hu, fun f hf => (cf_post ..).trans (hscale f hf)⟩
  rw [State.ctx, post_ctxs]
  exact h.ctx
/-- One that is closed after SKIP keeps the scale that the decision gave it. -/
theorem Closes.unscaled {s t : State} {x : Nat} {o : OpenStep} (h : Closes s x o t) (hst : s.stepState x = 3) :
    t.cf x Reg.CTX_LS_EXP = s.cf x Reg.CTX_LS_EXP ∧ t.cf x Reg.CTX_LS_CLEAN = s.cf x Reg.CTX_LS_CLEAN := by
  obtain ⟨u, hu, hscale⟩ := h.scale
  rw [if_neg (by omega)] at hscale
  exact ⟨(hscale _ (by simp)).trans (hu.cf ..), (hscale _ (by simp)).trans (hu.cf ..)⟩

/-- Settles O34: opening is refused but in states 0 and 4; a commit closes a step whose gate has let it pass. -/
theorem stepsOpenAndClose : Obligations.StepsOpenAndClose := by
  intro e s x st n
  refine ⟨fun ha ht => ⟨fun hst hd he hs => ?_, fun hst d hd hne => runs_refused ha rfl fun k => stepOpen_elsewhere ht hst hd hne,
      fun hst => runs_refused ha rfl fun k => stepOpen_torn ht hst,
      fun h0 h4 h6 => runs_refused ha rfl fun k => stepOpen_refused ht h0 h4 h6⟩,
    fun ha ht => ⟨fun hst => ?_, fun hst => runs_refused ha rfl fun k => stepCommit_gaveUp ht hst, fun o hst ho hf => ?_⟩⟩
  · refine runs_of_admits ha rfl fun k hk _ => ?_
    obtain ⟨hstate, hstep, hcores, hrings⟩ :=
      openStep_opens (s := s.setRing e.ring.val k) (x := x) (e.args.getD 0 0) (e.args.getD 1 0) e.flags he hs
    rw [stepOpen_opens (s := s.setRing e.ring.val k) ht hst hd]
    refine ⟨(cf_post ..).trans hstate, done_completes _ e 2 0 ?_, (post_cores ..).trans hcores,
      (s.setRing e.ring.val k).openedAs x (e.args.getD 0 0) (e.args.getD 1 0) e.flags, ?_, rfl, rfl, rfl, rfl, rfl, rfl, rfl⟩
    · rw [State.ring, hrings]
      exact ring_started_closing s _ hk
    · rw [State.ctx, State.done, post_ctxs]
      exact hstep
  · refine runs_of_admits ha rfl fun k _ _ => ?_
    rw [stepCommit_waits (s := s.setRing e.ring.val k) ht hst]
    exact ⟨hst, State.ctx_setCtx ..⟩
  · refine runs_of_admits ha rfl fun k hk _ => ?_
    rw [stepCommit_closes (s := s.setRing e.ring.val k) ht hst ho]
    obtain ⟨hc, hrings⟩ := commitStep_closes (s.setRing e.ring.val k) e.ctx o hf
    have hc := hc.posted (entryTicket e 3) true 0 0 0
    obtain ⟨ex, m, arm, cn, caps, hctx, hdue, hnot⟩ := hc.ctx
    refine ⟨done_completes _ e 3 0 ?_, hc.stepState, hc.step, ?_, ?_, hc.attempt, ⟨hc.interval, fun hd => ?_, fun hd => ?_⟩,
      hc.unscaled, hc.scaled⟩
    · rw [State.ring, hrings]
      exact ring_started_closing s _ hk
    · exact congrArg Ctx.step hctx
    · exact congrArg Ctx.lastDataNext hctx
    · obtain ⟨drain, hcaps⟩ := hdue hd
      exact ⟨_, (congrArg Ctx.captures hctx).trans hcaps, rfl, rfl, rfl⟩
    · exact (congrArg Ctx.captures hctx).trans (hnot hd)

end Sys2Proof.Machine
end

section
/-! GATE_DECIDE and RISK_SAMPLE (09 R253, R256 to R261; 11 R318, R320). -/
namespace Sys2Proof.Machine

/-! ## The loss scale at SKIP (Table 09-5) -/

section
variable (s : State) (x : Nat)

theorem engineFrame_scaleSkip :
    EngineFrame x [Reg.CTX_LS_CLEAN, Reg.CTX_LS_EXP, Reg.CTX_LS_FLOOR_RUN] s (s.scaleSkip x).1 := by
  unfold State.scaleSkip
  extract_lets b e run s1
  have h1 : EngineFrame x [Reg.CTX_LS_CLEAN, Reg.CTX_LS_EXP, Reg.CTX_LS_FLOOR_RUN] s s1 := .wr _ _ (by simp)
  split
  · exact (h1.trans (.wr _ _ (by simp))).trans (.wr _ _ (by simp))
  · split <;> exact h1.trans (.wr _ _ (by simp))
theorem scaleSkip_clean : (s.scaleSkip x).1.cf x Reg.CTX_LS_CLEAN = 0 := by
  unfold State.scaleSkip
  extract_lets b e run s1
  have h1 : s1.cf x Reg.CTX_LS_CLEAN = 0 := cf_wr_same ..
  split
  · exact ((cf_wr_ne _ _ _ (by decide)).trans (cf_wr_ne _ _ _ (by decide))).trans h1
  · split <;> exact (cf_wr_ne _ _ _ (by decide)).trans h1
theorem scaleSkip_exp : (s.scaleSkip x).1.cf x Reg.CTX_LS_EXP =
    if signed 8 (s.cf x Reg.CTX_LS_MIN) < signed 8 (s.cf x Reg.CTX_LS_EXP) then
      unsignedOf 8 (signed 8 (s.cf x Reg.CTX_LS_EXP) - 1) % 2 ^ 8 else s.cf x Reg.CTX_LS_EXP := by
  unfold State.scaleSkip
  extract_lets b e run s1
  have h1 : s1.cf x Reg.CTX_LS_EXP = s.cf x Reg.CTX_LS_EXP := cf_wr_ne _ _ _ (by decide)
  split
  · exact (cf_wr_ne _ _ _ (by decide)).trans (cf_wr_same ..)
  · split <;> exact (cf_wr_ne _ _ _ (by decide)).trans h1
end

/-! ## The decision posted -/

section
variable {s u : State} {x st code : Nat} {o : OpenStep} {fs : List Field}

theorem stepState_setGate (hst : st < 8) : (s.setGate x st code o).stepState x = st :=
  (cf_wr_same ..).trans (Nat.mod_eq_of_lt hst)
theorem cf_setGate {f : Field} (h : f.key 0 ≠ Reg.CTX_STEP_STATE.key 0) : (s.setGate x st code o).cf x f = s.cf x f :=
  cf_wr_ne _ _ _ h
theorem ctx_setGate : (s.setGate x st code o).ctx x =
    { s.ctx x with step := if st = 4 ∨ st = 5 then none else some o, gateReason := BitVec.ofNat 16 code } := State.ctx_setCtx ..

/-- A step that gives up is closed with its reason, and the commits that waited are answered with it. -/
theorem waitingCommits_gaveUp (hst : st = 4 ∨ st = 5) (hu : EngineFrame x fs (s.setGate x st code o) u)
    (hfs : Reg.CTX_STEP_STATE.Apart fs) :
    (u.waitingCommits x).stepState x = st ∧ ((u.waitingCommits x).ctx x).gateReason = BitVec.ofNat 16 code ∧
    ((u.waitingCommits x).ctx x).step = none ∧ ∀ f, (u.waitingCommits x).cf x f = u.cf x f := by
  have hs : u.stepState x = st := (hu.cf _ hfs).trans (stepState_setGate (by omega))
  have hw : u.waitingCommits x = u.finishTickets x 3 (u.ctx x).gateReason.toNat := by
    simp only [State.waitingCommits]
    rw [if_pos (by omega)]
  obtain ⟨ts, hc⟩ := finishTickets_ctx u x 3 (u.ctx x).gateReason.toNat
  rw [hw, hc]
  refine ⟨(cf_finishTickets ..).trans hs, ?_, ?_, fun f => cf_finishTickets ..⟩
  · exact hu.gateReason.trans (congrArg Ctx.gateReason ctx_setGate)
  · exact hu.step.trans ((congrArg Ctx.step ctx_setGate).trans (if_pos hst))

/-- A step that may be closed stays open for its commit where none waits. -/
theorem waitingCommits_passed (hst : st = 2 ∨ st = 3) (hu : EngineFrame x fs (s.setGate x st code o) u)
    (hfs : Reg.CTX_STEP_STATE.Apart fs) (ht : ∀ k ∈ (s.ctx x).tickets, k.op ≠ 3) :
    u.waitingCommits x = u ∧ u.stepState x = st ∧ (u.ctx x).gateReason = BitVec.ofNat 16 code ∧ (u.ctx x).step = some o := by
  have hs : u.stepState x = st := (hu.cf _ hfs).trans (stepState_setGate (by omega))
  have hn : (u.ctx x).tickets.find? (fun t => decide (t.op.toNat = 3)) = none := by
    rw [hu.tickets, List.find?_eq_none]
    intro k hk
    rw [ctx_setGate] at hk
    rw [decide_eq_true_eq]
    exact fun e => ht k hk (BitVec.eq_of_toNat_eq e)
  refine ⟨?_, hs, hu.gateReason.trans (congrArg Ctx.gateReason ctx_setGate),
    hu.step.trans ((congrArg Ctx.step ctx_setGate).trans (if_neg (by omega)))⟩
  simp only [State.waitingCommits, hn]
  rw [if_neg (by omega)]
end

/-! ## HALT, REPEAT, SKIP and COMMIT -/

section
variable (s : State) (x : Nat) (o : OpenStep)

theorem gateHalt_out (code : Nat) : (s.gateHalt x o code).stepState x = 5 ∧
    ((s.gateHalt x o code).ctx x).gateReason = BitVec.ofNat 16 code ∧ ((s.gateHalt x o code).ctx x).step = none := by
  unfold State.gateHalt
  extract_lets s1
  obtain ⟨hst, hreason, hstep, -⟩ := waitingCommits_gaveUp (Or.inr rfl)
    (engineFrame_dropFormed ((s1.writeGate x o 4 code none).setGate x 5 code o) x) (by decide)
  exact ⟨hst, hreason, hstep⟩
theorem gateRepeat_out (code : Nat) : (s.gateRepeat x o code).stepState x = 4 ∧
    ((s.gateRepeat x o code).ctx x).gateReason = BitVec.ofNat 16 code ∧ ((s.gateRepeat x o code).ctx x).step = none ∧
    (s.gateRepeat x o code).cf x Reg.CTX_ATTEMPT = (s.cf x Reg.CTX_ATTEMPT + 1) % 2 ^ 8 := by
  unfold State.gateRepeat
  extract_lets s1
  have hw := stepFrame_writeGate s1 x o 3 code none
  have ha := (engineFrame_abortAttempt s x code).cf Reg.CTX_ATTEMPT (Field.apart_nil _)
  obtain ⟨hst, hreason, hstep, hcf⟩ := waitingCommits_gaveUp (Or.inl rfl)
    (engineFrame_exchRepeat ((s1.writeGate x o 3 code none).setGate x 4 code o) x) (by decide)
  refine ⟨hst, hreason, hstep, ?_⟩
  rw [hcf, attempt_exchRepeat, cf_setGate (by decide), hw.cf, ha]

variable {s x} {r : Summary}

theorem gateOpen_skip (hr : r.nonfinite = true) (ht : ∀ k ∈ (s.ctx x).tickets, k.op ≠ 3) :
    (s.gateOpen x o r).stepState x = 3 ∧ ((s.gateOpen x o r).ctx x).gateReason = 0 ∧
    (s.gateOpen x o r).cf x Reg.CTX_LS_CLEAN = 0 ∧ (s.gateOpen x o r).cf x Reg.CTX_JOB_RISK = r.risk.toNat ∧
    (s.gateOpen x o r).cf x Reg.CTX_LS_EXP =
      if signed 8 (s.cf x Reg.CTX_LS_MIN) < signed 8 (s.cf x Reg.CTX_LS_EXP) then
        unsignedOf 8 (signed 8 (s.cf x Reg.CTX_LS_EXP) - 1) % 2 ^ 8 else s.cf x Reg.CTX_LS_EXP := by
  unfold State.gateOpen
  extract_lets s0
  rw [if_pos hr]
  generalize hs1 : s0.scaleSkip x = p
  obtain ⟨s1, floor⟩ := p
  have hskip : EngineFrame x _ s0 s1 := hs1 ▸ engineFrame_scaleSkip s0 x
  have hclean := scaleSkip_clean s0 x
  have hexp := scaleSkip_exp s0 x
  rw [hs1] at hclean hexp
  have h0 {f : Field} (hf : f.key 0 ≠ Reg.CTX_JOB_RISK.key 0) : s0.cf x f = s.cf x f := cf_wr_ne _ _ _ hf
  have hw := stepFrame_writeGate s1 x o 2 0 (some r)
  have hu := ((engineFrame_dropFormed ((s1.writeGate x o 2 0 (some r)).setGate x 3 0 { o with floorHalt := floor }) x).trans
    ((engineFrame_signalDone _ x).mono (List.nil_subset _)))
  obtain ⟨hsame, hst, hreason, -⟩ := waitingCommits_passed (Or.inr rfl) hu (by decide) (by rw [hw.ctx, hskip.tickets]; exact ht)
  have hcf (f : Field) (h : f.Apart [Reg.CTX_DROPPED, Reg.CTX_DROPPED_NONFINITE]) (h' : f.key 0 ≠ Reg.CTX_STEP_STATE.key 0) :=
    ((hu.cf f h).trans (cf_setGate h')).trans (hw.cf x f)
  simp only [hsame]
  refine ⟨hst, hreason, ?_, ?_, ?_⟩
  · rw [hcf _ (by decide) (by decide), hclean]
  · rw [hcf _ (by decide) (by decide), hskip.cf _ (by decide)]
    exact (cf_wr_same ..).trans (Nat.mod_eq_of_lt r.risk.isLt)
  · rw [hcf _ (by decide) (by decide), hexp, h0 (by decide), h0 (by decide)]

theorem gateOpen_commit (hr : r.nonfinite = false) (hc : (s.exch x).earlyChunks = []) (ht : ∀ k ∈ (s.ctx x).tickets, k.op ≠ 3) :
    (s.gateOpen x o r).stepState x = 2 ∧ ((s.gateOpen x o r).ctx x).gateReason = 0 ∧ ((s.gateOpen x o r).ctx x).step = some o ∧
    (s.gateOpen x o r).cf x Reg.CTX_JOB_RISK = r.risk.toNat ∧
    ((s.gateOpen x o r).exch x).doneSignals = (s.exch x).doneSignals + 1 := by
  unfold State.gateOpen
  extract_lets s0
  rw [if_neg (by simp [hr])]
  have hw := stepFrame_writeGate s0 x o 1 0 (some r)
  generalize hg : (s0.writeGate x o 1 0 (some r)).setGate x 2 0 o = g
  have hd : (g.signalDone x).exch x = { s.exch x with doneSignals := (s.exch x).doneSignals + 1 } := by
    have hgx : g.exch x = s.exch x := by
      rw [← hg, State.exch, ctx_setGate, hw.ctx]
      rfl
    rw [State.signalDone, hgx]
    exact congrArg Ctx.exch (State.ctx_setCtx ..)
  have hchunks : (g.signalDone x).takeEarlyChunks x = (g.signalDone x).setExch x { (g.signalDone x).exch x with earlyChunks := [] } := by
    simp only [State.takeEarlyChunks, hd, hc, List.foldl_nil]
  rw [hchunks]
  have hu : EngineFrame x [] g ((g.signalDone x).setExch x { (g.signalDone x).exch x with earlyChunks := [] }) :=
    (engineFrame_signalDone g x).trans (.setExch ..)
  rw [← hg] at hu
  obtain ⟨hsame, hst, hreason, hstep⟩ := waitingCommits_passed (Or.inl rfl) hu (by decide) (by rw [hw.ctx]; exact ht)
  rw [hg] at hsame hst hreason hstep
  rw [hsame]
  refine ⟨hst, hreason, hstep, ?_, ?_⟩
  · rw [← hg, hu.cf _ (Field.apart_nil _), cf_setGate (by decide), hw.cf]
    exact (cf_wr_same ..).trans (Nat.mod_eq_of_lt r.risk.isLt)
  · rw [hd]
    exact congrArg (fun k => k.exch.doneSignals) (State.ctx_setCtx ..)
end

/-! ## What the gate sees (Table 09-6) -/

section
variable {s : State} {x : Nat} {o : OpenStep} (drained : Bool)

theorem gateDecide_closed (h : s.stepState x ≠ 1) : s.gateDecide x drained = s := by
  unfold State.gateDecide
  extract_lets k
  split
  · rfl
  · rw [if_pos h]

variable (ho : (s.ctx x).step = some o) (hst : s.stepState x = 1)
include ho hst

theorem gateDecide_halts {c : BitVec 16} (hc : o.stopEvent = some c)
    (h : c = 0x3205 ∨ (s.exch x).merged = true ∨ s.canRerun x = false) : s.gateDecide x drained = s.gateHalt x o c.toNat := by
  simp only [State.gateDecide, ho, hc]
  exact (if_neg (by simp [hst])).trans (if_pos h)
theorem gateDecide_repeats {c : BitVec 16} (hc : o.stopEvent = some c) (hne : c ≠ 0x3205) (hm : (s.exch x).merged = false)
    (hr : s.canRerun x = true) : s.gateDecide x drained = s.gateRepeat x o c.toNat := by
  have hn : ¬(c = 0x3205 ∨ (s.exch x).merged = true ∨ s.canRerun x = false) := by
    rw [hm, hr, or_iff_left (by simp)]
    exact hne
  simp only [State.gateDecide, ho, hc]
  exact (if_neg (by simp [hst])).trans (if_neg hn)

variable (hc : o.stopEvent = none)
include hc

theorem gateDecide_aborted {c : BitVec 16} (ha : (s.exch x).abort = some c) : s.gateDecide x drained = s.gateRepeat x o c.toNat := by
  rw [State.exch] at ha
  simp only [State.gateDecide, ho, hc, ha]
  rw [if_neg (by simp [hst])]
omit hst in
theorem gateDecide_untotalled (ha : (s.exch x).abort = none) (ht : (s.exch x).totals = none) : s.gateDecide x drained = s := by
  rw [State.exch] at ha ht
  simp only [State.gateDecide, ho, hc, ha, ht, ite_self]
omit hst in
theorem gateDecide_undrained (ha : (s.exch x).abort = none) : s.gateDecide x false = s := by
  rw [State.exch] at ha
  simp only [State.gateDecide, ho, hc, ha, Bool.not_false, Bool.true_or, if_true]
  split
  · rfl
  · split <;> rfl
theorem gateDecide_opens {r : Summary} (ha : (s.exch x).abort = none) (ht : (s.exch x).totals = some r)
    (hd : ∀ d ∈ (s.ctx x).captures, d.taken.isSome = true)
    (hl : s.cf x Reg.CTX_STEP + 1 - s.cf x Reg.CTX_LAST_CKPT_STEP ≤ s.cf x Reg.CTX_LOSS_BOUND) :
    s.gateDecide x true = s.gateOpen x o r := by
  have hn : ¬((!true || (s.ctx x).captures.any (fun d => d.taken.isNone)) = true) := by
    simpa [Option.isSome_iff_ne_none] using hd
  rw [State.exch] at ha ht
  simp only [State.gateDecide, ho, hc, ha, ht]
  rw [if_neg (by simp [hst]), if_neg hn, if_neg (by omega)]
end

/-! ## Risk -/

theorem bumpEntries_eq (es : List Nat) (s : State) : ∃ m, s.bumpEntries es = { s with memberSeq := m } := by
  induction es with
  | nil => exact ⟨s.memberSeq, rfl⟩
  | cons i es ih =>
    obtain ⟨m, h⟩ := ih
    exact ⟨_, by rw [State.bumpEntries, h]⟩
theorem sequenced_eq (s t : State) (es : List Nat) : ∃ m, s.sequenced es t = { t with memberSeq := m } := bumpEntries_eq ..

/-- Settles O35: the gate takes the first row of Table 09-6 that holds, and each row posts its state and reason. -/
theorem gateDecides : Obligations.GateDecides := by
  intro x drained s e out
  refine ⟨fun h => congrArg Host.Outcome.next (gateDecide_closed drained h),
    fun o ho hst => ⟨fun c hc => ⟨?_, ?_⟩, fun hc => ⟨?_, ?_, ?_, ?_⟩⟩, fun islands => ?_⟩
  · intro h
    refine ⟨_, rfl, ?_⟩
    rw [gateDecide_halts drained ho hst hc h]
    obtain ⟨hstate, hreason, hstep⟩ := gateHalt_out s x.val o c.toNat
    exact ⟨⟨hstate, hreason.trans (by simp)⟩, hstep⟩
  · intro hne hm hr
    refine ⟨_, rfl, ?_⟩
    rw [gateDecide_repeats drained ho hst hc hne hm hr]
    obtain ⟨hstate, hreason, hstep, hattempt⟩ := gateRepeat_out s x.val o c.toNat
    exact ⟨⟨hstate, hreason.trans (by simp)⟩, hstep, hattempt⟩
  · intro c ha
    refine ⟨_, rfl, ?_⟩
    rw [gateDecide_aborted drained ho hst hc ha]
    obtain ⟨hstate, hreason, hstep, -⟩ := gateRepeat_out s x.val o c.toNat
    exact ⟨⟨hstate, hreason.trans (by simp)⟩, hstep⟩
  · exact fun ha ht => congrArg Host.Outcome.next (gateDecide_untotalled drained ho hc ha ht)
  · rintro ha rfl
    exact congrArg Host.Outcome.next (gateDecide_undrained ho hc ha)
  · rintro r ha rfl ht hcaps hl htickets
    refine ⟨fun hr => ⟨_, rfl, ?_⟩, fun hr hchunks => ⟨_, rfl, ?_⟩⟩ <;> rw [gateDecide_opens ho hst hc ha ht hcaps hl]
    · obtain ⟨hstate, hreason, hclean, hrisk, hexp⟩ := gateOpen_skip o hr htickets
      exact ⟨⟨hstate, hreason⟩, hclean, hrisk, hexp⟩
    · obtain ⟨hstate, hreason, hstep, hrisk, hdone⟩ := gateOpen_commit o hr hchunks htickets
      exact ⟨⟨hstate, hreason⟩, hstep, hrisk, hdone⟩
  · obtain ⟨m, hm⟩ := sequenced_eq s (s.riskSample islands) [354]
    refine ⟨_, rfl, ?_⟩
    rw [hm]
    exact ⟨rfl, rfl, rfl, rfl⟩

end Sys2Proof.Machine
end

section
/-! A checkpoint's capture, its securing, and what a halt leaves of those that are due (09 R263, R264, R532; 16 R436). -/
namespace Sys2Proof.Machine

/-! ## What a halt leaves of the checkpoints that are due -/

theorem event_ctxs (s : State) (f : Field) : (s.event f).ctxs = s.ctxs := by
  unfold State.event State.eventMsg State.sendMsix
  extract_lets s1 e
  split
  · rfl
  · split <;> rfl
theorem logFault_ctxs (s : State) (f : FaultInfo) : (s.logFault f).ctxs = s.ctxs := event_ctxs ..
theorem drainCores_ctxs (l : List (Nat × Nat)) (s : State) : (s.drainCores l).ctxs = s.ctxs := by
  induction l generalizing s with
  | nil => rfl
  | cons a l ih =>
    have ha : (s.drainCore a.2).ctxs = s.ctxs := by
      unfold State.drainCore
      extract_lets k
      split <;> rfl
    exact (ih _).trans ha

section
variable {s : State} {x : Nat}

theorem captures_setCtx (s : State) (x : Nat) (k : Ctx) : ((s.setCtx x k).ctx x).captures = k.captures := by rw [State.ctx_setCtx]
theorem captures_of_ctxs {t : State} (h : t.ctxs = s.ctxs) : (t.ctx x).captures = (s.ctx x).captures := by rw [State.ctx, h]; rfl
theorem ite_captures {a b : State} {p : Prop} [Decidable p] (ha : (a.ctx x).captures = (s.ctx x).captures)
    (hb : (b.ctx x).captures = (s.ctx x).captures) : ((if p then a else b).ctx x).captures = (s.ctx x).captures := by
  split <;> assumption
end

theorem finishLoads_captures (s : State) (x code : Nat) : ((s.finishLoads x code).1.ctx x).captures = (s.ctx x).captures := by
  unfold State.finishLoads
  exact (captures_of_ctxs (foldl_ctxs (fun _ _ => post_ctxs ..) _ _)).trans (captures_setCtx s x _)
theorem finishTickets_captures (s : State) (x op code : Nat) : ((s.finishTickets x op code).ctx x).captures = (s.ctx x).captures := by
  obtain ⟨ts, h⟩ := finishTickets_ctx s x op code
  rw [h]
theorem enterStopped_captures (s : State) (x code : Nat) : ((s.enterStopped x code).ctx x).captures = (s.ctx x).captures := by
  unfold State.enterStopped
  extract_lets k cd st torn s1 s2
  have h2 : (s2.ctx x).captures = (s.ctx x).captures := captures_setCtx s x _
  have h4 : (((s2.finishLoads x cd).1.finishTickets x 4 0).ctx x).captures = (s.ctx x).captures :=
    (finishTickets_captures ..).trans ((finishLoads_captures ..).trans h2)
  exact ite_captures h4 ((captures_of_ctxs (event_ctxs ..)).trans h4)
theorem haltCtx_captures (s : State) (x code : Nat) : ((s.haltCtx x code).ctx x).captures = (s.ctx x).captures := by
  unfold State.haltCtx
  extract_lets st torn k0 step' state s0 s1 s2 k
  have h1 : (s1.ctx x).captures = (s.ctx x).captures := captures_setCtx s x _
  have h2 : (s2.ctx x).captures = (s.ctx x).captures := ite_captures h1 h1
  refine ite_captures rfl (ite_captures ?_ (ite_captures ?_ (ite_captures ?_ ?_)))
  · exact (captures_of_ctxs (drainCores_ctxs ..)).trans ((captures_setCtx s2 x _).trans h2)
  · exact (enterStopped_captures ..).trans h2
  · exact (captures_of_ctxs (event_ctxs ..)).trans h2
  · split
    · exact h2
    · exact (captures_setCtx s2 x _).trans h2
theorem dataFault_captures (s : State) (x code : Nat) (f : FaultInfo) :
    ((s.dataFault x code f).ctx x).captures = (s.ctx x).captures := by
  unfold State.dataFault
  exact (haltCtx_captures ..).trans (captures_of_ctxs (logFault_ctxs ..))

/-! ## Capture -/

/-- The first due checkpoint that is not taken stands between those before and those after it. -/
theorem splitDue_eq {l : List Due} {before after : List Due} {d : Due} (h : splitDue l = some (before, d, after)) :
    l = before ++ d :: after := by
  induction l generalizing before with
  | nil => cases h
  | cons a l ih =>
    rw [splitDue] at h
    split at h
    · cases h; rfl
    · obtain ⟨⟨b, d', a'⟩, hr, he⟩ := Option.map_eq_some_iff.mp h
      cases he
      exact congrArg (a :: ·) (ih hr)

section
variable {s : State} {x : CtxId} {before after : List Due} {d : Due} (hk : splitDue (s.ctx x.val).captures = some (before, d, after))
  (hm : s.marksReady x.val (d.step.toNat + 1) = true ∨ s.ctxState x.val = stStopped)
  (hd : d.drain = true → s.drainLeaves x.val (s.windowBytes x.val) = false)
  (hr : s.droneInRange x.val (s.cf x.val Reg.CTX_STATE_BASE) (s.cf x.val Reg.CTX_STATE_BYTES) = false)
include hm hd

/-- Nothing stands against a capture but what it reads. -/
theorem captureStart_unblocked :
    ¬((!s.marksReady x.val (d.step.toNat + 1) && decide (s.ctxState x.val ≠ stStopped)) = true) ∧
    ¬((d.drain && s.drainLeaves x.val (s.windowBytes x.val)) = true) := by
  refine ⟨by rcases hm with h | h <;> simp [h], ?_⟩
  rw [Bool.and_eq_true]
  exact fun h => by simp [hd h.1] at h
include hk hr
theorem captureStart_takes (hp : s.poisonMet x.val (s.ckptReads x.val) [] = none) :
    ∃ first n, ((s.captureStart x true).ctx x.val).captures =
        before ++ { d with taken := some (s.captureNow x d), first := first, packets := n } :: after ∧
      (s.captureStart x true).tier1 = s.tier1 ∧ (s.captureStart x true).cores = s.cores := by
  obtain ⟨hmarks, hdrain⟩ := captureStart_unblocked hm hd
  obtain ⟨cs, ps, h⟩ := queueBodies_eq (s.ckptKey x.val) false 4 (s.ckptBodies x.val (s.captureNow x d)) (s.setCtx x.val _)
  simp only [State.captureStart, hk]
  rw [if_neg hmarks, if_neg hdrain, if_neg (by simp [hr]), if_neg (by decide), hp]
  exact h ▸ ⟨_, _, captures_setCtx .., rfl, rfl⟩
theorem captureStart_fails : ((s.captureStart x false).ctx x.val).captures = before ++ after ∧ SameData s (s.captureStart x false) := by
  obtain ⟨hmarks, hdrain⟩ := captureStart_unblocked hm hd
  simp only [State.captureStart, hk]
  rw [if_neg hmarks, if_neg hdrain, if_neg (by simp [hr]), if_pos (by decide)]
  exact ⟨(dataFault_captures ..).trans (captures_setCtx ..), (SameData.setCtx ..).trans (sameData_dataFault ..)⟩
end

/-! ## Securing -/

theorem writeDrain_captures (s : State) (x : Nat) : ((s.writeDrain x).ctx x).captures = (s.ctx x).captures := by
  unfold State.writeDrain
  extract_lets k half
  rw [(stepFrame_storeHost ..).ctx]
  exact captures_setCtx ..
theorem cf_writeDrain (s : State) (x y : Nat) (f : Field) : (s.writeDrain x).cf y f = s.cf y f := by
  unfold State.writeDrain
  extract_lets k half
  exact (stepFrame_storeHost ..).cf y f

section
variable {s : State} {x : CtxId} {d : Due} {c : Checkpoint} {rest : List Due} (hk : (s.ctx x.val).captures = d :: rest)
  (hc : d.taken = some c)
include hk hc

theorem secured_waits (ha : s.ckptArrived x d = false) : s.secured x = s := by
  simp only [State.secured, hk, hc, ha, Bool.not_false, if_true]
/-- The oldest due checkpoint leaves the list and is the latest of its context; what is drained is drained first. -/
theorem secured_eq (ha : s.ckptArrived x d = true) : ∃ (u : State) (dr : List Checkpoint), (u.ctx x.val).captures = rest ∧
    u.cf x.val Reg.CTX_LAST_CKPT_STEP = c.step.toNat ∧ s.secured x = { u with
      ckpts := keepTwo c s.ckpts, drains := dr
      ckptIndex := (x, c.step) :: (s.ckptIndex.filter (fun e => decide (e.1 = x))).take 1 ++
        s.ckptIndex.filter (fun e => decide (e.1 ≠ x))
      ledgerWait := s.ledgerWait ++ [[.ckptIndex x c.step]] } := by
  obtain ⟨u, hu⟩ : ∃ u, u =
      (s.setCtx x.val { s.ctx x.val with captures := rest }).wr (Reg.ctx x.val) Reg.CTX_LAST_CKPT_STEP c.step.toNat := ⟨_, rfl⟩
  have hcaps : (u.ctx x.val).captures = rest := hu ▸ captures_setCtx s x.val { s.ctx x.val with captures := rest }
  have hlast : u.cf x.val Reg.CTX_LAST_CKPT_STEP = c.step.toNat := hu ▸ (cf_wr_same ..).trans (Nat.mod_eq_of_lt c.step.isLt)
  cases hd : d.drain with
  | false =>
    simp only [State.secured, hk, hc, ha, hd, Bool.not_true, Bool.false_eq_true, if_false, ← hu]
    exact ⟨u, _, hcaps, hlast, rfl⟩
  | true =>
    simp only [State.secured, hk, hc, ha, hd, Bool.not_true, Bool.false_eq_true, if_false, if_true, ← hu]
    exact ⟨u.writeDrain x.val, _, (writeDrain_captures ..).trans hcaps, (cf_writeDrain ..).trans hlast, rfl⟩
theorem secured_secures (ha : s.ckptArrived x d = true) :
    ((s.secured x).ctx x.val).captures = rest ∧ (s.secured x).cf x.val Reg.CTX_LAST_CKPT_STEP = c.step.toNat ∧
    (s.secured x).ckpts = keepTwo c s.ckpts ∧ (s.secured x).ledgerWait = s.ledgerWait ++ [[.ckptIndex x c.step]] ∧
    (x, c.step) ∈ (s.secured x).ckptIndex := by
  obtain ⟨u, dr, hcaps, hlast, h⟩ := secured_eq hk hc ha
  rw [h]
  exact ⟨hcaps, hlast, rfl, rfl, List.mem_cons_self⟩
end

theorem checkpointsSecured : SaysCheckpointsSecured := by
  intro x s k
  refine ⟨fun before d after hk hm hd hr => ⟨fun hp => ⟨_, rfl, ?_⟩, _, rfl, captureStart_fails hk hm hd hr⟩,
    fun d c rest hk hc => ⟨fun ha => ⟨_, rfl, secured_secures hk hc ha⟩,
      fun ha => congrArg Host.Outcome.next (secured_waits hk hc ha)⟩⟩
  obtain ⟨first, n, hcaps, htier, hcores⟩ := captureStart_takes hk hm hd hr hp
  exact ⟨_, first, n, hcaps, rfl, rfl, rfl, rfl, rfl, htier, hcores⟩

end Sys2Proof.Machine
end

section
/-! RESTORE and REPLAY_ARM (09 R266, R268). -/
namespace Sys2Proof.Machine

/-! ## A block of registers -/

theorem writeBlock_eq (x : Nat) (fs : List Field) (vs : List Nat) (s : State) : ∃ r, s.writeBlock x fs vs = { s with regs := r } := by
  induction fs generalizing s vs with
  | nil => exact ⟨s.regs, rfl⟩
  | cons f fs ih =>
    cases vs with
    | nil => exact ⟨s.regs, rfl⟩
    | cons v vs => exact ih vs _
theorem cf_writeBlock_apart (x : Nat) {f : Field} {fs : List Field} (hf : f.Apart fs) (vs : List Nat) (s : State) :
    (s.writeBlock x fs vs).cf x f = s.cf x f := by
  induction fs generalizing s vs with
  | nil => rfl
  | cons g fs ih =>
    cases vs with
    | nil => rfl
    | cons v vs =>
      rw [State.writeBlock, ih fun h hm => hf h (List.mem_cons_of_mem g hm)]
      exact cf_wr_ne _ _ _ (hf g List.mem_cons_self)
/-- Fields at places of their own each take their value. -/
theorem cf_writeBlock (x : Nat) {fs : List Field} (hn : (fs.map fun f => f.key 0).Nodup) (vs : List Nat) (s : State) :
    ∀ p ∈ fs.zip vs, (s.writeBlock x fs vs).cf x p.1 = p.2 % 2 ^ p.1.width := by
  induction fs generalizing s vs with
  | nil => intro p hp; cases hp
  | cons f fs ih =>
    rw [List.map_cons, List.nodup_cons] at hn
    cases vs with
    | nil => intro p hp; cases hp
    | cons v vs =>
      intro p hp
      rw [List.zip_cons_cons, List.mem_cons] at hp
      rw [State.writeBlock]
      rcases hp with rfl | hp
      · rw [cf_writeBlock_apart x fun g hg e => hn.1 (List.mem_map.mpr ⟨g, hg, e.symm⟩)]
        exact cf_wr_same ..
      · exact ih hn.2 vs _ p hp

/-! ## RESTORE -/

theorem trainRo_nodup : ((Reg.ctxTrainFields.filter isRo).map fun f => f.key 0).Nodup := by decide
theorem trainRo_apart : ∀ f ∈ Reg.ctxTrainFields.filter isRo, f ≠ Reg.CTX_STEP_STATE → f ≠ Reg.CTX_LAST_CKPT_STEP →
    f.Apart [Reg.CTX_STEP_STATE, Reg.CTX_LAST_CKPT_STEP, Reg.CTX_ATTEMPT] := by decide

section
variable (s : State) (x : Nat) (c : Checkpoint)

theorem restoreCkpt_ctx : (s.restoreCkpt x c).ctx x = { s.ctx x with
    step := none, dataNextDue := some c.dataNext, lastDataNext := c.dataNext, exch := Exchange.idle, captures := []
    restoredLanes := (lanePairs c.bays).map (fun p => (64 * p.1 + p.2, restoredLane c p.1 p.2)) } := by
  obtain ⟨r, h⟩ := writeBlock_eq x (Reg.ctxTrainFields.filter isRo) c.block
    (s.store (.tier1 x) (s.cf x Reg.CTX_STATE_BASE) 0 c.stateBytes)
  have hs := (stepFrame_store s x (s.cf x Reg.CTX_STATE_BASE) 0 c.stateBytes).ctx x
  rw [← hs]
  simp only [State.restoreCkpt, h]
  exact State.ctx_setCtx ..
theorem restoreCkpt_rings : (s.restoreCkpt x c).rings = s.rings := by
  obtain ⟨r, h⟩ := writeBlock_eq x (Reg.ctxTrainFields.filter isRo) c.block
    (s.store (.tier1 x) (s.cf x Reg.CTX_STATE_BASE) 0 c.stateBytes)
  simp only [State.restoreCkpt, h]
  exact (stepFrame_store ..).rings
theorem restoreCkpt_stepState : (s.restoreCkpt x c).stepState x = 0 := by
  rw [State.stepState, State.restoreCkpt, cf_wr_ne _ _ _ (by decide)]
  exact (cf_wr_ne _ _ _ (by decide)).trans (cf_wr_same ..)
theorem restoreCkpt_last : (s.restoreCkpt x c).cf x Reg.CTX_LAST_CKPT_STEP = c.step.toNat := by
  rw [State.restoreCkpt, cf_wr_ne _ _ _ (by decide)]
  exact (cf_wr_same ..).trans (Nat.mod_eq_of_lt c.step.isLt)
/-- The training registers but the two that restoring sets itself are the captured ones. -/
theorem restoreCkpt_block : ∀ p ∈ (Reg.ctxTrainFields.filter isRo).zip c.block, p.1 ≠ Reg.CTX_STEP_STATE →
    p.1 ≠ Reg.CTX_LAST_CKPT_STEP → (s.restoreCkpt x c).cf x p.1 = p.2 % 2 ^ p.1.width := by
  intro p hp hst hlast
  have ha := trainRo_apart p.1 (List.of_mem_zip hp).1 hst hlast
  rw [State.restoreCkpt, cf_wr_ne _ _ _ (ha _ (by simp))]
  refine ((cf_wr_ne _ _ _ (ha _ (by simp))).trans (cf_wr_ne _ _ _ (ha _ (by simp)))).trans ?_
  exact cf_writeBlock x trainRo_nodup c.block _ p hp
end

section
variable {s : State} {e : Entry} {src : RestoreSource}

theorem restore_awake (hi : s.ctxState e.ctx.val ≠ stIdle) : s.restore e src = s.done e 7 0x5002 := if_pos hi
theorem restore_faulty {code : Nat} (hi : s.ctxState e.ctx.val = stIdle)
    (hf : s.restoreFault e.ctx.val (e.args.getD 0 0) src = .error code) : s.restore e src = s.done e 7 code := by
  refine (if_neg (not_not_intro hi)).trans ?_
  simp only [hf]
theorem restore_restores {c : Checkpoint} (hi : s.ctxState e.ctx.val = stIdle)
    (hf : s.restoreFault e.ctx.val (e.args.getD 0 0) src = .ok c) : s.restore e src = (s.restoreCkpt e.ctx.val c).done e 7 0 := by
  refine (if_neg (not_not_intro hi)).trans ?_
  simp only [hf]
end

theorem restores : SaysRestore := by
  intro e src s x ha
  refine ⟨fun hi => runs_answered ha rfl fun k => restore_awake hi, fun hi => ⟨fun code hf => runs_answered ha rfl fun k =>
    restore_faulty hi hf, fun c hf => runs_of_admits ha rfl fun k hk _ => ?_⟩⟩
  have h := restore_restores (s := s.setRing e.ring.val k) hi hf
  generalize hs : s.setRing e.ring.val k = s1 at h ⊢
  have hclosing : ((s1.restoreCkpt x c).ring e.ring.val).closing = false := by
    rw [State.ring, restoreCkpt_rings, ← hs]
    exact ring_started_closing s _ hk
  have hctx : ((s1.restoreCkpt x c).done e 7 0).ctx x = (s1.restoreCkpt x c).ctx x := by
    rw [State.ctx, State.done, post_ctxs]
    rfl
  rw [h, hctx, restoreCkpt_ctx]
  exact ⟨done_completes _ e 7 0 hclosing, (cf_post ..).trans (restoreCkpt_stepState ..), (cf_post ..).trans (restoreCkpt_last ..), rfl,
    fun p hp hst hlast => (cf_post ..).trans (restoreCkpt_block s1 x c p hp hst hlast), rfl⟩

/-! ## REPLAY_ARM -/

theorem replayArms : SaysReplayArm := by
  intro e s x n late ha
  have hlate (k : Ring) : n < (s.setRing e.ring.val k).cf x Reg.CTX_STEP + 2 ∨
      (decide (n = (s.setRing e.ring.val k).cf x Reg.CTX_STEP + 2) &&
        ((s.setRing e.ring.val k).ctx x).tickets.any (fun t => decide (t.op.toNat = 3))) = true ↔ late := by
    simp only [late, Bool.and_eq_true, decide_eq_true_eq, List.any_eq_true]
    rfl
  refine ⟨fun hl => runs_refused ha rfl fun k => if_pos ((hlate k).mpr hl), fun hl => runs_of_admits ha rfl fun k hk _ => ?_⟩
  have h : (s.setRing e.ring.val k).replayArm e = ((s.setRing e.ring.val k).setCtx x
      { s.ctx x with replayArm := some (BitVec.ofNat 64 n) }).done e 8 0 := if_neg (mt (hlate k).mp hl)
  rw [h]
  refine ⟨done_completes _ e 8 0 (ring_started_closing s _ hk), ?_⟩
  rw [State.ctx, State.done, post_ctxs]
  exact State.ctx_setCtx ..

end Sys2Proof.Machine
end

section
/-! REPLAY, and the rows of 09 on checkpoints (09 R269; log entry 112). -/
namespace Sys2Proof.Machine

/-- A replay of the bays that e names has idle replay bays enough in a context that holds bays (R269). -/
def State.mayReplay (s : State) (e : Entry) : Prop :=
  (s.ctx e.ctx.val).bayMap ≠ [] ∧ (maskList 64 (entryArg e 0)).length ≤ (maskList 64 (s.cf e.ctx.val Reg.CTX_REPLAY_BAYS)).length ∧
  (maskList 64 (entryArg e 0)).length ≤ 4 ∧
  ∀ b ∈ maskList 64 (s.cf e.ctx.val Reg.CTX_REPLAY_BAYS), ∀ p, (s.ctx e.ctx.val).programOn b = some p → p.started = false
/-- The checkpoint before the recorded step, if it is still held. -/
def State.replayBase (s : State) (x : Nat) : Option Checkpoint :=
  (s.ckpts ++ s.drains).find? (fun c => decide (c.ctx.val = x) && decide (c.step + 1 = (s.ctx x).traceStep))
/-- What a replay from c finds: the first entry that differs from the record. -/
def State.replayFound (s : State) (e : Entry) (run : List ReplayEvent) (c : Checkpoint) : Option TraceEntry :=
  replayFinding (s.ctx e.ctx.val) (entryArg e 0)
    (s.replayRun e.ctx.val c (maskList 64 (entryArg e 0)) (maskList 64 (s.cf e.ctx.val Reg.CTX_REPLAY_BAYS)) run)
/-- What a replay from c answers: its run differs from the record, agrees with a truncated one, or agrees. -/
def State.replayStatus (s : State) (e : Entry) (run : List ReplayEvent) (c : Checkpoint) : Nat :=
  match s.replayFound e run c with
  | some _ => 0x9101
  | none => if (s.ctx e.ctx.val).traceTruncated then 0x9104 else 0x9102

section
variable {s : State} {e : Entry} (run : List ReplayEvent)

theorem replayStatus_found {c : Checkpoint} {f : TraceEntry} (h : s.replayFound e run c = some f) :
    s.replayStatus e run c = 0x9101 := by
  simp only [State.replayStatus, h]
theorem replayStatus_agrees {c : Checkpoint} (h : s.replayFound e run c = none) :
    s.replayStatus e run c = if (s.ctx e.ctx.val).traceTruncated then 0x9104 else 0x9102 := by
  simp only [State.replayStatus, h]
/-- What REPLAY tests first is that there are no such bays. -/
theorem replay_blocked_iff :
    (((maskList 64 (s.cf e.ctx.val Reg.CTX_REPLAY_BAYS)).any
        (fun b => match (s.ctx e.ctx.val).programOn b with | some p => p.started | none => false)) = true ∨
      (s.ctx e.ctx.val).bayMap = [] ∨
      (maskList 64 (s.cf e.ctx.val Reg.CTX_REPLAY_BAYS)).length < (maskList 64 (entryArg e 0)).length ∨
      4 < (maskList 64 (entryArg e 0)).length) ↔ ¬ s.mayReplay e := by
  have hidle (b : Nat) : (match (s.ctx e.ctx.val).programOn b with | some p => p.started | none => false) = true ↔
      ¬ ∀ p, (s.ctx e.ctx.val).programOn b = some p → p.started = false := by
    cases (s.ctx e.ctx.val).programOn b <;> simp
  simp only [List.any_eq_true, hidle, State.mayReplay, not_and_or, not_le, not_not, not_forall, exists_prop]
  rw [or_comm]
  simp only [or_assoc]
theorem replay_refused (h : ¬ s.mayReplay e) : s.replay e run = s.done e 9 0x9105 := if_pos (replay_blocked_iff.mpr h)
theorem replay_baseless (h : s.mayReplay e) (hb : s.replayBase e.ctx.val = none) : s.replay e run = s.done e 9 0x9002 := by
  rw [State.replayBase] at hb
  refine (if_neg (fun hn => replay_blocked_iff.mp hn h)).trans ?_
  simp only [hb]
/-- A replay that runs posts one record, of what it found. -/
theorem replay_ends {c : Checkpoint} (h : s.mayReplay e) (hb : s.replayBase e.ctx.val = some c) :
    ∃ c0 c1, s.replay e run = s.post (entryTicket e 9) true (s.replayStatus e run c) c0 c1 := by
  rw [State.replayBase] at hb
  have hrun : s.replay e run = match s.replayFound e run c with
    | some t => s.post (entryTicket e 9) true 0x9101 (t.core.val + 256 * slotCode t.slot) t.seq.toNat
    | none => s.done e 9 (if (s.ctx e.ctx.val).traceTruncated then 0x9104 else 0x9102) := by
    refine (if_neg (fun hn => replay_blocked_iff.mp hn h)).trans ?_
    simp only [hb]
    rfl
  rw [hrun]
  cases hf : s.replayFound e run c with
  | some t => exact ⟨_, _, by rw [replayStatus_found run hf]⟩
  | none => exact ⟨0, 0, by rw [replayStatus_agrees run hf]; rfl⟩
end

theorem replays : SaysReplay := by
  intro e run s x k bays named can base ha
  refine ⟨fun hn => runs_refused ha rfl fun r => replay_refused run hn,
    fun hc hb => runs_refused ha rfl fun r => replay_baseless run hc hb,
    fun c hc hb => runs_of_admits ha rfl fun r hr hs => ?_⟩
  obtain ⟨c0, c1, h⟩ := replay_ends (s := s.setRing e.ring.val r) run hc hb
  have hdone := post_completes (s.setRing e.ring.val r) e 9 ((s.setRing e.ring.val r).replayStatus e run c) c0 c1
    (ring_started_closing s _ hr)
  rw [h, hs]
  refine ⟨post_ctxs .., ?_⟩
  split
  · next f hf =>
    rw [replayStatus_found (s := s.setRing e.ring.val r) run hf] at hdone ⊢
    exact hdone
  · next hf =>
    rw [replayStatus_agrees (s := s.setRing e.ring.val r) run hf] at hdone ⊢
    exact hdone

/-- Settles O36: a capture, a restore and a replay each do what their row says, from the lemma of each. -/
theorem checkpointsAndReplay : Obligations.CheckpointsAndReplay := ⟨checkpointsSecured, restores, replayArms, replays⟩

theorem replayStatus_mem (s : State) (e : Entry) (run : List ReplayEvent) (c : Checkpoint) :
    s.replayStatus e run c = 0x9101 ∨ s.replayStatus e run c = 0x9102 ∨ s.replayStatus e run c = 0x9104 := by
  unfold State.replayStatus
  split
  · exact .inl rfl
  · split
    · exact .inr (.inr rfl)
    · exact .inr (.inl rfl)

/-- Settles O37: what each row does where nothing stands against it, from the lemmas of O36. -/
theorem checkpointRowsComplete : Obligations.CheckpointRowsComplete := by
  refine ⟨fun x s before d after hk hm hd hr hp => ?_, fun x s d c rest hk hc ha => ?_, fun e src s c ha hi hf => ?_,
    fun e s ha hn => ?_, fun e run s c ha hmap hlen hfour hidle hb => ?_⟩
  · obtain ⟨first, n, hcaps, -, -⟩ := captureStart_takes hk (.inl hm) (fun h => by simp [hd] at h) hr hp
    refine ⟨_, rfl, ?_, s.captureNow x d, ⟨_, by rw [hcaps]; exact List.mem_append_right _ List.mem_cons_self, rfl⟩, rfl⟩
    rw [hcaps, splitDue_eq hk]
    simp only [List.length_append, List.length_cons]
  · obtain ⟨hcaps, -, -, -, hindex⟩ := secured_secures hk hc ha
    exact ⟨_, rfl, hcaps, hindex⟩
  · obtain ⟨-, hidle⟩ := restores e src s ha
    obtain ⟨-, hok⟩ := hidle hi
    obtain ⟨t, ht, hdone, -, -, hdue, -⟩ := hok c hf
    exact ⟨t, ht, hdone, hdue⟩
  · obtain ⟨-, harms⟩ := replayArms e s ha
    obtain ⟨t, ht, hdone, harm⟩ := harms (by omega)
    exact ⟨t, ht, hdone, congrArg Ctx.replayArm harm⟩
  · refine runs_of_admits ha rfl fun r hr _ => ?_
    obtain ⟨c0, c1, h⟩ := replay_ends (s := s.setRing e.ring.val r) run ⟨hmap, hlen, hfour, hidle⟩ hb
    have hdone := post_completes (s.setRing e.ring.val r) e 9 ((s.setRing e.ring.val r).replayStatus e run c) c0 c1
      (ring_started_closing s _ hr)
    rw [h]
    refine ⟨(sameData_post ..).2.1, ?_⟩
    rcases replayStatus_mem (s.setRing e.ring.val r) e run c with hst | hst | hst <;> rw [hst] at hdone ⊢
    · exact .inl hdone
    · exact .inr (.inl hdone)
    · exact .inr (.inr hdone)

end Sys2Proof.Machine
end

section
/-! What halts, events and the clearing of queues leave of the Truss's ports, channels and routes, and that a halt stops its
context (08 R220; 10 R280, R291; 14 R398; 18 R479, Table 18-2). -/
namespace Sys2Proof.Machine

/-- From s to t a view of the state stands, and so does each register field whose key satisfies a test. -/
structure Leaves {α : Type} (view : State → α) (keys : Nat → Prop) (s t : State) : Prop where
  same : view t = view s
  rd : ∀ (b : Nat) (f : Field), keys (f.key b) → t.rd b f = s.rd b f

namespace Leaves
variable {α β : Type} {view : State → α} {view' : State → β} {keys keys' : Nat → Prop} {s t u : State}

theorem other (h : view t = view s) (hr : t.regs = s.regs) : Leaves view keys s t := ⟨h, fun b f _ => by rw [State.rd, hr]; rfl⟩
theorem refl (s : State) : Leaves view keys s s := .other rfl rfl
theorem trans (h : Leaves view keys s t) (g : Leaves view keys t u) : Leaves view keys s u :=
  ⟨g.same.trans h.same, fun b f hk => (g.rd b f hk).trans (h.rd b f hk)⟩
theorem ite {p : Prop} [Decidable p] (ht : Leaves view keys s t) (hu : Leaves view keys s u) :
    Leaves view keys s (if p then t else u) := by split <;> assumption
theorem foldl {ι : Type} {f : State → ι → State} {l : List ι} (hf : ∀ s, ∀ a ∈ l, Leaves view keys s (f s a)) (s : State) :
    Leaves view keys s (l.foldl f s) := by
  induction l generalizing s with
  | nil => exact .refl s
  | cons a l ih => exact (hf s a List.mem_cons_self).trans (ih (fun s b hb => hf s b (List.mem_cons_of_mem _ hb)) (f s a))
theorem wr {b : Nat} {f : Field} {v : Nat} (hv : view (s.wr b f v) = view s) (h : ¬ keys (f.key b)) :
    Leaves view keys s (s.wr b f v) :=
  ⟨hv, fun _ _ hk => State.rd_wr_ne s v fun e => h (e ▸ hk)⟩
/-- A view that is a function of a view that stands, and fewer keys. -/
theorem mono (h : Leaves view keys s t) (g : α → β) (hg : ∀ u, view' u = g (view u)) (hk : ∀ n, keys' n → keys n) :
    Leaves view' keys' s t :=
  ⟨by rw [hg, hg, h.same], fun b f hf => h.rd b f (hk _ hf)⟩
/-- What is a function of the view stands. -/
theorem congr (h : Leaves view keys s t) (g : α → β) : g (view t) = g (view s) := congrArg g h.same
end Leaves

/-- The registers of the Truss: its address, ports and routes, and what lies between them in BAR0 (Table 18-2). -/
abbrev OfTruss (n : Nat) : Prop := Reg.trsAddress * 8 ≤ n ∧ n < Reg.ring 0 * 8
/-- The registers below the Windway descriptors. -/
abbrev UnderWwy (n : Nat) : Prop := n < Reg.wwy 0 0 * 8

theorem not_ofTruss_ctx (x : Nat) (f : Field) : ¬ OfTruss (f.key (Reg.ctx x)) := by
  simp only [OfTruss, Field.key, Reg.ctx, Reg.ring]; omega
theorem not_ofTruss_ring (r : Nat) (f : Field) : ¬ OfTruss (f.key (Reg.ring r)) := by
  simp only [OfTruss, Field.key, Reg.ring]; omega
theorem not_underWwy_wwy (x q : Nat) (f : Field) : ¬ UnderWwy (f.key (Reg.wwy x q)) := by
  simp only [UnderWwy, Field.key, Reg.wwy]; omega
theorem underWwy_of_ofTruss (n : Nat) (h : OfTruss n) : UnderWwy n := by
  simp only [OfTruss, UnderWwy, Reg.ring, Reg.wwy] at *; omega
theorem ofTruss_port (p : PortId) {f : Field} (hf : f.key 0 < 512) : OfTruss (f.key (Reg.trsPort p.val)) := by
  have hp := p.isLt
  simp only [OfTruss, Field.key, Reg.trsPort, Reg.trsAddress, Reg.ring] at *; omega

/-! ## Events and halts -/

/-- The state but for its registers and messages, and but for what a halt changes besides. -/
def State.offRegs (s : State) : State := { s with regs := [], pba := [], msgs := [] }
def State.offHalt (s : State) : State := { s.offRegs with ctxs := [], cores := [], rings := [] }
abbrev HaltFrame : State → State → Prop := Leaves State.offHalt OfTruss

theorem leaves_event (s : State) (f : Field) : Leaves State.offRegs (· ≠ f.key Reg.hif) s (s.event f) := by
  have hw : Leaves State.offRegs (· ≠ f.key Reg.hif) s (s.wr Reg.hif f 1) := .wr rfl (by simp)
  have hm (s : State) (c : CxlId) (v : Nat) : Leaves State.offRegs (· ≠ f.key Reg.hif) s (s.sendMsix c v) := by
    unfold State.sendMsix
    exact .ite (.other rfl rfl) (.other rfl rfl)
  unfold State.event
  exact .ite hw (hw.trans (hm ..))
theorem haltFrame_event (s : State) {f : Field} (h : ¬ OfTruss (f.key Reg.hif)) : HaltFrame s (s.event f) :=
  (leaves_event s f).mono State.offHalt (fun _ => rfl) fun _ hn e => h (e ▸ hn)
theorem haltFrame_wrCtx (s : State) (x : Nat) (f : Field) (v : Nat) : HaltFrame s (s.wr (Reg.ctx x) f v) :=
  .wr rfl (not_ofTruss_ctx x f)
theorem haltFrame_wrRing (s : State) (r : Nat) (f : Field) (v : Nat) : HaltFrame s (s.wr (Reg.ring r) f v) :=
  .wr rfl (not_ofTruss_ring r f)
theorem haltFrame_setCtx (s : State) (x : Nat) (k : Ctx) : HaltFrame s (s.setCtx x k) := .other rfl rfl
theorem haltFrame_post (s : State) (t : Ticket) (fin : Bool) (a b d : Nat) : HaltFrame s (s.post t fin a b d) := by
  have hring (s : State) (r : Nat) (k : Ring) : HaltFrame s (s.setRing r k) := .other rfl rfl
  have hsettle (s : State) (r : Nat) : HaltFrame s (s.settleRing r) := by
    unfold State.settleRing
    exact .ite (((hring ..).trans (haltFrame_wrRing ..)).trans (haltFrame_wrRing ..)) (.refl s)
  unfold State.post State.bump
  exact ((hring ..).trans (.ite (haltFrame_wrRing ..) (.refl _))).trans (hsettle ..)
theorem haltFrame_finishLoads (s : State) (x code : Nat) : HaltFrame s (s.finishLoads x code).1 := by
  unfold State.finishLoads
  exact (haltFrame_setCtx ..).trans (.foldl (fun _ _ _ => haltFrame_post ..) _)
theorem haltFrame_finishTickets (s : State) (x op code : Nat) : HaltFrame s (s.finishTickets x op code) := by
  unfold State.finishTickets
  exact (haltFrame_setCtx ..).trans (.foldl (fun _ _ _ => haltFrame_post ..) _)
theorem haltFrame_enterStopped (s : State) (x code : Nat) : HaltFrame s (s.enterStopped x code) := by
  unfold State.enterStopped
  extract_lets k cd st torn s1 s2
  have h2 : HaltFrame s s2 := ((haltFrame_setCtx ..).trans (haltFrame_wrCtx ..)).trans (haltFrame_wrCtx ..)
  have h4 := (h2.trans (haltFrame_finishLoads s2 x cd)).trans (haltFrame_finishTickets _ x 4 0)
  exact .ite h4 (h4.trans (haltFrame_event _ (by decide)))
theorem haltFrame_drainCores (l : List (Nat × Nat)) (s : State) : HaltFrame s (s.drainCores l) := by
  induction l generalizing s with
  | nil => exact .refl s
  | cons a l ih =>
    have ha : HaltFrame s (s.drainCore a.2) := by
      unfold State.drainCore
      extract_lets k
      split
      · exact .other rfl rfl
      · exact .refl s
    exact ha.trans (ih _)
theorem haltFrame_haltCtx (s : State) (x code : Nat) : HaltFrame s (s.haltCtx x code) := by
  unfold State.haltCtx
  extract_lets st torn k0 step' state s0 s1 s2 k
  have h1 : HaltFrame s s1 := (haltFrame_setCtx ..).trans (haltFrame_wrCtx ..)
  have h2 : HaltFrame s s2 := .ite (h1.trans (haltFrame_wrCtx ..)) h1
  refine .ite (.refl s) (.ite ?_ (.ite ?_ (.ite ?_ ?_)))
  · exact ((h2.trans (haltFrame_setCtx ..)).trans (haltFrame_wrCtx ..)).trans (haltFrame_drainCores ..)
  · exact h2.trans (haltFrame_enterStopped ..)
  · exact h2.trans (haltFrame_event _ (by decide))
  · split
    · exact h2
    · exact h2.trans (haltFrame_setCtx ..)

/-! ## A halted context -/

theorem drainCores_regs (l : List (Nat × Nat)) (s : State) : (s.drainCores l).regs = s.regs := by
  induction l generalizing s with
  | nil => rfl
  | cons a l ih =>
    have ha : (s.drainCore a.2).regs = s.regs := by
      unfold State.drainCore
      extract_lets k
      split <;> rfl
    exact (ih _).trans ha
theorem drainCores_stops (l : List (Nat × Nat)) (s : State) : ∀ kc ∈ l, ((s.drainCores l).core kc.2).run ≠ .running := by
  induction l generalizing s with
  | nil => exact fun _ h => absurd h List.not_mem_nil
  | cons a l ih =>
    intro kc hkc
    rcases List.mem_cons.mp hkc with rfl | h
    · have ha : ((s.drainCore kc.2).core kc.2).run ≠ .running := by
        unfold State.drainCore
        extract_lets k
        split
        · rw [State.core_setCore]; exact RunState.noConfusion
        · next hn => exact hn
      rw [State.drainCores, drainCores_core_of_not_running _ ha]
      exact ha
    · exact ih _ kc h
/-- The cores of a context rest on its bays and on the positions of cores. -/
theorem ctxCores_congr {s t : State} {x : Nat} (hb : (t.ctx x).bayMap = (s.ctx x).bayMap) (hp : t.posCore = s.posCore) :
    t.ctxCores x = s.ctxCores x := by
  have hphys (l : Nat) : t.physOf l = s.physOf l := by rw [State.physOf, hp]; rfl
  have hcore (k : Nat) : t.ctxCore x k = s.ctxCore x k := by
    unfold State.ctxCore
    rw [hb]
    simp only [hphys]
  rw [State.ctxCores, hb, funext fun k => congrArg (Option.map fun c => (k, c)) (hcore k)]
  rfl
theorem haltCtx_halts (s : State) (x code : Nat) : Halts s (s.haltCtx x code) x code := by
  intro hrun
  unfold State.haltCtx
  extract_lets st torn k0 step' state s0 s1 s2 k
  rw [if_neg (by simp only [state, hrun]; decide), if_pos hrun]
  have h2 : (s2.ctx x).bayMap = (s.ctx x).bayMap ∧ s2.posCore = s.posCore := by
    have h1 : (s1.ctx x).bayMap = (s.ctx x).bayMap := by
      simp only [s1, s0, k0, State.ctxStatus, State.wr_ctxAt, State.ctx_setCtx]
    simp only [s2]
    split <;> exact ⟨h1, rfl⟩
  obtain ⟨hb, hp⟩ := h2
  refine ⟨?_, ?_, fun kc hkc => drainCores_stops _ _ kc (ctxCores_congr hb hp ▸ hkc)⟩
  · rw [State.ctxState, State.rd, drainCores_regs]; exact State.rd_wr ..
  · rw [State.ctx, drainCores_ctxs]; exact congrArg Ctx.goal (State.ctx_setCtx ..)
/-- A context that halts after a change that leaves its state, bays and cores' places halts. -/
theorem Halts.of_before {s m t : State} {x code : Nat} (h : Halts m t x code) (hs : m.ctxState x = s.ctxState x)
    (hb : (m.ctx x).bayMap = (s.ctx x).bayMap) (hp : m.posCore = s.posCore) : Halts s t x code := by
  rw [Halts, hs, ctxCores_congr hb hp] at h
  exact h

/-! ## Queues that are cleared -/

/-- The state but for cores, queues and registers, and but for packets besides. -/
def State.offClear (s : State) : State := { s with regs := [], cores := [], queues := [] }
def State.offClearPairs (s : State) : State := { s.offClear with channels := [], outbox := [] }

theorem withdrawRefs_leaves (q : Nat) (l : List WRef) (s : State) : Leaves State.offClear UnderWwy s (s.withdrawRefs q l) := by
  have hdue (s : State) (c : Nat) (d : Deferred) : Leaves State.offClear UnderWwy s (s.addDue c d) := by
    unfold State.addDue
    exact .ite (.refl s) (.other rfl rfl)
  have hdrop (s : State) (c id : Nat) : Leaves State.offClear UnderWwy s (s.dropFlight c id) := .other rfl rfl
  induction l generalizing s with
  | nil => exact .refl s
  | cons r rs ih =>
    rw [State.withdrawRefs]
    refine Leaves.trans ?_ (ih _)
    split
    · exact .refl s
    · exact (hdrop ..).trans (hdue ..)
theorem clearQueue_leaves (s : State) (x q : Nat) (code : Option Nat) :
    Leaves State.offClear UnderWwy s (s.clearQueue x q code) := by
  have hwr (s : State) (f : Field) (v : Nat) : Leaves State.offClear UnderWwy s (s.wr (Reg.wwy x q) f v) :=
    .wr rfl (not_underWwy_wwy x q f)
  have hset (s : State) (k : Queue) : Leaves State.offClear UnderWwy s (s.setQueue x q k) := .other rfl rfl
  unfold State.clearQueue
  extract_lets k held s1 s2
  have h2 : Leaves State.offClear UnderWwy s s2 := ((withdrawRefs_leaves q held s).trans (hset ..)).trans (hwr ..)
  refine .ite ?_ (.refl s)
  cases code with
  | none => exact h2
  | some c => exact h2.trans (hwr ..)
theorem clearPairs_leaves (x : Nat) (code : Option Nat) (qs : List Nat) (s : State) :
    Leaves State.offClearPairs UnderWwy s (s.clearPairs x code qs) := by
  induction qs generalizing s with
  | nil => exact .refl s
  | cons q qs ih =>
    have hq : Leaves State.offClearPairs UnderWwy s (s.clearQueue x q code) :=
      (clearQueue_leaves s x q code).mono State.offClearPairs (fun _ => rfl) fun _ => id
    have hp (s : State) (k : ChannelKey) (bs : List Byte) : Leaves State.offClearPairs UnderWwy s (s.queuePacket k false 6 bs) := by
      obtain ⟨cs, ps, h⟩ := queuePacket_eq s k false 6 bs
      exact h ▸ .other rfl rfl
    have h1 : Leaves State.offClearPairs UnderWwy s (s.clearPair x q code) := by
      unfold State.clearPair
      exact .ite (hq.trans (hp ..)) hq
    exact h1.trans (ih _)

end Sys2Proof.Machine
end

section
/-! The record of a channel, and what a channel that is declared down leaves and does (10 R288, R290, R291). -/
namespace Sys2Proof.Machine

/-! ## The record of a channel -/

theorem channel_key {s : State} {k : ChannelKey} {c : Channel} (h : s.channel k = some c) : c.key = k := by
  have hs : sameChannel k c = true := List.find?_some h
  exact of_decide_eq_true hs
theorem channelOr_key (s : State) (k : ChannelKey) (o : Bool) : (s.channelOr k o).key = k := by
  unfold State.channelOr
  cases h : s.channel k with
  | none => rfl
  | some c => exact channel_key h
theorem channel_congr {s t : State} (h : t.channels = s.channels) (k : ChannelKey) : t.channel k = s.channel k := by
  rw [State.channel, h]; rfl
theorem channel_setChannel (s : State) (c : Channel) : (s.setChannel c).channel c.key = some c := by
  unfold State.setChannel State.channel
  split
  · next h =>
    have hp : sameChannel c.key ∘ (fun d => if sameChannel c.key d then c else d) = sameChannel c.key := by
      funext d
      rw [Function.comp_apply]
      split
      · next hd => exact (decide_eq_true rfl).trans hd.symm
      · rfl
    obtain ⟨d, hd⟩ := Option.isSome_iff_exists.mp (List.find?_isSome.mpr (List.any_eq_true.mp h))
    rw [List.find?_map, hp, hd, Option.map_some, if_pos (List.find?_some hd)]
  · next h =>
    have hn : s.channels.find? (sameChannel c.key) = none :=
      List.find?_eq_none.mpr fun d hd hs => h (List.any_eq_true.mpr ⟨d, hd, hs⟩)
    rw [List.find?_append, hn, Option.none_or]
    simp [sameChannel]
theorem channel_setChannel_ne (s : State) {c : Channel} {k : ChannelKey} (h : k ≠ c.key) : (s.setChannel c).channel k = s.channel k := by
  have hc : sameChannel k c = false := decide_eq_false (Ne.symm h)
  unfold State.setChannel State.channel
  split
  · have hd (d : Channel) (hd : sameChannel k d = true) : sameChannel c.key d = false := by
      simp only [sameChannel, decide_eq_true_eq, decide_eq_false_iff_not] at hd ⊢
      exact fun e => h (hd.symm.trans e)
    have hp : sameChannel k ∘ (fun d => if sameChannel c.key d then c else d) = sameChannel k := by
      funext d
      cases hk : sameChannel k d with
      | true => simp [hk, hd d hk]
      | false => by_cases hs : sameChannel c.key d = true <;> simp [hs, hk, hc]
    rw [List.find?_map, hp]
    cases hf : s.channels.find? (sameChannel k) with
    | none => rfl
    | some d => rw [Option.map_some, hd d (List.find?_some hf)]; rfl
  · rw [List.find?_append, List.find?_cons, hc, List.find?_nil, Option.or_none]

/-! ## Channels that are down -/

/-- The channel is down and holds no packets. -/
def GivenUp (s : State) (k : ChannelKey) : Prop := ∃ d, s.channel k = some d ∧ d.down = true ∧ d.unacked = []

theorem GivenUp.congr {s t : State} {k : ChannelKey} (h : GivenUp s k) (hc : t.channels = s.channels) : GivenUp t k := by
  obtain ⟨d, hd, hrest⟩ := h
  exact ⟨d, (channel_congr hc k).trans hd, hrest⟩
/-- A packet that is numbered on a channel leaves it down. -/
theorem GivenUp.queuePacket {s : State} {k : ChannelKey} (h : GivenUp s k) (j : ChannelKey) (o : Bool) (type : Nat)
    (body : List Byte) : GivenUp (s.queuePacket j o type body) k := by
  obtain ⟨d, hd, hdown, hnone⟩ := h
  have hset := channel_setChannel s { s.channelOr j o with next := ((s.channelOr j o).next + 1) % 2 ^ 32 }
  by_cases hj : k = j
  · subst hj
    have ho : s.channelOr k o = d := by rw [State.channelOr, hd]; rfl
    rw [ho, channel_key hd] at hset
    refine ⟨{ d with next := (d.next + 1) % 2 ^ 32 }, ?_, hdown, hnone⟩
    rw [State.queuePacket, ho]
    exact hset
  · refine ⟨d, Eq.trans ?_ hd, hdown, hnone⟩
    exact channel_setChannel_ne s (by rwa [channelOr_key])
theorem GivenUp.clearPairs {k : ChannelKey} (x : Nat) (code : Option Nat) (qs : List Nat) {s : State} (h : GivenUp s k) :
    GivenUp (s.clearPairs x code qs) k := by
  induction qs generalizing s with
  | nil => exact h
  | cons q qs ih =>
    have hq : GivenUp (s.clearQueue x q code) k := h.congr ((clearQueue_leaves s x q code).congr State.channels)
    rw [State.clearPairs]
    apply ih
    unfold State.clearPair
    extract_lets remote s1
    split
    · exact hq.queuePacket ..
    · exact hq

section
variable (s : State) (c : Channel)

/-- The state in which a channel that goes down clears its pairs, and the pairs it clears. -/
def State.beforeClearing : State :=
  let s1 := { s.setChannel { c with down := true, unacked := [] } with outbox := s.outbox.filter (fun o => decide (o.key ≠ c.key)) }
  let x := c.key.srcCtx.toNat
  if c.key = s.sideKey x (s.rd (Reg.ctx x) Reg.CTX_BUDDY_DEVICE) x then s1.dropTaken x else s1

theorem channelDown_eq : ∃ qs, s.channelDown c =
    ((s.beforeClearing c).clearPairs c.key.srcCtx.toNat (some 0x6007) qs).haltCtx c.key.srcCtx.toNat 0x6007 := ⟨_, rfl⟩
theorem beforeClearing_leaves :
    (s.beforeClearing c).regs = s.regs ∧ (s.beforeClearing c).ports = s.ports ∧ (s.beforeClearing c).posCore = s.posCore ∧
    (∀ x, ((s.beforeClearing c).ctx x).bayMap = (s.ctx x).bayMap) ∧ GivenUp (s.beforeClearing c) c.key := by
  unfold State.beforeClearing
  extract_lets m s1 x
  obtain ⟨cs, h⟩ := setChannel_eq s { c with down := true, unacked := [] }
  have hdown : GivenUp s1 c.key := ⟨_, channel_setChannel s { c with down := true, unacked := [] }, rfl, rfl⟩
  have h1 : s1 = { s with channels := cs, outbox := s.outbox.filter (fun o => decide (o.key ≠ c.key)) } := by simp only [s1, m, h]
  split
  · refine ⟨by rw [h1]; rfl, by rw [h1]; rfl, by rw [h1]; rfl, fun y => ?_, hdown.congr rfl⟩
    have hctx (k : Ctx) (hk : k.bayMap = (s1.ctx x).bayMap) : ((s1.setCtx x k).ctx y).bayMap = (s1.ctx y).bayMap := by
      by_cases hy : y = x
      · rw [hy, State.ctx_setCtx, hk]
      · rw [State.ctx_setCtx_ne _ _ hy]
    refine Eq.trans (hctx { s1.ctx x with captures := (s1.ctx x).captures.filter (fun d => d.taken.isNone) } rfl) ?_
    rw [h1]; rfl
  · exact ⟨by rw [h1], by rw [h1], by rw [h1], fun y => by rw [h1]; rfl, hdown⟩

/-- A channel that goes down leaves every port and every register of the Truss. -/
theorem channelDown_leaves : Leaves State.ports OfTruss s (s.channelDown c) := by
  obtain ⟨qs, h⟩ := channelDown_eq s c
  obtain ⟨hregs, hports, -⟩ := beforeClearing_leaves s c
  rw [h]
  refine (Leaves.other hports hregs).trans (Leaves.trans ?_ ((haltFrame_haltCtx ..).mono State.ports (fun _ => rfl) fun _ => id))
  exact (clearPairs_leaves ..).mono State.ports (fun _ => rfl) underWwy_of_ofTruss
theorem channelDown_givenUp : GivenUp (s.channelDown c) c.key := by
  obtain ⟨qs, h⟩ := channelDown_eq s c
  obtain ⟨-, -, -, -, hdown⟩ := beforeClearing_leaves s c
  rw [h]
  exact (hdown.clearPairs c.key.srcCtx.toNat (some 0x6007) qs).congr ((haltFrame_haltCtx ..).congr State.channels)
theorem channelDown_halts : Halts s (s.channelDown c) c.key.srcCtx.toNat 0x6007 := by
  obtain ⟨qs, h⟩ := channelDown_eq s c
  obtain ⟨hregs, -, hpos, hbays, -⟩ := beforeClearing_leaves s c
  have hclear := clearPairs_leaves c.key.srcCtx.toNat (some 0x6007) qs (s.beforeClearing c)
  rw [h]
  have hstate := hclear.rd _ Reg.CTX_STATE (belowWwy_ctx ⟨_, c.key.srcCtx.isLt⟩ (by decide))
  have hctxs : ((s.beforeClearing c).clearPairs c.key.srcCtx.toNat (some 0x6007) qs).ctxs = (s.beforeClearing c).ctxs :=
    hclear.congr State.ctxs
  refine Halts.of_before (haltCtx_halts _ _ _) (hstate.trans ?_) (Eq.trans ?_ (hbays _)) ((hclear.congr State.posCore).trans hpos)
  · rw [State.rd, hregs]; rfl
  · rw [State.ctx, hctxs]; rfl
end

theorem channelsDown_leaves (cs : List Channel) (s : State) : Leaves State.ports OfTruss s (s.channelsDown cs) := by
  induction cs generalizing s with
  | nil => exact .refl s
  | cons c cs ih => exact (channelDown_leaves s c).trans (ih _)

end Sys2Proof.Machine
end

section
/-! The registers of a port: its link's state, its lanes and its STATUS as a link comes up, goes down or fails (10 Table 10-2,
R273, R280). -/
namespace Sys2Proof.Machine

/-- A register above those of HIF that is none of some fields of port p. -/
abbrev PortKeys (p : Nat) (fs : List Field) (n : Nat) : Prop := Reg.jnrStatus * 8 ≤ n ∧ ∀ g ∈ fs, n ≠ g.key (Reg.trsPort p)

theorem rd_wr_apart (s : State) (b v : Nat) {f g : Field} (h : f.key 0 ≠ g.key 0) : (s.wr b g v).rd b f = s.rd b f :=
  State.rd_wr_ne s v fun e => h (by rw [key_eq_add f, key_eq_add g] at e; exact Nat.add_left_cancel e)
theorem portKeys_port (p : Nat) {fs : List Field} {f : Field} (h : ∀ g ∈ fs, f.key 0 ≠ g.key 0) :
    PortKeys p fs (f.key (Reg.trsPort p)) := by
  refine ⟨?_, fun g hg e => h g hg ?_⟩
  · simp only [Field.key, Reg.trsPort, Reg.jnrStatus]; omega
  · rw [key_eq_add f, key_eq_add g] at e
    exact Nat.add_left_cancel e
theorem PortKeys.mono {p n : Nat} {fs gs : List Field} (h : PortKeys p gs n) (hs : fs ⊆ gs) : PortKeys p fs n :=
  ⟨h.1, fun g hg => h.2 g (hs hg)⟩

/-- A field of port p is written, and an event may be noted in a register of HIF. -/
theorem leaves_noted (s : State) (p v : Nat) (f g : Field) {c : Prop} [Decidable c] (hg : g.key Reg.hif < Reg.jnrStatus * 8) :
    Leaves State.offRegs (PortKeys p [f]) s (if c then s.wr (Reg.trsPort p) f v else (s.wr (Reg.trsPort p) f v).event g) ∧
    (if c then s.wr (Reg.trsPort p) f v else (s.wr (Reg.trsPort p) f v).event g).rd (Reg.trsPort p) f = v % 2 ^ f.width := by
  have hw : Leaves State.offRegs (PortKeys p [f]) s (s.wr (Reg.trsPort p) f v) := .wr rfl fun h => h.2 f List.mem_cons_self rfl
  have he := leaves_event (s.wr (Reg.trsPort p) f v) g
  split
  · exact ⟨hw, State.rd_wr ..⟩
  · refine ⟨hw.trans (he.mono id (fun _ => rfl) fun n hn e => ?_), (he.rd _ f fun e => ?_).trans (State.rd_wr ..)⟩
    · have hn1 := hn.1; omega
    · have hn1 := (portKeys_port p (fs := []) (f := f) (fun _ h => absurd h List.not_mem_nil)).1; omega

section
variable (s : State) (p v : Nat)

theorem setLink_leaves : Leaves State.offRegs (PortKeys p [Reg.TRS_LINK_STATE]) s (s.setLink p v) :=
  (leaves_noted s p v Reg.TRS_LINK_STATE Reg.HIF_EV_TRUSS (by decide)).1
theorem linkState_setLink : (s.setLink p v).rd (Reg.trsPort p) Reg.TRS_LINK_STATE = v % 8 :=
  (leaves_noted s p v Reg.TRS_LINK_STATE Reg.HIF_EV_TRUSS (by decide)).2
theorem portStatus_leaves : Leaves State.offRegs (PortKeys p [Reg.TRS_STATUS]) s (s.portStatus p v) :=
  (leaves_noted s p v Reg.TRS_STATUS Reg.HIF_EV_TRUSS (by decide)).1
theorem status_portStatus : (s.portStatus p v).rd (Reg.trsPort p) Reg.TRS_STATUS = v % 65536 :=
  (leaves_noted s p v Reg.TRS_STATUS Reg.HIF_EV_TRUSS (by decide)).2
theorem clearSpan_leaves : Leaves State.offRegs (PortKeys p [Reg.TRS_SPAN_OK]) s (s.clearSpan p) := by
  have h := (leaves_noted s p 0 Reg.TRS_SPAN_OK Reg.HIF_EV_SECURITY (c := False) (by decide)).1
  rw [if_neg not_false] at h
  exact .ite h (.refl s)
theorem wrPort_leaves (f : Field) : Leaves State.offRegs (PortKeys p [f]) s (s.wr (Reg.trsPort p) f v) :=
  .wr rfl fun h => h.2 f List.mem_cons_self rfl
end

/-! ## Links that come up -/

/-- A port that comes up holds its state and its lanes, and the fallback to four lanes posts 0x6004. -/
theorem linkUp_rd (s : State) (p : Nat) (r : Nat × Nat) :
    (s.linkUp p r).rd (Reg.trsPort p) Reg.TRS_LINK_STATE = r.1 % 8 ∧ (s.linkUp p r).rd (Reg.trsPort p) Reg.TRS_LANES_GOOD = r.2 % 256 ∧
    (s.rd (Reg.trsPort p) Reg.TRS_WIDTH = 0 ∧ r.1 = 3 → (s.linkUp p r).rd (Reg.trsPort p) Reg.TRS_STATUS = 0x6004) := by
  have hstate : ((s.setLink p r.1).wr (Reg.trsPort p) Reg.TRS_LANES_GOOD r.2).rd (Reg.trsPort p) Reg.TRS_LINK_STATE = r.1 % 8 :=
    (rd_wr_apart _ _ _ (by decide)).trans (linkState_setLink ..)
  have hlanes : ((s.setLink p r.1).wr (Reg.trsPort p) Reg.TRS_LANES_GOOD r.2).rd (Reg.trsPort p) Reg.TRS_LANES_GOOD = r.2 % 256 :=
    State.rd_wr ..
  unfold State.linkUp
  extract_lets b s1
  split
  · exact ⟨((portStatus_leaves ..).rd _ _ (portKeys_port p (by decide))).trans hstate,
      ((portStatus_leaves ..).rd _ _ (portKeys_port p (by decide))).trans hlanes, fun _ => status_portStatus ..⟩
  · next hn => exact ⟨hstate, hlanes, fun h => absurd h hn⟩
/-- What trained lanes give is one of three states of the link, each of which fits its fields. -/
theorem trainResult_mem {width lanes : Nat} {r : Nat × Nat} (h : trainResult width lanes = some r) :
    r ∈ [(2, 0xFF), (3, 0x0F), (3, 0xF0)] := by
  unfold trainResult at h
  split at h <;> grind
theorem trainResult_fits {width lanes : Nat} {r : Nat × Nat} (h : trainResult width lanes = some r) :
    r.1 % 8 = r.1 ∧ r.2 % 256 = r.2 := by
  have hall : ∀ q ∈ [(2, 0xFF), (3, 0x0F), (3, 0xF0)], q.1 % 8 = q.1 ∧ q.2 % 256 = q.2 := by decide
  exact hall r (trainResult_mem h)

/-! ## Links that go down -/

/-- The fields of a port that its going down changes. -/
def lostFields : List Field := [Reg.TRS_LINK_STATE, Reg.TRS_LANES_GOOD, Reg.TRS_SPAN_OK, Reg.TRS_STATUS]

theorem ofTruss_above (n : Nat) (h : OfTruss n) : Reg.jnrStatus * 8 ≤ n := by
  simp only [OfTruss, Reg.trsAddress, Reg.jnrStatus] at *; omega

section
variable (s : State) (p : PortId) (state code : Nat)

theorem linkLost_leaves :
    Leaves State.ports (fun n => OfTruss n ∧ ∀ g ∈ lostFields, n ≠ g.key (Reg.trsPort p.val)) s (s.linkLost p.val state code) := by
  have hregs : Leaves State.offRegs (PortKeys p.val lostFields) s
      ((((s.setLink p.val state).wr (Reg.trsPort p.val) Reg.TRS_LANES_GOOD 0).clearSpan p.val).portStatus p.val code) :=
    ((((setLink_leaves ..).mono id (fun _ => rfl) fun _ h => h.mono (by decide)).trans
      ((wrPort_leaves ..).mono id (fun _ => rfl) fun _ h => h.mono (by decide))).trans
      ((clearSpan_leaves ..).mono id (fun _ => rfl) fun _ h => h.mono (by decide))).trans
      ((portStatus_leaves ..).mono id (fun _ => rfl) fun _ h => h.mono (by decide))
  exact (hregs.mono State.ports (fun _ => rfl) fun n hn => ⟨ofTruss_above n hn.1, hn.2⟩).trans
    ((channelsDown_leaves ..).mono id (fun _ => rfl) fun _ hn => hn.1)

/-- A port that is lost holds the state and the code it is lost with, and no lanes. -/
theorem linkLost_portLost (hs : state < 8) (hc : code < 65536) : PortLost (s.linkLost p.val state code) p.val state code := by
  have hgone {f : Field} (hf : f.key 0 < 512) {t : State} : (t.portGone p.val).rd (Reg.trsPort p.val) f = t.rd (Reg.trsPort p.val) f :=
    (channelsDown_leaves ..).rd _ _ (ofTruss_port p hf)
  have hspan {f : Field} (hf : ∀ g ∈ [Reg.TRS_SPAN_OK], f.key 0 ≠ g.key 0) {t : State} :
      (t.clearSpan p.val).rd (Reg.trsPort p.val) f = t.rd (Reg.trsPort p.val) f :=
    (clearSpan_leaves ..).rd _ _ (portKeys_port p.val hf)
  have hposted {f : Field} (hf : ∀ g ∈ [Reg.TRS_STATUS], f.key 0 ≠ g.key 0) {t : State} :
      (t.portStatus p.val code).rd (Reg.trsPort p.val) f = t.rd (Reg.trsPort p.val) f :=
    (portStatus_leaves ..).rd _ _ (portKeys_port p.val hf)
  unfold State.linkLost
  extract_lets b
  refine ⟨?_, ?_, ?_⟩
  · rw [hgone (by decide), hposted (by decide), hspan (by decide), rd_wr_apart _ _ _ (by decide),
      linkState_setLink, Nat.mod_eq_of_lt hs]
  · rw [hgone (by decide), hposted (by decide), hspan (by decide), State.rd_wr]; rfl
  · rw [hgone (by decide), status_portStatus, Nat.mod_eq_of_lt hc]
end

end Sys2Proof.Machine
end

section
/-! Flits as they leave a port: what sending changes, and which flit leaves first (10 R277 to R279, R293). -/
namespace Sys2Proof.Machine

/-- A port but for its sending half: what it has received, and its keys but for the generation it seals under. -/
def Port.offSending (k : Port) : Port :=
  { k with
    txSeq := 0, retry := [], ctl := [], data := [], sinceMgmt := 0, lastOrdered := false, sealedCount := 0, txGen := 0, credits := []
    freed := [], rekeyDue := false, out := [] }

/-- Only ports change, port p in its sending half, and its flits join those that have left. -/
structure Sends (p : Nat) (s t : State) : Prop where
  ports : ∃ m, t = { s with ports := m }
  kept : (t.port p).offSending = (s.port p).offSending
  out : (s.port p).out <+: (t.port p).out

namespace Sends
variable {p : Nat} {s t u : State}

theorem refl (s : State) : Sends p s s := ⟨⟨s.ports, rfl⟩, rfl, List.prefix_refl _⟩
theorem trans (h : Sends p s t) (g : Sends p t u) : Sends p s u := by
  obtain ⟨m, hm⟩ := h.ports
  obtain ⟨n, hn⟩ := g.ports
  exact ⟨⟨n, by rw [hn, hm]⟩, g.kept.trans h.kept, h.out.trans g.out⟩
theorem setPort {k : Port} (hk : k.offSending = (s.port p).offSending) (ho : (s.port p).out <+: k.out) : Sends p s (s.setPort p k) :=
  ⟨⟨_, rfl⟩, by rw [State.port_setPort, hk], by rwa [State.port_setPort]⟩
theorem after {k : Port} (h : Sends p (s.setPort p k) t) (hk : k.offSending = (s.port p).offSending) (ho : (s.port p).out <+: k.out) :
    Sends p s t := (setPort hk ho).trans h
theorem ite {c : Prop} [Decidable c] (ht : Sends p s t) (hu : Sends p s u) : Sends p s (if c then t else u) := by
  split <;> assumption
/-- What is a function of the receiving half stands. -/
theorem congr {α : Type} (h : Sends p s t) (g : Port → α) : g (t.port p).offSending = g (s.port p).offSending := congrArg g h.kept
theorem rxSeq (h : Sends p s t) : (t.port p).rxSeq = (s.port p).rxSeq := h.congr Port.rxSeq
theorem rx (h : Sends p s t) : (t.port p).rx = (s.port p).rx := h.congr Port.rx
theorem inbound (h : Sends p s t) : (t.port p).inbound = (s.port p).inbound := h.congr Port.inbound
theorem rxGen (h : Sends p s t) : (t.port p).rxGen = (s.port p).rxGen := h.congr Port.rxGen
theorem rxOld (h : Sends p s t) : (t.port p).rxOld = (s.port p).rxOld := h.congr Port.rxOld
theorem dropping (h : Sends p s t) : (t.port p).dropping = (s.port p).dropping := h.congr Port.dropping
theorem keyed (h : Sends p s t) : (t.port p).keyed = (s.port p).keyed := h.congr Port.keyed
theorem peerSeen (h : Sends p s t) : (t.port p).peerSeen = (s.port p).peerSeen := h.congr Port.peerSeen
theorem regs (h : Sends p s t) : t.regs = s.regs := by obtain ⟨m, hm⟩ := h.ports; rw [hm]
theorem rd (h : Sends p s t) (b : Nat) (f : Field) : t.rd b f = s.rd b f := by rw [State.rd, h.regs]; rfl
theorem channels (h : Sends p s t) : t.channels = s.channels := by obtain ⟨m, hm⟩ := h.ports; rw [hm]
theorem outbox (h : Sends p s t) : t.outbox = s.outbox := by obtain ⟨m, hm⟩ := h.ports; rw [hm]
end Sends

/-! ## One flit -/

/-- The next sequenced flit of a port. -/
def Port.flit (k : Port) (type cls : Nat) (payload : List Byte) : Flit :=
  ⟨BitVec.ofNat 4 type, BitVec.ofNat 2 cls, BitVec.ofNat 16 k.txSeq, BitVec.ofNat 16 k.rxSeq, false, BitVec.ofNat 8 k.txGen,
    BitVec.ofNat 8 (min 255 (listAt 0 k.freed cls)), payload⟩

theorem State.setPort_setPort (s : State) (p : Nat) (k l : Port) : (s.setPort p k).setPort p l = s.setPort p l := by
  simp only [State.setPort, mapSet_mapSet]

section
variable (s : State) (p type cls : Nat) (pl : List Byte)

/-- The flit is out; the port's receiving half, what waits and the class that sends next stand. After a key change flit the next
generation begins, nothing sealed under it yet; after another the generation stands. -/
theorem putFlit_port (t : Port) (ht : (s.putFlit p type cls pl).port p = t) :
    t.offSending = (s.port p).offSending ∧ t.out = (s.port p).out ++ [(s.port p).flit type cls pl] ∧ t.ctl = (s.port p).ctl ∧
    t.nextClass = (s.port p).nextClass ∧ t.txGen = (if type = 3 then (s.port p).txGen + 1 else (s.port p).txGen) ∧
    (type = 3 → t.sealedCount = 0) := by
  unfold State.putFlit at ht
  extract_lets k f k1 at ht
  rw [State.port_setPort] at ht
  subst ht
  split
  · exact ⟨rfl, rfl, rfl, rfl, rfl, fun _ => rfl⟩
  · next h => exact ⟨rfl, rfl, rfl, rfl, rfl, fun e => absurd e h⟩
theorem putFlit_out : ((s.putFlit p type cls pl).port p).out = (s.port p).out ++ [(s.port p).flit type cls pl] :=
  (putFlit_port s p type cls pl _ rfl).2.1
theorem putFlit_ctl : ((s.putFlit p type cls pl).port p).ctl = (s.port p).ctl := (putFlit_port s p type cls pl _ rfl).2.2.1
theorem putFlit_txGen (h : type ≠ 3) : ((s.putFlit p type cls pl).port p).txGen = (s.port p).txGen := by
  obtain ⟨-, -, -, -, hgen, -⟩ := putFlit_port s p type cls pl _ rfl
  rw [hgen, if_neg h]
theorem putFlit_sends : Sends p s (s.putFlit p type cls pl) := by
  obtain ⟨hkept, hout, -⟩ := putFlit_port s p type cls pl _ rfl
  exact ⟨⟨_, rfl⟩, hkept, hout ▸ List.prefix_append ..⟩
theorem putData_sends (c : Nat) : Sends p s (s.putData p c) := by
  unfold State.putData
  exact Sends.after (putFlit_sends ..) rfl (List.prefix_refl _)
end

/-! ## What may leave leaves -/

section
variable {s : State} {p : Nat}

/-- Nothing leaves a port that holds no control flit and no data it may send. -/
theorem sendSome_idle (n : Nat) (hc : (s.port p).ctl = []) (hn : (s.port p).nextClass = none) : s.sendSome p n = s := by
  cases n with
  | zero => rfl
  | succ n => exact if_pos (.inr ⟨hc, .inr hn⟩)
theorem sendSome_ctl (n : Nat) (hu : portUp s p = true) (hr : (s.port p).retry.length < 2048) {f : Nat × Nat × List Byte}
    {rest : List (Nat × Nat × List Byte)} (hc : (s.port p).ctl = f :: rest) :
    s.sendSome p (n + 1) = ((s.setPort p { s.port p with ctl := rest }).putFlit p f.1 f.2.1 f.2.2).sendSome p n := by
  rw [State.sendSome]
  simp only [hc]
  rw [if_neg (by simp [hu]), if_neg (by simp only [retryMax]; omega)]
/-- What one more flit may be: none, an idle flit, a control flit or data. -/
theorem sendSome_cases (s : State) (p n : Nat) : s.sendSome p (n + 1) = s ∨
    s.sendSome p (n + 1) = s.setPort p { s.port p with out := (s.port p).out ++ [(s.port p).idle false] } ∨
    (∃ f rest, (s.port p).ctl = f :: rest ∧
      s.sendSome p (n + 1) = ((s.setPort p { s.port p with ctl := rest }).putFlit p f.1 f.2.1 f.2.2).sendSome p n) ∨
    ∃ c, (s.port p).ctl = [] ∧ s.sendSome p (n + 1) = (s.putData p c).sendSome p n := by
  rw [State.sendSome]
  extract_lets k
  split
  · exact .inl rfl
  · split
    · split
      · exact .inl rfl
      · exact .inr (.inl rfl)
    · cases hc : k.ctl with
      | cons f rest => exact .inr (.inr (.inl ⟨f, rest, rfl, rfl⟩))
      | nil =>
        cases k.nextClass with
        | none => exact .inl rfl
        | some c => exact .inr (.inr (.inr ⟨c, rfl, rfl⟩))
theorem sendSome_sends (p n : Nat) (s : State) : Sends p s (s.sendSome p n) := by
  induction n generalizing s with
  | zero => exact .refl s
  | succ n ih =>
    rcases sendSome_cases s p n with h | h | ⟨f, rest, -, h⟩ | ⟨c, -, h⟩ <;> rw [h]
    · exact .refl s
    · exact .setPort rfl (List.prefix_append ..)
    · exact Sends.after ((putFlit_sends ..).trans (ih _)) rfl (List.prefix_refl _)
    · exact (putData_sends ..).trans (ih _)
/-- With no key change flit among those that wait, the generation stays. -/
theorem sendSome_txGen (n : Nat) (hc : ∀ f ∈ (s.port p).ctl, f.1 ≠ 3) : ((s.sendSome p n).port p).txGen = (s.port p).txGen := by
  induction n generalizing s with
  | zero => rfl
  | succ n ih =>
    rcases sendSome_cases s p n with h | h | ⟨f, rest, hf, h⟩ | ⟨c, hf, h⟩ <;> rw [h]
    · rw [State.port_setPort]
    · rw [hf] at hc
      rw [ih, putFlit_txGen _ _ _ _ _ (hc f List.mem_cons_self), State.port_setPort]
      rw [putFlit_ctl, State.port_setPort]
      exact fun g hg => hc g (List.mem_cons_of_mem _ hg)
    · rw [ih, State.putData, putFlit_txGen _ _ _ _ _ (by decide), State.port_setPort]
      rw [State.putData, putFlit_ctl, State.port_setPort]
      exact hc
end

section
variable (s : State) (p : Nat)

theorem sendOut_sends : Sends p s (s.sendOut p) := sendSome_sends ..
theorem sendCtl_sends (type cls : Nat) (pl : List Byte) : Sends p s (s.sendCtl p type cls pl) := by
  unfold State.sendCtl
  exact Sends.after (sendOut_sends ..) rfl (List.prefix_refl _)
theorem takeAck_sends (ack : Nat) : Sends p s (s.takeAck p ack) := by
  unfold State.takeAck
  exact Sends.after (sendOut_sends ..) rfl (List.prefix_refl _)
theorem sendOn_sends (pk : Packet) : Sends p s (s.sendOn p pk) := by
  unfold State.sendOn
  exact Sends.after (sendOut_sends ..) rfl (List.prefix_refl _)
theorem linkGoesOn_sends : Sends p s (s.linkGoesOn p) := by
  unfold State.linkGoesOn State.resendAll
  exact Sends.after (sendOut_sends ..) rfl (List.prefix_append ..)
end

/-- A control flit of an up port that holds none leaves first. -/
theorem sendCtl_first {s : State} {p : Nat} (hu : portUp s p = true) (hc : (s.port p).ctl = []) (hr : (s.port p).retry.length < 2048)
    (type cls : Nat) (pl : List Byte) :
    ∃ n, s.sendCtl p type cls pl = ((s.setPort p (s.port p)).putFlit p type cls pl).sendSome p n := by
  have hsend := sendSome_ctl (s := s.setPort p { s.port p with ctl := [(type, cls, pl)] }) (p := p) (f := (type, cls, pl)) (rest := [])
  rw [State.setPort_setPort, State.port_setPort] at hsend
  have hback : ({ s.port p with ctl := [] } : Port) = s.port p := by rw [← hc]
  unfold State.sendCtl
  extract_lets k
  rw [show k.ctl ++ [(type, cls, pl)] = [(type, cls, pl)] by simp only [k, hc, List.nil_append]]
  exact ⟨_, (hsend _ hu hr rfl).trans (by rw [hback])⟩
/-- It is among the flits that have left. -/
theorem sendCtl_out {s : State} {p : Nat} (hu : portUp s p = true) (hc : (s.port p).ctl = []) (hr : (s.port p).retry.length < 2048)
    (type cls : Nat) (pl : List Byte) :
    ∃ rest, ((s.sendCtl p type cls pl).port p).out = (s.port p).out ++ (s.port p).flit type cls pl :: rest := by
  obtain ⟨n, h⟩ := sendCtl_first hu hc hr type cls pl
  obtain ⟨rest, ho⟩ := (sendSome_sends p n ((s.setPort p (s.port p)).putFlit p type cls pl)).out
  rw [putFlit_out, State.port_setPort] at ho
  exact ⟨rest, by rw [h, ← ho, List.append_assoc]; rfl⟩

end Sys2Proof.Machine
end

section
/-! Training, retrains and PORT_DISABLE (10 R273, R274, R280; log entries 60 and 116). -/
namespace Sys2Proof.Machine

section
variable {s : State} {p : PortId}

/-- A port that is taken down is off, its link down without lanes, and as new. -/
theorem disablePort_off (hc : s.checking (.port p) = false) (ho : s.objOn (.port p) = true) :
    (s.disablePort p).objOn (.port p) = false ∧ (s.disablePort p).rd (Reg.trsPort p.val) Reg.TRS_LINK_STATE = 0 ∧
    (s.disablePort p).rd (Reg.trsPort p.val) Reg.TRS_LANES_GOOD = 0 ∧ (s.disablePort p).port p.val = Port.start := by
  unfold State.disablePort
  extract_lets b s1 s2
  rw [if_neg (by simp [hc]), if_pos ho]
  have hspan {f : Field} (hf : ∀ g ∈ [Reg.TRS_SPAN_OK], f.key 0 ≠ g.key 0) :
      s1.rd b f = (((s.wr b Reg.TRS_ENABLE 0).setLink p.val 0).wr b Reg.TRS_LANES_GOOD 0).rd b f :=
    (clearSpan_leaves ..).rd _ _ (portKeys_port p.val hf)
  have hdown : Leaves State.ports OfTruss ((s1.wr b Reg.TRS_LANE_CAL 0).setPort p.val Port.start)
      (if s2.enabledPorts.isEmpty then s2.channelsDown (s2.sendChannels fun _ => true) else s2) := by
    have h2 : Leaves State.ports OfTruss ((s1.wr b Reg.TRS_LANE_CAL 0).setPort p.val Port.start) s2 := channelsDown_leaves ..
    exact .ite (h2.trans (channelsDown_leaves ..)) h2
  have hrd {f : Field} (hf : f.key 0 < 512) (hcal : f.key 0 ≠ Reg.TRS_LANE_CAL.key 0) :
      (if s2.enabledPorts.isEmpty then s2.channelsDown (s2.sendChannels fun _ => true) else s2).rd b f = s1.rd b f :=
    (hdown.rd _ _ (ofTruss_port p hf)).trans (rd_wr_apart s1 b 0 hcal)
  refine ⟨?_, ?_, ?_, ?_⟩
  · have henable : s1.rd b Reg.TRS_ENABLE = 0 := by
      rw [hspan (by decide), rd_wr_apart _ _ _ (by decide), (setLink_leaves ..).rd _ _ (portKeys_port p.val (by decide)), State.rd_wr]
      rfl
    exact decide_eq_false (by rw [ObjRef.base, ObjRef.enable, hrd (by decide) (by decide), henable]; decide)
  · rw [hrd (by decide) (by decide), hspan (by decide), rd_wr_apart _ _ _ (by decide), linkState_setLink]
  · rw [hrd (by decide) (by decide), hspan (by decide), State.rd_wr]; rfl
  · rw [State.port, hdown.same]; exact State.port_setPort ..

/-! ## Training -/

theorem linkTrained_fails {lanes : Nat} (hs : s.rd (Reg.trsPort p.val) Reg.TRS_LINK_STATE = 1)
    (ht : trainResult (s.rd (Reg.trsPort p.val) Reg.TRS_WIDTH) lanes = none) : PortLost (s.linkTrained p.val lanes) p.val 5 0x6001 := by
  unfold State.linkTrained
  rw [if_pos hs, ht]
  exact linkLost_portLost _ _ _ _ (by decide) (by decide)
theorem linkTrained_up {lanes : Nat} {r : Nat × Nat} (hs : s.rd (Reg.trsPort p.val) Reg.TRS_LINK_STATE = 1)
    (ht : trainResult (s.rd (Reg.trsPort p.val) Reg.TRS_WIDTH) lanes = some r) :
    (s.linkTrained p.val lanes).rd (Reg.trsPort p.val) Reg.TRS_LINK_STATE = r.1 ∧
    (s.linkTrained p.val lanes).rd (Reg.trsPort p.val) Reg.TRS_LANES_GOOD = r.2 ∧
    (s.rd (Reg.trsPort p.val) Reg.TRS_WIDTH = 0 ∧ r.1 = 3 →
      (s.linkTrained p.val lanes).rd (Reg.trsPort p.val) Reg.TRS_STATUS = 0x6004) := by
  obtain ⟨hstate, hlanes, hfallback⟩ := linkUp_rd s p.val r
  obtain ⟨h1, h2⟩ := trainResult_fits ht
  unfold State.linkTrained
  rw [if_pos hs, ht]
  simp only [State.sendDiscovery, (sendCtl_sends ..).rd]
  exact ⟨hstate.trans h1, hlanes.trans h2, hfallback⟩

/-! ## Retrains -/

theorem rd_countRetrain (s : State) (p : Nat) {f : Field} (h : f.key 0 ≠ Reg.TRS_RETRAINS.key 0) :
    (s.countRetrain p).rd (Reg.trsPort p) f = s.rd (Reg.trsPort p) f := rd_wr_apart { s with retrains := s.retrains + 1 } (Reg.trsPort p) _ h
theorem retrainDone_up {lanes : Nat} {r : Nat × Nat} (hs : s.rd (Reg.trsPort p.val) Reg.TRS_LINK_STATE = 4)
    (ht : trainResult (s.rd (Reg.trsPort p.val) Reg.TRS_WIDTH) (lanes &&& (255 - s.rd (Reg.trsPort p.val) Reg.TRS_LANE_CAL)) = some r) :
    (s.retrainDone p.val lanes).rd (Reg.trsPort p.val) Reg.TRS_LINK_STATE = r.1 ∧
    (s.retrainDone p.val lanes).rd (Reg.trsPort p.val) Reg.TRS_LANES_GOOD = r.2 := by
  obtain ⟨hstate, hlanes, -⟩ := linkUp_rd s p.val r
  obtain ⟨h1, h2⟩ := trainResult_fits ht
  unfold State.retrainDone
  rw [if_pos hs, ht]
  simp only [(linkGoesOn_sends ..).rd]
  exact ⟨hstate.trans h1, hlanes.trans h2⟩
/-- A failed retrain is followed by another, unless it is the third within 1 s (log entry 116). -/
theorem retrainDone_fails {lanes : Nat} (hs : s.rd (Reg.trsPort p.val) Reg.TRS_LINK_STATE = 4)
    (ht : trainResult (s.rd (Reg.trsPort p.val) Reg.TRS_WIDTH) (lanes &&& (255 - s.rd (Reg.trsPort p.val) Reg.TRS_LANE_CAL)) = none) :
    let failed := s.within 1000000 ((s.port p.val).failTimes ++ [s.nowUs])
    (3 ≤ failed.length → PortLost (s.retrainDone p.val lanes) p.val 5 0x6003) ∧
    (failed.length < 3 → (s.retrainDone p.val lanes).rd (Reg.trsPort p.val) Reg.TRS_LINK_STATE = 4 ∧
      (s.retrainDone p.val lanes).retrains = s.retrains + 1 ∧ ((s.retrainDone p.val lanes).port p.val).failTimes = failed ∧
      ((s.retrainDone p.val lanes).port p.val).retry = (s.port p.val).retry) := by
  intro failed
  unfold State.retrainDone
  rw [if_pos hs, ht]
  refine ⟨fun h => ?_, fun h => ?_⟩
  · rw [if_pos h]
    exact linkLost_portLost _ _ _ _ (by decide) (by decide)
  · rw [if_neg (Nat.not_le_of_lt h)]
    have hport : (s.setPort p.val { s.port p.val with failTimes := failed }).port p.val = { s.port p.val with failTimes := failed } :=
      State.port_setPort ..
    exact ⟨(rd_countRetrain _ _ (by decide)).trans hs, rfl, (congrArg Port.failTimes hport).trans rfl,
      (congrArg Port.retry hport).trans rfl⟩
theorem startRetrain_begins {cause : RetrainCause} (hu : portUp s p.val = true) (hd : s.retrainDue p.val cause = true) :
    (s.startRetrain p.val cause).rd (Reg.trsPort p.val) Reg.TRS_LINK_STATE = 4 ∧
    (s.startRetrain p.val cause).rd (Reg.trsPort p.val) Reg.TRS_LANES_GOOD = 0 ∧
    (s.startRetrain p.val cause).retrains = s.retrains + 1 ∧ ((s.startRetrain p.val cause).port p.val).retry = (s.port p.val).retry := by
  have hlink := setLink_leaves (s.setPort p.val { s.port p.val with narrowed := false, badTimes := [] }) p.val 4
  have hport := State.port_setPort s p.val { s.port p.val with narrowed := false, badTimes := [] }
  unfold State.startRetrain
  rw [if_pos (by simp [hu, hd]), rd_countRetrain _ _ (by decide), rd_countRetrain _ _ (by decide), rd_wr_apart _ _ _ (by decide),
    linkState_setLink, State.rd_wr]
  exact ⟨rfl, rfl, congrArg (· + 1) (hlink.congr State.retrains),
    (hlink.congr fun t => (t.port p.val).retry).trans ((congrArg Port.retry hport).trans rfl)⟩
end

end Sys2Proof.Machine
end

section
/-! Discovery flits, and the keys of a link (10 R278, R283; 15 R412, R413; log entry 59). -/
namespace Sys2Proof.Machine

/-! ## Identities -/

/-- A register above those of HIF that is no port's STATUS. -/
abbrev OffStatus (n : Nat) : Prop := Reg.jnrStatus * 8 ≤ n ∧ ∀ q < 16, n ≠ Reg.TRS_STATUS.key (Reg.trsPort q)

theorem offStatus_port (p : Nat) {f : Field} (hf : f.key 0 < 512) (h : f.key 0 ≠ 16) : OffStatus (f.key (Reg.trsPort p)) := by
  refine ⟨?_, fun q _ => ?_⟩ <;> simp only [Field.key, Reg.trsPort, Reg.jnrStatus, Reg.TRS_STATUS] at * <;> omega
/-- The state but for registers, messages and what it knows of other packages' identities. -/
def State.offIdentities (s : State) : State := { s.offRegs with identities := [], conflicts := [] }

theorem portStatuses_leaves (s : State) (code : Nat) :
    Leaves State.offRegs OffStatus s (allPorts.foldl (fun a p => a.portStatus p code) s) := by
  refine .foldl (fun s p hp => (portStatus_leaves s p code).mono id (fun _ => rfl) fun n hn => ⟨hn.1, fun g hg => ?_⟩) s
  rw [List.mem_singleton.mp hg]
  exact hn.2 p (List.mem_range.mp hp)
theorem learnIdentity_leaves (s : State) (addr : Nat) (id : BitVec 64) :
    Leaves State.offIdentities OffStatus s (s.learnIdentity addr id) := by
  unfold State.learnIdentity
  extract_lets known
  cases known with
  | none => exact .other rfl rfl
  | some kv =>
    refine .ite (.refl s) (Leaves.trans ?_ ((portStatuses_leaves ..).mono State.offIdentities (fun _ => rfl) fun _ h => h))
    exact .other rfl rfl
/-- Joining a span neighbour touches SPAN_OK and the manifest a port joined by. -/
theorem joinSpan_leaves (s : State) (p : Nat) :
    Leaves (fun s => ({ s.port p with spanId := 0 } : Port)) (PortKeys p [Reg.TRS_SPAN_OK]) s (s.joinSpan p) := by
  unfold State.joinSpan
  split
  · next q _ =>
    have hset : Leaves (fun s => ({ s.port p with spanId := 0 } : Port)) (PortKeys p [Reg.TRS_SPAN_OK]) s
        (s.setPort p { s.port p with spanId := (s.port q).spanId }) := .other (by simp only [State.port_setPort]) rfl
    exact hset.trans (.wr rfl fun h => h.2 _ List.mem_cons_self rfl)
  · exact .refl s

/-! ## Discovery -/

section
variable {s : State} {p : PortId} {f : Discovery}

/-- A neighbour that is new, and whose address is not this package's own, is taken as the flit says. -/
theorem takeDiscovery_new (hk : (s.port p.val).peerSeen = false) (hf : f.addrValid = false ∨ s.ownAddress ≠ some f.address.toNat) :
    ((s.takeDiscovery p.val f).port p.val).rxSeq = (s.port p.val).rxSeq ∧ ((s.takeDiscovery p.val f).port p.val).peerSeen = true ∧
    (s.takeDiscovery p.val f).rd (Reg.trsPort p.val) Reg.TRS_PEER_IDENTITY = f.identity.toNat ∧
    (s.takeDiscovery p.val f).rd (Reg.trsPort p.val) Reg.TRS_PEER_PORT = f.port.val ∧
    (s.takeDiscovery p.val f).flag (Reg.trsPort p.val) Reg.TRS_PEER_ADDR_VALID = f.addrValid ∧
    (s.takeDiscovery p.val f).rd (Reg.trsPort p.val) Reg.TRS_PEER_ADDRESS = if f.addrValid then f.address.toNat else 0xFFFF := by
  unfold State.takeDiscovery
  extract_lets b k s1 s2 s3
  rw [if_neg (by simp [k, hk]), if_neg (by rcases hf with h | h <;> simp [h])]
  let u := (s2.wr b Reg.TRS_PEER_ADDR_VALID (if f.addrValid then 1 else 0)).wr b Reg.TRS_PEER_PORT f.port.val
  have hafter : Leaves (fun s => ({ s.port p.val with spanId := 0 } : Port)) (fun n => PortKeys p.val [Reg.TRS_SPAN_OK] n ∧ OffStatus n) u
      (if f.addrValid then s3.learnIdentity f.address.toNat f.identity else s3) := by
    have h3 := (joinSpan_leaves u p.val).mono id (fun _ => rfl) (keys' := fun n => PortKeys p.val [Reg.TRS_SPAN_OK] n ∧ OffStatus n)
      fun _ hn => hn.1
    refine .ite (h3.trans ((learnIdentity_leaves ..).mono (fun t => { t.port p.val with spanId := 0 }) (fun _ => rfl) fun _ hn => hn.2)) h3
  have hrd {g : Field} (hg : g.key 0 < 512) (hs : g.key 0 ≠ 16) (ho : ∀ h ∈ [Reg.TRS_SPAN_OK], g.key 0 ≠ h.key 0) :
      (if f.addrValid then s3.learnIdentity f.address.toNat f.identity else s3).rd b g = u.rd b g :=
    hafter.rd _ _ ⟨portKeys_port p.val ho, offStatus_port p.val hg hs⟩
  obtain ⟨hseq, hseen⟩ : (u.port p.val).rxSeq = k.rxSeq ∧ (u.port p.val).peerSeen = true := by
    rw [show u.port p.val = { k with peerSeen := true } from State.port_setPort ..]
    exact ⟨rfl, rfl⟩
  have hwidth := f.port.isLt
  refine ⟨?_, ?_, ?_, ?_, ?_, ?_⟩
  · exact (hafter.congr Port.rxSeq).trans hseq
  · exact (hafter.congr Port.peerSeen).trans hseen
  · rw [hrd (by decide) (by decide) (by decide), rd_wr_apart _ _ _ (by decide), rd_wr_apart _ _ _ (by decide), rd_wr_apart _ _ _ (by decide),
      State.rd_wr]
    exact Nat.mod_eq_of_lt f.identity.isLt
  · rw [hrd (by decide) (by decide) (by decide), State.rd_wr]
    exact Nat.mod_eq_of_lt hwidth
  · rw [State.flag, hrd (by decide) (by decide) (by decide), rd_wr_apart _ _ _ (by decide), State.rd_wr]
    cases f.addrValid <;> rfl
  · rw [hrd (by decide) (by decide) (by decide), rd_wr_apart _ _ _ (by decide), rd_wr_apart _ _ _ (by decide), State.rd_wr]
    split
    · exact Nat.mod_eq_of_lt f.address.isLt
    · rfl

variable {seq ack : Nat}

/-- A discovery flit in its turn is counted and acknowledges, and then what it says is taken. -/
theorem discovered_turn (hu : portUp s p.val = true) (hs : seq = ((s.port p.val).rxSeq + 1) % 65536) :
    ∃ m : State, s.discovered p.val seq ack f = m.takeDiscovery p.val f ∧ m.regs = s.regs ∧ (m.port p.val).rxSeq = seq ∧
      (m.port p.val).peerSeen = (s.port p.val).peerSeen := by
  have hsend := takeAck_sends (s.setPort p.val { s.port p.val with rxSeq := seq, dropping := false }) p.val ack
  unfold State.discovered
  rw [if_neg (by simp [hu]), if_neg (not_not_intro hs)]
  exact ⟨_, rfl, hsend.regs, by rw [hsend.rxSeq, State.port_setPort], by rw [hsend.peerSeen, State.port_setPort]⟩
theorem discovered_late (hu : portUp s p.val = true) (hs : seq ≠ ((s.port p.val).rxSeq + 1) % 65536) :
    s.discovered p.val seq ack f = s.takeAck p.val ack := by
  unfold State.discovered
  rw [if_neg (by simp [hu]), if_pos hs]
end

/-! ## Keys -/

section
variable {s : State} {p : PortId}

theorem keyExchange_keys (hu : portUp s p.val = true) (hk : (s.port p.val).peerSeen = true) (hc : ∀ f ∈ (s.port p.val).ctl, f.1 ≠ 3) :
    ((s.keyExchange p.val true).port p.val).keyed = true ∧ ((s.keyExchange p.val true).port p.val).txGen = 0 ∧
    ((s.keyExchange p.val true).port p.val).rxGen = 0 := by
  unfold State.keyExchange
  extract_lets k
  rw [if_pos ⟨hu, hk⟩, if_pos rfl]
  have hsend (u : State) (h : u.port p.val = { k with
      linkDraw := s.free, keyed := true, txGen := 0, rxGen := 0, rxOld := false, sealedCount := 0, rekeyDue := false
      credits := if k.keyed then k.credits else [Config.linkBuffers 0, Config.linkBuffers 1, Config.linkBuffers 2] }) :
      ((u.sendOut p.val).port p.val).keyed = true ∧ ((u.sendOut p.val).port p.val).txGen = 0 ∧ ((u.sendOut p.val).port p.val).rxGen = 0 :=
    ⟨by rw [(sendOut_sends u p.val).keyed, h], by rw [State.sendOut, sendSome_txGen _ (by rw [h]; exact hc), h],
      by rw [(sendOut_sends u p.val).rxGen, h]⟩
  exact hsend _ (State.port_setPort ..)
theorem keyExchange_fails (hu : portUp s p.val = true) (hk : (s.port p.val).peerSeen = true) :
    PortLost (s.keyExchange p.val false) p.val 0 0x6009 := by
  unfold State.keyExchange
  rw [if_pos ⟨hu, hk⟩, if_neg (by decide)]
  exact linkLost_portLost _ _ _ _ (by decide) (by decide)

/-- A key change flit leaves under its own generation, and the next begins after it. -/
theorem keyChange_next (hu : portUp s p.val = true) (hk : (s.port p.val).keyed = true) (hc : (s.port p.val).ctl = [])
    (hr : (s.port p.val).retry.length < 2048) :
    ((s.keyChange p.val).port p.val).txGen = (s.port p.val).txGen + 1 ∧
    ((s.keyChange p.val).port p.val).rxGen = (s.port p.val).rxGen ∧
    ((s.port p.val).nextClass = none → ((s.keyChange p.val).port p.val).sealedCount = 0) ∧
    ∃ f rest, ((s.keyChange p.val).port p.val).out = (s.port p.val).out ++ f :: rest ∧ f.type = 3 ∧
      f.epoch = BitVec.ofNat 8 (s.port p.val).txGen := by
  unfold State.keyChange
  rw [if_pos ⟨hu, hk, by rw [hc]; rfl⟩]
  obtain ⟨n, hn⟩ := sendCtl_first hu hc hr 3 0 (zeros flitPayload)
  obtain ⟨rest, hout⟩ := sendCtl_out hu hc hr 3 0 (zeros flitPayload)
  obtain ⟨-, -, hctl, hclass, hgen, hsealed⟩ :=
    putFlit_port (s.setPort p.val (s.port p.val)) p.val 3 0 (zeros flitPayload) _ rfl
  rw [State.port_setPort] at hctl hclass hgen
  refine ⟨?_, (sendCtl_sends ..).rxGen, fun hnone => ?_, _, rest, hout, rfl, rfl⟩
  · rw [hn, sendSome_txGen _ (by simp [hctl, hc]), hgen, if_pos rfl]
  · rw [hn, sendSome_idle _ (hctl.trans hc) (hclass.trans hnone), hsealed rfl]
end

end Sys2Proof.Machine
end

section
/-! The rows of a link (10 R273 to R283; 15 R412, R413). -/
namespace Sys2Proof.Machine

theorem ownAddress_congr {s t : State} (h : ∀ f : Field, f.key 0 < 64 → t.rd Reg.trsAddress f = s.rd Reg.trsAddress f) :
    t.ownAddress = s.ownAddress := by
  unfold State.ownAddress State.flag
  rw [h _ (by decide), h _ (by decide)]
theorem sendDiscovery_leaves {s : State} {p : PortId} (hu : portUp s p.val = true) (hc : (s.port p.val).ctl = [])
    (hr : (s.port p.val).retry.length < 2048) : (s.sendDiscovery p.val).regs = s.regs ∧
    ∃ f rest, ((s.sendDiscovery p.val).port p.val).out = (s.port p.val).out ++ f :: rest ∧ f.type = 2 ∧
      f.seq = BitVec.ofNat 16 (s.port p.val).txSeq := by
  obtain ⟨rest, hout⟩ := sendCtl_out hu hc hr 2 0 _
  exact ⟨(sendCtl_sends ..).regs, _, rest, hout, rfl, rfl⟩

/-- A discovery flit: late, in its turn from a neighbour that has changed or that holds this package's address, or taken. -/
theorem discovered_says {s : State} {p : PortId} (hu : portUp s p.val = true) (f : Discovery) (seq ack : BitVec 16) :
    let k := s.port p.val
    let t := s.discovered p.val seq.toNat ack.toNat f
    let b := Reg.trsPort p.val
    (seq.toNat ≠ (k.rxSeq + 1) % 65536 → t.regs = s.regs ∧ (t.port p.val).peerSeen = k.peerSeen ∧ (t.port p.val).rxSeq = k.rxSeq) ∧
    (seq.toNat = (k.rxSeq + 1) % 65536 →
      (k.peerSeen = true → s.rd b Reg.TRS_PEER_IDENTITY ≠ f.identity.toNat → PortLost t p.val 0 0x6002) ∧
      (k.peerSeen = false → f.addrValid = true → s.ownAddress = some f.address.toNat → PortLost t p.val 0 0x1603) ∧
      (k.peerSeen = false → f.addrValid = false ∨ s.ownAddress ≠ some f.address.toNat →
        (t.port p.val).rxSeq = seq.toNat ∧ (t.port p.val).peerSeen = true ∧ t.rd b Reg.TRS_PEER_IDENTITY = f.identity.toNat ∧
        t.rd b Reg.TRS_PEER_PORT = f.port.val ∧ t.flag b Reg.TRS_PEER_ADDR_VALID = f.addrValid ∧
        t.rd b Reg.TRS_PEER_ADDRESS = if f.addrValid then f.address.toNat else 0xFFFF)) := by
  intro k t b
  refine ⟨fun hs => ?_, fun hs => ?_⟩
  · have hsend := takeAck_sends s p.val ack.toNat
    simp only [t, discovered_late hu hs]
    exact ⟨hsend.regs, hsend.peerSeen, hsend.rxSeq⟩
  · obtain ⟨m, ht, hregs, hseq, hseen⟩ := discovered_turn (f := f) (ack := ack.toNat) hu hs
    have hrd (b : Nat) (g : Field) : m.rd b g = s.rd b g := by rw [State.rd, hregs]; rfl
    have hown : m.ownAddress = s.ownAddress := ownAddress_congr fun f _ => hrd _ f
    simp only [t, ht]
    refine ⟨fun hk hid => ?_, fun hk hv ha => ?_, fun hk hf => ?_⟩
    · rw [State.takeDiscovery, if_pos ⟨hseen.trans hk, by rwa [hrd]⟩]
      exact linkLost_portLost _ _ _ _ (by decide) (by decide)
    · rw [State.takeDiscovery, if_neg (by simp [hseen, k, hk]), if_pos ⟨hv, hown.trans ha⟩]
      exact linkLost_portLost _ _ _ _ (by decide) (by decide)
    · obtain ⟨hrx, hrest⟩ := takeDiscovery_new (f := f) (hseen.trans hk) (by rwa [hown])
      exact ⟨hrx.trans hseq, hrest⟩

/-- Settles O38: a link's registers after each row, its sending changing none of them. -/
theorem trussLinks : Obligations.TrussLinks := by
  intro p s b k st
  refine ⟨fun hbar hc ho => ⟨_, rfl, ?_⟩, fun lanes => ⟨fun h => ?_, fun h ht => ⟨_, rfl, linkTrained_fails h ht⟩,
    fun r h ht => ⟨_, rfl, linkTrained_up h ht⟩⟩, fun low high => ⟨fun h => ?_, fun r h ht => ⟨_, rfl, retrainDone_up h ht⟩,
    fun h ht => ⟨fun hf => ⟨_, rfl, (retrainDone_fails h ht).1 hf⟩, fun hf => ⟨_, rfl, (retrainDone_fails h ht).2 hf⟩⟩⟩,
    fun hu hc hr => ⟨_, rfl, ?_⟩, fun f seq ack hu => ?_, fun hu hk => ⟨fun hc => ⟨_, rfl, keyExchange_keys hu hk hc⟩,
      ⟨_, rfl, keyExchange_fails hu hk⟩⟩, fun hu hk hc hr => ⟨⟨_, rfl, keyChange_next hu hk hc hr⟩, fun hd => ⟨_, rfl, ?_⟩⟩,
    fun hd hn => ?_, fun cause hu => ⟨fun hd => ⟨_, rfl, startRetrain_begins hu hd⟩, fun hd => ?_⟩⟩
  · rw [bar_of_open _ hbar]
    exact disablePort_off hc ho
  · exact congrArg Host.Outcome.next (if_neg h)
  · exact congrArg Host.Outcome.next (if_neg h)
  · rw [if_pos hu]
    exact sendDiscovery_leaves hu hc hr
  · obtain ⟨hlate, hturn⟩ := discovered_says hu f seq ack
    refine ⟨fun h => ⟨_, rfl, hlate h⟩, fun h => ?_⟩
    obtain ⟨hother, hown, hnew⟩ := hturn h
    exact ⟨fun hk hid => ⟨_, rfl, hother hk hid⟩, fun hk hv ha => ⟨_, rfl, hown hk hv ha⟩, fun hk hf => ⟨_, rfl, hnew hk hf⟩⟩
  · rw [State.linkRekey, if_pos hd]
    exact keyChange_next hu hk hc hr
  · exact congrArg Host.Outcome.next (if_neg (not_or.mpr ⟨ne_true_of_eq_false hd, Nat.not_le_of_lt hn⟩))
  · exact congrArg Host.Outcome.next (if_neg (by simp [hd]))

end Sys2Proof.Machine
end

section
/-! Flits as they come in: those that fail, those in their turn and those out of it, and a NAK (10 R277 to R279, Table 10-4). -/
namespace Sys2Proof.Machine

/-- Port p has taken nothing in: its place in the sequence, its bytes, its packets and its key generation stand. -/
def NothingTaken (p : Nat) (s t : State) : Prop :=
  (t.port p).rxSeq = (s.port p).rxSeq ∧ (t.port p).rx = (s.port p).rx ∧ (t.port p).inbound = (s.port p).inbound ∧
  (t.port p).rxGen = (s.port p).rxGen

namespace NothingTaken
variable {p : Nat} {s t u : State}

theorem of_sends (h : Sends p s t) : NothingTaken p s t := ⟨h.rxSeq, h.rx, h.inbound, h.rxGen⟩
theorem of_port (h : t.port p = s.port p) : NothingTaken p s t := by
  unfold NothingTaken
  rw [h]
  exact ⟨rfl, rfl, rfl, rfl⟩
theorem trans (h : NothingTaken p s t) (g : NothingTaken p t u) : NothingTaken p s u := by
  obtain ⟨h1, h2, h3, h4⟩ := h
  obtain ⟨g1, g2, g3, g4⟩ := g
  exact ⟨g1.trans h1, g2.trans h2, g3.trans h3, g4.trans h4⟩
theorem setPort {k : Port} (h : k.rxSeq = (s.port p).rxSeq ∧ k.rx = (s.port p).rx ∧ k.inbound = (s.port p).inbound ∧
    k.rxGen = (s.port p).rxGen) : NothingTaken p s (s.setPort p k) := by
  unfold NothingTaken
  rwa [State.port_setPort]
end NothingTaken

/-! ## Flits that fail -/

section
variable {s : State} {p : PortId}

theorem fecFail_counts (s : State) (p : Nat) : NothingTaken p s (s.fecFail p) ∧
    (s.fecFail p).rd (Reg.trsPort p) Reg.TRS_FEC_UNCORRECTED =
      satInc Reg.TRS_FEC_UNCORRECTED.width (s.rd (Reg.trsPort p) Reg.TRS_FEC_UNCORRECTED) % 2 ^ Reg.TRS_FEC_UNCORRECTED.width := by
  unfold State.fecFail State.sendNak
  extract_lets k s1 k2
  have h1 : NothingTaken p s s1 := .setPort ⟨rfl, rfl, rfl, rfl⟩
  have h2 : NothingTaken p s (s1.inc (Reg.trsPort p) Reg.TRS_FEC_UNCORRECTED) := h1
  exact ⟨h2.trans (.setPort ⟨rfl, rfl, rfl, rfl⟩), State.rd_wr ..⟩
/-- A flit that fails its tag is counted, whether or not it fails its port. -/
theorem tagFail_counts (s : State) (p : PortId) : NothingTaken p.val s (s.tagFail p.val) ∧
    (s.tagFail p.val).rd (Reg.trsPort p.val) Reg.TRS_TAG_FAILS =
      satInc Reg.TRS_TAG_FAILS.width (s.rd (Reg.trsPort p.val) Reg.TRS_TAG_FAILS) % 2 ^ Reg.TRS_TAG_FAILS.width := by
  unfold State.tagFail
  extract_lets k recent s1
  have h1 : NothingTaken p.val s s1 := NothingTaken.setPort (k := { k with tagTimes := recent }) ⟨rfl, rfl, rfl, rfl⟩
  have hcount : s1.rd (Reg.trsPort p.val) Reg.TRS_TAG_FAILS =
      satInc Reg.TRS_TAG_FAILS.width (s.rd (Reg.trsPort p.val) Reg.TRS_TAG_FAILS) % 2 ^ Reg.TRS_TAG_FAILS.width := State.rd_wr ..
  split
  · have hlost := linkLost_leaves s1 p 5 0x6005
    have hkey := portKeys_port p.val (f := Reg.TRS_TAG_FAILS) (fs := lostFields) (by decide)
    exact ⟨h1.trans (.of_port (by rw [State.port, hlost.same]; rfl)),
      (hlost.rd _ _ ⟨ofTruss_port p (by decide), hkey.2⟩).trans hcount⟩
  · exact ⟨h1.trans (.setPort ⟨rfl, rfl, rfl, rfl⟩), hcount⟩
end

/-! ## Flits that pass -/

theorem takeHeader_sends (s : State) (p : Nat) (f : Flit) : Sends p s (s.takeHeader p f) := by
  unfold State.takeHeader
  exact Sends.after (takeAck_sends ..) rfl (List.prefix_refl _)
theorem answerFlit_sends (s : State) (p : Nat) (f : Flit) (t : State) : Sends p t (s.answerFlit p f t) := by
  unfold State.answerFlit
  exact .ite (sendCtl_sends ..) (.refl t)
/-- A data flit in its turn adds the packets that are whole, and what is left waits for the next. -/
theorem acceptFlit_data (s : State) (p : Nat) {f : Flit} (h : f.type = 1) :
    let bs := listAt [] (s.port p).rx f.cls.toNat ++ f.payload
    let out := parsePackets bs.length bs
    ((s.acceptFlit p f).port p).rxSeq = f.seq.toNat ∧ ((s.acceptFlit p f).port p).inbound = (s.port p).inbound ++ out.1 ∧
    ((s.acceptFlit p f).port p).rx = (s.port p).rx.set f.cls.toNat out.2 ∧ ((s.acceptFlit p f).port p).dropping = false := by
  intro bs out
  unfold State.acceptFlit
  rw [if_pos h, State.port_setPort]
  exact ⟨rfl, rfl, rfl, rfl⟩
/-- A key change flit in its turn begins the next generation, and the one before it still passes. -/
theorem acceptFlit_keyChange (s : State) (p : Nat) {f : Flit} (h : f.type = 3) :
    ((s.acceptFlit p f).port p).rxSeq = f.seq.toNat ∧ ((s.acceptFlit p f).port p).rxGen = (s.port p).rxGen + 1 ∧
    ((s.acceptFlit p f).port p).rxOld = true ∧ ((s.acceptFlit p f).port p).inbound = (s.port p).inbound := by
  unfold State.acceptFlit
  rw [if_neg (by rw [h]; decide), if_pos h, State.port_setPort]
  exact ⟨rfl, rfl, rfl, rfl⟩

section
variable {s : State} {p : PortId} {f : Flit} {fec : EccOutcome} (hu : portUp s p.val = true) (hfec : fec ≠ .uncorrectable)
include hu hfec

/-- The state in which a flit is judged: a corrected codeword is counted. -/
theorem flitIn_judged (tagOk : Bool) : ∃ m, Leaves State.offRegs (PortKeys p.val [Reg.TRS_FEC_CORRECTED]) s m ∧
    s.flitIn p.val f fec tagOk =
      if 3 < f.type.toNat ∨ f.cls = 3 ∨ tagOk = false ∨ epochOk (s.port p.val) f.epoch.toNat = false then m.tagFail p.val
      else if f.nak then m.nakResend p.val f.ack.toNat
      else if f.type = 0 then m.takeHeader p.val f
      else if f.seq.toNat = ((s.port p.val).rxSeq + 1) % 65536 then m.answerFlit p.val f ((m.acceptFlit p.val f).takeHeader p.val f)
      else m.takeAck p.val f.ack.toNat := by
  refine ⟨if fec = .corrected then s.inc (Reg.trsPort p.val) Reg.TRS_FEC_CORRECTED else s, .ite (wrPort_leaves ..) (.refl s), ?_⟩
  unfold State.flitIn
  rw [if_neg (by simp [hu]), if_neg hfec]
theorem flitIn_fails {tagOk : Bool}
    (h : 3 < f.type.toNat ∨ f.cls = 3 ∨ tagOk = false ∨ epochOk (s.port p.val) f.epoch.toNat = false) :
    NothingTaken p.val s (s.flitIn p.val f fec tagOk) ∧ (s.flitIn p.val f fec tagOk).rd (Reg.trsPort p.val) Reg.TRS_TAG_FAILS =
      satInc Reg.TRS_TAG_FAILS.width (s.rd (Reg.trsPort p.val) Reg.TRS_TAG_FAILS) % 2 ^ Reg.TRS_TAG_FAILS.width := by
  obtain ⟨m, hm, ht⟩ := flitIn_judged (f := f) hu hfec tagOk
  obtain ⟨hnone, hcount⟩ := tagFail_counts m p
  rw [if_pos h] at ht
  rw [hm.rd _ _ (portKeys_port p.val (by decide))] at hcount
  rw [ht]
  exact ⟨NothingTaken.trans (.of_port (hm.congr fun t => t.port p.val)) hnone, hcount⟩

variable (htype : f.type.toNat ≤ 3) (hcls : f.cls ≠ 3) (hnak : f.nak = false) (hepoch : epochOk (s.port p.val) f.epoch.toNat = true)
include htype hcls hnak hepoch

theorem flitIn_passes : ∃ m : State, m.port p.val = s.port p.val ∧ s.flitIn p.val f fec true =
    if f.type = 0 then m.takeHeader p.val f
    else if f.seq.toNat = ((s.port p.val).rxSeq + 1) % 65536 then m.answerFlit p.val f ((m.acceptFlit p.val f).takeHeader p.val f)
    else m.takeAck p.val f.ack.toNat := by
  obtain ⟨m, hm, ht⟩ := flitIn_judged (f := f) hu hfec true
  rw [if_neg (by simp only [not_or]; exact ⟨Nat.not_lt_of_le htype, hcls, by decide, by simp [hepoch]⟩), if_neg (by simp [hnak])] at ht
  exact ⟨m, hm.congr fun t => t.port p.val, ht⟩
theorem flitIn_notTaken (h : f.type = 0 ∨ f.seq.toNat ≠ ((s.port p.val).rxSeq + 1) % 65536) :
    NothingTaken p.val s (s.flitIn p.val f fec true) := by
  obtain ⟨m, hm, ht⟩ := flitIn_passes hu hfec htype hcls hnak hepoch
  have hsend : Sends p.val m (s.flitIn p.val f fec true) := by
    rw [ht]
    split
    · exact takeHeader_sends ..
    · next h0 => rw [if_neg (h.resolve_left h0)]; exact takeAck_sends ..
  exact NothingTaken.trans (.of_port hm) (.of_sends hsend)
/-- What leaves after a flit in its turn is taken changes nothing of what it gave. -/
theorem flitIn_turn (h0 : f.type ≠ 0) (hs : f.seq.toNat = ((s.port p.val).rxSeq + 1) % 65536) :
    ∃ m : State, m.port p.val = s.port p.val ∧ Sends p.val (m.acceptFlit p.val f) (s.flitIn p.val f fec true) := by
  obtain ⟨m, hm, ht⟩ := flitIn_passes hu hfec htype hcls hnak hepoch
  rw [if_neg h0, if_pos hs] at ht
  refine ⟨m, hm, ?_⟩
  rw [ht]
  exact (takeHeader_sends ..).trans (answerFlit_sends ..)
end

/-! ## A NAK -/

/-- With nothing else to send, a NAK frees what it acknowledges and sends the rest again as it was. -/
theorem nakResend_again {s : State} {p : Nat} (hu : portUp s p = true) (hc : (s.port p).ctl = []) (hn : (s.port p).nextClass = none)
    (ack : Nat) :
    let left := (s.port p).retry.filter (fun e => !ackedBy ack e.1.seq.toNat)
    let t := s.nakResend p ack
    (t.port p).retry = left.map (fun e => (e.1, e.2 + 1)) ∧ (t.port p).out = (s.port p).out ++ left.map (fun e => e.1) ∧
    (t.port p).txSeq = (s.port p).txSeq ∧ t.rd (Reg.trsPort p) Reg.TRS_RETRIES =
      min (s.rd (Reg.trsPort p) Reg.TRS_RETRIES + left.length) (2 ^ Reg.TRS_RETRIES.width - 1) % 2 ^ Reg.TRS_RETRIES.width := by
  intro left t
  have hfree : s.takeAck p ack = s.setPort p { s.port p with retry := left } := by
    unfold State.takeAck State.sendOut
    exact sendSome_idle _ (by rw [State.port_setPort]; exact hc) (by rw [State.port_setPort]; exact hn)
  have hport : t.port p = { s.port p with out := (s.port p).out ++ left.map (fun e => e.1), retry := left.map (fun e => (e.1, e.2 + 1)) } := by
    simp only [t, State.nakResend, hu, hfree, State.resendAll, State.port_setPort, State.incBy, State.wr_portAt, if_true]
  have hrd : t.rd (Reg.trsPort p) Reg.TRS_RETRIES =
      min (s.rd (Reg.trsPort p) Reg.TRS_RETRIES + left.length) (2 ^ Reg.TRS_RETRIES.width - 1) % 2 ^ Reg.TRS_RETRIES.width := by
    simp only [t, State.nakResend, hu, hfree, State.resendAll, State.port_setPort, State.incBy, State.rd_wr, State.setPort_rd, if_true]
  rw [hport]
  exact ⟨rfl, rfl, rfl, hrd⟩

/-- Settles O39: a flit that is not taken leaves the receiving half, and what sending does after one is taken leaves it too. -/
theorem trussFlits : Obligations.TrussFlits := by
  intro p s hu b k same
  refine ⟨fun f tagOk => ⟨_, rfl, ?_⟩, fun f fec hfec => ⟨fun tagOk h => ⟨_, rfl, flitIn_fails hu hfec h⟩,
    fun htype hcls hnak hepoch => ⟨fun h => ⟨_, rfl, flitIn_notTaken hu hfec htype hcls hnak hepoch h⟩, fun h1 hs => ⟨_, rfl, ?_⟩,
      fun h3 hs => ⟨_, rfl, ?_⟩⟩⟩, fun ack hc hn => ⟨_, rfl, nakResend_again hu hc hn ack.toNat⟩⟩
  · rw [State.flitIn, if_neg (by simp [hu]), if_pos rfl]
    exact fecFail_counts s p.val
  · obtain ⟨m, hm, hsend⟩ := flitIn_turn hu hfec htype hcls hnak hepoch (by rw [h1]; decide) hs
    obtain ⟨hseq, hin, hrx, hdrop⟩ := acceptFlit_data m p.val h1
    rw [hm] at hin hrx
    exact ⟨hsend.rxSeq.trans hseq, hsend.inbound.trans hin, hsend.rx.trans hrx, hsend.dropping.trans hdrop⟩
  · obtain ⟨m, hm, hsend⟩ := flitIn_turn hu hfec htype hcls hnak hepoch (by rw [h3]; decide) hs
    obtain ⟨hseq, hgen, hold, hin⟩ := acceptFlit_keyChange m p.val h3
    rw [hm] at hgen hin
    exact ⟨hsend.rxSeq.trans hseq, hsend.rxGen.trans hgen, hsend.rxOld.trans hold, hsend.inbound.trans hin⟩

end Sys2Proof.Machine
end

section
/-! The route table, and channels that open (10 R284, R286, R290; Tables 10-7 and 10-9). -/
namespace Sys2Proof.Machine

/-! ## The route table -/

theorem ofTruss_route (dest : BitVec 16) {f : Field} (hf : f.key 0 < 32) : OfTruss (f.key (Reg.route dest.toNat)) := by
  have hd := dest.isLt
  simp only [OfTruss, Field.key, Reg.route, Reg.trsAddress, Reg.ring] at *; omega
/-- An entry takes its four fields; the channels that a lost VALID takes down leave them. -/
theorem writeRoute_rd (s : State) (dest : BitVec 16) (v : Nat) : ∀ f ∈ [Reg.ROUTE_PORT_SET, Reg.ROUTE_ORDERED_PORT, Reg.ROUTE_VALID,
    Reg.ROUTE_HOPS], (s.writeRoute dest.toNat v).rd (Reg.route dest.toNat) f = bitsAt v f.lo f.width := by
  intro f hf
  unfold State.writeRoute
  extract_lets b s1 s2
  have hdown : Leaves State.ports OfTruss s2 (if s.routeValid dest.toNat && !s2.routeValid dest.toNat then
      s2.channelsDown (s2.sendChannels fun c => decide (c.key.dest.toNat = dest.toNat)) else s2) :=
    .ite (channelsDown_leaves ..) (.refl s2)
  have hkey : f.key 0 < 32 := by
    have hall : ∀ g ∈ [Reg.ROUTE_PORT_SET, Reg.ROUTE_ORDERED_PORT, Reg.ROUTE_VALID, Reg.ROUTE_HOPS], g.key 0 < 32 := by decide
    exact hall f hf
  rw [hdown.rd _ _ (ofTruss_route dest hkey)]
  simp only [List.mem_cons, List.not_mem_nil, or_false] at hf
  rcases hf with rfl | rfl | rfl | rfl
  · rw [rd_wr_apart _ _ _ (by decide), rd_wr_apart _ _ _ (by decide), rd_wr_apart _ _ _ (by decide), State.rd_wr]
    exact Nat.mod_mod ..
  · rw [rd_wr_apart _ _ _ (by decide), rd_wr_apart _ _ _ (by decide), State.rd_wr]
    exact Nat.mod_mod ..
  · rw [rd_wr_apart _ _ _ (by decide), State.rd_wr]
    exact Nat.mod_mod ..
  · rw [State.rd_wr]
    exact Nat.mod_mod ..

/-! ## The queues that own a channel -/

section
variable {α β : Type}

theorem filterMap_mapErase {f : Nat × α → Option β} {k : Nat} (hk : ∀ v, f (k, v) = none) (m : Map α) :
    (mapErase m k).filterMap f = m.filterMap f := by
  induction m with
  | nil => rfl
  | cons kv m ih =>
    obtain ⟨j, v⟩ := kv
    rw [mapErase]
    split
    · next h => rw [ih, List.filterMap_cons_none (h ▸ hk v)]
    · simp only [List.filterMap_cons, ih]
theorem filterMap_mapInsert {f : Nat × α → Option β} {k : Nat} {v : α} (hk : f (k, v) = none) (m : Map α) :
    (mapInsert m k v).filterMap f = m.filterMap f := by
  induction m with
  | nil => exact List.filterMap_cons_none hk
  | cons kv m ih =>
    obtain ⟨j, w⟩ := kv
    rw [mapInsert]
    split
    · exact List.filterMap_cons_none hk
    · simp only [List.filterMap_cons, ih]
/-- What is listed of other keys stands. -/
theorem filterMap_mapSet [DecidableEq α] {f : Nat × α → Option β} {k : Nat} (hk : ∀ v, f (k, v) = none) (d : α) (m : Map α) (v : α) :
    (mapSet d m k v).filterMap f = m.filterMap f := by
  unfold mapSet
  split
  · exact filterMap_mapErase hk m
  · exact (filterMap_mapInsert (hk v) _).trans (filterMap_mapErase hk m)
end

theorem event_regs (s : State) (f : Field) : (s.event f).regs = (s.wr Reg.hif f 1).regs := by
  unfold State.event State.eventMsg State.sendMsix
  extract_lets s1 e
  split
  · rfl
  · split <;> rfl
theorem enabledQueues_congr {s t : State} (h : t.regs = s.regs) : t.enabledQueues = s.enabledQueues := by
  rw [State.enabledQueues, State.enabledIdx, h]; rfl
theorem enabledQueues_wr (s : State) {b : Nat} {f : Field} (v : Nat) (h : UnderWwy (f.key b)) :
    (s.wr b f v).enabledQueues = s.enabledQueues := by
  refine congrArg (List.map fun i => (i / 256, i % 256)) (filterMap_mapSet (fun w => if_neg ?_) ..)
  exact fun hk => absurd hk.1 (Nat.not_le_of_lt h)
theorem enabledQueues_portStatus (s : State) (p : PortId) (code : Nat) : (s.portStatus p.val code).enabledQueues = s.enabledQueues := by
  have hw := enabledQueues_wr s code (underWwy_of_ofTruss _ (ofTruss_port p (f := Reg.TRS_STATUS) (by decide)))
  unfold State.portStatus
  extract_lets b s1
  split
  · exact hw
  · exact ((enabledQueues_congr (event_regs ..)).trans (enabledQueues_wr s1 1 (by decide))).trans hw
theorem enabledQueues_portStatuses (s : State) (code : Nat) :
    (allPorts.foldl (fun a p => a.portStatus p code) s).enabledQueues = s.enabledQueues := by
  have hall (ps : List Nat) (hp : ∀ p ∈ ps, p < 16) (s : State) :
      (ps.foldl (fun a p => a.portStatus p code) s).enabledQueues = s.enabledQueues := by
    induction ps generalizing s with
    | nil => rfl
    | cons p ps ih =>
      exact (ih (fun q hq => hp q (List.mem_cons_of_mem _ hq)) _).trans (enabledQueues_portStatus s ⟨p, hp p List.mem_cons_self⟩ code)
  exact hall allPorts (fun p hp => List.mem_range.mp hp) s
theorem offStatus_wwy (x q : Nat) (f : Field) : OffStatus (f.key (Reg.wwy x q)) := by
  refine ⟨?_, fun p hp => ?_⟩ <;> simp only [Field.key, Reg.wwy, Reg.trsPort, Reg.jnrStatus, Reg.TRS_STATUS] <;> omega
theorem offStatus_address {f : Field} (hf : f.key 0 < 64) : OffStatus (f.key Reg.trsAddress) := by
  refine ⟨?_, fun p _ => ?_⟩ <;> simp only [Field.key, Reg.trsAddress, Reg.trsPort, Reg.jnrStatus, Reg.TRS_STATUS] at * <;> omega
theorem channelQueues_congr {s t : State} {x : Nat} (k : ChannelKey) (hq : t.enabledQueues = s.enabledQueues)
    (hrd : ∀ (q : Nat) (f : Field), t.rd (Reg.wwy x q) f = s.rd (Reg.wwy x q) f) (ha : t.ownAddress = s.ownAddress) :
    t.channelQueues x k = s.channelQueues x k := by
  have hsend (q : Nat) : t.isSender x q = s.isSender x q := by rw [State.isSender, State.flag, hrd]; rfl
  have hget (q : Nat) : t.isReceiver x q = s.isReceiver x q := by rw [State.isReceiver, State.flag, hrd]; rfl
  have hkey (q : Nat) : t.queueKey x q = s.queueKey x q := by
    unfold State.queueKey State.keyTo State.wq
    rw [hsend, ha, hrd, hrd]
  simp only [State.channelQueues, State.ctxQueues, hq, hsend, hget, hkey]
theorem status_foldl_wr (x v : Nat) (qs : List Nat) (s : State) : ∀ q ∈ qs,
    (qs.foldl (fun a q => a.wr (Reg.wwy x q) Reg.WWY_STATUS v) s).rd (Reg.wwy x q) Reg.WWY_STATUS = v % 65536 := by
  have hkeep (q : Nat) (qs : List Nat) (s : State) (h : s.rd (Reg.wwy x q) Reg.WWY_STATUS = v % 65536) :
      (qs.foldl (fun a q => a.wr (Reg.wwy x q) Reg.WWY_STATUS v) s).rd (Reg.wwy x q) Reg.WWY_STATUS = v % 65536 := by
    induction qs generalizing s with
    | nil => exact h
    | cons r qs ih =>
      refine ih _ ?_
      by_cases hr : Reg.wwy x q = Reg.wwy x r
      · rw [hr]; exact State.rd_wr ..
      · rw [State.rd_wr_ne _ _ (by simp only [Field.key]; omega), h]
  induction qs generalizing s with
  | nil => exact fun _ h => absurd h List.not_mem_nil
  | cons r qs ih =>
    intro q hq
    rcases List.mem_cons.mp hq with rfl | hq
    · exact hkeep q qs _ (State.rd_wr ..)
    · exact ih _ q hq

/-! ## CHANNEL_OPEN -/

/-- An address is known under the identity named for it, or not known: only identities change. -/
theorem learnIdentity_agrees {s : State} {addr : Nat} {peer : BitVec 64} (h : ∀ kv ∈ s.identities, kv.1 = addr → kv.2 = peer) :
    ∃ m, s.learnIdentity addr peer = { s with identities := m } := by
  unfold State.learnIdentity
  cases hk : s.identities.find? (fun kv => decide (kv.1 = addr)) with
  | none => exact ⟨_, rfl⟩
  | some kv =>
    have haddr := List.find?_some (p := fun kv : Nat × BitVec 64 => decide (kv.1 = addr)) hk
    exact ⟨s.identities, if_pos (h kv (List.mem_of_find?_eq_some hk) (of_decide_eq_true haddr))⟩
/-- A second identity for an address is a conflict; channels, identities and the queues that own a channel stand. -/
theorem learnIdentity_conflict {s : State} {addr : Nat} {peer : BitVec 64} {kv : Nat × BitVec 64}
    (hf : s.identities.find? (fun e => decide (e.1 = addr)) = some kv) (hk : kv.2 ≠ peer) (x : Nat) (k : ChannelKey) :
    let t := s.learnIdentity addr peer
    addr ∈ t.conflicts ∧ t.channels = s.channels ∧ t.identities = s.identities ∧ t.channelQueues x k = s.channelQueues x k := by
  intro t
  let m : State := { s with conflicts := if s.conflicts.contains addr then s.conflicts else s.conflicts ++ [addr] }
  have hposted (u : State) (hleaves : Leaves State.offRegs OffStatus m u) (hq : u.enabledQueues = m.enabledQueues) :
      addr ∈ u.conflicts ∧ u.channels = s.channels ∧ u.identities = s.identities ∧ u.channelQueues x k = s.channelQueues x k := by
    have hmem : addr ∈ m.conflicts := by
      by_cases hc : addr ∈ s.conflicts <;> simp [m, hc]
    have hconf : u.conflicts = m.conflicts := hleaves.congr State.conflicts
    exact ⟨hconf ▸ hmem, hleaves.congr State.channels, hleaves.congr State.identities,
      channelQueues_congr k hq (fun q f => hleaves.rd _ _ (offStatus_wwy x q f))
        (ownAddress_congr fun f hf => hleaves.rd _ _ (offStatus_address hf))⟩
  have ht : t = allPorts.foldl (fun a p => a.portStatus p 0x6006) m := by
    simp only [t, State.learnIdentity, hf, if_neg hk, m]
  rw [ht]
  exact hposted _ (portStatuses_leaves ..) (enabledQueues_portStatuses ..)
theorem openChannel_opens (s : State) (k : ChannelKey) (o : Bool) : ∃ c, (s.openChannel k o).channel k = some c ∧ c.down = false := by
  have hfresh : (s.setChannel (freshChannel k o)).channel k = some (freshChannel k o) := channel_setChannel s (freshChannel k o)
  unfold State.openChannel
  cases hc : s.channel k with
  | none => exact ⟨_, hfresh, rfl⟩
  | some c =>
    by_cases hd : c.down = true
    · exact ⟨_, by simp only [hd, if_true]; exact hfresh, rfl⟩
    · exact ⟨c, by simp only [hd]; exact hc, eq_false_of_ne_true hd⟩

end Sys2Proof.Machine
end

section
/-! The rows of channels and packets, and of a frame entry (10 R284 to R291; 01 R22, R23; log entry 117). -/
namespace Sys2Proof.Machine

/-! ## CHANNEL_OPEN -/

section
variable {s : State} {k : ChannelKey} {peer : BitVec 64} {far x : Nat}
  (hfar : far = if s.ownAddress = some k.src.toNat then k.dest.toNat else k.src.toNat)
  (hx : x = if s.ownAddress = some k.src.toNat then k.srcCtx.toNat else k.ctx.toNat)
include hfar hx

/-- CHANNEL_OPEN with the end, the far address and the context that the key gives. -/
theorem channelOpen_eq : s.channelOpen k peer =
    let s1 := s.learnIdentity far peer
    let qs := s1.channelQueues x k
    if s1.conflicts.contains far then qs.foldl (fun a q => a.wr (Reg.wwy x q) Reg.WWY_STATUS 0x6006) s1
    else if qs.isEmpty && !s1.exchangeOwns x k then s1
    else if s.ownAddress = some k.src.toNat then s1.openChannel k true else s1.setChannel (freshChannel k true) := by
  subst hfar hx
  unfold State.channelOpen
  simp only [decide_eq_true_eq]
/-- Under the one identity of its far end a channel opens for the object that owns it, and for no other. -/
theorem channelOpen_agrees (hc : far ∉ s.conflicts) (hid : ∀ kv ∈ s.identities, kv.1 = far → kv.2 = peer) :
    (s.channelQueues x k ≠ [] ∨ s.exchangeOwns x k = true → ∃ c, (s.channelOpen k peer).channel k = some c ∧ c.down = false ∧
      (s.ownAddress ≠ some k.src.toNat → c = freshChannel k true)) ∧
    (¬ (s.channelQueues x k ≠ [] ∨ s.exchangeOwns x k = true) → (s.channelOpen k peer).channels = s.channels) := by
  obtain ⟨m, hm⟩ := learnIdentity_agrees hid
  have heq := channelOpen_eq (peer := peer) hfar hx
  rw [hm] at heq
  have hconf : ¬ ({ s with identities := m } : State).conflicts.contains far = true := by simpa using hc
  have hqs : ({ s with identities := m } : State).channelQueues x k = s.channelQueues x k := rfl
  have hex : ({ s with identities := m } : State).exchangeOwns x k = s.exchangeOwns x k := rfl
  simp only [if_neg hconf, hqs, hex] at heq
  refine ⟨fun howned => ?_, fun hnone => ?_⟩
  · rw [heq, if_neg (by rcases howned with h | h <;> simp [h])]
    split
    · next h =>
      obtain ⟨c, ho, hd⟩ := openChannel_opens { s with identities := m } k true
      exact ⟨c, ho, hd, fun hn => absurd h hn⟩
    · exact ⟨_, channel_setChannel { s with identities := m } (freshChannel k true), rfl, fun _ => rfl⟩
  · obtain ⟨hq, he⟩ := not_or.mp hnone
    rw [heq, if_pos (by simp [not_not.mp hq, eq_false_of_ne_true he])]
/-- An address of two identities opens no channel, and each queue that owns one says so. -/
theorem channelOpen_conflict {kv : Nat × BitVec 64} (hf : s.identities.find? (fun e => decide (e.1 = far)) = some kv) (hk : kv.2 ≠ peer) :
    far ∈ (s.channelOpen k peer).conflicts ∧ (s.channelOpen k peer).channels = s.channels ∧
    (s.channelOpen k peer).identities = s.identities ∧
    ∀ q ∈ s.channelQueues x k, (s.channelOpen k peer).rd (Reg.wwy x q) Reg.WWY_STATUS = 0x6006 := by
  obtain ⟨hconf, hchannels, hids, hqs⟩ := learnIdentity_conflict hf hk x k
  have heq := channelOpen_eq (peer := peer) hfar hx
  have hwr (qs : List Nat) (u : State) : Leaves State.offRegs (fun _ => False) u
      (qs.foldl (fun a q => a.wr (Reg.wwy x q) Reg.WWY_STATUS 0x6006) u) := .foldl (fun _ _ _ => .wr rfl id) u
  simp only [List.contains_eq_mem, decide_eq_true hconf, if_true, hqs] at heq
  have hposted := hwr (s.channelQueues x k) (s.learnIdentity far peer)
  rw [heq]
  exact ⟨(congrArg (far ∈ ·) (hposted.congr State.conflicts)).mpr hconf, (hposted.congr State.channels).trans hchannels,
    (hposted.congr State.identities).trans hids, status_foldl_wr x 0x6006 _ _⟩
end

/-! ## PACKET_SEND -/

section
variable {s : State} {pk : Packet} (hd : s.ownAddress ≠ some pk.key.dest.toNat)
include hd

theorem packetSend_shut (hw : s.windowShut pk = true) : s.packetSend pk = s := by
  unfold State.packetSend
  rw [if_neg hd, if_pos hw]
/-- A packet without a route halts the context that it belongs to. -/
theorem packetSend_noRoute {x : Nat} (hw : s.windowShut pk = false)
    (hp : ({ s with outbox := s.outbox.erase pk } : State).portFor pk = none) (ho : packetOwner pk = some x) :
    (s.packetSend pk).outbox = s.outbox.erase pk ∧ Halts s (s.packetSend pk) x 0x6008 := by
  have heq : s.packetSend pk = ({ s with outbox := s.outbox.erase pk } : State).haltCtx x 0x6008 := by
    unfold State.packetSend
    rw [if_neg hd, if_neg (by simp [hw]), hp, ho]
  rw [heq]
  exact ⟨(haltFrame_haltCtx ..).congr State.outbox, Halts.of_before (haltCtx_halts _ _ _) rfl rfl rfl⟩
/-- A packet that leaves waits for its acknowledgement. -/
theorem packetSend_leaves {p : Nat} (hw : s.windowShut pk = false)
    (hp : ({ s with outbox := s.outbox.erase pk } : State).portFor pk = some p) (h7 : pk.type ≠ 7) (h1 : pk.type ≠ 1) :
    (s.packetSend pk).outbox = s.outbox.erase pk ∧ ∃ c, (s.packetSend pk).channel pk.key = some c ∧
      c.unacked = (s.channelOr pk.key pk.ordered).unacked ++ [(pk, 0, s.nowUs)] := by
  have hsend := sendOn_sends { s with outbox := s.outbox.erase pk } p pk
  have hor : (({ s with outbox := s.outbox.erase pk } : State).sendOn p pk).channelOr pk.key pk.ordered = s.channelOr pk.key pk.ordered := by
    rw [State.channelOr, channel_congr hsend.channels]; rfl
  let c := { s.channelOr pk.key pk.ordered with unacked := (s.channelOr pk.key pk.ordered).unacked ++ [(pk, 0, s.nowUs)] }
  have heq : s.packetSend pk = (({ s with outbox := s.outbox.erase pk } : State).sendOn p pk).setChannel c := by
    unfold State.packetSend
    rw [if_neg hd, if_neg (by simp [hw]), hp]
    simp only [if_neg h7, if_neg h1, hor, c]
  obtain ⟨cs, hset⟩ := setChannel_eq (({ s with outbox := s.outbox.erase pk } : State).sendOn p pk) c
  refine ⟨by rw [heq, hset]; exact hsend.outbox, c, ?_, rfl⟩
  rw [heq, ← channelOr_key s pk.key pk.ordered]
  exact channel_setChannel _ c
end

/-! ## PACKET_RECEIVE -/

/-- A packet that leaves its port's queue changes only that port. -/
theorem dropInbound_eq (s : State) (pk : Packet) : ∃ m, s.dropInbound pk = { s with ports := m } := by
  unfold State.dropInbound
  split <;> exact ⟨_, rfl⟩
theorem take_key {c d : Channel} {n : Nat} (h : c.take n = some d) : d.key = c.key := by
  unfold Channel.take at h
  split at h
  · split at h <;> cases h
    rfl
  · split at h <;> cases h
    rfl

section
variable {s : State} {pk : Packet} (hd : s.ownAddress = some pk.key.dest.toNat)
include hd

theorem packetIn_ack (h7 : pk.type = 7) {c : Channel} (hc : s.channel (reverseKey pk.key) = some c) :
    (s.packetIn pk).channel (reverseKey pk.key) =
      some { c with unacked := c.unacked.filter (fun e => decide (e.1.seq ≠ pk.seq)) } ∧ (s.packetIn pk).delivered = s.delivered := by
  obtain ⟨m, hm⟩ := dropInbound_eq s pk
  let d := { c with unacked := c.unacked.filter (fun e => decide (e.1.seq ≠ pk.seq)) }
  have hc' : ({ s with ports := m } : State).channel (reverseKey pk.key) = some c := hc
  have heq : s.packetIn pk = ({ s with ports := m } : State).setChannel d := by
    unfold State.packetIn
    rw [hm, if_neg (not_not_intro hd), if_pos h7, hc']
  obtain ⟨cs, hset⟩ := setChannel_eq ({ s with ports := m } : State) d
  refine ⟨?_, by rw [heq, hset]⟩
  rw [heq, ← channel_key hc]
  exact channel_setChannel _ d
theorem packetIn_bad (hb : badGranule pk = true) : (s.packetIn pk).delivered = s.delivered ∧ (s.packetIn pk).outbox = s.outbox ∧
    (s.packetIn pk).channels = s.channels := by
  obtain ⟨m, hm⟩ := dropInbound_eq s pk
  have h7 : pk.type ≠ 7 := by
    intro h
    simp [badGranule, h] at hb
  unfold State.packetIn
  rw [hm, if_neg (not_not_intro hd), if_neg h7, if_pos hb]
  exact ⟨rfl, rfl, rfl⟩

variable (hx : s.ctxOn pk.key.ctx.toNat = true) (ht : pk.type.toNat < 4)
include hx ht

/-- What the number of a packet to an enabled context decides. -/
theorem packetIn_numbered : ∃ m, s.packetIn pk = match (s.channelOr pk.key pk.ordered).take pk.seq.toNat with
    | none => { s with ports := m }
    | some c => ((({ s with ports := m } : State).setChannel c).acknowledge pk).deliver pk := by
  obtain ⟨m, hm⟩ := dropInbound_eq s pk
  have hne (v : BitVec 4) (hv : 4 ≤ v.toNat) : pk.type ≠ v := fun h => absurd (h ▸ ht) (Nat.not_lt_of_le hv)
  have hgood : ¬ badGranule pk = true := by
    rw [badGranule, decide_eq_false (hne 4 (by decide)), decide_eq_false (hne 5 (by decide))]
    simp
  refine ⟨m, ?_⟩
  unfold State.packetIn
  rw [hm, if_neg (not_not_intro hd), if_neg (hne 7 (by decide)), if_neg hgood, if_neg (by rw [hx]; simp),
    if_neg (fun h => hne 5 (by decide) h.1)]
  simp only [if_neg (hne 5 (by decide)), if_neg (hne 6 (by decide)),
    if_neg (fun h : pk.type = 4 ∧ pk.body = leBytes 4 0x1A03 => hne 4 (by decide) h.1)]
  rfl
theorem packetIn_refused (hn : (s.channelOr pk.key pk.ordered).take pk.seq.toNat = none) :
    (s.packetIn pk).delivered = s.delivered ∧ (s.packetIn pk).outbox = s.outbox ∧ (s.packetIn pk).channels = s.channels := by
  obtain ⟨m, heq⟩ := packetIn_numbered hd hx ht
  rw [heq, hn]
  exact ⟨rfl, rfl, rfl⟩
/-- A packet that its channel accepts is delivered once, and its acknowledgement waits to be sent. -/
theorem packetIn_accepted {c : Channel} (hc : (s.channelOr pk.key pk.ordered).take pk.seq.toNat = some c) :
    (s.packetIn pk).delivered = s.delivered ++ [pk] ∧ (s.packetIn pk).channel pk.key = some c ∧
    ∃ a, (s.packetIn pk).outbox = s.outbox ++ [a] ∧ a.type = 7 ∧ a.key = reverseKey pk.key ∧ a.seq = pk.seq := by
  obtain ⟨m, heq⟩ := packetIn_numbered hd hx ht
  have hkey : c.key = pk.key := (take_key hc).trans (channelOr_key ..)
  have h4 : ¬ (pk.type = 4 ∧ isGranuleBody pk.body = true) := fun h => absurd (h.1 ▸ ht) (by decide)
  have hdeliver (u : State) : u.deliver pk = { u with delivered := u.delivered ++ [pk] } := by
    simp only [State.deliver, if_neg h4]
  obtain ⟨cs, hset⟩ := setChannel_eq ({ s with ports := m } : State) c
  have hchannel := channel_setChannel ({ s with ports := m } : State) c
  simp only [hc, hdeliver, hset, State.acknowledge] at heq
  rw [hset, hkey] at hchannel
  rw [heq]
  exact ⟨rfl, hchannel, _, rfl, rfl, rfl, rfl⟩
end

/-! ## PACKET_RESEND_TIMEOUT -/

/-- A packet of number n is due again: 500 µs have passed since it was sent last. -/
def resendDue (s : State) (n : BitVec 32) (e : Packet × Nat × Nat) : Bool := decide (e.1.seq = n) && decide (e.2.2 + 500 ≤ s.nowUs)

theorem resendDue_iff {s : State} {n : BitVec 32} {e : Packet × Nat × Nat} :
    resendDue s n e = true ↔ e.1.seq = n ∧ e.2.2 + 500 ≤ s.nowUs := by
  rw [resendDue, Bool.and_eq_true, decide_eq_true_eq, decide_eq_true_eq]

section
variable {s : State} {k : ChannelKey} {n : BitVec 32} {c : Channel} (hc : s.channel k = some c) (hd : c.down = false)
include hc hd

theorem resendTimeout_eq : s.resendTimeout k n =
    let due := c.unacked.filter (resendDue s n)
    if due.isEmpty then s
    else if due.any (fun e => decide (8 ≤ e.2.1)) || !s.routeValid k.dest.toNat || (c.ordered && (s.orderedRoute k.dest.toNat).isNone) then
      s.channelDown c
    else due.foldl (fun a e => match a.portFor e.1 with | some p => a.sendOn p e.1 | none => a)
      (s.setChannel { c with unacked := c.unacked.map (fun e => if resendDue s n e then (e.1, e.2.1 + 1, s.nowUs) else e) }) := by
  simp only [State.resendTimeout, hc, hd, Bool.false_or]
  rfl
theorem resendTimeout_early (h : ∀ e ∈ c.unacked, ¬ resendDue s n e = true) : s.resendTimeout k n = s := by
  rw [resendTimeout_eq hc hd]
  exact if_pos (List.isEmpty_iff.mpr (List.filter_eq_nil_iff.mpr h))
/-- After eight resends the channel is down and its context halts. -/
theorem resendTimeout_down (h : ∃ e ∈ c.unacked, resendDue s n e = true ∧ 8 ≤ e.2.1) :
    GivenUp (s.resendTimeout k n) k ∧ Halts s (s.resendTimeout k n) k.srcCtx.toNat 0x6007 := by
  obtain ⟨e, he, hdue, h8⟩ := h
  have hmem : e ∈ c.unacked.filter (resendDue s n) := List.mem_filter.mpr ⟨he, hdue⟩
  have hany : (c.unacked.filter (resendDue s n)).any (fun e => decide (8 ≤ e.2.1)) = true :=
    List.any_eq_true.mpr ⟨e, hmem, decide_eq_true h8⟩
  have heq := resendTimeout_eq (n := n) hc hd
  simp only [hany, Bool.true_or, if_true] at heq
  rw [if_neg (by rw [List.isEmpty_iff]; exact List.ne_nil_of_mem hmem)] at heq
  have hk := channel_key hc
  subst hk
  rw [heq]
  exact ⟨channelDown_givenUp s c, channelDown_halts s c⟩
/-- A packet that is due leaves once more by its route; what leaves changes no channel. -/
theorem resendTimeout_again (h : ∃ e ∈ c.unacked, resendDue s n e = true) (h8 : ∀ e ∈ c.unacked, resendDue s n e = true → e.2.1 < 8)
    (hv : s.routeValid k.dest.toNat = true) (ho : c.ordered = true → (s.orderedRoute k.dest.toNat).isSome = true) :
    (s.resendTimeout k n).channel k =
      some { c with unacked := c.unacked.map (fun e => if resendDue s n e then (e.1, e.2.1 + 1, s.nowUs) else e) } := by
  obtain ⟨e, he, hdue⟩ := h
  have hmem : e ∈ c.unacked.filter (resendDue s n) := List.mem_filter.mpr ⟨he, hdue⟩
  have hany : (c.unacked.filter (resendDue s n)).any (fun e => decide (8 ≤ e.2.1)) = false := by
    rw [List.any_eq_false]
    intro a ha
    obtain ⟨hin, hlate⟩ := List.mem_filter.mp ha
    simpa using h8 a hin hlate
  have hroute : (c.ordered && (s.orderedRoute k.dest.toNat).isNone) = false := by
    cases hord : c.ordered with
    | false => rfl
    | true => rw [Bool.true_and, Option.isNone_eq_false_iff]; exact ho hord
  have heq := resendTimeout_eq (n := n) hc hd
  simp only [hany, hv, hroute, Bool.not_true, Bool.or_false, Bool.false_eq_true, if_false] at heq
  rw [if_neg (by rw [List.isEmpty_iff]; exact List.ne_nil_of_mem hmem)] at heq
  have hsend (l : List (Packet × Nat × Nat)) (u : State) :
      (l.foldl (fun a e => match a.portFor e.1 with | some p => a.sendOn p e.1 | none => a) u).channels = u.channels := by
    induction l generalizing u with
    | nil => rfl
    | cons e l ih =>
      refine (ih _).trans ?_
      beta_reduce
      split
      · exact (sendOn_sends ..).channels
      · rfl
  rw [heq, channel_congr (hsend ..), ← channel_key hc]
  exact channel_setChannel s { c with unacked := c.unacked.map (fun e => if resendDue s n e then (e.1, e.2.1 + 1, s.nowUs) else e) }
end

/-! ## FRAME_ENTRY_UPDATE -/

/-- SEQUENCE of an entry. -/
def State.sequence (s : State) (i : Nat) : Nat := mapGet 0 s.memberSeq i

theorem bumpEntries_one (s : State) (i : Nat) : ∃ m, s.bumpEntries [i] = { s with memberSeq := m } ∧
    mapGet 0 m i = (s.sequence i + 2) % 2 ^ 64 ∧ ∀ j, j ≠ i → mapGet 0 m j = s.sequence j :=
  ⟨_, rfl, mapGet_mapSet_self .., fun _ h => mapGet_mapSet_ne _ _ _ h⟩
/-- What an operation does to the package's own entry. -/
theorem sequenced_package (s t : State) : ∃ m, s.sequenced [354] t = { t with memberSeq := m } ∧
    ∀ j, j ≠ 354 → mapGet 0 m j = t.sequence j := by
  unfold State.sequenced
  rw [List.filter_cons]
  split
  · obtain ⟨m, hm, -, hother⟩ := bumpEntries_one t 354
    exact ⟨m, hm, hother⟩
  · exact ⟨t.memberSeq, rfl, fun _ _ => rfl⟩
/-- A frame entry takes its words; SEQUENCE rises by 2 where they changed, and else at the package's own entry at most. -/
theorem frameUpdate_writes (s : State) (level : Nat) (ws : List Word) :
    mapGet [] (s.frameUpdate level ws).frames level = frameWords level ws ∧ (s.frameUpdate level ws).regs = s.regs ∧
    (mapGet [] s.frames level ≠ frameWords level ws →
      (s.frameUpdate level ws).sequence (355 + level) = (s.sequence (355 + level) + 2) % 2 ^ 64) ∧
    (mapGet [] s.frames level = frameWords level ws → (s.frameUpdate level ws).sequence (355 + level) = s.sequence (355 + level)) ∧
    ∀ i, i ≠ 355 + level → i ≠ 354 → (s.frameUpdate level ws).sequence i = s.sequence i := by
  let t : State := { s with frames := mapSet [] s.frames level (frameWords level ws) }
  have hframe : mapGet [] t.frames level = frameWords level ws := mapGet_mapSet_self ..
  have hne : 355 + level ≠ 354 := by omega
  by_cases h : mapGet [] s.frames level = frameWords level ws
  · obtain ⟨m, hm, hother⟩ := sequenced_package s t
    have heq : s.frameUpdate level ws = { t with memberSeq := m } := by
      rw [← hm]
      exact congrArg (s.sequenced [354]) (if_pos (h.trans hframe.symm))
    rw [heq]
    exact ⟨hframe, rfl, fun hn => absurd h hn, fun _ => hother _ hne, fun i _ hi => hother i hi⟩
  · obtain ⟨n, hn, hsame, hrest⟩ := bumpEntries_one t (355 + level)
    obtain ⟨m, hm, hother⟩ := sequenced_package s { t with memberSeq := n }
    have heq : s.frameUpdate level ws = { t with memberSeq := m } := by
      refine Eq.trans ?_ hm
      rw [← hn]
      exact congrArg (s.sequenced [354]) (if_neg fun e => h (e.trans hframe))
    rw [heq]
    exact ⟨hframe, rfl, fun _ => (hother _ hne).trans hsame, fun e => absurd e h, fun i hl hi => (hother i hi).trans (hrest i hl)⟩

/-! ## The rows together -/

/-- Settles O40: a channel's record before and after each row, and what the halt of its context leaves. -/
theorem trussPackets : Obligations.TrussPackets := by
  intro s
  refine ⟨?route, ?openings, ?packets, ?resends, fun level ws => ⟨_, rfl, frameUpdate_writes s level.val ws⟩⟩
  case route =>
    intro dest v hbar
    refine ⟨_, rfl, ?_⟩
    rw [bar_of_open _ hbar]
    have hall := writeRoute_rd s dest v.toNat
    exact ⟨hall _ (by simp), hall _ (by simp), hall _ (by simp), hall _ (by simp)⟩
  case openings =>
    intro k peer mine far x hfar hx owned
    refine ⟨fun hc hid => ?_, fun kv hf hk => ⟨_, rfl, channelOpen_conflict hfar hx hf hk⟩⟩
    obtain ⟨hopen, hnone⟩ := channelOpen_agrees hfar hx hc hid
    exact ⟨fun ho => ⟨_, rfl, hopen ho⟩, fun hn => ⟨_, rfl, hnone hn⟩⟩
  case packets =>
    intro pk s0
    refine ⟨fun hd => ⟨fun hw => congrArg Host.Outcome.next (packetSend_shut hd hw), fun x hw hp ho => ⟨_, rfl, packetSend_noRoute hd hw hp ho⟩,
      fun p hw hp h7 h1 => ⟨_, rfl, packetSend_leaves hd hw hp h7 h1⟩⟩, fun hd => ⟨fun h7 c hc => ⟨_, rfl, packetIn_ack hd h7 hc⟩,
      fun hb => ⟨_, rfl, packetIn_bad hd hb⟩, fun hx ht => ⟨fun hn => ⟨_, rfl, packetIn_refused hd hx ht hn⟩, fun c hc =>
      ⟨_, rfl, packetIn_accepted hd hx ht hc⟩⟩⟩⟩
  case resends =>
    intro k n c hc hd late
    refine ⟨fun h => ?early, fun h => ⟨_, rfl, ?down⟩, fun h h8 hv ho => ⟨_, rfl, ?again⟩⟩
    case early => exact congrArg Host.Outcome.next (resendTimeout_early hc hd fun e he hdue => h e he (resendDue_iff.mp hdue))
    case down =>
      obtain ⟨e, he, hlate, h8⟩ := h
      exact resendTimeout_down hc hd ⟨e, he, resendDue_iff.mpr hlate, h8⟩
    case again =>
      obtain ⟨e, he, hlate⟩ := h
      refine ⟨_, resendTimeout_again hc hd ⟨e, he, resendDue_iff.mpr hlate⟩ (fun a ha hdue => h8 a ha (resendDue_iff.mp hdue)) hv ho, hd, ?_,
        fun a ha => ⟨fun hl => ?_, fun hl => ?_⟩⟩
      · rw [List.map_map]
        refine List.map_congr_left fun a _ => ?_
        rw [Function.comp_apply]
        split <;> rfl
      · exact List.mem_map.mpr ⟨a, ha, if_pos (resendDue_iff.mpr hl)⟩
      · exact List.mem_map.mpr ⟨a, ha, if_neg fun hdue => hl (resendDue_iff.mp hdue)⟩

end Sys2Proof.Machine
end

section
/-! What leaves a context's exchange engine as it is: a halt, a fault, a store, a packet that joins a channel and the bytes a step
imports (11 R302, R317; 16 Table 16-3). -/
namespace Sys2Proof.Machine

/-! ## The engine's own record -/

@[simp] theorem State.exch_setExch (s : State) (x : Nat) (e : Exchange) : (s.setExch x e).exch x = e :=
  congrArg Ctx.exch (State.ctx_setCtx s x _)
theorem exch_of_stepFrame {s t : State} (h : StepFrame s t) (x : Nat) : t.exch x = s.exch x := congrArg Ctx.exch (h.ctx x)

/-! ## A halt -/

/-- A context but for what a halt changes of it. -/
def Ctx.offHalt (k : Ctx) : Ctx := { k with step := none, faulted := false, goal := none, phase := .drain, programs := [], tickets := [] }
/-- Of context x a halt may have changed its part alone. -/
abbrev HaltsOnly (x : Nat) : State → State → Prop := Leaves (fun s => (s.ctx x).offHalt) (fun _ => False)

section
variable {s : State} {x : Nat}

theorem haltsOnly_of_ctxs {t : State} (h : t.ctxs = s.ctxs) : HaltsOnly x s t :=
  ⟨congrArg (fun m => (mapGet Ctx.start m x).offHalt) h, fun _ _ => False.elim⟩
theorem haltsOnly_setCtx (s : State) (k : Ctx) (h : k.offHalt = (s.ctx x).offHalt := by rfl) : HaltsOnly x s (s.setCtx x k) :=
  ⟨(congrArg Ctx.offHalt (State.ctx_setCtx ..)).trans h, fun _ _ => False.elim⟩
theorem haltsOnly_wr (s : State) (b : Nat) (f : Field) (v : Nat) : HaltsOnly x s (s.wr b f v) := haltsOnly_of_ctxs rfl
theorem haltsOnly_enterStopped (s : State) (code : Nat) : HaltsOnly x s (s.enterStopped x code) := by
  have hloads (s : State) (c : Nat) : HaltsOnly x s (s.finishLoads x c).1 := by
    unfold State.finishLoads
    exact (haltsOnly_setCtx ..).trans (.foldl (fun _ _ _ => haltsOnly_of_ctxs (post_ctxs ..)) _)
  have htickets (s : State) (op c : Nat) : HaltsOnly x s (s.finishTickets x op c) := by
    unfold State.finishTickets
    exact (haltsOnly_setCtx ..).trans (.foldl (fun _ _ _ => haltsOnly_of_ctxs (post_ctxs ..)) _)
  unfold State.enterStopped
  extract_lets k cd st torn s1 s2
  have h2 : HaltsOnly x s s2 := ((haltsOnly_setCtx ..).trans (haltsOnly_wr ..)).trans (haltsOnly_wr ..)
  have h4 := (h2.trans (hloads s2 cd)).trans (htickets _ 4 0)
  exact .ite h4 (h4.trans (haltsOnly_of_ctxs (event_ctxs ..)))
theorem haltsOnly_haltCtx (s : State) (x code : Nat) : HaltsOnly x s (s.haltCtx x code) := by
  unfold State.haltCtx
  extract_lets st torn k0 step' state s0 s1 s2 k
  have h1 : HaltsOnly x s s1 := (haltsOnly_setCtx ..).trans (haltsOnly_wr ..)
  have h2 : HaltsOnly x s s2 := .ite (h1.trans (haltsOnly_wr ..)) h1
  refine .ite (.refl s) (.ite ?_ (.ite ?_ (.ite ?_ ?_)))
  · exact ((h2.trans (haltsOnly_setCtx ..)).trans (haltsOnly_wr ..)).trans (haltsOnly_of_ctxs (drainCores_ctxs ..))
  · exact h2.trans (haltsOnly_enterStopped ..)
  · exact h2.trans (haltsOnly_of_ctxs (event_ctxs ..))
  · split
    · exact h2
    · exact h2.trans (haltsOnly_setCtx ..)
end

theorem haltCtx_exch (s : State) (x code : Nat) : (s.haltCtx x code).exch x = s.exch x :=
  (haltsOnly_haltCtx s x code).congr Ctx.exch
/-- A context that halts after a change of its engine halts. -/
theorem Halts.of_setExch {s t : State} {x code : Nat} {e : Exchange} (h : Halts (s.setExch x e) t x code) : Halts s t x code :=
  h.of_before rfl ((congrArg Ctx.bayMap (State.ctx_setCtx s x _)).trans rfl) rfl

/-! ## A data-path fault -/

theorem stepFrame_event (s : State) {f : Field} (h : f.BelowCtx Reg.hif) : StepFrame s (s.event f) := by
  have hm (s : State) (c : CxlId) (v : Nat) : StepFrame s (s.sendMsix c v) := by
    unfold State.sendMsix
    exact .ite (.other rfl rfl rfl rfl) (.other rfl rfl rfl rfl)
  have hw := stepFrame_wr_below s 1 h
  unfold State.event
  exact .ite hw (hw.trans (hm ..))
/-- The state in which the context of a data-path fault halts. -/
theorem dataFault_eq (s : State) (x code : Nat) (f : FaultInfo) :
    ∃ m, StepFrame s m ∧ m.posCore = s.posCore ∧ s.dataFault x code f = m.haltCtx x code := by
  unfold State.dataFault State.logFault
  extract_lets head step r
  have hbump (s : State) (g : Field) (n : Nat) (h : g.BelowCtx Reg.safSafety) : StepFrame s (s.bump Reg.safSafety g n) :=
    stepFrame_wr_below s _ h
  have hlog (s : State) (l : Map (BitVec 512)) : StepFrame s { s with free := s.free + 1, faultLog := l } := .other rfl rfl rfl rfl
  exact ⟨_, (((hbump _ _ 1 (by decide)).trans (hlog ..)).trans (hbump _ _ 1 (by decide))).trans (stepFrame_event _ (by decide)),
    (leaves_event ..).congr State.posCore, rfl⟩
theorem dataFault_exch (s : State) (x code : Nat) (f : FaultInfo) : (s.dataFault x code f).exch x = s.exch x := by
  obtain ⟨m, hm, -, heq⟩ := dataFault_eq s x code f
  rw [heq, haltCtx_exch, exch_of_stepFrame hm]
theorem dataFault_halts (s : State) (x code : Nat) (f : FaultInfo) : Halts s (s.dataFault x code f) x code := by
  obtain ⟨m, hm, hp, heq⟩ := dataFault_eq s x code f
  rw [heq]
  exact Halts.of_before (haltCtx_halts _ _ _) (hm.cf x _) (congrArg Ctx.bayMap (hm.ctx x)) hp
theorem afterPoison_exch (s : State) (x : Nat) (rs ws : List (Nat × Nat)) (t : State) : (s.afterPoison x rs ws t).exch x = t.exch x := by
  unfold State.afterPoison
  split
  · exact dataFault_exch ..
  · rfl

/-! ## Memory, the record of a step, and packets -/

theorem store_exch (s : State) (y a origin : Nat) (bs : List Byte) (x : Nat) : (s.store (.tier1 y) a origin bs).exch x = s.exch x :=
  exch_of_stepFrame (stepFrame_store ..) x
theorem importBytes_exch (s : State) (x : Nat) (c : Option LogicalId) (seq : Word) (sl : Slot) (sq : Word) (bs : List Byte) :
    (s.importBytes x c seq sl sq bs).exch x = s.exch x := by
  unfold State.importBytes State.traceAppend
  extract_lets k at'
  split
  · rfl
  · split <;> exact (congrArg Ctx.exch (State.ctx_setCtx _ x _)).trans rfl
theorem stepFrame_exchSend (s : State) (x i : Nat) (body : List Byte) : StepFrame s (s.exchSend x i body) := stepFrame_queuePacket ..

theorem queuePacket_outbox_length (s : State) (k : ChannelKey) (o : Bool) (type : Nat) (body : List Byte) :
    (s.queuePacket k o type body).outbox.length = s.outbox.length + 1 := by
  unfold State.queuePacket State.setChannel
  extract_lets c pk s1
  have h1 : s1.outbox = s.outbox := by simp only [s1]; split <;> rfl
  simp only [h1, List.length_append, List.length_singleton]
theorem sendAborts_outbox_length (x code : Nat) (rs : List Nat) (s : State) :
    (s.sendAborts x code rs).outbox.length = s.outbox.length + rs.length := by
  induction rs generalizing s with
  | nil => rfl
  | cons r rs ih => rw [State.sendAborts, ih, queuePacket_outbox_length, List.length_cons, Nat.add_assoc, Nat.add_comm 1]
/-- A store to a region leaves the packets that wait. -/
theorem store_outbox (s : State) (x a origin : Nat) (bs : List Byte) : (s.store (.tier1 x) a origin bs).outbox = s.outbox := by
  have hbytes (bs : List Byte) (a : Nat) (s : State) : (s.setBytes (.tier1 x) a bs).outbox = s.outbox := by
    induction bs generalizing a s with
    | nil => rfl
    | cons b bs ih => exact ih (a + 1) (s.setByte (.tier1 x) a b)
  have hmarks (f : Nat → Nat) (a n k : Nat) (s : State) : (s.markGranules f a n origin k).outbox = s.outbox := by
    induction k generalizing s with
    | zero => rfl
    | succ k ih =>
      unfold State.markGranules State.renewTag
      extract_lets g key whole s1 s2
      have h1 : s1.outbox = s.outbox := by simp only [s1]; split <;> [rfl; split <;> rfl]
      have h2 : s2.outbox = s.outbox := by simp only [s2]; split <;> exact h1
      refine (ih _).trans ?_
      split <;> exact h2
  exact (hmarks ..).trans (hbytes ..)

end Sys2Proof.Machine
end

section
/-! What the engine has taken in, and that none of its work on buckets changes it (11 R302, R306, R308 to R310). -/
namespace Sys2Proof.Machine

/-! ## The buckets of a step -/

theorem bucket_number (e : Exchange) (b : Nat) : (e.bucket b).number = b := by
  unfold Exchange.bucket
  cases h : e.buckets.find? (fun k => decide (k.number = b)) with
  | none => rfl
  | some k => exact of_decide_eq_true (List.find?_some (p := fun k : Bucket => decide (k.number = b)) h)
theorem bucket_setBucket (e : Exchange) (k : Bucket) (b : Nat) :
    (e.setBucket k).bucket b = if k.number = b then k else e.bucket b := by
  unfold Exchange.setBucket Exchange.bucket
  split
  · next h =>
    have hp : (fun j : Bucket => decide (j.number = b)) ∘ (fun j => if j.number = k.number then k else j) =
        fun j => decide (j.number = b) := by
      funext j
      rw [Function.comp_apply]
      split
      · next hj => rw [hj]
      · rfl
    rw [List.find?_map, hp]
    cases hf : e.buckets.find? (fun j => decide (j.number = b)) with
    | none =>
      refine (if_neg fun hk => ?_).symm
      obtain ⟨j, hj, hn⟩ := List.any_eq_true.mp h
      exact List.find?_eq_none.mp hf j hj (hk ▸ hn)
    | some j =>
      have hj : j.number = b := of_decide_eq_true (List.find?_some (p := fun j : Bucket => decide (j.number = b)) hf)
      simp only [Option.map_some, Option.getD_some, hj, eq_comm]
  · next h =>
    rw [List.find?_append, List.find?_singleton]
    simp only [decide_eq_true_eq]
    split
    · next hk =>
      have hn : e.buckets.find? (fun j => decide (j.number = b)) = none :=
        List.find?_eq_none.mpr fun j hj hb => h (List.any_eq_true.mpr ⟨j, hj, hk ▸ hb⟩)
      rw [hn]
      rfl
    · rw [Option.or_none]

/-- What the engine has taken in: the closes it has still to take, those it has taken, the late buckets it has counted, and of each
bucket whether it is excluded and how many packets of it have come. -/
structure Intake where
  fillCount : Nat
  closed : Nat
  late : Nat
  excluded : Nat → Bool
  arrived : Nat → Nat
def Exchange.intake (e : Exchange) : Intake :=
  ⟨e.fillCount, e.closed, e.late, fun b => (e.bucket b).excluded, fun b => (e.bucket b).arrived⟩
/-- What context x has taken in. -/
def State.intake (s : State) (x : Nat) : Intake := (s.exch x).intake

theorem setBucket_counts (e : Exchange) (k : Bucket) :
    (e.setBucket k).fillCount = e.fillCount ∧ (e.setBucket k).closed = e.closed ∧ (e.setBucket k).late = e.late ∧
    (e.setBucket k).doneSignals = e.doneSignals := by
  unfold Exchange.setBucket
  split <;> exact ⟨rfl, rfl, rfl, rfl⟩
theorem intake_setBucket {e : Exchange} {k : Bucket} (hx : k.excluded = (e.bucket k.number).excluded)
    (ha : k.arrived = (e.bucket k.number).arrived) : (e.setBucket k).intake = e.intake := by
  have hb (b : Nat) : ((e.setBucket k).bucket b).excluded = (e.bucket b).excluded ∧
      ((e.setBucket k).bucket b).arrived = (e.bucket b).arrived := by
    rw [bucket_setBucket]
    split
    · next hn => exact hn ▸ ⟨hx, ha⟩
    · exact ⟨rfl, rfl⟩
  obtain ⟨hfill, hclosed, hlate, -⟩ := setBucket_counts e k
  simp only [Exchange.intake, hfill, hclosed, hlate, fun b => (hb b).1, fun b => (hb b).2]

/-! ## One item of work -/

theorem intake_of_exch {s t : State} {x : Nat} (h : t.exch x = s.exch x) : t.intake x = s.intake x := congrArg Exchange.intake h
theorem intake_setExch (s : State) (x : Nat) (e : Exchange) : (s.setExch x e).intake x = e.intake :=
  congrArg Exchange.intake (State.exch_setExch ..)
theorem wr_intake (s : State) (b : Nat) (f : Field) (v x : Nat) : (s.wr b f v).intake x = s.intake x := rfl
theorem signalDone_exch (s : State) (x : Nat) :
    (s.signalDone x).exch x = { s.exch x with doneSignals := (s.exch x).doneSignals + 1 } := State.exch_setExch ..
theorem signalDone_intake (s : State) (x : Nat) : (s.signalDone x).intake x = s.intake x := intake_setExch ..
theorem abortAttempt_intake (s : State) (x code : Nat) : (s.abortAttempt x code).intake x = s.intake x := by
  unfold State.abortAttempt
  extract_lets e
  split
  · rfl
  · exact (intake_of_exch (exch_of_stepFrame (stepFrame_sendAborts ..) x)).trans (intake_setExch ..)
theorem ownBlocks_intake (x b first : Nat) (l : List (Nat × List Int × Nat × Nat)) (s : State) :
    (s.ownBlocks x b first l).intake x = s.intake x := by
  induction l generalizing s with
  | nil => rfl
  | cons a l ih =>
    obtain ⟨i, ts, e, me⟩ := a
    unfold State.ownBlocks
    extract_lets kb span seg0 s1 ex s2
    have h1 : s1.intake x = s.intake x := intake_of_exch (store_exch ..)
    have h2 : s2.intake x = s1.intake x := by
      simp only [s2]
      split
      · rfl
      · exact intake_setExch ..
    exact (ih _).trans (h2.trans h1)
/-- An item changes of its bucket only how far the work on it has come. -/
theorem workOne_intake (s : State) (x b h j : Nat) (inc : Option ReducePacket) :
    (s.workOne x ((s.exch x).bucket b) h j inc).intake x = s.intake x := by
  unfold State.workOne
  extract_lets n r kb g len first count sh owner es faults own incB incM o ts me sh' outs sats inSat mySat sat k1 s1 s2 pad span ownRisk p
  have h1 : s1.intake x = s.intake x :=
    (intake_setExch ..).trans (intake_setBucket (by rw [bucket_number]) (by rw [bucket_number]))
  clear_value faults
  cases faults with
  | cons code rest =>
    simp only
    split
    · exact intake_of_exch (haltCtx_exch ..)
    · exact abortAttempt_intake ..
  | nil =>
    simp only
    have h2 : s2.intake x = s.intake x := (intake_of_exch (afterPoison_exch ..)).trans ((ownBlocks_intake ..).trans h1)
    split
    · split
      · exact h2
      · exact (wr_intake ..).trans ((intake_of_exch (store_exch ..)).trans h2)
    · exact (intake_of_exch (exch_of_stepFrame (stepFrame_exchSend ..) x)).trans h1

/-! ## Everything the engine can do -/

theorem workBucket_intake (x b n : Nat) (s : State) : (s.workBucket x b n).intake x = s.intake x := by
  induction n generalizing s with
  | zero => rfl
  | succ n ih =>
    rw [State.workBucket]
    split
    · rfl
    · exact (ih _).trans (workOne_intake ..)
theorem workBuckets_intake (x : Nat) (bs : List Nat) (s : State) : (s.workBuckets x bs).intake x = s.intake x := by
  induction bs generalizing s with
  | nil => rfl
  | cons b bs ih => exact (ih _).trans (workBucket_intake ..)
theorem deliverBuckets_intake (x n : Nat) (s : State) : (s.deliverBuckets x n).intake x = s.intake x := by
  induction n generalizing s with
  | zero => rfl
  | succ n ih =>
    unfold State.deliverBuckets
    extract_lets e b total kb span s1 s2
    have h2 : s2.intake x = s.intake x := (intake_of_exch (importBytes_exch ..)).trans (intake_setExch ..)
    split
    · refine (ih _).trans ?_
      split
      · exact (signalDone_intake ..).trans h2
      · exact h2
    · rfl
theorem pump_intake (s : State) (x : Nat) : (s.pump x).intake x = s.intake x :=
  (deliverBuckets_intake ..).trans (workBuckets_intake ..)

end Sys2Proof.Machine
end

section
/-! Bucket closes, late buckets, the cutoff and the abort packet (11 R302, R314 to R317). -/
namespace Sys2Proof.Machine

/-! ## A close -/

theorem lateClose_intake (s : State) (x b : Nat) (nonfinite : Bool) (risk : Nat) :
    (s.lateClose x b nonfinite risk).intake x = s.intake x := by
  unfold State.lateClose
  extract_lets e drop size s1
  have h1 : s1.intake x = s.intake x := (wr_intake ..).trans (intake_of_exch (store_exch ..))
  have hdrop (t : State) : (drop t).intake x = t.intake x := by
    unfold drop
    extract_lets t1
    have h1 : t1.intake x = t.intake x := wr_intake ..
    split
    · exact (wr_intake ..).trans h1
    · exact h1
  split
  · split
    · exact (hdrop s1).trans h1
    · exact intake_setExch ..
  · exact hdrop s

section
variable {s : State} {x : Nat}

theorem bucketClose_idle (h : (s.exch x).fillCount = 0) : s.bucketClose x = s := if_pos (by simp [h])

variable (ht : s.trains x = true) (hst : s.stepState x = 1) (hf : 0 < (s.exch x).fillCount)
include ht hst hf

/-- A close that the engine has counted is taken in a step that is open. -/
theorem bucketClose_passes : ¬(!s.trains x || decide ((s.exch x).fillCount = 0) ||
    !(decide (s.stepState x = 1) || decide (s.stepState x = 2) || decide (s.stepState x = 3))) = true := by
  simp [ht, hst, Nat.ne_of_gt hf]
theorem bucketClose_beyond (hb : s.cf x Reg.CTX_BUCKETS ≤ (s.exch x).closed) :
    ((s.bucketClose x).exch x).fillCount = (s.exch x).fillCount - 1 ∧ ((s.bucketClose x).exch x).closed = (s.exch x).closed ∧
    Halts s (s.bucketClose x) x 0x2109 := by
  unfold State.bucketClose
  rw [if_neg (bucketClose_passes ht hst hf), if_pos hb, haltCtx_exch, State.exch_setExch]
  exact ⟨rfl, rfl, (haltCtx_halts _ _ _).of_setExch⟩

variable (hb : (s.exch x).closed < s.cf x Reg.CTX_BUCKETS)
  (hd : s.droneInRange x (s.slotBase x (s.exch x).closed) (s.bucketBytes x) = false)
include hb hd

theorem bucketClose_poisoned {code g : Nat} (hp : s.poisonMet x (s.closeReads x (s.exch x).closed) [] = some (code, g)) :
    Halts s (s.bucketClose x) x code ∧ ((s.bucketClose x).exch x).closed = (s.exch x).closed := by
  have hp0 (e : Exchange) : (s.setExch x e).poisonMet x (s.closeReads x (s.exch x).closed) [] = some (code, g) := hp
  unfold State.bucketClose
  rw [if_neg (bucketClose_passes ht hst hf), if_neg (Nat.not_le_of_lt hb), if_neg (ne_true_of_eq_false hd), hp0]
  refine ⟨(dataFault_halts _ _ _ _).of_setExch, ?_⟩
  exact (congrArg Exchange.closed (dataFault_exch ..)).trans (by rw [State.exch_setExch])

variable (hp : s.poisonMet x (s.closeReads x (s.exch x).closed) [] = none)
include hp

/-- A close that meets nothing wrong leaves its bucket closed; then the engine works on in an exchange step, and signals all buckets
but the last in any other. -/
theorem bucketClose_closes : ∃ (u : State) (bad : Bool) (risk : Nat),
    (u.intake x).fillCount = (s.exch x).fillCount - 1 ∧ (u.intake x).closed = (s.exch x).closed + 1 ∧
    ((u.exch x).bucket (s.exch x).closed).closed = true ∧ (u.exch x).doneSignals = (s.exch x).doneSignals ∧
    s.bucketClose x =
      if s.exchanges x then (if ((s.exch x).bucket (s.exch x).closed).excluded then u.lateClose x (s.exch x).closed bad risk else u).pump x
      else if (s.exch x).closed + 1 < s.cf x Reg.CTX_BUCKETS then u.signalDone x else u := by
  unfold State.bucketClose
  extract_lets e st b s0 total carry s1 bad risk e1 k ex s2 ex' s3
  have hp0 : s0.poisonMet x (s.closeReads x b) [] = none := hp
  have h1 : e1 = { e with fillCount := e.fillCount - 1 } := by
    refine Eq.trans ?_ (State.exch_setExch s x _)
    simp only [e1, s1]
    generalize carry = c
    cases c with
    | none => rfl
    | some c => exact store_exch ..
  have hk : k = e.bucket b := by simp only [k, h1]; rfl
  have h2 : s2.exch x = _ := State.exch_setExch ..
  have h3 : ∃ st, s3.exch x = { s2.exch x with stats := st } := by
    simp only [s3]
    split
    · exact ⟨_, State.exch_setExch ..⟩
    · exact ⟨_, rfl⟩
  have hbucket : (ex.bucket b).closed = true := by
    simp only [ex, bucket_setBucket, if_pos (hk ▸ bucket_number e b)]
  obtain ⟨hfill, -, -, hdone⟩ : ex.fillCount = e1.fillCount ∧ _ ∧ _ ∧ ex.doneSignals = e1.doneSignals := setBucket_counts ..
  obtain ⟨st, h3⟩ := h3
  rw [h1] at hfill hdone
  rw [if_neg (bucketClose_passes ht hst hf), if_neg (Nat.not_le_of_lt hb), if_neg (ne_true_of_eq_false hd), hp0, hk]
  refine ⟨s3, bad, risk, ?_, ?_, ?_, ?_, rfl⟩
  · rw [State.intake, h3, h2]; exact hfill
  · rw [State.intake, h3, h2]; rfl
  · rw [h3, h2]; exact hbucket
  · rw [h3, h2]; exact hdone
theorem bucketClose_takes : ((s.bucketClose x).exch x).fillCount = (s.exch x).fillCount - 1 ∧
    ((s.bucketClose x).exch x).closed = (s.exch x).closed + 1 ∧
    (s.exchanges x = false → (((s.bucketClose x).exch x).bucket (s.exch x).closed).closed = true ∧
      ((s.bucketClose x).exch x).doneSignals =
        (s.exch x).doneSignals + if (s.exch x).closed + 1 < s.cf x Reg.CTX_BUCKETS then 1 else 0) := by
  obtain ⟨u, bad, risk, hfill, hclosed, hbucket, hdone, heq⟩ := bucketClose_closes ht hst hf hb hd hp
  have hin : (s.bucketClose x).intake x = u.intake x := by
    rw [heq]
    split
    · refine (pump_intake ..).trans ?_
      split
      · exact lateClose_intake ..
      · rfl
    · split
      · exact signalDone_intake ..
      · rfl
  refine ⟨(congrArg Intake.fillCount hin).trans hfill, (congrArg Intake.closed hin).trans hclosed, fun hx => ?_⟩
  rw [heq, if_neg (ne_true_of_eq_false hx)]
  split
  · rw [signalDone_exch]
    exact ⟨hbucket, congrArg (· + 1) hdone⟩
  · exact ⟨hbucket, hdone⟩
end

/-! ## Late buckets -/

/-- The engine once it has excluded bucket b as late. -/
def Exchange.exclude (e : Exchange) (b : Nat) : Exchange :=
  { e.setBucket { e.bucket b with excluded := true } with late := e.late + 1 }
theorem bucket_exclude (e : Exchange) (b : Nat) : (e.exclude b).bucket b = { e.bucket b with excluded := true } :=
  (bucket_setBucket e { e.bucket b with excluded := true } b).trans (if_pos (bucket_number e b))

section
variable {s : State} {x b : Nat}

theorem deadlineExpire_waits (h : s.cf x Reg.CTX_DEADLINE_US = 0 ∨ ((s.exch x).bucket b).arrived = 0 ∨
    ((s.exch x).bucket b).closed = true) : s.deadlineExpire x b = s := by
  unfold State.deadlineExpire
  refine if_neg ?_
  rcases h with h | h | h <;> simp [h]
/-- A late bucket is excluded and counted, whatever work that sets off. -/
theorem deadlineExpire_excludes (ht : s.trains x = true) (hst : s.stepState x = 1) (hx : s.exchanges x = true)
    (hd : s.cf x Reg.CTX_DEADLINE_US ≠ 0) (ha : 0 < ((s.exch x).bucket b).arrived) (hc : ((s.exch x).bucket b).closed = false)
    (hn : ((s.exch x).bucket b).excluded = false) :
    (((s.deadlineExpire x b).exch x).bucket b).excluded = true ∧ ((s.deadlineExpire x b).exch x).late = (s.exch x).late + 1 := by
  have heq : s.deadlineExpire x b = ((s.setExch x ((s.exch x).exclude b)).inc (Reg.ctx x) Reg.CTX_LATE_EXCLUDED).pump x :=
    if_pos (by simp [ht, hst, hx, hd, ha, hc, hn])
  have hin : (s.deadlineExpire x b).intake x = ((s.exch x).exclude b).intake := by
    rw [heq, pump_intake]
    exact (wr_intake ..).trans (intake_setExch ..)
  exact ⟨(congrFun (congrArg Intake.excluded hin) b).trans (congrArg Bucket.excluded (bucket_exclude ..)), congrArg Intake.late hin⟩
end

/-! ## Aborts -/

section
variable {s : State} {x : Nat}

theorem cutoff_done (h : s.shardComplete x = true) : s.cutoff x = s := if_neg (by simp [h])
/-- An unfinished shard at the cutoff aborts the attempt, and every other rank is told. -/
theorem cutoff_aborts (ht : s.trains x = true) (hst : s.stepState x = 1) (hx : s.exchanges x = true)
    (hs : s.shardComplete x = false) (hm : (s.exch x).merged = false) (ha : (s.exch x).abort = none) :
    ((s.cutoff x).exch x).abort = some 0x3204 ∧ (s.cutoff x).outbox.length = s.outbox.length + (s.otherRanks x).length := by
  unfold State.cutoff State.abortAttempt
  rw [if_pos (by simp [ht, hst, hx, hs]), if_neg (by simp [hm, ha])]
  refine ⟨?_, sendAborts_outbox_length ..⟩
  rw [exch_of_stepFrame (stepFrame_sendAborts ..), State.exch_setExch]
  rfl
/-- An abort packet counts while nothing ends the attempt before it, and only for the attempt that is open. -/
theorem abortIn_eq (ht : s.trains x = true) (hst : s.stepState x = 1) (hn : (s.exch x).totals = none)
    (ha : (s.exch x).abort = none) (step : Word) (attempt : BitVec 8) (code : BitVec 16) :
    s.abortIn x step attempt code =
      if step.toNat = s.stepNo x ∧ attempt.toNat = s.cf x Reg.CTX_ATTEMPT then s.setExch x { s.exch x with abort := some code }
      else s := by
  unfold State.abortIn
  simp [ht, hst, hn, ha]
end

/-- Settles O41: closes, late buckets and aborts, whose work on buckets leaves what the engine has taken in (log entry 33 for the
poisoned data). -/
theorem exchangeBuckets : Obligations.ExchangeBuckets := by
  intro x s ht hst e total
  refine ⟨fun hf => ?idle, fun hf hb => ⟨_, rfl, bucketClose_beyond ht hst hf hb⟩,
    fun code g hf hb hd hp => ⟨_, rfl, bucketClose_poisoned ht hst hf hb hd hp⟩,
    fun hf hb hd hp => ⟨_, rfl, bucketClose_takes ht hst hf hb hd hp⟩,
    fun b hx hd ha hc hn => ⟨_, rfl, deadlineExpire_excludes ht hst hx hd ha hc hn⟩, fun b h => ?waits,
    fun hx hs hm ha => ⟨_, rfl, cutoff_aborts ht hst hx hs hm ha⟩, fun h => ?done,
    fun step attempt code hn ha => ⟨fun hs hm => ?mine, fun h => ?other⟩⟩
  case idle => exact congrArg Host.Outcome.next (bucketClose_idle hf)
  case waits => exact congrArg Host.Outcome.next (deadlineExpire_waits h)
  case done => exact congrArg Host.Outcome.next (cutoff_done h)
  case mine => exact congrArg Host.Outcome.next ((abortIn_eq ht hst hn ha ..).trans (if_pos ⟨hs, hm⟩))
  case other => exact congrArg Host.Outcome.next ((abortIn_eq ht hst hn ha ..).trans (if_neg (not_and_or.mpr h)))

end Sys2Proof.Machine
end

section
/-! Reduce packets, the summary as it passes and its merge, and the all-gather (11 R306, R311 to R313, R318 to R320; 16 R436). -/
namespace Sys2Proof.Machine

/-! ## Reduce packets -/

/-- A packet is the next of its sequence: of bucket b, at position hop - 1 and of number j among its segment's. -/
def State.inTurn (s : State) (x b hop j : Nat) (p : ReducePacket) : Prop :=
  let g := segAt (s.ranks x) (s.rank x) hop
  p.step.toNat = s.stepNo x % 2 ^ 32 ∧ p.bucket.toNat = b ∧ p.hop.toNat + 1 = hop ∧ p.segment.toNat = g ∧ p.lsExp = s.stepEByte x ∧
    p.firstBlock.toNat = 224 * j ∧ p.blocks.length = min 224 (segLen (s.blocksPerBucket x) (s.ranks x) g - 224 * j)

/-- Bucket b once a packet more of it has come and waits. -/
def Exchange.withPacket (e : Exchange) (b : Nat) (p : ReducePacket) : Bucket :=
  { e.bucket b with arrived := (e.bucket b).arrived + 1, waiting := (e.bucket b).waiting ++ [p] }

section
variable {s : State} {x : Nat} {p : ReducePacket} (ht : s.trains x = true) (hn : 1 < s.ranks x)
include ht hn

/-- Packets are taken in where several ranks train. -/
theorem exchange_passes : ¬(!s.trains x || decide (s.ranks x ≤ 1)) = true := by simp [ht, hn]
theorem reduceIn_past (h : s.turnOf x p.step.toNat 32 p.attempt.toNat = .past) : s.reduceIn x p = s := by
  unfold State.reduceIn
  rw [if_neg (exchange_passes ht hn), h]
theorem reduceIn_later (h : s.turnOf x p.step.toNat 32 p.attempt.toNat = .later) :
    s.reduceIn x p = s.setExch x { s.exch x with early := (s.exch x).early ++ [p] } := by
  unfold State.reduceIn
  rw [if_neg (exchange_passes ht hn), h]

variable (h : s.turnOf x p.step.toNat 32 p.attempt.toNat = .now) (ha : (s.exch x).abort = none) (hx : s.exchanges x = true) {b hop j : Nat}
  (hb : s.expectedBucket x p.bucket.toNat = some b)
  (hi : (s.workItems x)[((s.workItems x).filter (fun hj => decide (hj.1 = 0))).length + ((s.exch x).bucket b).arrived]? = some (hop, j))
include h ha hx hb hi

/-- A packet of the open attempt that is not the next of its sequence halts its context. -/
theorem reduceIn_now : (s.inTurn x b hop j p → s.reduceIn x p = (s.setBucket x ((s.exch x).withPacket b p)).pump x) ∧
    (¬s.inTurn x b hop j p → s.reduceIn x p = s.haltCtx x 0x3205) := by
  unfold State.reduceIn
  rw [if_neg (exchange_passes ht hn), h]
  simp only [ha, hx, hb, hi, Option.isSome_none, Bool.false_eq_true, Bool.not_true, if_false]
  refine ⟨fun hg => if_neg ?_, fun hg => if_pos ?_⟩
  · simp only [not_or, not_not]
    exact hg
  · simp only [State.inTurn, not_and_or] at hg
    exact hg
/-- A packet in turn is counted for its bucket, whatever work it sets off. -/
theorem reduceIn_takes (hg : s.inTurn x b hop j p) :
    (((s.reduceIn x p).exch x).bucket b).arrived = ((s.exch x).bucket b).arrived + 1 ∧
    ((s.reduceIn x p).exch x).closed = (s.exch x).closed := by
  have hin : (s.reduceIn x p).intake x = ((s.exch x).setBucket ((s.exch x).withPacket b p)).intake := by
    rw [(reduceIn_now ht hn h ha hx hb hi).1 hg, pump_intake]
    exact intake_setExch ..
  have hk := (bucket_setBucket (s.exch x) ((s.exch x).withPacket b p) b).trans (if_pos (bucket_number ..))
  obtain ⟨-, hclosed, -⟩ := setBucket_counts (s.exch x) ((s.exch x).withPacket b p)
  exact ⟨(congrFun (congrArg Intake.arrived hin) b).trans (congrArg Bucket.arrived hk), (congrArg Intake.closed hin).trans hclosed⟩
theorem reduceIn_halts (hg : ¬s.inTurn x b hop j p) : Halts s (s.reduceIn x p) x 0x3205 := by
  rw [(reduceIn_now ht hn h ha hx hb hi).2 hg]
  exact haltCtx_halts _ _ _
end

/-! ## The summary -/

theorem stepFrame_sendSummary (s : State) (x : Nat) (r : Summary) : StepFrame s (s.sendSummary x r) := stepFrame_exchSend ..
theorem sendSummary_outbox_length (s : State) (x : Nat) (r : Summary) :
    (s.sendSummary x r).outbox.length = s.outbox.length + 1 := queuePacket_outbox_length ..
theorem takeTotals_exch (s : State) (x : Nat) (r : Summary) : (s.takeTotals x r).exch x = { s.exch x with totals := some r } :=
  (store_exch ..).trans (State.exch_setExch ..)
theorem takeTotals_outbox (s : State) (x : Nat) (r : Summary) : (s.takeTotals x r).outbox = s.outbox := store_outbox ..
/-- A summary that is passed on, or not, leaves the engine. -/
theorem passOn_leaves (s : State) (x : Nat) (r : Summary) (p : Prop) [Decidable p] :
    (if p then s.sendSummary x r else s).exch x = s.exch x ∧
    (if p then s.sendSummary x r else s).outbox.length = s.outbox.length + if p then 1 else 0 := by
  split
  · exact ⟨exch_of_stepFrame (stepFrame_sendSummary ..) x, sendSummary_outbox_length ..⟩
  · exact ⟨rfl, rfl⟩

section
variable {s : State} {x : Nat} {r : Summary}

theorem summaryIn_runs (h : s.stepState x ≠ 5 ∨ (s.exch x).merged = false ∨ r.broadcast = false) (own : Bool) :
    ¬(decide (s.stepState x = 5) && (s.exch x).merged && r.broadcast && own) = true := by
  rcases h with h | h | h <;> simp [h]

variable (ht : s.trains x = true)
include ht

section
variable (hn : 1 < s.ranks x)
include hn

/-- A package that halted after its merge takes nothing more, but passes the totals on. -/
theorem summaryIn_halted (hst : s.stepState x = 5) (hm : (s.exch x).merged = true) (hb : r.broadcast = true)
    (hs : r.step.toNat = s.stepNo x) (ha : r.attempt.toNat = s.cf x Reg.CTX_ATTEMPT) :
    (s.summaryIn x r).exch x = s.exch x ∧
    (s.summaryIn x r).outbox.length = s.outbox.length + if s.rank x + 2 < s.ranks x then 1 else 0 := by
  unfold State.summaryIn
  rw [if_neg (exchange_passes ht hn), if_pos (by simp [hst, hm, hb, hs, ha])]
  exact passOn_leaves ..

variable (hrun : s.stepState x ≠ 5 ∨ (s.exch x).merged = false ∨ r.broadcast = false)
include hrun


theorem summaryIn_past (h : s.turnOf x r.step.toNat 64 r.attempt.toNat = .past) : s.summaryIn x r = s := by
  unfold State.summaryIn
  rw [if_neg (exchange_passes ht hn), if_neg (summaryIn_runs hrun _), h]
theorem summaryIn_later (h : s.turnOf x r.step.toNat 64 r.attempt.toNat = .later) :
    s.summaryIn x r = s.setExch x { s.exch x with earlySummaries := (s.exch x).earlySummaries ++ [r] } := by
  unfold State.summaryIn
  rw [if_neg (exchange_passes ht hn), if_neg (summaryIn_runs hrun _), h]

variable (h : s.turnOf x r.step.toNat 64 r.attempt.toNat = .now) (ha : (s.exch x).abort = none)
include h ha

theorem summaryIn_otherScale (hl : r.lsExp ≠ s.stepEByte x) : Halts s (s.summaryIn x r) x 0x3205 := by
  unfold State.summaryIn
  rw [if_neg (exchange_passes ht hn), if_neg (summaryIn_runs hrun _), h]
  simp only [ha, Option.isSome_none, Bool.false_eq_true, if_false]
  rw [if_pos (.inr (.inl hl))]
  exact haltCtx_halts _ _ _

variable (hs : r.step.toNat = s.stepNo x) (hl : r.lsExp = s.stepEByte x) (hk : r.buckets = (s.ownSummary x).buckets)
include hs hl hk

theorem summaryIn_soFar (hb : r.broadcast = false) : s.summaryIn x r = s.setExch x { s.exch x with soFar := some r } := by
  unfold State.summaryIn
  rw [if_neg (exchange_passes ht hn), if_neg (summaryIn_runs hrun _), h]
  simp only [ha, hb, Option.isSome_none, Bool.false_eq_true, if_false]
  exact if_neg (by simp [hs, hl, hk])
theorem summaryIn_totals (hb : r.broadcast = true) : ((s.summaryIn x r).exch x).totals = some r ∧
    (s.summaryIn x r).outbox.length = s.outbox.length + if s.rank x + 2 < s.ranks x then 1 else 0 := by
  unfold State.summaryIn
  rw [if_neg (exchange_passes ht hn), if_neg (summaryIn_runs hrun _), h]
  simp only [ha, hb, Option.isSome_none, Bool.false_eq_true, if_false, if_true]
  rw [if_neg (by simp [hs, hl, hk])]
  obtain ⟨hexch, hout⟩ := passOn_leaves (s.takeTotals x r) x r (s.rank x + 2 < s.ranks x)
  rw [hexch, hout, takeTotals_exch, takeTotals_outbox]
  exact ⟨rfl, rfl⟩
end

/-- What this rank's values make of the summary: with those of the ranks before it, or alone at the first rank. -/
def State.mergesTo (s : State) (x : Nat) (m : Summary) : Prop :=
  ((s.exch x).soFar = none ∧ s.rank x = 0 ∧ m = s.ownSummary x) ∨
  ∃ a, (s.exch x).soFar = some a ∧ m = joinSummary a (s.ownSummary x)

section
variable {o : OpenStep} (hst : s.stepState x = 1) (hm : (s.exch x).merged = false) (ha : (s.exch x).abort = none)
  (ho : (s.ctx x).step = some o) (he : o.stopEvent = none) (hs : s.shardComplete x = true)
include hst hm ha ho he hs

theorem summaryMerge_waits (hf : (s.exch x).soFar = none) (hr : s.rank x ≠ 0) : s.summaryMerge x = s := by
  unfold State.summaryMerge
  simp only [ht, hst, hm, ha, ho, he, hs, hf, hr, Option.isSome_none, ne_eq, not_true_eq_false, decide_false, Bool.not_true, Bool.or_false,
    Bool.false_eq_true, if_false]
theorem summaryMerge_eq {m : Summary} (hmerge : s.mergesTo x m) : s.summaryMerge x =
    let u := s.setExch x { s.exch x with merged := true, soFar := none }
    if s.rank x + 1 = s.ranks x then
      if 1 < s.ranks x then (u.takeTotals x { m with broadcast := true }).sendSummary x { m with broadcast := true }
      else u.takeTotals x { m with broadcast := true }
    else u.sendSummary x m := by
  unfold State.summaryMerge
  simp only [ht, hst, hm, ha, ho, he, hs, Option.isSome_none, ne_eq, not_true_eq_false, decide_false, Bool.not_true, Bool.or_false,
    Bool.false_eq_true, if_false]
  rcases hmerge with ⟨hf, hr, rfl⟩ | ⟨a, hf, rfl⟩
  · simp only [hf, hr, if_true]
  · simp only [hf]
/-- A merge is the rank's last word on the step: the last rank's is the totals, and all but a rank alone tell the next. -/
theorem summaryMerge_merges {m : Summary} (hmerge : s.mergesTo x m) :
    ((s.summaryMerge x).exch x).merged = true ∧ ((s.summaryMerge x).exch x).soFar = none ∧
    ((s.summaryMerge x).exch x).totals =
      (if s.rank x + 1 = s.ranks x then some { m with broadcast := true } else (s.exch x).totals) ∧
    (s.summaryMerge x).outbox.length = s.outbox.length + if s.rank x + 1 = s.ranks x ∧ s.ranks x ≤ 1 then 0 else 1 := by
  rw [summaryMerge_eq ht hst hm ha ho he hs hmerge]
  extract_lets u
  by_cases hlast : s.rank x + 1 = s.ranks x
  · by_cases hn : 1 < s.ranks x
    · rw [if_pos hlast, if_pos hlast, if_pos hn, if_neg (by omega), exch_of_stepFrame (stepFrame_sendSummary ..),
        sendSummary_outbox_length, takeTotals_exch, takeTotals_outbox, State.exch_setExch]
      exact ⟨rfl, rfl, rfl, rfl⟩
    · rw [if_pos hlast, if_pos hlast, if_neg hn, if_pos ⟨hlast, Nat.le_of_not_lt hn⟩, takeTotals_exch, takeTotals_outbox,
        State.exch_setExch]
      exact ⟨rfl, rfl, rfl, rfl⟩
  · rw [if_neg hlast, if_neg hlast, if_neg fun h => hlast h.1, exch_of_stepFrame (stepFrame_sendSummary ..),
      sendSummary_outbox_length, State.exch_setExch]
    exact ⟨rfl, rfl, rfl, rfl⟩
end
end

end Sys2Proof.Machine
end

section
/-! The all-gather: the package's own piece and entries, and the chunks of other ranks (11 R311, R319; 16 R436). -/
namespace Sys2Proof.Machine

theorem stepFrame_sendChunks (x : Nat) (cs : List Chunk) (s : State) : StepFrame s (s.sendChunks x cs) := by
  induction cs generalizing s with
  | nil => exact .refl s
  | cons c cs ih => exact (stepFrame_exchSend ..).trans (ih _)
theorem stepFrame_writeEntries (x : Nat) (l : List (Nat × Byte)) (s : State) : StepFrame s (s.writeEntries x l) := by
  induction l generalizing s with
  | nil => exact .refl s
  | cons kv l ih => exact (stepFrame_store ..).trans (ih _)
/-- The end of an all-gather is signalled once. -/
theorem gatherEnd_exch (s : State) (x : Nat) : (s.gatherEnd x).exch x =
    if (s.exch x).gathering = true ∧ s.chunksDue x ≤ (s.exch x).gathered then
      { s.exch x with gathering := false, doneSignals := (s.exch x).doneSignals + 1 }
    else s.exch x := by
  unfold State.gatherEnd
  simp only [Bool.and_eq_true, decide_eq_true_eq]
  split
  · rw [signalDone_exch, State.exch_setExch]
  · rfl
/-- A rank alone waits for no chunk. -/
theorem chunksDue_alone {s : State} {x : Nat} (hn : s.ranks x ≤ 1) (hr : s.rank x = 0) : s.chunksDue x = 0 := by
  have hnone : s.otherRanks x = [] := by
    refine List.filter_eq_nil_iff.mpr fun r hmem => ?_
    have hlt : r < s.ranks x := List.mem_range.mp hmem
    simp only [hr, decide_eq_true_eq, not_not]
    omega
  rw [State.chunksDue, hnone]
  rfl

/-! ## Starting -/

section
variable {s : State} {x : Nat}

theorem gatherStart_waits (h : (s.exch x).gatherCount = 0 ∨ s.stepState x ≠ 2) : s.gatherStart x = s := by
  unfold State.gatherStart
  exact if_pos (by rcases h with h | h <;> simp [h])

variable (ht : s.trains x = true) (hg : 0 < (s.exch x).gatherCount) (hst : s.stepState x = 2) (hn : (s.exch x).gathering = false)
  (hd : s.droneInRange x (s.workcopyAt x + s.rank x * s.pieceBytes x) (s.pieceBytes x) = false)
include ht hg hst hn

/-- A signal releases the piece of an update phase that gathers nothing yet. -/
theorem gatherStart_passes : ¬(!s.trains x || decide ((s.exch x).gatherCount = 0) || decide (s.stepState x ≠ 2) ||
    (s.exch x).gathering) = true := by
  simp [ht, hst, hn, Nat.ne_of_gt hg]

include hd
theorem gatherStart_poisoned {code g : Nat}
    (hp : s.poisonMet x [(s.workcopyAt x + s.rank x * s.pieceBytes x, s.pieceBytes x)] [] = some (code, g)) :
    Halts s (s.gatherStart x) x code := by
  unfold State.gatherStart
  rw [if_neg (gatherStart_passes ht hg hst hn), if_neg (ne_true_of_eq_false hd), hp]
  exact dataFault_halts _ _ _ _

variable (hp : s.poisonMet x [(s.workcopyAt x + s.rank x * s.pieceBytes x, s.pieceBytes x)] [] = none)
include hp

/-- The piece and its entries leave before the engine looks whether it waits for any more. -/
theorem gatherStart_eq : ∃ u, StepFrame (s.setExch x { s.exch x with gatherCount := (s.exch x).gatherCount - 1, gathering := true }) u ∧
    s.gatherStart x = u.gatherEnd x := by
  unfold State.gatherStart
  rw [if_neg (gatherStart_passes ht hg hst hn), if_neg (ne_true_of_eq_false hd), hp]
  extract_lets e table own entry piece s1 s2 s3
  have h2 : StepFrame s1 s2 := stepFrame_writeEntries ..
  exact ⟨s3, .ite h2 (h2.trans (stepFrame_sendChunks ..)), rfl⟩
theorem gatherStart_starts : ((s.gatherStart x).exch x).gatherCount = (s.exch x).gatherCount - 1 ∧
    (s.ranks x ≤ 1 → s.rank x = 0 → ((s.gatherStart x).exch x).gathering = false ∧
      ((s.gatherStart x).exch x).doneSignals = (s.exch x).doneSignals + 1) := by
  obtain ⟨u, hu, heq⟩ := gatherStart_eq ht hg hst hn hd hp
  have he := exch_of_stepFrame hu x
  rw [State.exch_setExch] at he
  rw [heq, gatherEnd_exch, he]
  refine ⟨by split <;> rfl, fun hone hzero => ?_⟩
  have hdue : u.chunksDue x = 0 := chunksDue_alone ((hu.cf x _).trans_le hone) ((hu.cf x _).trans hzero)
  rw [if_pos ⟨rfl, hdue ▸ Nat.zero_le _⟩]
  exact ⟨rfl, rfl⟩
end

/-! ## Chunks of other ranks -/

/-- A chunk is of the open step, for this rank at its place on the ring, and of the step's scale. -/
def State.takesChunk (s : State) (x : Nat) (c : Chunk) : Prop :=
  c.step.toNat = s.stepNo x % 2 ^ 32 ∧ c.hop.toNat + 1 < s.ranks x ∧
    (c.owner.toNat + c.hop.toNat + 1) % s.ranks x = s.rank x ∧ c.lsExp = s.stepEByte x

/-- What the engine asks of a chunk beside its attempt. -/
theorem takesChunk_iff {s : State} (x : Nat) (c : Chunk) : s.takesChunk x c ↔
    ¬(!decide (c.step.toNat = s.stepNo x % 2 ^ 32) || decide (s.ranks x ≤ c.hop.toNat + 1) ||
      decide ((c.owner.toNat + c.hop.toNat + 1) % s.ranks x ≠ s.rank x) || decide (c.lsExp ≠ s.stepEByte x)) = true := by
  simp only [State.takesChunk, Bool.or_eq_true, Bool.not_eq_true', decide_eq_true_eq, decide_eq_false_iff_not, not_or, not_not, Nat.not_le,
    ne_eq, and_assoc]

section
variable {s : State} {x : Nat} {c : Chunk} (ht : s.trains x = true) (hn : 1 < s.ranks x)
  (hst : s.stepState x = 1 ∨ s.stepState x = 2)
include ht hn hst

theorem chunkIn_passes :
    ¬(!s.trains x || decide (s.ranks x ≤ 1) || !(decide (s.stepState x = 1) || decide (s.stepState x = 2))) = true := by
  rcases hst with h | h <;> simp [ht, hn, h]
theorem chunkIn_otherAttempt (hs : c.step.toNat = s.stepNo x % 2 ^ 32) (ha : c.attempt.toNat ≠ s.cf x Reg.CTX_ATTEMPT)
    (hd : s.stepState x = 2 ∨ attemptAhead c.attempt.toNat (s.cf x Reg.CTX_ATTEMPT) = false) : s.chunkIn x c = s := by
  unfold State.chunkIn
  rw [if_neg (chunkIn_passes ht hn hst), if_pos (by simp [hs, ha])]
  exact if_neg (by rcases hd with h | h <;> simp [h])

variable (hm : ¬c.step.toNat = s.stepNo x % 2 ^ 32 ∨ c.attempt.toNat = s.cf x Reg.CTX_ATTEMPT)
include hm

omit ht hn hst in
theorem chunkIn_sameAttempt :
    ¬(decide (c.step.toNat = s.stepNo x % 2 ^ 32) && decide (c.attempt.toNat ≠ s.cf x Reg.CTX_ATTEMPT)) = true := by
  simp only [Bool.and_eq_true, decide_eq_true_eq, not_and, not_not]
  exact fun h => hm.resolve_left (not_not.mpr h)
theorem chunkIn_wrong (hw : ¬s.takesChunk x c) : Halts s (s.chunkIn x c) x 0x3205 := by
  unfold State.chunkIn
  rw [if_neg (chunkIn_passes ht hn hst), if_neg (chunkIn_sameAttempt hm), if_pos (not_not.mp fun h => hw ((takesChunk_iff x c).mpr h))]
  exact haltCtx_halts _ _ _

variable (hr : s.takesChunk x c)
include hr

theorem chunkIn_early (h1 : s.stepState x = 1) :
    s.chunkIn x c = s.setExch x { s.exch x with earlyChunks := (s.exch x).earlyChunks ++ [c] } := by
  unfold State.chunkIn
  rw [if_neg (chunkIn_passes ht hn hst), if_neg (chunkIn_sameAttempt hm), if_neg ((takesChunk_iff x c).mp hr), if_pos h1]

variable (h2 : s.stepState x = 2)
include h2

theorem chunkIn_corrupt (hc : granuleChecks c.data ≠ c.checks) : Halts s (s.chunkIn x c) x 0x3002 := by
  unfold State.chunkIn
  rw [if_neg (chunkIn_passes ht hn hst), if_neg (chunkIn_sameAttempt hm), if_neg ((takesChunk_iff x c).mp hr), if_neg (by simp [h2]),
    if_pos hc]
  exact haltCtx_halts _ _ _
theorem chunkIn_takes (hc : granuleChecks c.data = c.checks) : ((s.chunkIn x c).exch x).gathered = (s.exch x).gathered + 1 ∧
    ((s.chunkIn x c).exch x).heldScales = (s.exch x).heldScales := by
  unfold State.chunkIn
  rw [if_neg (chunkIn_passes ht hn hst), if_neg (chunkIn_sameAttempt hm), if_neg ((takesChunk_iff x c).mp hr), if_neg (by simp [h2]),
    if_neg (not_not.mpr hc)]
  extract_lets off ks s1 s2 e
  have h1 : StepFrame s s1 := .ite (stepFrame_writeEntries ..) (stepFrame_store ..)
  have h2 : StepFrame s s2 := .ite (h1.trans (stepFrame_exchSend ..)) h1
  have he : e = s.exch x := exch_of_stepFrame h2 x
  rw [gatherEnd_exch, State.exch_setExch, he, exch_of_stepFrame h2]
  split <;> exact ⟨rfl, rfl⟩
end

end Sys2Proof.Machine
end

section
/-! The rows of the exchange's packets (11 R306, R311 to R313, R318 to R320; 16 R436). -/
namespace Sys2Proof.Machine

/-- Settles O42: each packet by its turn, then by what it holds (log entry 120 for a chunk of another step or attempt). -/
theorem exchangePackets : Obligations.ExchangePackets := by
  intro x s ht e n turn
  refine ⟨fun p hn => ?reduce, fun r hn hst hm hb hs ha => ⟨_, rfl, summaryIn_halted ht hn hst hm hb hs ha⟩,
    fun r hn hrun => ?summary, fun o hst hm ha ho he hs => ?merge, fun hg hst hgath => ?gather, fun h => ?waits, fun c hn hst => ?chunk⟩
  case reduce =>
    refine ⟨fun h => ?past, fun h => ?later, fun h ha hx b hop j hb hi => ⟨fun hg => ⟨_, rfl, ?turn⟩, fun hg => ⟨_, rfl, ?wrong⟩⟩⟩
    case past => exact congrArg Host.Outcome.next (reduceIn_past ht hn h)
    case later => exact congrArg Host.Outcome.next (reduceIn_later ht hn h)
    case turn => exact reduceIn_takes ht hn h ha hx hb hi hg
    case wrong => exact reduceIn_halts ht hn h ha hx hb hi hg
  case summary =>
    refine ⟨fun h => ?past, fun h => ?later, fun h ha => ⟨fun hl => ⟨_, rfl, summaryIn_otherScale ht hn hrun h ha hl⟩, fun hs hl hk =>
      ⟨fun hb => ?soFar, fun hb => ⟨_, rfl, summaryIn_totals ht hn hrun h ha hs hl hk hb⟩⟩⟩⟩
    case past => exact congrArg Host.Outcome.next (summaryIn_past ht hn hrun h)
    case later => exact congrArg Host.Outcome.next (summaryIn_later ht hn hrun h)
    case soFar => exact congrArg Host.Outcome.next (summaryIn_soFar ht hn hrun h ha hs hl hk hb)
  case merge =>
    exact ⟨fun hf hr => congrArg Host.Outcome.next (summaryMerge_waits ht hst hm ha ho he hs hf hr),
      fun m hmerge => ⟨_, rfl, summaryMerge_merges ht hst hm ha ho he hs hmerge⟩⟩
  case gather =>
    intro piece hd
    exact ⟨fun code g hp => ⟨_, rfl, gatherStart_poisoned ht hg hst hgath hd hp⟩,
      fun hp => ⟨_, rfl, gatherStart_starts ht hg hst hgath hd hp⟩⟩
  case waits => exact congrArg Host.Outcome.next (gatherStart_waits h)
  case chunk =>
    intro here mine right
    exact ⟨fun hs ha hd => congrArg Host.Outcome.next (chunkIn_otherAttempt ht hn hst hs ha hd),
      fun hm hw => ⟨_, rfl, chunkIn_wrong ht hn hst hm hw⟩,
      fun hm hr h1 => congrArg Host.Outcome.next (chunkIn_early ht hn hst (.inr hm) hr h1),
      fun hm hr h2 hc => ⟨_, rfl, chunkIn_corrupt ht hn hst (.inr hm) hr h2 hc⟩,
      fun hm hr h2 hc => ⟨_, rfl, chunkIn_takes ht hn hst (.inr hm) hr h2 hc⟩⟩

end Sys2Proof.Machine
end
